-- ==== Sys2Proof/Word.lean ====
section
/-! DEFINITION. Words, bytes and sparse maps: the plain data every other file speaks of. -/

namespace Sys2Proof

/-- A byte. -/
abbrev Byte := BitVec 8

/-- A 32-bit word: the width of every register (R2). -/
abbrev Word := BitVec 32

/-- A sparse map from numbers: a list of (key, value) pairs in one canonical form, keys strictly
rising and no value equal to the default of its key. The operations stand in Machine/Ops.lean. -/
abbrev KMap (α : Type) := List (Nat × α)

end Sys2Proof
end

