-- ==== Sys2Proof/Syntax.lean ====
section
/-! DEFINITION. The commands the module takes: one constructor per row of spec/opcode_table.json, with
the row's operands. A host command names its requesting domain (D0–D15, R418) and the value it writes;
an event names the unit it happens in and what the world outside shows the module at it (host memory
read, a comparator state, a received frame). -/

namespace Sys2Proof

/-- A read of host memory as the module sees it (R68, R404): how many attempts fail (0: none; 1: the
retry succeeds; 2 or more: it fails for good), the bytes a good read returns, and whether they come poisoned (R403). -/
structure HostRead where
  fails : Nat := 0
  data : List Byte := []
  poison : Bool := false
  deriving DecidableEq, Repr

/-- An access to byte-addressed memory: a read of `n` bytes, or a write of bytes with byte enables
(none: the byte is not enabled). -/
inductive MemAcc where
  | read (n : Nat)
  | write (bytes : List (Option Byte))
  deriving DecidableEq, Repr

/-- A word that a host writes, and whether the write arrives poisoned (R417). -/
structure HostWord where
  val : Word
  poison : Bool := false
  deriving DecidableEq, Repr

/-- An access by BAR2: what is read or written, and whether a write arrives poisoned (R417). -/
structure Bar2Acc where
  acc : MemAcc
  poison : Bool := false
  deriving DecidableEq, Repr

/-- A vector of a function, and whether the host masks it (R429). -/
structure MsixVec where
  vec : Fin 64
  masked : Bool := false
  deriving DecidableEq, Repr

/-- The other end of a PCI Express link that trains: its width, and how many virtual functions it enables (R415, R418). -/
structure LinkHost where
  width : Fin 16
  vfs : Fin 16 := 0
  deriving DecidableEq, Repr

/-- A logical rank of a DRAM subchannel (R376). -/
structure DramRank where
  channel : Fin 8
  sub : Fin 2
  rank : Fin 16
  deriving DecidableEq, Repr

/-- A 64b/66b block as a lane receives it: sync header and scrambled payload (R438, R440). -/
structure LaneBlock where
  header : BitVec 2
  payload : BitVec 64
  deriving DecidableEq, Repr

/-- The bytes of a received frame on a port (R443). -/
structure PortFrame where
  port : Fin 4
  frame : List Byte
  deriving DecidableEq, Repr

/-- Received bytes of which the first eight, least significant first, are `head`. -/
def rxBytes (head : BitVec 64) (rest : List Byte) : List Byte :=
  ((List.range 8).map fun i => (head >>> (8 * i)).setWidth 8) ++ rest

/-- The bytes of a received frame: its first eight, ARG, and the rest: payload, padding and CRC (R443). -/
def rxFrame (head arg : BitVec 64) (rest : List Byte) : List Byte := rxBytes head (rxBytes arg rest)

/-- How a checker's fault ends (R488): corrected in place, transient (the retry succeeds), or lasting. -/
inductive CheckEnd where
  | corrected
  | transient
  | lasting
  deriving DecidableEq, Repr

/-- An ALIGN block as a lane receives it (R440, R442): the lane number and the row count it carries, and when it arrives,
in blocks of the lanes. -/
structure AlignBlock where
  lane : Byte
  rows : Word
  arrival : Nat
  deriving DecidableEq, Repr

/-- A 10-bit symbol at the bit position that a time-lane receiver looks at (R457): the comma of K28.5, with that bit
position, another code group, or a code violation: an invalid code group or a running-disparity error. -/
inductive TlSymbol where
  | comma (pos : Fin 10)
  | other
  | violation
  deriving DecidableEq, Repr

/-- What reaches the fault collector (R482): the oldest fault a checker of the model has detected; a
fault of checker `chk` of block `src` whose cause lies outside the model (a parity or SRAM check, R487, R488), with a
reason code, an address, its requester (R489) and how it ends; or an AER error of the endpoint (R417). -/
inductive FaultIn where
  | detected
  | checker (src chk code addr rkind access rid : Nat) (end_ : CheckEnd)
  | aer (uncorrectable : Bool)
  deriving DecidableEq, Repr

/-- What a phase of a calibration slot measures (R330, R332): the events that the two generators placed, the
pairs timed with the sum of their differences and the largest one in fs, and the values formed. For a
channel the bytes are DSK_DRV, DSK_CMP (2 each), the vernier trims (8), the tap positions (256) and the
digitiser's gains and offsets (48); for a spare the vernier trims, the tap positions and the route
residuals (128). -/
structure CalObs where
  nA : Nat := 0
  nB : Nat := 0
  pairs : Nat := 0
  sumFs : Int := 0
  maxFs : Int := 0
  bytes : List Byte := []
  deriving DecidableEq, Repr

/-- What the SPD of a DIMM says (R373, R374): a DDR5 RDIMM, with ECC, of x4 devices; the die density (1 16 Gb, 2 24 Gb, 3
32 Gb), log2 of the stack height, package ranks, the highest speed grade (0 4800, 1 5600, 2 6400), tRFCsb and tRFC1 in ns,
tRC in ns at each grade, and the serial number. -/
structure Dimm where
  rdimm : Bool := true
  ecc : Bool := true
  x4 : Bool := true
  dens : Nat := 1
  hlog : Nat := 0
  ranks : Nat := 1
  grade : Nat := 2
  tRFCsb : Nat := 190
  tRFC1 : Nat := 410
  tRC : List Nat := [48, 48, 48]
  serial : Nat := 0
  deriving DecidableEq, Repr

/-- What a start finds at a step (R508): whether the retained firmware digest, the calibration working set and
the stored trained values are still good under their own check (R517, R348, R389); the die temperature of each DRAM
channel in 0.125 °C and the physical-layer supply in mV; the SPDs of the DIMMs of each channel (R373, R374); the channel
on which the training step in progress fails (R387); and the ms since the start's cause. -/
structure StartObs where
  digestKept : Bool := false
  calKept : Bool := false
  trainKept : Bool := false
  temps : List Int := []
  supply : Nat := 0
  dimms : List (List Dimm) := List.replicate 8 [{}]
  trainFail : Option (Fin 8) := none
  startMs : Nat := 0
  deriving DecidableEq, Repr

/-- What a comparator shows the compare unit at one compare event: the 2-bit states of R193 seen, each
with its length in ps inside a window, in order (one state for an edge strobe). -/
abbrev Obs := List (Fin 4 × Nat)

/-- The commands of the LRM-128: one constructor per row of the table, in its order. -/
inductive Instr where
  /-- R5. A write to a register that has no row of its own takes effect according to its access code (RW, W1C, ST staging, RO/RV discard). -/
  | registerWrite (dom : Fin 16) (addr : BitVec 26) (v : HostWord)
  /-- R4. A register access that is not a naturally aligned 32-bit access is discarded or returns all ones, and a NOTE fault is logged. -/
  | misalignedAccess (dom : Fin 16) (bar4 write : Bool) (addr : BitVec 26)
  /-- R6. A read of the low word of a wide value latches its upper words for the reading domain. -/
  | wideLowWordRead (dom : Fin 16) (addr : BitVec 26)
  /-- R57. STI_CMD LOAD_WHOLE fetches and checks a whole structure image before it stops any work. -/
  | stiLoadWhole (dom : Fin 16) (v : Word) (fails : Fin 3)
  /-- R60. STI_CMD LOAD_TILE fetches and checks a tile image against the structure in force and its scope rules. -/
  | stiLoadTile (dom : Fin 16) (v : Word) (fails : Fin 3)
  /-- R58. STI_CMD CHECK runs the image checks only and changes nothing. -/
  | stiCheck (dom : Fin 16) (v : Word) (fails : Fin 3)
  /-- R70. STI_CMD STORE checks an image and copies it into a NOR image slot, with the trailer written last. -/
  | stiStore (dom : Fin 16) (v : Word) (fails : Fin 3)
  /-- R56. STI_CMD REVOKE blows the fuse that revokes a public-key slot, unless one of the refusal reasons applies. -/
  | revoke (dom : Fin 16) (v : Word)
  /-- R72. An STI_CMD with an undefined OP, or a REVOKE of slot 4-7, is rejected with BAD_CMD. -/
  | stiBadCmd (dom : Fin 16) (v : Word)
  /-- R63. After the checks pass, each sequencer of the stopped set ends at its next vector boundary and publishes a closing epoch. -/
  | stiStopStep
  /-- R65. Draining of the graphs in scope and the Contact Sheet wait end, and configuration begins. -/
  | stiDrainDone
  /-- R65. The STI_DRAIN limit expires; queued and spilled items are discarded as lost and still-held buffers are freed. -/
  | stiDrainExpiry
  /-- R62. The configure phase of a load completes; the new structure is in force, DONE is set and paused work resumes. -/
  | stiConfigureDone
  /-- R72. A write of STI_BOOT stores the boot slot in NOR for the next start. -/
  | stiBootWrite (dom : Fin 16) (v : Word)
  /-- R110. SEQ_CMD START resets run state and primes the sequencer, or is refused with a NOTE fault. -/
  | seqStart (dom n : Fin 16)
  /-- R111. SEQ_CMD START with SYNC primes the sequencer and waits for the next explicit apply command. -/
  | seqStartSync (dom n : Fin 16)
  /-- R112. SEQ_CMD STOP ends the run at the sequencer's next apply point with cause HOST. -/
  | seqStop (dom n : Fin 16)
  /-- R115. A SEQ_CMD with an undefined OP is discarded with a NOTE fault. -/
  | seqCmdInvalid (dom n : Fin 16) (v : Word)
  /-- R110. Priming completes and play begins on a tick boundary, recorded in SEQ_TSTART. -/
  | playBegin (n : Fin 16)
  /-- R111. All sequencers waiting with SYNC are primed and begin their first vectors on one Module Time tick. -/
  | syncStartBegin
  /-- R90. A write to SEQ_HTRIG sets the host trigger pending bit. -/
  | seqHtrig (dom n : Fin 16) (v : Word)
  /-- R103. A host write to SEQ_JREQ raises a jump request for the enabled jump vectors named. -/
  | seqJreq (dom n : Fin 16) (v : Word)
  /-- R107. A write of 1 to a site's SEQ_DROPREQ bit drops that site at the sequencer's next apply point. -/
  | seqDropreq (dom n : Fin 16) (hi : Bool) (v : Word)
  /-- R97. The NOP instruction does nothing but counts towards the decode limits. -/
  | nop (n : Fin 16)
  /-- R97. HALT, when its condition is true, ends the run at its play point with cause HALT. -/
  | halt (n : Fin 16)
  /-- R87. JMP continues decode at its target. -/
  | jmp (n : Fin 16)
  /-- R87. JCC continues at its target when its condition is true. -/
  | jcc (n : Fin 16)
  /-- R87. CALL, when true, pushes the return address and continues at its target, or raises STACK_OVF. -/
  | call (n : Fin 16)
  /-- R87. RTN, when true, pops an address and continues there, or raises STACK_UNF. -/
  | rtn (n : Fin 16)
  /-- R88. LOOP loads a loop counter with its count and records the start address. -/
  | loop (n : Fin 16)
  /-- R88. ENDL decrements its counter and branches back or falls through, or raises LOOP_ZERO. -/
  | endl (n : Fin 16)
  /-- R86. SETT selects a timing set from its play point. -/
  | sett (n : Fin 16)
  /-- R86. SETM selects a mask set from its play point. -/
  | setm (n : Fin 16)
  /-- R86. SETP selects a period entry from its play point. -/
  | setp (n : Fin 16)
  /-- R96. FLAG clears and then sets sequencer flags. -/
  | flag (n : Fin 16)
  /-- R95. SIG sends a sync event locally, to peers and/or on an XT line at its play point. -/
  | sig (n : Fin 16)
  /-- R94. EPOCH closes the sequencer's current epoch at its play point with its tag. -/
  | epoch (n : Fin 16)
  /-- R91. WAITT plays its wait segment repeatedly until its trigger set is satisfied or it times out. -/
  | waitt (n : Fin 16)
  /-- R83. PLAY queues a DRAM-backed segment for B+1 repeats. -/
  | play (n : Fin 16)
  /-- R83. PLAYL queues a local segment for B+1 repeats. -/
  | playl (n : Fin 16)
  /-- R85. SPOOL plays spool ring entries in ring order for a count or up to the end mark. -/
  | spool (n : Fin 16)
  /-- R84. LEADER plays the leader segment named by SEQ_LEADER B+1 times. -/
  | leader (n : Fin 16)
  /-- R92. MATCH plays its match segment repeatedly until a repeat passes on all active sites. -/
  | matchSeg (n : Fin 16)
  /-- R79. An instruction with an undefined opcode raises the SITE fault ILLEGAL_OP. -/
  | illegalOp (n : Fin 16)
  /-- R77. After 4,096 consecutive instructions without a play, the sequencer raises RUNAWAY. -/
  | runaway (n : Fin 16)
  /-- R142. A segment or repeat ends; stop, jump request, underrun, staged writes and continuation are settled at that boundary. -/
  | segmentEnd (n : Fin 16)
  /-- R91. The WAITT repeat count expires without the trigger; TO is set and decode continues. -/
  | waittTimeout (n : Fin 16)
  /-- R93. MATCH ends after repeat k+L or after repeat B with TO, setting fail states of sites that failed. -/
  | matchEnd (n : Fin 16)
  /-- R106. A failing site with drop-out enabled drops at the first granule boundary 384 vectors after its failing vector. -/
  | siteDropout (n : Fin 16)
  /-- R136. At the check point 1,024 vectors before a spool boundary, an entry not yet seen ready raises an underrun warning. -/
  | spoolCheckPoint (n : Fin 16)
  /-- R134. The module reads the descriptor of the next spool entry not yet seen ready. -/
  | spoolReadyPoll (n : Fin 16)
  /-- R113. After play ends, the compares of every played vector complete, the closing epoch is published and the sequencer becomes STOPPED. -/
  | runEndComplete (n : Fin 16)
  /-- R152. The formatter looks up a vector's code and places its events, dropping crowded or late events. -/
  | vectorFormat (n : Fin 16) (fills : List Nat)
  /-- R186. An edge FIFO entry is absent at its arming instant; the sequencer's channels go idle and it stops with PACE. -/
  | paceFault (n : Fin 16) (ch : Fin 128)
  /-- R201. A vector's result on a channel completes and updates counters, first-fail registers, site fail state and the fail log. -/
  | vectorResult (ch : Fin 128) (obs : List Obs)
  /-- R159. A write to words 0-8 of a waveform-table entry opens or fills the requester's entry buffer, abandoning any other open entry. -/
  | wftWordWrite (dom : Fin 16) (ch : Fin 128) (tset : Fin 32) (code : Fin 16) (w : Fin 9) (v : Word)
  /-- R159. A write to word 9 commits a waveform-table entry after checking it, or refuses it with an error code. -/
  | wftCommit (dom : Fin 16) (ch : Fin 128) (tset : Fin 32) (code : Fin 16) (v : Word)
  /-- R160. A committed entry takes effect for vectors at least 1 µs and 64 vectors after the commit. -/
  | wftEntryTakesEffect (ch : Fin 128) (tset : Fin 32) (code : Fin 16)
  /-- R219. A write to GLB_APPLY issues an explicit apply command to the named sequencers the domain owns. -/
  | glbApply (dom : Fin 16) (v : Word)
  /-- R217. An explicit apply command reaches a sequencer and acts at its next vector boundary, or at once when STOPPED. -/
  | explicitApply (n : Fin 16)
  /-- R174. A write to TMG_PERn_HI checks the staged period pair and stages it or refuses it. -/
  | tmgPerHiWrite (dom n e : Fin 16) (v : Word)
  /-- R191. TMG_CMD PACE_CLR loads TMG_PACE_LOW with TMG_PACE_MIN. -/
  | paceClr (dom : Fin 16)
  /-- R191. A TMG_CMD write with no defined operation is discarded. -/
  | tmgCmdInvalid (dom : Fin 16) (v : Word)
  /-- R182. A write to CHN_DSK_PATH is accepted when the owning sequencer is STOPPED, otherwise denied with a NOTE fault. -/
  | chnDskPathWrite (dom : Fin 16) (ch : Fin 128) (v : Word)
  /-- R170. The timing PLL loses lock; a MOD fault is raised, sequencers stop and Module Time counts REFCLK edges. -/
  | pllLockLoss
  /-- R461. The timing PLL locks again and Module Time continues from its value. -/
  | pllRelock
  /-- R179. A delay line drifts by more than one tap; a fault is raised and one relock is tried. -/
  | dllUnlock (g : Fin 132)
  /-- R179. The relock attempt ends; on failure the generator is marked failed. -/
  | dllRelockResult (g : Fin 132) (ok : Bool)
  /-- R188. A pace monitor updates its margin. -/
  | paceMonitorUpdate (m : Fin 67) (margin : BitVec 16)
  /-- R189. After the lowest margin stays at or above 1.40 for 1 ms, VCORE is lowered by 5 mV. -/
  | avsLower
  /-- R225. A complete epoch is written into a FREE Contact Sheet buffer, which becomes NEWEST. -/
  | epochPublish (n : Fin 16)
  /-- R228. When the next epoch number nears the reserve, the supervisor extends the reserve in NOR. -/
  | epochReserveExtend
  /-- R232. A read of CSH_ACQ makes the NEWEST buffer HELD or returns the held buffer again. -/
  | cshAcquire (dom n : Fin 16)
  /-- R233. A write to CSH_REL releases the HELD buffer. -/
  | cshRelease (dom n : Fin 16) (v : Word)
  /-- R233. D0's write to CSH_FREL releases a HELD buffer. -/
  | cshForcedRelease (dom n : Fin 16) (v : Word)
  /-- R253. TMU_CMD ARM prepares a shutter after its configuration checks, or is refused. -/
  | tmuArm (dom : Fin 16) (ch : Fin 128)
  /-- R254. TMU_CMD STOP closes any shutter with cause STOP. -/
  | tmuStop (dom : Fin 16) (ch : Fin 128)
  /-- R276. A TMU_CMD with an undefined OP is discarded with a NOTE fault. -/
  | tmuCmdInvalid (dom : Fin 16) (ch : Fin 128) (v : Word)
  /-- R274. A TMU configuration write while a shutter is ARMED or OPEN is discarded and sets CFG_ERR. -/
  | tmuConfigWrite (dom : Fin 16) (ch : Fin 128) (r : Fin 20) (v : Word)
  /-- R270. A host write to TMU_RD advances the ring read index, or is discarded if out of bounds. -/
  | tmuRdWrite (dom : Fin 16) (ch : Fin 128) (v : Word)
  /-- R258. A read of TMU_RSEQ latches the result bank for the reading domain. -/
  | tmuRseqRead (dom : Fin 16) (ch : Fin 128)
  /-- R253. The shutter's open time is reached and the shutter opens. -/
  | tmuShutterOpen (ch : Fin 128)
  /-- R254. The shutter's close time or count is reached and it closes, opening the next in continuous mode. -/
  | tmuShutterClose (ch : Fin 128)
  /-- R264. A FREQ shutter reaches 100 s and closes with cause LIMIT. -/
  | tmuFreqLimit (ch : Fin 128)
  /-- R258. After a close the shutter results are latched into the bank and TMU_RSEQ increments. -/
  | tmuBankLatch (ch : Fin 128)
  /-- R242. A comparator hit is stamped on a free capture path and accumulated, or counted as a miss. -/
  | tdcHit (ch : Fin 128) (src : Fin 7) (edge : Nat) (code : Fin 144)
  /-- R248. A path collects 2^20 calibration hits and a new bin table is adopted or discarded. -/
  | tdcBinTableBuild (ch : Fin 128) (path : Fin 2) (counts : List Nat)
  /-- R249. TMU_CAL_AGE exceeds MAXAGE during an open shutter and STALE is set. -/
  | tdcCalStale (ch : Fin 128)
  /-- R272. Waiting stamp records are moved into the ring or flow, or lost if the ring is full. -/
  | stampRecordMove (ch : Fin 128)
  /-- R289. ACQ_CMD ARM accepts a record set after checks, or refuses it with an error. -/
  | acqArm (dom : Fin 16) (ch : Fin 128)
  /-- R303. ACQ_CMD STOP ends the record set with cause STOP. -/
  | acqStop (dom : Fin 16) (ch : Fin 128)
  /-- R291. ACQ_CMD SOFT fires a SOFT trigger at the tick it reaches the unit. -/
  | acqSoft (dom : Fin 16) (ch : Fin 128)
  /-- R290. ACQ_CMD MONITOR converts into ACQ_LAST without frames until STOP. -/
  | acqMonitor (dom : Fin 16) (ch : Fin 128)
  /-- R306. An ACQ_CMD with an undefined OP is discarded with a NOTE fault. -/
  | acqCmdInvalid (dom : Fin 16) (ch : Fin 128) (v : Word)
  /-- R304. An ACQ configuration write while not IDLE is discarded and sets CFG_ERR. -/
  | acqConfigWrite (dom : Fin 16) (ch : Fin 128) (r : Fin 24) (v : Word)
  /-- R289. The start tick S is reached and conversion begins. -/
  | acqStartTick (ch : Fin 128)
  /-- R279. A conversion launches on its tick. -/
  | acqConversion (ch : Fin 128) (code : BitVec 18) (clip : Bool)
  /-- R280. A stored sample is formed from A conversions and tested against levels and masks. -/
  | acqSampleStored (ch : Fin 128) (lost : Bool)
  /-- R289. PRE samples have been stored and the unit enters WAITING. -/
  | acqPrefillEnd (ch : Fin 128)
  /-- R298. The analog trigger comparator fires and its edge is stamped by the TDC. -/
  | acqAnalogHit (ch : Fin 128) (trig : Fin 2) (edge : Nat) (code : Fin 144)
  /-- R294. The firings of a trigger sample are resolved and a frame is started or the firings are ignored. -/
  | acqTriggerDecision (ch : Fin 128)
  /-- R286. A frame's header and samples have arrived; ACQ_FDONE increments. -/
  | acqFrameComplete (ch : Fin 128)
  /-- R296. The re-arm instant is reached and the unit returns to WAITING. -/
  | acqRearm (ch : Fin 128)
  /-- R303. The unit stays WAITING for ACQ_TMO µs and the record set ends with TIMEOUT. -/
  | acqTimeout (ch : Fin 128)
  /-- R308. A PEL level write out of range is discarded with error RANGE; otherwise it is staged. -/
  | pelValueWrite (dom : Fin 16) (ch : Fin 128) (r : Fin 15) (v : Word)
  /-- R313. PEL_CMD CLEAR_TRIP clears a channel trip, or is refused with TRIP_RUN. -/
  | clearTrip (dom : Fin 16) (ch : Fin 128)
  /-- R320. PEL_CMD REFL starts a reflection measurement, or is refused. -/
  | refl (dom : Fin 16) (ch : Fin 128)
  /-- R324. A PEL_CMD with an undefined OP is discarded with a NOTE fault. -/
  | pelCmdInvalid (dom : Fin 16) (ch : Fin 128) (v : Word)
  /-- R322. The reflection measurement ends with a STATUS and one-way delay. -/
  | pelReflDone (ch : Fin 128) (obs : List (Option (Nat × Option Nat)))
  /-- R313. Driver overcurrent for 200 ns trips the channel to high impedance. -/
  | pelTrip (ch : Fin 128)
  /-- R316. The PMU enters a clamp and PEL_CLAMP_CNT increments. -/
  | pmuClampEntry (ch : Fin 128)
  /-- R319. A pin-electronics die crosses 110 °C (NOTE) or 120 °C (tile trip and MOD fault). -/
  | pelTempCrossing (tile : Fin 4) (t : BitVec 16)
  /-- R327. A calibration slot begins for the next target in rotation, by substitution, directly or skipped. -/
  | calSlotStart
  /-- R330. A calibration slot phase ends and the next phase begins. -/
  | calPhaseEnd (obs : CalObs)
  /-- R331. At vector b the spare takes over the channel's events, or hands them back. -/
  | calSwitchPoint
  /-- R334. A slot ends with a result, releasing the spare and advancing the rotation. -/
  | calSlotEnd
  /-- R340. A die temperature change of 0.5 °C corrects temperature-compensated values. -/
  | calTempCorrection (tile : Fin 4)
  /-- R341. A channel's CAL_CH_AGE passes 10,000 ms and CAL_ISTAT.AGE is set. -/
  | calAgeLimit (ch : Fin 128)
  /-- R345. CAL_CMD STORE snapshots the working set and writes it into a NOR bank. -/
  | calStore (dom : Fin 16)
  /-- R349. CAL_CMD SAVE_REJ writes the latest rejected candidate to the reject slot. -/
  | saveRej (dom : Fin 16)
  /-- R337. CAL_CMD CLR_SUSPECT clears a tile's spare-suspect mark. -/
  | clrSuspect (dom : Fin 16)
  /-- R350. A CAL_CMD with OP 0 is discarded with a NOTE fault. -/
  | calCmdInvalid (dom : Fin 16) (v : Word)
  /-- R345. A calibration store completes with CHECK written last. -/
  | calStoreDone
  /-- R364. An item reaches its input flow and takes a pool slot, spills, or is lost under the loss policy. -/
  | aneItemAdmit (n : Fin 16)
  /-- R364. Items return from a spill ring to the pool as credits free. -/
  | aneSpillReturn (f : Fin 16384)
  /-- R356. An engine runs one item through one node, committing state and outputs together. -/
  | aneOperation (e : Fin 32) (fail : Fin 3)
  /-- R361. A node holding an epoch marker on every input passes it on and the EMIT copies are made. -/
  | aneMarkerPass (g : Fin 256) (node : Fin 1024)
  /-- R359. 10 µs after a COMPRESS run's last item, the run is emitted. -/
  | aneCompressTimeout (g : Fin 256) (node : Fin 1024)
  /-- R360. ANE_CMD CLR_GRAPH clears a graph's node state, or is refused. -/
  | clrGraph (dom : Fin 16) (g : Fin 256)
  /-- R358. ANE_CMD CLRMAP starts clearing a graph's BITMAP planes, or is refused. -/
  | clrmap (dom : Fin 16) (g : Fin 256)
  /-- R372. ANE_CMD PEAK_CLR clears the peak registers. -/
  | anePeakClr (dom : Fin 16)
  /-- R372. An ANE_CMD with an undefined OP is discarded with a NOTE fault. -/
  | aneCmdInvalid (dom : Fin 16) (v : Word)
  /-- R372. A CLRMAP completes and CLR_DONE is set. -/
  | aneClrmapDone
  /-- R372. A read of ANE_F_STAT latches the flow window for the domain, or is denied. -/
  | aneFStatRead (dom : Fin 16)
  /-- R379. The controller serves a DRAM read or write in its class with close-page policy. -/
  | dramRequest (cls : Fin 6) (id : Fin 64) (wr : Bool) (line : BitVec 36) (err : Fin 4) (ns : Word)
  /-- R382. A same-bank refresh falls due and is issued at the next access boundary. -/
  | dramRefresh (rank : DramRank) (ns : Word)
  /-- R383. The DIMM temperature sensors are read and tREFI is set. -/
  | dramTempPoll (d : Fin 8) (t : BitVec 16)
  /-- R385. A channel idle for DRC_SR_IDLE with all sequencers stopped enters self-refresh. -/
  | dramSelfRefreshEntry (d : Fin 8)
  /-- R393. Patrol scrub reads and, if needed, corrects a line. -/
  | dramScrub (err : Fin 4)
  /-- R390. Clearing of DRAM completes and CLR_DONE is set. -/
  | dramClearDone
  /-- R386. DRC_CMD PWRDN powers down the masked DRAM channels, or is refused. -/
  | pwrdn (dom : Fin 16) (mask : BitVec 8)
  /-- R386. DRC_CMD PWRUP brings powered-down DRAM channels back. -/
  | pwrup (dom : Fin 16) (mask : BitVec 8)
  /-- R395. DRC_CMD PEAK_CLR clears REF_MAX and PF_LAT. -/
  | drcPeakClr (dom : Fin 16)
  /-- R395. A DRC_CMD with an undefined OP is discarded with a NOTE fault. -/
  | drcCmdInvalid (dom : Fin 16) (v : Word)
  /-- R388. A new DRC_SPEED.REQ starts a speed change and retraining, or is refused. -/
  | drcSpeedWrite (dom : Fin 16) (v : Word)
  /-- R388. A speed change completes and SPEED_DONE is set. -/
  | drcSpeedDone
  /-- R394. Arming DRC_INJ makes the next write store inverted check bits. -/
  | drcInjWrite (dom : Fin 16) (d : Fin 8) (v : Word)
  /-- R410. DMA_CMD START sets DMA_CUR to DMA_HEAD and fetches the first descriptor. -/
  | dmaStart (dom n : Fin 16)
  /-- R410. DMA_CMD STOP completes the current piece and ends the descriptor with ABORTED. -/
  | dmaStop (dom n : Fin 16)
  /-- R410. DMA_CMD DOORBELL makes a channel in WAIT_OWN read its descriptor again. -/
  | doorbell (dom n : Fin 16)
  /-- R409. DMA_CMD FLUSH moves the remaining ring records and ends a paced descriptor with FLUSHED. -/
  | flush (dom n : Fin 16)
  /-- R414. A DMA_CMD with an undefined OP is discarded with a NOTE fault. -/
  | dmaCmdInvalid (dom n : Fin 16) (v : Word)
  /-- R400. A channel reads a descriptor whole and checks it, or waits in WAIT_OWN. -/
  | dmaDescFetch (n : Fin 16) (src : HostRead)
  /-- R398. A channel moves one piece of up to 4,096 B of an unpaced descriptor. -/
  | dmaPiece (n : Fin 16) (src : HostRead)
  /-- R407. A pacing source asserts its request and one burst moves. -/
  | dmaPacedBurst (n : Fin 16)
  /-- R408. A pacing source withdraws during a burst; the burst is zero-filled and ends WITHDRAWN. -/
  | dmaPaceWithdraw (n : Fin 16) (valid : BitVec 32)
  /-- R402. A descriptor completes: read-back, status write, OWN cleared, interrupts set, next fetched. -/
  | dmaDescComplete (n : Fin 16) (rb wb : Fin 4)
  /-- R410. Every POLL µs a channel in WAIT_OWN reads its descriptor again. -/
  | dmaPoll (n : Fin 16)
  /-- R411. After a warm start a resumable channel resumes once Bus Master Enable is set. -/
  | dmaResume (n : Fin 16)
  /-- R423. A BAR2 access maps into DRAM through the function's window and is checked against protection. -/
  | bar2Access (dom : Fin 16) (off : BitVec 36) (acc : Bar2Acc)
  /-- R424. A BAR4 access reaches on-chip SRAM under the BAR4 range rules. -/
  | bar4Access (dom : Fin 16) (off : BitVec 26) (wr : Option HostWord)
  /-- R432. A write to words 1-3 of a protection slot is held in D0's entry buffer. -/
  | hifPtWordWrite (dom : Fin 16) (slot : Fin 304) (w : Fin 3) (v : Word)
  /-- R432. A write to word 0 commits a protection entry, or refuses it with HIF_PT_ERR. -/
  | hifPtCommit (dom : Fin 16) (slot : Fin 304) (v : Word)
  /-- R437. Writing 0xFFFF_FFFF to HIF_DENY_CNT clears it and re-arms the first record. -/
  | hifDenyCntClear (dom : Fin 16) (v : Word)
  /-- R422. D0's write of GLB_MODULE sets the module number and stores it in NOR, or is refused under PFW_N. -/
  | glbModuleWrite (dom : Fin 16) (v : Word)
  /-- R419. A Function Level Reset of a virtual function stops its DMA, releases its buffers and clears its latches. -/
  | flrVf (k : Fin 16)
  /-- R429. A vector's summary rises, or stays set after a W1C write, and a message is sent. -/
  | msixMessage (fn : Fin 16) (vec : MsixVec)
  /-- R417. The PCI Express link goes down while data-plane work runs on. -/
  | pcieLinkDown
  /-- R417. The PCI Express link trains and host accesses are served again. -/
  | pcieLinkUp (speed : Fin 16) (host : LinkHost)
  /-- R534. PERST_N resets only the PCI Express endpoint. -/
  | perst
  /-- R441. A 64b/66b block is received; block lock is gained or lost by header counts. -/
  | laneBlockReceived (p l : Fin 4) (block : LaneBlock)
  /-- R442. A row of ALIGN blocks deskews and orders the port's lanes. -/
  | align (p : Fin 4) (blocks : List AlignBlock)
  /-- R442. Every 16,384 rows the transmitter sends an ALIGN row. -/
  | lnkAlignSend (p : Fin 4)
  /-- R449. A queued VC1 or VC2 frame is sent when enough credit is granted. -/
  | lnkFrameSend (p : Fin 4)
  /-- R451. A received ITEM frame is accepted in sequence and admitted to its flow. -/
  | item (p : Fin 4) (head arg : BitVec 64) (rest : List Byte)
  /-- R452. A received WRITE frame lands in the receive window, or is dropped and counted. -/
  | write (p : Fin 4) (head arg : BitVec 64) (data tail : List Byte)
  /-- R445. A received ACK frees acknowledged frames from the replay buffer. -/
  | ack (p : Fin 4) (head : BitVec 64) (rest : List Byte)
  /-- R446. A received NAK makes the sender replay from the SEQ named. -/
  | nak (p : Fin 4) (frame : List Byte)
  /-- R449. A received CREDIT frame updates the granted row counts. -/
  | credit (p : Fin 4) (head : BitVec 64) (rest : List Byte)
  /-- R454. A received HELLO brings the port UP, or holds it with MISMATCH. -/
  | hello (p : Fin 4) (frame : List Byte)
  /-- R446. A frame failing CRC or out of sequence makes the receiver send a NAK and discard. -/
  | frameBad (rx : PortFrame)
  /-- R445. The receiver's ACK interval elapses and an ACK is sent. -/
  | lnkAckTimer (p : Fin 4)
  /-- R449. The 1 µs CREDIT interval elapses while grants change and CREDIT is sent. -/
  | lnkCreditTimer (p : Fin 4)
  /-- R446. No ACK for 4 µs makes the sender replay from its oldest unacknowledged frame. -/
  | lnkReplayTimeout (p : Fin 4)
  /-- R447. A frame fails again after replay and the port retrains. -/
  | lnkLastingFailure (p : Fin 4)
  /-- R439. A lane's eye figure updates and a low eye raises a NOTE fault. -/
  | lnkEyeUpdate (i : Fin 6) (l : Fin 4) (eye : BitVec 8) (eq : BitVec 30)
  /-- R439. A data lane's eye stays below RETRAIN for 1 ms and its port retrains. -/
  | lnkEyeRetrain (p : Fin 4)
  /-- R454. Training completes and both ends exchange HELLO. -/
  | lnkTrainDone (p : Fin 4)
  /-- R447. A retrain does not reach UP within 10 ms; it is retried or the port goes DOWN. -/
  | lnkTrainTimeout (p : Fin 4)
  /-- R454. LNK_CMD UP trains a port, or is refused if its LANE entry is off. -/
  | up (dom : Fin 16) (p : Fin 4)
  /-- R459. LNK_CMD DOWN takes a port down. -/
  | down (dom : Fin 16) (p : Fin 4)
  /-- R455. LNK_CMD TX_SLEEP begins sleep entry of the transmit direction. -/
  | txSleep (dom : Fin 16) (p : Fin 4)
  /-- R456. LNK_CMD TX_WAKE sends a wake burst and wakes the transmit direction. -/
  | txWake (dom : Fin 16) (p : Fin 4)
  /-- R453. LNK_CMD XFER sends a DRAM range to the peer as WRITE frames. -/
  | xfer (dom : Fin 16) (p : Fin 4)
  /-- R453. LNK_CMD XABORT stops a transfer after the frame in progress. -/
  | xabort (dom : Fin 16) (p : Fin 4)
  /-- R459. An LNK_CMD with an undefined OP is discarded with a NOTE fault. -/
  | lnkCmdInvalid (dom : Fin 16) (p : Fin 4) (v : Word)
  /-- R455. The transmit queue drains and all frames are acknowledged; the SLEEP row is sent. -/
  | lnkSleepAp2 (p : Fin 4)
  /-- R455. AP2 is not reached within 100 µs and sleep entry is abandoned. -/
  | lnkSleepAp2Timeout (p : Fin 4)
  /-- R455. A received SLEEP block powers down the receiver of that direction. -/
  | sleep (p : Fin 4)
  /-- R456. The receiver detects a wake burst and restores lock. -/
  | lnkWakeBurst (p : Fin 4)
  /-- R457. A time-lane receiver gains or loses comma alignment. -/
  | tlAlignment (l : Fin 2) (symbols : List TlSymbol)
  /-- R458. A time-lane message with a bad CRC or code violation is discarded and counted. -/
  | tlMessageBad (l : Fin 2) (symbols : List TlSymbol)
  /-- R465. Once per µs a TIME message is launched on each enabled time lane. -/
  | mtbTimeSend (l : Fin 2)
  /-- R465. Once per µs an ECHO request is launched on each enabled time lane. -/
  | mtbEchoSend (l : Fin 2)
  /-- R465. A received TIME message is kept for pairing with the next reply. -/
  | time (l : Fin 2) (tick : BitVec 64) (arr : Nat)
  /-- R465. A received ECHO request is answered with a reply. -/
  | echoRequest (l : Fin 2) (seq : BitVec 16) (arr : Nat)
  /-- R465. A received ECHO reply yields theta, drives step or slew and upstream choice. -/
  | echoReply (l : Fin 2) (t2 : BitVec 80) (seq b : BitVec 8) (arr : Nat)
  /-- R471. A received MIRROR message updates pair state and may trigger takeover or demotion. -/
  | mirror (tick : BitVec 64) (flags : BitVec 8) (arr : Nat)
  /-- R471. A pair member sends MIRROR at least every 250 ns. -/
  | mtbMirrorSend
  /-- R472. No valid MIRROR for 1 µs makes the standby take over. -/
  | mtbMirrorTimeout
  /-- R471. 10 µs after the pair lane aligns without ACTIVE MIRROR, the MASTER member becomes active. -/
  | mtbMasterElect
  /-- R469. The upstream lane is lost and the module enters HOLDOVER. -/
  | mtbUpstreamLoss
  /-- R469. Holdover exceeds MTB_HOLD_MAX and the module enters FREE. -/
  | mtbHoldoverLimit
  /-- R472. MTB_CMD TAKEOVER makes the standby the active master. -/
  | takeover (dom : Fin 16)
  /-- R472. MTB_CMD YIELD makes the active master send FAIL, or is refused. -/
  | yield (dom : Fin 16)
  /-- R480. An MTB_CMD with an undefined OP or in the wrong role is discarded with a NOTE fault. -/
  | mtbCmdInvalid (dom : Fin 16) (v : Word)
  /-- R480. A write to MTB_CTL takes effect at once; a role or lane change returns the module to FREE. -/
  | mtbCtlWrite (dom : Fin 16) (v : Word)
  /-- R476. A received SYNC message is scheduled for delivery at Te and forwarded. -/
  | sync (l : Fin 2) (v : Word)
  /-- R476. A received TRIG message is scheduled for delivery at Te and forwarded. -/
  | trig (l : Fin 2) (v : Word)
  /-- R477. At Te a sync event or shared trigger is delivered to sequencers, TMU and ACQ. -/
  | mtbSyncDeliver
  /-- R478. An XT input edge is stamped and sets pending bits or is shared as TRIG. -/
  | xtInputEdge (x : Fin 8) (rising : Bool) (stamp : Nat)
  /-- R479. An XT output pulse ends after WIDTH ticks. -/
  | xtPulseEnd (x : Fin 8)
  /-- R482. A checker's fault reaches the collector within its round. -/
  | faultReport (f : FaultIn)
  /-- R490. A 16-tick collector round ends; faults are ordered, numbered, recorded and the gravest reaction starts. -/
  | faultRound
  /-- R495. FLT_CMD RAISE_MOD raises a MOD-class fault. -/
  | raiseMod (dom : Fin 16)
  /-- R491. FLT_CMD CLR_FIRST clears FIRST and WORST. -/
  | clrFirst (dom : Fin 16)
  /-- R496. FLT_CMD CLR_COUNT clears FLT_CNT0-4. -/
  | clrCount (dom : Fin 16)
  /-- R493. FLT_CMD CLR_PGRAVE clears the stored GRAVE record. -/
  | clrPgrave (dom : Fin 16)
  /-- R496. An FLT_CMD with an undefined OP is discarded with a NOTE fault. -/
  | fltCmdInvalid (dom : Fin 16) (v : Word)
  /-- R492. A write to FLT_INJ arms inverted check bits for the selected checker. -/
  | fltInjWrite (dom : Fin 16) (v : Word)
  /-- R487. Firmware has not written the heartbeat for 1 ms and a MOD fault is raised. -/
  | supWatchdogExpiry
  /-- R487. A rail stays out of range for 10 µs and a GRAVE fault is raised. -/
  | railFault
  /-- R487. The pattern and timing die crosses 110 °C (NOTE) or 120 °C (MOD). -/
  | junctionTempCrossing (c120 rising : Bool)
  /-- R497. A unit's idle timer expires and entry begins at AP1. -/
  | pwrIdleEntry (kind : Fin 8) (idx : Fin 128)
  /-- R500. A unit's work has drained and its outputs are quiet. -/
  | pwrEntryAp2 (kind : Fin 8) (idx : Fin 128)
  /-- R500. A unit's clock is gated and it becomes LOW. -/
  | pwrEntryAp3 (kind : Fin 8) (idx : Fin 128)
  /-- R501. A wake source reaches a unit, abandoning entry or waking it from LOW. -/
  | pwrWake (kind : Fin 8) (idx : Fin 128) (source : Fin 5)
  /-- R502. A unit's wake completes and its idle timer restarts. -/
  | pwrWakeDone (kind : Fin 8) (idx : Fin 128)
  /-- R499. PWR_CMD RAILS_OFF powers down the named tiles' rails, or is refused. -/
  | railsOff (dom : Fin 16) (v : Word)
  /-- R499. PWR_CMD RAILS_ON restores the named tiles' rails and levels. -/
  | railsOn (dom : Fin 16) (v : Word)
  /-- R499. PWR_CMD PLL_OFF turns off the timing PLL, or is refused. -/
  | pllOff (dom : Fin 16)
  /-- R499. PWR_CMD PLL_ON relocks the timing PLL. -/
  | pllOn (dom : Fin 16)
  /-- R512. PWR_CMD RETRY in Safe mode clears the counts and starts cold. -/
  | retry (dom : Fin 16)
  /-- R522. A PWR_CMD with an undefined OP is discarded with a NOTE fault. -/
  | pwrCmdInvalid (dom : Fin 16) (v : Word)
  /-- R499. A rails or PLL command completes and CMD_DONE is set. -/
  | pwrCmdDone
  /-- R504. PFW_N is asserted; NOR writes are refused and sequencers may be stopped. -/
  | pfwAssert
  /-- R505. PFW_N is released before the rails fall and the module continues. -/
  | pfwRelease
  /-- R528. HOLD reaches 12 V and the internal rails fall. -/
  | railsFall
  /-- R529. VIN rises above 5.85 V with RST_N high and a cold start begins. -/
  | powerOn (rstLow : Bool)
  /-- R534. RST_N low for 1 µs or longer begins the reset actions and a warm start. -/
  | rstNAssert (ns : Nat)
  /-- R508. A start step completes and the next begins, or the start completes. -/
  | startStepDone (o : StartObs)
  /-- R511. A start fails; the module starts again cold or enters Safe mode. -/
  | startFail (train : Option (Fin 8 × Fin 8))
  /-- R518. SUP_CMD FW_STORE checks an image and stores it in the inactive firmware slot. -/
  | fwStore (dom : Fin 16) (v : Word) (src : HostRead)
  /-- R519. SUP_CMD FW_ACTIVATE restarts the supervisor core on the other slot. -/
  | fwActivate (dom : Fin 16)
  /-- R520. SUP_CMD CONFIRM makes the new firmware slot the boot slot. -/
  | confirm (dom : Fin 16)
  /-- R507. SUP_CMD RESET starts a warm start. -/
  | supReset (dom : Fin 16)
  /-- R523. A SUP_CMD with an undefined OP is discarded with a NOTE fault. -/
  | supCmdInvalid (dom : Fin 16) (v : Word)
  /-- R519. A firmware store or activation completes. -/
  | fwOperationDone
  /-- R520. No CONFIRM within 10 s makes the core revert to the previous slot. -/
  | fwConfirmTimeout
  /-- R514. A NOR write operation completes or fails after its retry, releasing the flash to the next. -/
  | norOpDone (fails : Fin 3)
  /-- R419. A Function Level Reset of the physical function acts as the supervisor's reset and begins a warm start with cause 4. -/
  | pfFunctionLevelReset
  /-- R534. The rising edge of RST_N begins the warm start of R508, or lets a cold start held at step 1 proceed. -/
  | rstNRelease
  /-- R487. The supervisor firmware advances SUP_HBEAT, which restarts the 1 ms watchdog. -/
  | supHeartbeat
  /-- R494. Each half-period of the supervisor's 1 kHz oscillator toggles SAFELIGHT while no MOD or GRAVE fault is held. -/
  | safelightToggle
  /-- R316. The PMU leaves its clamp and PEL_STAT.CLAMP returns to 0. -/
  | pmuClampExit (ch : Fin 128)
  /-- R22. The supervisor assigns SEGt to a channel for good, suspending in-service calibration of the tile and recording a NOTE fault. -/
  | permanentSpareAssignment (ch : Fin 128)
  deriving DecidableEq, Repr

end Sys2Proof
end

