-- ==== Sys2Proof/Decode.lean ====
section
/-! DEFINITION. The command a word spells: the opcode table gives no row of this block any bits, so no word spells
one. Commands reach the module by name, with their operands. -/

namespace Sys2Proof

/-- The command that `nbits` bits `w` spell by the table's bits: none, for no row has bits. -/
def decodeTableWord (_nbits _w : Nat) : Option Instr := none

end Sys2Proof
end

