-- ==== Sys2Proof/Machine/Checks.lean ====
section
/-! DEFINITION. Little-endian bytes (R2), the CRC-32C (R54), the scrambler of the Falin lanes (R438) and
the 8b/10b code of the time lanes (R457). -/

namespace Sys2Proof.Machine

open Sys2Proof

/-- The little-endian bytes of a number (R2). -/
def leBytes : Nat → Nat → List Byte
  | 0, _ => []
  | k + 1, n => BitVec.ofNat 8 n :: leBytes k (n / 256)

/-- The number of little-endian bytes (R2). -/
def leNat : List Byte → Nat
  | [] => 0
  | b :: bs => b.toNat + 256 * leNat bs

/-- The little-endian number of the `n` bytes of a list from offset `o`; bytes past its end read 0. -/
def getLE (bs : List Byte) (o n : Nat) : Nat := leNat ((bs.drop o).take n)

/-- One bit of the reflected CRC-32C: polynomial 0x1EDC6F41, reflected 0x82F63B78 (R54). -/
def crcBit (c : Nat) : Nat := if c % 2 = 1 then (c / 2) ^^^ 0x82F63B78 else c / 2

/-- One byte. -/
def crcByte (c : Nat) (b : Byte) : Nat :=
  crcBit (crcBit (crcBit (crcBit (crcBit (crcBit (crcBit (crcBit (c ^^^ b.toNat))))))))

/-- The CRC-32C of a byte string (R54). -/
def crc32c (bs : List Byte) : Nat := bs.foldl crcByte 0xFFFFFFFF ^^^ 0xFFFFFFFF

/-- One bit through the scrambler x^58 + x^39 + 1, or back through the descrambler: `st` holds the last 58 bits on the
lane, the latest in bit 0 (R438). -/
def scrBit (back : Bool) (st : Nat) (b : Bool) : Nat × Bool :=
  let o := (b ^^ st.testBit 38) ^^ st.testBit 57
  ((2 * st + (if back then b else o).toNat) % 2 ^ 58, o)

/-- The 64 payload bits of a block, the least significant bit of byte 0 first (log entry 112). -/
def scramble (back : Bool) (st w : Nat) : Nat × Nat :=
  (List.range 64).foldl (fun x i =>
    let y := scrBit back x.1 (w.testBit i)
    (y.1, x.2 + 2 ^ i * y.2.toNat)) (st, 0)

/-! ### The 8b/10b code (R457, log entry 111) -/

/-- The sub-blocks 5b/6b of D.0 to D.31 at negative running disparity, bit a first, in the highest bit. -/
def code6 : List Nat :=
  [0b100111, 0b011101, 0b101101, 0b110001, 0b110101, 0b101001, 0b011001, 0b111000,
   0b111001, 0b100101, 0b010101, 0b110100, 0b001101, 0b101100, 0b011100, 0b010111,
   0b011011, 0b100011, 0b010011, 0b110010, 0b001011, 0b101010, 0b011010, 0b111010,
   0b110011, 0b100110, 0b010110, 0b110110, 0b001110, 0b101110, 0b011110, 0b101011]

/-- The sub-blocks 3b/4b of D.x.0 to D.x.7 at negative running disparity, bit f first. -/
def code4D : List Nat := [0b1011, 0b1001, 0b0101, 0b1100, 0b1101, 0b1010, 0b0110, 0b1110]

/-- The sub-blocks 3b/4b of K.28.0 to K.28.7 at negative running disparity. -/
def code4K : List Nat := [0b1011, 0b0110, 0b1010, 0b1100, 0b1101, 0b0101, 0b1001, 0b0111]

/-- A sub-block of `w` bits leaves at a running disparity (true: positive): the other form of one that has two is its
complement; an unequal number of ones and zeros gives the next disparity. -/
def codePart (w neg : Nat) (two rd : Bool) : Bool × Nat :=
  let ones := ((List.range w).filter neg.testBit).length
  let v := if rd && (two || 2 * ones != w) then 2 ^ w - 1 - neg else neg
  (if 2 * ones = w then rd else !rd, v)

/-- The alternate form of D.x.7, by the disparity before it: five equal bits in a row are avoided. -/
def code7Alt (x : Nat) (rd : Bool) : Bool :=
  if rd then x == 11 || x == 13 || x == 14 else x == 17 || x == 18 || x == 20

/-- The code group of a data byte, or of a special symbol K28.y (`k`, with byte 32·y + 28): the disparity after it, and its
ten bits, the first in the highest bit. -/
def code10 (rd k : Bool) (b : Nat) : Bool × Nat :=
  let x := b % 32
  let y := b / 32 % 8
  let p := if k then codePart 6 0b001111 false rd else codePart 6 (code6.getD x 0) (x == 7) rd
  let q := if k then codePart 4 (code4K.getD y 0) true p.1
    else if y = 7 ∧ code7Alt x p.1 then codePart 4 0b0111 false p.1
    else codePart 4 (code4D.getD y 0) (y == 3) p.1
  (q.1, 16 * p.2 + q.2)

/-- The code groups of symbols in order, and the disparity after them. -/
def codeGroups (rd : Bool) : List (Bool × Nat) → Bool × List Nat
  | [] => (rd, [])
  | (k, b) :: l =>
    let x := code10 rd k b
    let y := codeGroups x.1 l
    (y.1, x.2 :: y.2)

end Sys2Proof.Machine
end

