-- ==== Sys2Proof/Config.lean ====
section
/-! DEFINITION. What the manual leaves open: constants with no body, so that no proof can lean on a
value. Each is applied to the state's counter of free values, or to the operands it depends on. -/

namespace Sys2Proof

/-- A value the manual leaves open, by the number of the draw (log entry 5). -/
opaque Config.freeValue : Nat → Nat

/-- The order key that the arbiter of R34 gives a request: where the manual says that an order is not
specified, lower keys go first (log entry 5). -/
opaque Config.arbiterKey : Nat → Nat

/-- The public key that a key slot holds in a module as it is delivered, as an affine point of P-384 (R56): not given
by the manual (log entry 5). -/
opaque Config.keyPoint : Nat → Nat × Nat

/-- What one vernier trim code is worth in 2^-16 tick (R333, R344): not given by the manual, but for that the eight steps
of the factory's nominal trims span less than one tap (log entry 50). -/
opaque Config.trimUnit : Fin 74

/-- The tick, below 32, at which a symbol boundary of time lane `l` first coincides with a tick boundary (R464): not given
by the manual (log entry 111). -/
opaque Config.symbolPhase : Nat → Nat

/-- The JTAG instruction that a pattern of instruction-register bits selects, least significant bit first: 1 IDCODE, 2
SAMPLE/PRELOAD, 3 EXTEST, any other number BYPASS. The manual gives no codes (log entry 100). -/
opaque Config.jtagCode : List Bool → Nat

/-- The length of the JTAG instruction register (log entry 100). -/
opaque Config.jtagIrLen : Nat

/-- The JTAG identification code (log entry 100). -/
opaque Config.jtagIdcode : BitVec 32

end Sys2Proof
end

