-- ==== Sys2Proof/Machine/Factory.lean ====
section
/-! DEFINITION. What the flash holds when the module leaves the factory: both copies of the epoch reserve with R = 0
(R229) and the calibration set F (R326, R343, R344). The measured values of F are a module's own; the nominal ones here
are the model's (log entry 3). -/

namespace Sys2Proof.Machine

open Sys2Proof

/-- NOR offset of copy `k` of the epoch reserve: the copies' places in their region are the model's
(log entry 14). -/
def reserveOfs (k : Nat) : Nat := 0x10000 + 0x8000 * k

/-- The bytes of a reserve copy: R and its CRC-32C, written last (R228). -/
def reserveBytes (r : Nat) : List Byte := leBytes 8 r ++ leBytes 4 (crc32c (leBytes 8 r))

/-- The calibration regions: 0 F, 1 A, 2 B, 3 reject slot. -/
def norCal (b : Nat) : Nat := 0x100000 + 0x40000 * b

/-- Byte `j` of a number. -/
def byteOf (n j : Nat) : Byte := BitVec.ofNat 8 (n / 256 ^ j)

/-- Tap `i` at its nominal place, 512 × 2^-16 tick (1/128 tick) apart: byte `j` of the list of taps. -/
def factoryTap (j : Nat) : Byte := byteOf (512 * (j / 2)) (j % 2)

/-- Byte `j` of entries of `w` bytes that begin with a gain of 1, that is 2^24, and hold no offset. -/
def factoryGain (w j : Nat) : Byte := if j % w = 3 then 1 else 0

/-- Byte `o` of F's record of channel `c` (R344): no residual, an analog delay of 450 ns, trims 0 to 7, nominal taps,
gains of 1. -/
def factoryChan (c o : Nat) : Byte :=
  if o = 0 then byteOf c 0
  else if 0xC ≤ o ∧ o < 0x10 then byteOf (1800 * 65536) (o - 0xC)
  else if 0x20 ≤ o ∧ o < 0x28 then byteOf (o - 0x20) 0
  else if 0x40 ≤ o ∧ o < 0x140 then factoryTap (o - 0x40)
  else if 0x140 ≤ o ∧ o < 0x1C4 then factoryGain 12 (o - 0x140)
  else if 0x1C4 ≤ o ∧ o < 0x21C then factoryGain 8 (o - 0x1C4)
  else 0

/-- Byte `o` of F's record of spare `t` (R344). -/
def factorySpare (t o : Nat) : Byte :=
  if o = 0 then byteOf t 0
  else if 8 ≤ o ∧ o < 0x10 then byteOf (o - 8) 0
  else if 0x10 ≤ o ∧ o < 0x110 then factoryTap (o - 0x10)
  else 0

/-- The header of F before its HDR_CRC (R343). -/
def factoryHead : List Byte :=
  leBytes 4 0x4143524C ++ leBytes 2 0x0100 ++ leBytes 2 0x00B1 ++ leBytes 4 0 ++ leBytes 4 84048 ++ List.replicate 44 0

/-- Byte `o` of F before its trailer. -/
def factoryBody (o : Nat) : Byte :=
  if o < 64 then (factoryHead ++ leBytes 4 (crc32c factoryHead)).getD o 0
  else if o < 81984 then factoryChan ((o - 64) / 640) ((o - 64) % 640)
  else factorySpare ((o - 81984) / 512) ((o - 81984) % 512)

/-- CHECK of F: the CRC-32C of every byte before the trailer. -/
def factoryCheck : Nat := crc32c ((List.range 84032).map factoryBody)

/-- Byte `o` of the set F. -/
def factorySet (o : Nat) : Byte :=
  if o < 84032 then factoryBody o else if o < 84036 then byteOf factoryCheck (o - 84032) else 0

/-- What the factory wrote: first byte and length of each part. -/
def factorySpans : List (Nat × Nat) := [(reserveOfs 0, 12), (reserveOfs 1, 12), (norCal 0, 84048)]

/-- The byte at NOR offset `a` as the module leaves the factory. -/
def factoryByte (a : Nat) : Byte :=
  if reserveOfs 0 ≤ a ∧ a < reserveOfs 0 + 12 then (reserveBytes 0).getD (a - reserveOfs 0) 0
  else if reserveOfs 1 ≤ a ∧ a < reserveOfs 1 + 12 then (reserveBytes 0).getD (a - reserveOfs 1) 0
  else if norCal 0 ≤ a ∧ a < norCal 0 + 84048 then factorySet (a - norCal 0)
  else 0xFF

end Sys2Proof.Machine
end

