-- ==== Sys2Proof/Machine/State.lean ====
section
/-! DEFINITION. The state of the LRM-128 as plain data: every register (one sparse register file keyed
by BAR0 address), every memory, and the run state of each unit that no register shows. -/

namespace Sys2Proof.Machine

open Sys2Proof

/-- Faults of the model: none. Every command of the table has an effect by the manual, and a
command whose event is not due leaves the state as it is (log entry 4). Safe: nothing stops. -/
inductive Fault where
  deriving DecidableEq, Repr

/-- Refusals of the model. -/
inductive Refusal where
  /-- Raised by exec for a command that has no meaning yet, by name. Safe: the run stops. -/
  | notModelled (mnemonic : String)
  deriving DecidableEq, Repr

/-- One fault on its way to, or in, the collector (R489): the fields of its record, and the sequencer
it names (R483). -/
structure FaultRec where
  src : Nat := 0
  cls : Nat := 0
  chk : Nat := 7
  code : Nat := 0
  addr : Nat := 0
  rkind : Nat := 0
  access : Nat := 4
  rid : Nat := 0
  retried : Bool := false
  inj : Bool := false
  seqNamed : Option Nat := none
  selfRaised : Bool := false
  mt : Nat := 0
  deriving DecidableEq, Repr

/-- An event as an edge generator places it (R177, R178): the generator (0–127 a channel's own, 128–131 a
tile's spare), its placement path in the class, coarse tick, tap and vernier step, with the calibrated position
of that tap in 2^-16 tick and the trim code of that step (R344). -/
structure Launch where
  gen : Nat := 0
  path : Nat := 0
  coarse : Nat := 0
  tap : Nat := 0
  vern : Nat := 0
  tapPos : Nat := 0
  trim : Nat := 0
  deriving DecidableEq, Repr

/-- What driver, active load and pin clamps do at a land (R310, R312, R314): the drive type of R148, the code of the
level driven (0 for DZ), the load's IOL, IOH and VCOM codes while it is connected, and the clamps' VCL and VCH codes
while CLAMP_EN enables them. -/
structure LandSt where
  typ : Nat := 3
  level : Nat := 0
  load : Option (Nat × Nat × Nat) := none
  clamp : Option (Nat × Nat) := none
  deriving DecidableEq, Repr

/-- The part of a channel's applied setting that its driver, load and clamps act by (R310, R312, R314): the codes of VIL,
VIH and VT, of the load with LOAD_EN, of the clamps with CLAMP_EN, and whether the PMU mode lets the driver follow the
pattern. -/
structure PinSet where
  low : Nat := 0
  high : Nat := 0
  term : Nat := 0
  load : Option (Nat × Nat × Nat) := none
  clamp : Option (Nat × Nat) := none
  follows : Bool := true
  deriving DecidableEq, Repr

/-- Something the module sends out: what the world outside can see of it. -/
inductive Output where
  /-- A message of MSI-X vector `vec` in function `fn` (R428). -/
  | msix (fn vec : Nat)
  /-- A posted write to host memory with the requester ID of function `fn` (R396, R397). -/
  | hostWrite (fn addr : Nat) (data : List Byte)
  /-- A row of a Falin port (R442): the sync header of its blocks, and the scrambled payload of each lane's. -/
  | row (port header : Nat) (payloads : List Nat)
  /-- A wake burst on a Falin port (R456). -/
  | wakeBurst (port : Nat)
  /-- A time-lane message (R458): lane, tick of its first bit, special symbol (K28.x), data bytes, and the 8b/10b code
  groups of all its symbols, the first bit of each in bit 9. -/
  | timeMsg (lane tick sym : Nat) (data : List Byte) (codes : List Nat)
  /-- The idle pair K28.5 D16.2 on a time lane (R457), with its code groups. -/
  | idlePair (lane : Nat) (codes : List Nat)
  /-- A drive event reaches channel `ch`'s land, which then shows `st`. -/
  | drive (ch : Nat) (l : Launch) (st : LandSt)
  /-- Channel `ch`'s land shows `st` from a time in 1/1024 tick, for another reason than a drive event. -/
  | land (ch time : Nat) (st : LandSt)
  /-- A reflection measurement drives channel `ch`'s land from level code `low` to `high`, `count` times, `cycle`
  ticks apart, first at tick `start`, with the thresholds at the codes `vol` and `voh` (R321). -/
  | reflDrive (ch start cycle count low high vol voh : Nat)
  /-- An XT line goes high or low at a tick (R479). -/
  | xt (line tick : Nat) (level : Bool)
  /-- The SAFELIGHT output changes level (R494). -/
  | safelight (level : Bool)
  deriving DecidableEq, Repr

/-! ### The structure in force (R39) -/

/-- One CARV entry (R48). -/
structure Carve where
  sqsBase : Nat := 0
  sqsSize : Nat := 0
  vbpBase : Nat := 0
  vbpSize : Nat := 0
  vblBase : Nat := 0
  vblSize : Nat := 0
  capBase : Nat := 0
  capSize : Nat := 0
  csBase : Nat := 0
  csSize : Nat := 0
  deriving DecidableEq, Repr

/-- One XBAR entry (R49); an absent section gives this default (R45). -/
structure Xbar where
  spareOk : Bool := true
  ref : Option Nat := none
  deriving DecidableEq, Repr

/-- One ACQR entry (R50). -/
structure Acqr where
  capBase : Nat := 0
  capSize : Nat := 0
  stampFlow : Option Nat := none
  frameFlow : Option Nat := none
  deriving DecidableEq, Repr

/-- A key term of R355. -/
structure Term where
  en : Bool := false
  neg : Bool := false
  ofs : Nat := 0
  rsh : Nat := 0
  width : Nat := 0
  lsh : Nat := 0
  base : Nat := 0
  deriving DecidableEq, Repr

/-- A node record (R354). -/
structure GNode where
  op : Nat := 0
  outmode : Bool := false
  ins : List Nat := []
  outs : List Nat := []
  key : List Term := []
  params : List Byte := []
  deriving DecidableEq, Repr

/-- A flow entry (R354). -/
structure GFlow where
  flow : Nat := 0
  kind : Nat := 0
  credit : Nat := 0
  spillSize : Nat := 0
  spillBase : Nat := 0
  deriving DecidableEq, Repr

/-- A loaded graph (R51, R354): OWNER is none for 0xFF; `base` is where its node state begins in the graph
state area (log entry 16). -/
structure Graph where
  id : Nat := 0
  owner : Option Nat := none
  engines : Nat := 0
  loss : Nat := 0
  nodes : List GNode := []
  flows : List GFlow := []
  base : Nat := 0
  deriving DecidableEq, Repr

/-- The structure in force (R39, R71): site of each channel, owner of each site, carves, crossbar,
routes, graphs and the expected peer of each port that is on. -/
structure Structure where
  siteOf : KMap (Option Nat) := []
  ownerOf : KMap (Option Nat) := []
  carve : KMap Carve := []
  xbar : KMap Xbar := []
  acqr : KMap Acqr := []
  graphs : List Graph := []
  lane : KMap (Option Nat) := []
  deriving DecidableEq, Repr

/-- A structure operation in progress (R57–R70): its OP, tile, image and NOR slot; where a load stands (0 the
stop step is due, 1 draining, 2 past the drain limit, 3 configuring), its stopped set, and the tick of the stop step. -/
structure StiOp where
  op : Nat := 0
  tile : Nat := 0
  image : List Byte := []
  slot : Nat := 0
  phase : Nat := 0
  stopped : Nat := 0
  stopAt : Nat := 0
  deriving DecidableEq, Repr

/-! ### Sequencers (R73–R143) and their results -/

/-- What a queued play plays (R83–R92, R140). -/
inductive PlayKind where
  | play | playl | leader | urLeader | spool | waitt | matching
  deriving DecidableEq, Repr

/-- The program state that the decode front carries (R73, R87–R89, R96): next address, call stack (top
first), loop counters LC0–LC7 with their start addresses, flags F0–F7. -/
structure Prog where
  pc : Nat := 0
  stack : List Nat := []
  lc : KMap Nat := []
  lcStart : KMap Nat := []
  flags : Nat := 0
  deriving DecidableEq, Repr

/-- A segment descriptor as it was read for play (R121–R123). -/
structure Desc where
  addr : Nat := 0
  loc : Bool := true
  endMark : Bool := false
  nvec : Nat := 64
  deriving DecidableEq, Repr

/-- One queued play operation: `reps` is B of the instruction; `prog` the program state right after the
decode front executed it (R104, R210). -/
structure PlayItem where
  kind : PlayKind := .playl
  seg : Nat := 0
  reps : Nat := 0
  pc : Nat := 0
  tset : Nat := 0
  all : Bool := false
  clr : Bool := false
  desc : Desc := {}
  prog : Prog := {}
  deriving DecidableEq, Repr

/-- An action that takes place at its play point (R75). -/
inductive PointOp where
  | sett (n : Nat) | setm (n : Nat) | setp (n : Nat)
  | flag (clr set : Nat) | sig (a : Nat) | epoch (tag : Nat) | halt
  deriving DecidableEq, Repr

/-- An entry of the queue between the two fronts. -/
inductive QItem where
  | play (p : PlayItem)
  | point (op : PointOp) (pc : Nat)
  deriving DecidableEq, Repr

/-- The segment repeat at the play front: the first vector of its play, the entry it plays, its position in vectors,
the number of the repeat (from 1), whether WAITT has found its trigger, and the sites that failed in repeats of a
MATCH. -/
structure CurPlay where
  item : PlayItem := {}
  first : Nat := 0
  seg : Nat := 0
  desc : Desc := {}
  pos : Nat := 0
  rep : Nat := 1
  wsat : Bool := false
  mfails : List (Nat × Nat) := []
  deriving DecidableEq, Repr

/-- Results of one channel in a run (R157, R202–R212). -/
structure ChanRes where
  fcnt : Nat := 0
  ccnt : Nat := 0
  mfcnt : Nat := 0
  ffv : Option Nat := none
  ffInfo : Nat := 0
  ffSeg : Nat := 0
  flogCnt : Nat := 0
  flogLost : Nat := 0
  lreason : Nat := 0
  lvec : Option Nat := none
  coll : Nat := 0
  late : Nat := 0
  dropVec : Option Nat := none
  deriving DecidableEq, Repr

/-- Results of one site in a run (R205, R238): enabled and active, fail state (set by a failing vector,
or by a MATCH timeout), drop-out, and the vectors in which a channel of the site had the result FAIL,
each once. -/
structure SiteRun where
  enabled : Bool := false
  active : Bool := false
  byMatch : Bool := false
  byHost : Bool := false
  failVecs : List Nat := []
  dropVec : Option Nat := none
  deriving DecidableEq, Repr

/-- The results of a run (R223): by channel and by site. -/
structure Res where
  chans : KMap ChanRes := []
  sites : KMap SiteRun := []
  deriving DecidableEq, Repr

/-- A closed, unpublished epoch (R221–R227): `cause` 0 while the run continues, `at_` the moment of the close in 2^-16
tick. -/
structure Epoch where
  num : Nat := 0
  index : Nat := 0
  tag : Nat := 0
  cause : Nat := 0
  vcnt : Nat := 0
  mtClose : Nat := 0
  mtStart : Nat := 0
  toBit : Bool := false
  ldr : Nat := 0
  ur : Nat := 0
  flagBits : Nat := 0
  res : Res := {}
  at_ : Nat := 0
  deriving DecidableEq, Repr

/-- The three Contact Sheet buffers of a sequencer (R230–R235): which is HELD, since when REPEAT, which
is NEWEST, and by buffer its EPOCH, INDEX and closing mark; `lastAcq` the EPOCH last acquired. -/
structure Sheet where
  held : Option Nat := none
  heldBy : Nat := 0
  newest : Option Nat := none
  epochOf : KMap Nat := []
  indexOf : KMap Nat := []
  closingOf : KMap Bool := []
  lastAcq : Option Nat := none
  deriving DecidableEq, Repr

/-- A fail-log record that waits in the CAP carve (R211): its flow, channel, vector and bytes. -/
structure CapRec where
  flow : Nat := 0
  ch : Nat := 0
  vec : Nat := 0
  data : List Byte := []
  deriving DecidableEq, Repr

/-- Bytes of a DRAM line before a write to data of an active entry (R128): the line's old bytes, the number
of the open value that says which bytes a burst plays, and the vectors started before the write. -/
structure BurstOld where
  old : List Byte := []
  draw : Nat := 0
  vcnt : Nat := 0
  deriving DecidableEq, Repr

/-- One sequencer: decode front, queue, play front, run control, spool, epochs. -/
structure SeqUnit where
  /-- Program state at the decode front, instructions since the last play (R77), a Late or Trigger
  instruction since the last play (R101), a taken jump request whose first play is awaited (R104), and
  the decode front at rest after a HALT. -/
  prog : Prog := {}
  sincePlay : Nat := 0
  branch : Bool := false
  jtaken : Bool := false
  decodeHalt : Bool := false
  /-- Plays and point actions queued between the fronts (R75), the repeat at the play front, and the
  SPOOL instruction that underrun leader repeats interrupt (R140). -/
  queue : List QItem := []
  cur : Option CurPlay := none
  resume : Option PlayItem := none
  /-- Play instruction address last at the play front, for R114 PACE. -/
  lastPc : Nat := 0
  /-- Start of the next vector in 2^-16 tick (R172), vectors started, and pending bits as sampled at the
  last granule boundary (R82). -/
  acc : Nat := 0
  vcnt : Nat := 0
  trigSample : Option Nat := none
  /-- STOP requested, explicit apply command on its way (R219), number of the GLB_APPLY write a SYNC
  start waits for, whether it has reached the sequencer, drop requests, jump requests not yet sampled. -/
  stopReq : Bool := false
  applyReq : Bool := false
  syncGroup : Option Nat := none
  syncReached : Bool := false
  dropReq : Nat := 0
  jreq : Nat := 0
  /-- Spool ring in use (R131), ring entries seen ready in ring order and the vector count at which each
  was seen (R136), warning raised for the entry due, spool entries played by the present SPOOL. -/
  ringBase : Nat := 0
  ringLen : Nat := 0
  ready : List Nat := []
  readyAt : KMap Nat := []
  warned : Bool := false
  spoolN : Nat := 0
  /-- A ring change was applied while a SPOOL plays the ring before it (R131), the ring on which entries were read since
  for a queued SPOOL, and what is seen ready on it, as above. -/
  ringPend : Bool := false
  nring : Nat × Nat := (0, 0)
  nready : List Nat := []
  nreadyAt : KMap Nat := []
  /-- Descriptors read for entries that are active for another reason than a queued play, none where the entry is
  not valid (R123), and the entries prefetched for a branch path taken, until its play is queued (R126). -/
  copies : KMap (Option (Option Desc)) := []
  prefetch : List Nat := []
  /-- Segments kept ready for jump vectors 0–3 (R104). -/
  kept : KMap (List Nat) := []
  /-- Bytes that bursts of active data may still play after a write, oldest first, by DRAM line (R128). -/
  bursts : KMap (List BurstOld) := []
  /-- The lowest FIFO fill recorded since START with its arming instant and channel (R542), and a pace fault ended
  this run (R191). -/
  fifoMin : Option (Nat × Nat × Nat) := none
  pflt : Bool := false
  /-- Site results of the run, held epochs (oldest first), epochs of the run, buffers, CAP records, and the
  epoch markers (number, close) that wait for earlier records to enter the fail-log flows (R361). -/
  sites : KMap SiteRun := []
  epochs : List Epoch := []
  index : Nat := 0
  sheet : Sheet := {}
  capq : List CapRec := []
  capN : Nat := 0
  marks : List (Nat × Nat) := []
  deriving DecidableEq, Repr

/-! ### Channels: formatter, compare (R144–R215) -/

/-- A compare placed or dropped (R150, R154, R155): expected type of R148, time at the pin (window open) in
1/1024 tick, window close, the same two at the land (R181), and how the edge generator places them (R177, R178). -/
structure CmpEv where
  time : Nat := 0
  exp : Nat := 5
  close : Option Nat := none
  dropped : Bool := false
  land : Nat := 0
  landClose : Option Nat := none
  place : Launch := {}
  placeClose : Option Launch := none
  deriving DecidableEq, Repr

/-- The compares of one vector on one channel, waiting for their result (R201): number, start in 2^-16
tick, site, code, timing set, masked (R199), dropped compares count as fails (R156), the MATCH repeat it
belongs to, its place in its segment, the loop counters recorded (R210), and the settings in force when it started
(R18): the fail log's (R209), and whether the comparator's thresholds are crossed (R194). -/
structure CmpVec where
  vec : Nat := 0
  start : Nat := 0
  site : Nat := 0
  code : Nat := 0
  tset : Nat := 0
  masked : Bool := false
  collFail : Bool := true
  inMatch : Option Nat := none
  segpos : Nat := 0
  seg : Nat := 0
  ldr : Bool := false
  lcs : KMap Nat := []
  flogCtl : Word := 0
  flogLim : Nat := 0
  crossed : Bool := false
  evs : List CmpEv := []
  deriving DecidableEq, Repr

/-- A placed drive event not yet executed: time at the pin in 1/1024 tick, drive type, launch at the land, and the pin
setting in force for its vector (R18, R310). With `set` it is no drive event but the vector boundary at which a new
setting begins to act on the drive state there is. -/
structure DrvEv where
  time : Nat := 0
  typ : Nat := 3
  launch : Launch := {}
  pin : PinSet := {}
  set : Bool := false
  deriving DecidableEq, Repr

/-- One channel's formatter, driver and compare results. Times are in 1/1024 tick; `drvQ` holds placed
drive events not yet executed, `lastRun` is the last one executed, `drv` the drive type of R148 in force, `idle` the channel plays its idle
waveform (R166); `path`, `drvRes` and `cmpRes` are the path and the residuals in force (R181–R183, R330), `nDrv` and
`nCmp` the events its generator has placed in each class, by whose parity the two placement paths take turns (R178),
and `load` says that the active load is connected (R310). `pin` is the setting the land still shows while a newer one
waits for its vector boundary, and `fifo` the edge FIFO: the numbers of the vectors whose entries are in it, the one due
first (R30). -/
structure ChUnit where
  cmpQ : List CmpVec := []
  lastDrv : Option Nat := none
  lastRun : Option Nat := none
  lastCmp : Option Nat := none
  drvQ : List DrvEv := []
  drv : Nat := 3
  idle : Bool := true
  res : ChanRes := {}
  refl : Bool := false
  path : Nat := 0
  drvRes : Int := 0
  cmpRes : Int := 0
  nDrv : Nat := 0
  nCmp : Nat := 0
  load : Bool := false
  pin : Option PinSet := none
  fifo : List Nat := []
  deriving DecidableEq, Repr

/-- A committed waveform entry whose old bytes may still play (R160): the old bytes, and Module Time and
vector count of the owner at the commit. -/
structure WftOld where
  old : List Byte := []
  mt : Nat := 0
  vcnt : Nat := 0
  deriving DecidableEq, Repr

/-- A waveform-table entry buffer (R159): the open entry's BAR4 offset and the words held. -/
structure EntryBuf where
  entry : Nat := 0
  words : KMap (Option Word) := []
  deriving DecidableEq, Repr

/-! ### Time measurement (R242–R276) -/

/-- The sums of a shutter (R263, R264). -/
structure TmuSums where
  n : Nat := 0
  sum : Int := 0
  sq : Nat := 0
  mn : Int := 0
  mx : Int := 0
  sat : Bool := false
  gaps : Bool := false
  m : Nat := 0
  sn : Nat := 0
  st : Nat := 0
  snn : Nat := 0
  snt : Nat := 0
  unpaired : Nat := 0
  ovr : Nat := 0
  t0 : Option Nat := none
  deriving DecidableEq, Repr

/-- A closed shutter whose results wait to be latched (R258): cause, open and close time, sums. -/
structure TmuDone where
  cause : Nat := 0
  openT : Nat := 0
  closeT : Nat := 0
  sums : TmuSums := {}
  deriving DecidableEq, Repr

/-- One channel's TDC and shutter. Times are in 2^-16 tick. -/
structure TmuUnit where
  /-- Open time (none: waits for its event), close time once known, records of the shutter. -/
  openT : Option Nat := none
  closeT : Option Nat := none
  recs : Nat := 0
  /-- Tick from which each capture path is free, the next path in turn, the stamp of the last stamped hit. -/
  pathFree : KMap Nat := []
  path : Nat := 0
  lastStamped : Option Nat := none
  /-- Edge counter of input A, hits since the prescaler last passed one, edge counter at the first stamp. -/
  edge : Nat := 0
  presc : Nat := 0
  n0 : Option Nat := none
  /-- Last stamp of input A, a GAP is due on the next stamp, open interval, unpaired A and B stamps. -/
  prev : Option Nat := none
  gapNext : Bool := false
  aOpen : Option Nat := none
  freeA : List Nat := []
  freeB : List Nat := []
  sums : TmuSums := {}
  /-- Records that wait to be moved, the LOST note of this arm is made, a shutter to be latched. -/
  hold : List (List Byte) := []
  lostNote : Bool := false
  done : Option TmuDone := none
  /-- Module Time at which each path's bin table was adopted since start, and the codes of source hits counted since
  by path × 128 + code − 16 (R247). -/
  adopt : KMap (Option Int) := []
  codes : KMap Nat := []
  /-- Close time and cause of a shutter that has ended while stamps before that time may still come (R257), and by
  source the time of the last hit, before the corrections (R244). -/
  ending : Option (Nat × Nat) := none
  lastHit : KMap (Option Nat) := []
  deriving DecidableEq, Repr

/-! ### Acquisition (R277–R306) -/

/-- A firing of trigger TA (0) or TB (1) at a time in 2^-16 tick; `noPath` marks an ANALOG hit that found no capture
path (R298). -/
structure Firing where
  trig : Nat := 0
  time : Nat := 0
  noPath : Bool := false
  deriving DecidableEq, Repr

/-- A frame being stored (R285–R301): index, first sample, trigger time, cause bits, sub-sample, ignored
triggers, samples stored, flags, violations, losses, extremes and the stored words. -/
structure FrameSt where
  idx : Nat := 0
  j0 : Nat := 0
  ttime : Nat := 0
  cause : Nat := 0
  tsub : Nat := 0
  tign : Nat := 0
  trunc : Bool := false
  preOvl : Bool := false
  stopv : Bool := false
  clip : Bool := false
  vcnt : Nat := 0
  firstv : Option Nat := none
  lcnt : Nat := 0
  ext : Option (Int × Int) := none
  words : List Nat := []
  deriving DecidableEq, Repr

/-- One channel's acquisition. -/
structure AcqUnit where
  /-- Start tick once known, conversions made, sum, count and CLIP of the sample in the making. -/
  start : Option Nat := none
  conv : Nat := 0
  sumC : Int := 0
  nC : Nat := 0
  clipC : Bool := false
  /-- Next sample, the newest stored values (newest first) with CLIP, detectors armed by trigger, firings
  not decided. -/
  nextJ : Nat := 0
  hist : List (Int × Bool) := []
  armR : KMap Bool := []
  armF : KMap Bool := []
  firings : List Firing := []
  /-- The frame in progress, stored frames whose completion is due, the frames begun. -/
  frame : Option FrameSt := none
  complete : List FrameSt := []
  begun : Nat := 0
  /-- Re-arm instant of R296 but for the hold-off (none while a frame is stored), end of a hold-off, firings
  left of an event hold-off, tick from which the unit is WAITING, last sample of the previous frame. -/
  rearm : Option Nat := none
  holdEnd : Nat := 0
  holdLeft : Nat := 0
  waitFrom : Nat := 0
  prevEnd : Option Nat := none
  /-- Triggers ignored since the last frame's trigger, the mask copy (UPPER, LOWER, RUN), the cause with
  which the set ends at its violating frame, a loss noted since ARM. -/
  tign : Nat := 0
  masks : List (Int × Int × Nat) := []
  ending : Option Nat := none
  lostNote : Bool := false
  deriving DecidableEq, Repr

/-! ### Calibration (R325–R350) -/

/-- The slot in progress (R327–R334): target, by substitution, check TDC, whether the verify has passed,
the result with which it ends, the results formed at Compute, the residuals the channel had before, the tick at
which the check before a switch passed, and vector b of that switch once it is fixed (R331). -/
structure CalSlot where
  target : Nat := 0
  subst : Bool := false
  check : Option Nat := none
  spareIn : Bool := false
  verified : Bool := false
  result : Option Nat := none
  vals : List Byte := []
  digSkip : Bool := false
  prev : Nat × Nat := (0, 0)
  passAt : Nat := 0
  vecB : Option Nat := none
  deriving DecidableEq, Repr

/-- The calibration machine: slot; next target of the first pass (128–131 the spares) and the channels to be
offered again; failures of this rotation by target (reason plus 1); a channel ended the rotation skipped;
channels of each tile whose SHADOW failed in succession; tiles whose spare must pass its own slot;
rejected candidate (reason, bytes); bank of the running store (1 A, 2 B, 3 reject slot) and the code with
which the flash has ended it; Module Time of rotation start and of the last store, and of each channel's
last accepted calibrations; die temperatures of the last correction; the channels whose age has passed
its limit (R341); and the CRC-32C kept with the working set (R348). -/
structure Cal where
  slot : Option CalSlot := none
  next : Nat := 0
  again : List Nat := []
  failed : KMap Nat := []
  skipped : Bool := false
  shadowFails : KMap (List Nat) := []
  spareDue : Nat := 0
  reject : Option (Nat × List Byte) := none
  storing : Option Nat := none
  stored : Option Nat := none
  rotStart : Int := 0
  lastStore : Int := 0
  ageFrom : KMap (Option Int) := []
  aged : KMap Bool := []
  crc : Nat := 0
  digFrom : KMap (Option Int) := []
  temps : KMap Nat := []
  deriving DecidableEq, Repr

/-! ### Analysis engines (R351–R372) -/

/-- An element of a flow: an item (bytes, moment of entry) or the marker of an epoch (R361). -/
inductive Elem where
  | item (data : List Byte) (order : Nat)
  | marker (epoch : Nat)
  deriving DecidableEq, Repr

/-- The context of one flow (R352): elements in the pool and in the spill ring, the pool slots of its pool items in
their order (R351), ring slot of the oldest item in spill, affine engine, its place on a ready list and the tick of its placement, and counters. -/
structure FlowSt where
  pool : List Elem := []
  spill : List Elem := []
  slots : List Nat := []
  spHead : Nat := 0
  affine : Option Nat := none
  ready : Option Nat := none
  since : Nat := 0
  admitted : Nat := 0
  spilled : Nat := 0
  lost : Nat := 0
  lreason : Nat := 0
  lmt : Nat := 0
  litem : List Byte := []
  done : Nat := 0
  qmax : Nat := 0
  spmax : Nat := 0
  waitMax : Nat := 0
  waitSum : Nat := 0
  s75 : Bool := false
  deriving DecidableEq, Repr

/-- One engine (R368–R371): its ready list of flows, operations since start. -/
structure EngSt where
  ready : List Nat := []
  offline : Bool := false
  rdyMax : Nat := 0
  ops : Nat := 0
  deriving DecidableEq, Repr

/-- The analysis side: flows, engines, the next moment of entry, the graph whose planes are cleared, EMIT
copies (epoch, offset, bytes), graphs noted as without an engine, and by node the tick of the last item
of an open COMPRESS run. -/
structure Ane where
  flows : KMap FlowSt := []
  engines : KMap EngSt := []
  order : Nat := 0
  clearing : Option Nat := none
  emits : List (Nat × Nat × List Byte) := []
  noEngine : List Nat := []
  runAt : KMap Nat := []
  draining : List Nat := []
  deriving DecidableEq, Repr

/-! ### DRAM controllers and DMA (R373–R414) -/

/-- What is stored with the trained values (R387, R389): each channel's temperature in 0.125 °C, the physical-layer supply
in mV, and the DIMMs' serial numbers; the values themselves, which are open, and the CRC-32C over all of it. -/
structure Trained where
  temps : List Int := []
  supply : Nat := 0
  serials : List Nat := []
  values : Nat := 0
  crc : Nat := 0
  deriving DecidableEq, Repr

/-- A requester of DRAM: class of R379 (5: segment-table read), its number, the access type of
DRC_FE_INFO, and its kind in a fault record (R489). -/
structure DramReq where
  cls : Nat
  id : Nat := 0
  typ : Nat := 0
  rkind : Nat := 7
  deriving DecidableEq, Repr

/-- A request that waits for its channel or its line (R388, R390): a DRAM_REQUEST, a read of a host window whose data is
answered then, or the bytes of a write, which may carry the poison mark; `dom` is the domain of a dormant record. -/
inductive DramWait where
  | req (q : DramReq) (line err lat : Nat)
  | read (q : DramReq) (dom a n : Nat)
  | write (q : DramReq) (dom a : Nat) (bs : List Byte) (poison : Bool)
  deriving DecidableEq, Repr

/-- DRAM controller state no register shows. `bad` is the check state of a line: 1 correctable, 2
uncorrectable, 5 and 6 the same by injection, 3 the poison pattern (R391, R394); ticks of the corrected
errors of the last second by channel, and of the lasting errors (R392); channels past 95 °C (R383);
channels put down by command (R386); next line of the scrub, and the lines ahead of it that requests of classes 0–3 have
read clean in its pass (R393); next bank index of the refresh and the tick at which its last REFsb ends, by subchannel and
logical rank (key 32 × subchannel + rank), and tRFCsb of the devices in ns (R382); a speed change in progress, the highest
grade of the DIMMs and the REQ allowed at a start (R374, R388); a REQ that waits for the training step in progress (R388);
what was stored with the trained values (R387, R389); the training step in progress has failed once, and the tick at which
training began (R387); no request is served (R388–R390); the lines from 0 on that are cleared (R390); requests that wait
(R388, R390). -/
structure Drc where
  bad : KMap Nat := []
  ceSec : KMap (List Nat) := []
  ueSec : List Nat := []
  hot95 : KMap Bool := []
  pdown : KMap Bool := []
  scrubLine : Nat := 0
  refIdx : KMap Nat := []
  speed : Option Nat := none
  spdMax : Nat := 2
  startReq : Option Nat := none
  newReq : Option Nat := none
  trained : Option Trained := none
  tries : Bool := false
  trainAt : Nat := 0
  clean : List Nat := []
  refBusy : KMap Nat := []
  tRFCsb : Nat := 190
  closed : Bool := false
  clr : Nat := 0
  waiting : List DramWait := []
  deriving DecidableEq, Repr

/-- One DMA channel: the descriptor in service (16 words) once it is read, valid bytes moved, the address of the last 4 B
that it wrote, the code with which it ends once that is decided, a host read was retried, a host read came poisoned, STOP
or FLUSH requested, resumption after a
warm start awaited or under way (R411), the state it was paused in (R412), the burst size of a paced
descriptor, the tick of the last read of a descriptor that was not given (R410), and of the burst that a withdrawn request
leaves (R408) the source ranges (DRAM or not, address, length) and their bytes. -/
structure DmaUnit where
  desc : Option (List Word) := none
  moved : Nat := 0
  wrote : Option Nat := none
  code : Option Nat := none
  retried : Bool := false
  badData : Bool := false
  stopReq : Bool := false
  flushReq : Bool := false
  resume : Bool := false
  paused : Option Nat := none
  stride : Nat := 0
  readAt : Nat := 0
  cut : Option (List (Bool × Nat × Nat) × List Byte) := none
  deriving DecidableEq, Repr

/-! ### Falin ports and time lanes (R438–R480) -/

/-- A frame held or queued (R443), with the local flow of an item's copy. -/
structure Frame where
  lflow : Nat := 0
  typ : Nat := 0
  vc : Nat := 0
  seq : Nat := 0
  arg : Nat := 0
  poison : Bool := false
  data : List Byte := []
  deriving DecidableEq, Repr

/-- One Falin port (R438–R456). -/
structure Port where
  /-- VC0 frames that wait for the direction to wake, frames that wait for their first sending, sent frames not yet
  acknowledged, of these the ones to be sent again, and the sequence numbers next sent and next expected. -/
  vc0 : List Frame := []
  txq : List Frame := []
  replay : List Frame := []
  again : List Frame := []
  txSeq : Nat := 0
  rxSeq : Nat := 0
  /-- Rows granted by the peer and rows sent, on VC1 and VC2; rows granted to the peer, and as last sent. -/
  grant1 : Nat := 0
  grant2 : Nat := 0
  sent1 : Nat := 0
  sent2 : Nat := 0
  rgrant1 : Nat := 2048
  rgrant2 : Nat := 8192
  told1 : Nat := 0
  told2 : Nat := 0
  /-- The receiver discards until the expected frame arrives, the tick of the last NAK, frames accepted
  since the last ACK. -/
  discard : Bool := false
  nakAt : Option Nat := none
  ackDue : Nat := 0
  /-- Tick from which an ACK is awaited, sequence number named by the last NAK received, and a lasting
  failure whose retrain is due. -/
  ackFrom : Nat := 0
  nakSeq : Option Nat := none
  lasting : Bool := false
  /-- Trainings in succession that failed, the tick of training's start, the line rate of that training (R459), HELLO
  named another module. -/
  tries : Nat := 0
  trainFrom : Nat := 0
  rate : Nat := 0
  mismatch : Bool := false
  /-- WRITE frames the peer has dropped; the transfer: next source, next destination, bytes left, and that
  count at its start. -/
  peerDrop : Nat := 0
  xfer : Option (Nat × Nat × Nat) := none
  xferDrop0 : Nat := 0
  /-- The last 58 bits of each lane's scrambler and descrambler (R438), the bit position at which each lane's receiver
  tests the sync header (R441); the lanes are aligned, the lane number and the skew in blocks that each lane's ALIGN
  block has shown (R442). -/
  txScr : KMap Nat := []
  rxScr : KMap Nat := []
  pos : KMap Nat := []
  aligned : Bool := false
  order : List Nat := []
  skew : List Nat := []
  /-- Row count of ALIGN rows, the time from which rows to the next one count in 1/75 tick, the last headers of each
  lane, lanes whose EYE is under WARN, tick (plus 1) from which a lane's EYE is under RETRAIN, and the NOTE of a lost copy
  is made. -/
  rows : Nat := 0
  rowFrom : Nat := 0
  hdrs : KMap (List Bool) := []
  eyeLow : KMap Bool := []
  eyeFrom : KMap Nat := []
  lostNote : Bool := false
  /-- An injection made the last frame bad (R492). -/
  injected : Bool := false
  deriving DecidableEq, Repr

/-- One time lane (R457, R464, R476): ticks at which queued messages begin, the tick at which the
transmitter is free, requests not yet answered (SEQ, launch in 2^-16 tick) and the next SEQ, the last
TIME or MIRROR (launch tick, arrival in 2^-16 tick), the latest reply, a round trip that is too long, the tick of
alignment, the steps of Module Time since its symbols began (modulo 32), the last 64 symbols of an aligned receiver that
were violations, the commas in succession at one bit position of one that is not, and the running disparity of the
transmitter (true: positive). -/
structure Lane where
  begins : List Nat := []
  busy : Nat := 0
  reqs : List (Nat × Nat) := []
  reqSeq : Nat := 0
  time : Option (Nat × Nat) := none
  replied : Bool := false
  srcOk : Bool := false
  via : Bool := false
  hops : Nat := 63
  rttBad : Bool := false
  alignedAt : Nat := 0
  grid : Nat := 0
  cvs : List Bool := []
  commas : Nat × Nat := (0, 0)
  disp : Bool := false
  deriving DecidableEq, Repr

/-- Module Time distribution (R460–R480): the last values of theta (in 2^-17 tick, newest first), exchanges
in succession within 2 ps, the tick of HOLDOVER, corrections by slew only, heartbeat, the standby's
ALIGNED, FAIL sent, the start rule of R471 is open, the cause of takeover that a standby with no master has noted;
deliveries to come (kind, line, Te), messages forwarded and messages of its own (key, Te, tick); last
accepted edge (plus 1) and end of the output pulse of each XT line; first late and first lost noted. -/
structure Mtb where
  thetas : List Int := []
  okRun : Nat := 0
  holdFrom : Nat := 0
  slewOnly : Bool := false
  hbeat : Nat := 0
  standbyAligned : Bool := false
  failSent : Bool := false
  atStart : Bool := false
  causeNoted : Nat := 0
  deliver : List (Nat × Nat × Nat) := []
  forwarded : List (Nat × Nat × Nat) := []
  own : List (Nat × Nat × Nat) := []
  xtLast : KMap Nat := []
  xtEnd : KMap Nat := []
  lateNote : Bool := false
  lostNote : Bool := false
  deriving DecidableEq, Repr

/-! ### Faults, power, supervisor, NOR (R481–R524) -/

/-- A NOR write operation (R514): the block that uses the flash (NVM_STAT.USER), the region code, the
ranges erased first (offset, length), the bytes to write, each in order, and a value its block needs at the end. -/
structure NorOp where
  user : Nat := 0
  region : Nat := 0
  erases : List (Nat × Nat) := []
  writes : List (Nat × List Byte) := []
  arg : Nat := 0
  deriving DecidableEq, Repr

/-- The supervisor core (R487, R515–R520): the operation that runs (1 FW_STORE, 2 an activation, 3 a
reversion), the code with which the flash has ended a store, the tick of the activation that awaits
CONFIRM, the tick of the last heartbeat while the watchdog acts, and the slot and trailer of the firmware whose digest
the always-on retention holds (R517). -/
structure Sup where
  op : Nat := 0
  stored : Option Nat := none
  activated : Nat := 0
  watch : Option Nat := none
  digest : Option (Nat × List Byte) := none
  deriving DecidableEq, Repr

/-- Power units and the start machine. `units` is keyed by kind × 256 + index (R498): 0 ACTIVE, 1 ENTERING
past AP1, 2 past AP2, 3 LOW, 4 WAKING; `entryAt` the Module Time of AP1, `workAt` that of a unit's latest work or
wake, from which its idle timer runs (R497, R502; kind 4: R385), `wakeAt` that at which its latest wake from LOW began
(R436), and `srcAt` that of the latest wake source that reached it while ACTIVE, with the source (R501). A start is in progress, its cause
(R507) and tick of begin; the tick at which its step in progress began, the ticks it took before Module Time began at 0,
those it waited under PFW_N, and the tick PFW_N was asserted (R506, R511); RST_N is low, and the start waits for its rise;
the rails or PLL command that runs (OP of PWR_CMD, tiles); junction above 110 and 120 °C; the level SAFELIGHT holds. -/
structure Pwr where
  on : Bool := true
  units : KMap Nat := []
  entryAt : KMap Nat := []
  workAt : KMap Nat := []
  wakeAt : KMap Nat := []
  srcAt : KMap (Option (Nat × Nat)) := []
  starting : Bool := true
  startAt : Nat := 0
  stepAt : Nat := 0
  spent : Nat := 0
  waited : Nat := 0
  pfwAt : Nat := 0
  rstLow : Bool := false
  cmd : Nat := 0
  cmdTiles : Nat := 0
  jt110 : Bool := false
  jt120 : Bool := false
  slLevel : Bool := false
  deriving DecidableEq, Repr

/-- The states of the TAP controller of IEEE 1149.1 (R539). -/
inductive Tap where
  | reset | idle
  | selDr | capDr | shDr | ex1Dr | pauDr | ex2Dr | updDr
  | selIr | capIr | shIr | ex1Ir | pauIr | ex2Ir | updIr
  deriving DecidableEq, Repr

/-- The JTAG port (R539): the TAP controller; the instruction in force (0 BYPASS, 1 IDCODE, 2 SAMPLE/PRELOAD, 3
EXTEST); the shift paths of instruction and data registers, first bit out first; the levels that the boundary cells
hold for the lands; TDO; and the lock fuse. -/
structure Jtag where
  tap : Tap := .reset
  ir : Nat := 1
  irShift : List Bool := []
  drShift : List Bool := []
  cells : List Bool := []
  tdo : Bool := true
  lock : Bool := false
  deriving DecidableEq, Repr

/-- The state of the module. -/
structure State where
  /-- Commands that wait, first in, first out. -/
  pending : List Instr := []
  /-- Module Time, in ticks (R10, R460). -/
  mt : Nat := 0
  /-- Every register of BAR0 at its address: the value a read returns (R5). -/
  regs : KMap Word := []
  /-- The applied value of a staged (ST) register (R216–R218). -/
  applied : KMap Word := []
  /-- The ST registers with a staged write. -/
  staged : KMap Bool := []
  /-- Staged period pairs, by sequencer × 16 + entry (R174). -/
  perStg : KMap (Option (Nat × Nat)) := []
  /-- Upper words and windows latched for a domain, by domain × 2^26 + address (R6, R258, R372). -/
  latch : KMap (Option Word) := []
  /-- Module DRAM, by byte address (R376). -/
  dram : KMap Byte := []
  /-- On-chip SRAM, by BAR4 offset (R424). -/
  sram : KMap Byte := []
  /-- Serial NOR flash, by offset (R513). -/
  nor : KMap Byte := []
  /-- The structure in force. -/
  str : Structure := {}
  /-- The structure operation in progress. -/
  sti : Option StiOp := none
  seq : KMap SeqUnit := []
  chn : KMap ChUnit := []
  /-- Waveform entry buffers: requesters D0–D15 are 0–15, DC0–DC15 are 16–31 (R159). -/
  wbuf : KMap (Option EntryBuf) := []
  /-- D0's protection entry buffer (R432): slot and held words. -/
  ptbuf : Option EntryBuf := none
  /-- Commits of a waveform entry not all in effect, oldest first, by BAR4 offset (R160). -/
  wold : KMap (List WftOld) := []
  /-- The epoch number has reached the reserve: nothing is published until reset (R228). -/
  epochStop : Bool := false
  tmu : KMap TmuUnit := []
  /-- Channels with stamp records to move, in the order of service, each with the tick since which it waits (R272). -/
  stampQ : List (Nat × Nat) := []
  acq : KMap AcqUnit := []
  cal : Cal := {}
  ane : Ane := {}
  drc : Drc := {}
  dma : KMap DmaUnit := []
  port : KMap Port := []
  lane : KMap Lane := []
  mtb : Mtb := {}
  /-- Faults detected that have not reached the collector (R482). -/
  detected : List FaultRec := []
  /-- Faults that reached the collector in the present round (R482). -/
  round : List FaultRec := []
  /-- Faults numbered since cold start (R489). -/
  fltNum : Nat := 0
  /-- NOR write operations, the running one first (R514), and erases by 64 kB sector (R524). -/
  norq : List NorOp := []
  erases : KMap Nat := []
  /-- The supervisor core. -/
  sup : Sup := {}
  /-- Public keys in the key fuses, by slot, where they are not those of Config.keyPoint (R56). -/
  keys : KMap (Nat × Nat) := []
  /-- Epoch-recovery fuses blown (R229). -/
  recov : Nat := 0
  /-- GLB_APPLY writes so far: the number of the last explicit apply command (R111). -/
  applies : Nat := 0
  /-- Power units and the start machine. -/
  pwr : Pwr := {}
  /-- Virtual functions enabled: 1 … `vfs` (R418). -/
  vfs : Nat := 0
  /-- MSI-X summaries that are 1, by function × 64 + vector (R429). -/
  msixOn : KMap Bool := []
  /-- MSI-X vectors masked by the host, and their Pending Bits, by function × 64 + vector. -/
  msixMask : KMap Bool := []
  msixPend : KMap Bool := []
  /-- Margins of the pace monitors (R187), the NOTE fault of a low margin is made, the tick since which the lowest
  margin has stayed at or above 1.40 with VCORE as it is (R189), and the spare edge generators whose delay line is
  being relocked (R179). -/
  pace : KMap Nat := []
  paceNoted : Bool := false
  avsFrom : Nat := 0
  spareUnlock : Nat := 0
  /-- The JTAG port. -/
  jtag : Jtag := {}
  /-- The counter of free values (log entry 5): the next one to draw. -/
  free : Nat := 0
  /-- What the last host read returned, and its completion was marked poisoned (the model's own port). -/
  rdata : List Word := []
  rpoison : Bool := false
  /-- What the module has sent out, newest first (the model's own port). -/
  out : List Output := []
  deriving DecidableEq, Repr

/-- The state right after power-on reset: every register at its reset value, the empty structure
(R71), memories with nothing listed, a cold start just begun at step 1 (R508). -/
def State.reset : State := {}

end Sys2Proof.Machine
end

