-- ==== Sys2Proof/Machine/Regs.lean ====
section
/-! DEFINITION. The register map of BAR0 (R7, R420): the address of every register, as the
block tables of the chapters give it, and for each block the list of its rows: offset, stride and
count, access code of R5, reset value and the mask of the bits a write may touch (R3: reserved bits
read 0). -/

namespace Sys2Proof.Machine

/-- Access codes of R5. -/
inductive Acc where
  | rw | ro | wo | w1c | st
  deriving DecidableEq, Repr

/-- One row of a register table: `cnt` registers from offset `off`, `step` bytes apart. -/
structure RegRow where
  off : Nat
  step : Nat
  cnt : Nat
  acc : Acc
  reset : Nat
  mask : Nat
  deriving DecidableEq, Repr

/-- One block of R420: its range, its instances, the rows of instance 0 only (global registers) and
the rows of every instance. -/
structure RegBlock where
  base : Nat
  top : Nat
  insts : Nat
  stride : Nat
  globals : List RegRow
  rows : List RegRow
  deriving DecidableEq, Repr

namespace Reg


/-- STI_ID, R72 RO. -/
def STI_ID : Nat := 0x100000
/-- STI_CMD, R72 WO. -/
def STI_CMD : Nat := 0x100004
/-- STI_SRC_LO, R72 RW. -/
def STI_SRC_LO : Nat := 0x100008
/-- STI_SRC_HI, R72 RW. -/
def STI_SRC_HI : Nat := 0x10000C
/-- STI_STAT, R72 RO. -/
def STI_STAT : Nat := 0x100010
/-- STI_ERR, R72 RO. -/
def STI_ERR : Nat := 0x100014
/-- STI_ERR_OFS, R72 RO. -/
def STI_ERR_OFS : Nat := 0x100018
/-- STI_GEN, R72 RO. -/
def STI_GEN : Nat := 0x10001C
/-- STI_TGEN0, R72 RO. -/
def STI_TGEN0 : Nat := 0x100020
/-- STI_TGEN1, R72 RO. -/
def STI_TGEN1 : Nat := 0x100024
/-- STI_TGEN2, R72 RO. -/
def STI_TGEN2 : Nat := 0x100028
/-- STI_TGEN3, R72 RO. -/
def STI_TGEN3 : Nat := 0x10002C
/-- STI_STOPPED, R72 RO. -/
def STI_STOPPED : Nat := 0x100030
/-- STI_DRAIN, R72 RW. -/
def STI_DRAIN : Nat := 0x100034
/-- STI_BOOT, R72 RW. -/
def STI_BOOT : Nat := 0x100038
/-- STI_KEYS, R72 RO. -/
def STI_KEYS : Nat := 0x10003C
/-- STI_ISTAT, R72 W1C. -/
def STI_ISTAT : Nat := 0x100040
/-- STI_IEN, R72 RW. -/
def STI_IEN : Nat := 0x100044
/-- STI_DIGEST, R72 RO. -/
def STI_DIGEST (i : Nat) : Nat := 0x100048 + 4 * i
/-- STI_LOST, R72 RO. -/
def STI_LOST : Nat := 0x100078

/-- SEQ_CTL, R115 RW. -/
def SEQ_CTL (n : Nat) : Nat := 0x200000 + 0x10000 * n
/-- SEQ_CMD, R115 WO. -/
def SEQ_CMD (n : Nat) : Nat := 0x200004 + 0x10000 * n
/-- SEQ_STAT, R115 RO. -/
def SEQ_STAT (n : Nat) : Nat := 0x200008 + 0x10000 * n
/-- SEQ_PC_START, R115 RW. -/
def SEQ_PC_START (n : Nat) : Nat := 0x20000C + 0x10000 * n
/-- SEQ_PC, R115 RO. -/
def SEQ_PC (n : Nat) : Nat := 0x200010 + 0x10000 * n
/-- SEQ_SEG, R115 RO. -/
def SEQ_SEG (n : Nat) : Nat := 0x200014 + 0x10000 * n
/-- SEQ_VCNT_LO, R115 RO. -/
def SEQ_VCNT_LO (n : Nat) : Nat := 0x200018 + 0x10000 * n
/-- SEQ_VCNT_HI, R115 RO. -/
def SEQ_VCNT_HI (n : Nat) : Nat := 0x20001C + 0x10000 * n
/-- SEQ_TSTART_LO, R115 RO. -/
def SEQ_TSTART_LO (n : Nat) : Nat := 0x200020 + 0x10000 * n
/-- SEQ_TSTART_HI, R115 RO. -/
def SEQ_TSTART_HI (n : Nat) : Nat := 0x200024 + 0x10000 * n
/-- SEQ_HZN, R115 RO. -/
def SEQ_HZN (n : Nat) : Nat := 0x200028 + 0x10000 * n
/-- SEQ_HZN_T, R115 RO. -/
def SEQ_HZN_T (n : Nat) : Nat := 0x20002C + 0x10000 * n
/-- SEQ_SITES_LO, R115 RO. -/
def SEQ_SITES_LO (n : Nat) : Nat := 0x200030 + 0x10000 * n
/-- SEQ_SITES_HI, R115 RO. -/
def SEQ_SITES_HI (n : Nat) : Nat := 0x200034 + 0x10000 * n
/-- SEQ_SITEEN_LO, R115 RW. -/
def SEQ_SITEEN_LO (n : Nat) : Nat := 0x200038 + 0x10000 * n
/-- SEQ_SITEEN_HI, R115 RW. -/
def SEQ_SITEEN_HI (n : Nat) : Nat := 0x20003C + 0x10000 * n
/-- SEQ_ACTIVE_LO, R115 RO. -/
def SEQ_ACTIVE_LO (n : Nat) : Nat := 0x200040 + 0x10000 * n
/-- SEQ_ACTIVE_HI, R115 RO. -/
def SEQ_ACTIVE_HI (n : Nat) : Nat := 0x200044 + 0x10000 * n
/-- SEQ_DROPEN_LO, R115 ST. -/
def SEQ_DROPEN_LO (n : Nat) : Nat := 0x200048 + 0x10000 * n
/-- SEQ_DROPEN_HI, R115 ST. -/
def SEQ_DROPEN_HI (n : Nat) : Nat := 0x20004C + 0x10000 * n
/-- SEQ_DROPREQ_LO, R115 WO. -/
def SEQ_DROPREQ_LO (n : Nat) : Nat := 0x200050 + 0x10000 * n
/-- SEQ_DROPREQ_HI, R115 WO. -/
def SEQ_DROPREQ_HI (n : Nat) : Nat := 0x200054 + 0x10000 * n
/-- SEQ_FLAGS, R115 RO. -/
def SEQ_FLAGS (n : Nat) : Nat := 0x200058 + 0x10000 * n
/-- SEQ_TPEND, R115 W1C. -/
def SEQ_TPEND (n : Nat) : Nat := 0x20005C + 0x10000 * n
/-- SEQ_HTRIG, R115 WO. -/
def SEQ_HTRIG (n : Nat) : Nat := 0x200060 + 0x10000 * n
/-- SEQ_SEL, R115 RO. -/
def SEQ_SEL (n : Nat) : Nat := 0x200064 + 0x10000 * n
/-- SEQ_SP, R115 RO. -/
def SEQ_SP (n : Nat) : Nat := 0x200068 + 0x10000 * n
/-- SEQ_MATCH, R115 RO. -/
def SEQ_MATCH (n : Nat) : Nat := 0x20006C + 0x10000 * n
/-- SEQ_TSET, R115 ST. -/
def SEQ_TSET (n : Nat) (i : Nat) : Nat := 0x200070 + 0x10000 * n + 4 * i
/-- SEQ_JVEC, R115 ST. -/
def SEQ_JVEC (n : Nat) (i : Nat) : Nat := 0x200090 + 0x10000 * n + 4 * i
/-- SEQ_JREQ, R115 WO. -/
def SEQ_JREQ (n : Nat) : Nat := 0x2000A0 + 0x10000 * n
/-- SEQ_JPEND, R115 RO. -/
def SEQ_JPEND (n : Nat) : Nat := 0x2000A4 + 0x10000 * n
/-- SEQ_LEADER, R115 ST. -/
def SEQ_LEADER (n : Nat) : Nat := 0x2000A8 + 0x10000 * n
/-- SEQ_SPL_BASE, R115 ST. -/
def SEQ_SPL_BASE (n : Nat) : Nat := 0x2000AC + 0x10000 * n
/-- SEQ_SPL_LEN, R115 ST. -/
def SEQ_SPL_LEN (n : Nat) : Nat := 0x2000B0 + 0x10000 * n
/-- SEQ_SPL_RD, R115 RO. -/
def SEQ_SPL_RD (n : Nat) : Nat := 0x2000B4 + 0x10000 * n
/-- SEQ_LDR_CNT, R115 RO. -/
def SEQ_LDR_CNT (n : Nat) : Nat := 0x2000B8 + 0x10000 * n
/-- SEQ_UR_WARN, R115 RO. -/
def SEQ_UR_WARN (n : Nat) : Nat := 0x2000BC + 0x10000 * n
/-- SEQ_FCODE, R115 RO. -/
def SEQ_FCODE (n : Nat) : Nat := 0x2000C0 + 0x10000 * n
/-- SEQ_FPC, R115 RO. -/
def SEQ_FPC (n : Nat) : Nat := 0x2000C4 + 0x10000 * n
/-- SEQ_ISTAT, R115 W1C. -/
def SEQ_ISTAT (n : Nat) : Nat := 0x2000C8 + 0x10000 * n
/-- SEQ_IEN, R115 RW. -/
def SEQ_IEN (n : Nat) : Nat := 0x2000CC + 0x10000 * n
/-- SEQ_LC, R115 RO. -/
def SEQ_LC (n : Nat) (i : Nat) : Nat := 0x2000D0 + 0x10000 * n + 4 * i

/-- CHN_FMT_CTL, R168 RW. -/
def CHN_FMT_CTL (n : Nat) : Nat := 0x600000 + 0x1000 * n
/-- CHN_WFT_BASE, R168 RO. -/
def CHN_WFT_BASE (n : Nat) : Nat := 0x600004 + 0x1000 * n
/-- CHN_SER, R168 ST. -/
def CHN_SER (n : Nat) : Nat := 0x600008 + 0x1000 * n
/-- CHN_IDLE, R168 ST. -/
def CHN_IDLE (n : Nat) : Nat := 0x60000C + 0x1000 * n
/-- CHN_WFT_STAT, R168 RO. -/
def CHN_WFT_STAT (n : Nat) : Nat := 0x600010 + 0x1000 * n
/-- CHN_COLL, R168 RO. -/
def CHN_COLL (n : Nat) : Nat := 0x600014 + 0x1000 * n
/-- CHN_LATE, R168 RO. -/
def CHN_LATE (n : Nat) : Nat := 0x600018 + 0x1000 * n
/-- CHN_DROP_VEC_LO, R168 RO. -/
def CHN_DROP_VEC_LO (n : Nat) : Nat := 0x60001C + 0x1000 * n
/-- CHN_DROP_VEC_HI, R168 RO. -/
def CHN_DROP_VEC_HI (n : Nat) : Nat := 0x600020 + 0x1000 * n
/-- CHN_ISTAT, R168 W1C. -/
def CHN_ISTAT (n : Nat) : Nat := 0x600024 + 0x1000 * n
/-- CHN_IEN, R168 RW. -/
def CHN_IEN (n : Nat) : Nat := 0x600028 + 0x1000 * n

/-- TMG_ID, R191 RO. -/
def TMG_ID : Nat := 0x400000
/-- TMG_CLK_STAT, R191 RO. -/
def TMG_CLK_STAT : Nat := 0x400004
/-- TMG_DLL_FAIL, R191 RO. -/
def TMG_DLL_FAIL (i : Nat) : Nat := 0x400008 + 4 * i
/-- TMG_DLL_FAIL_SP, R191 RO. -/
def TMG_DLL_FAIL_SP : Nat := 0x400018
/-- TMG_VCORE, R191 RO. -/
def TMG_VCORE : Nat := 0x40001C
/-- TMG_PACE_MIN, R191 RO. -/
def TMG_PACE_MIN : Nat := 0x400020
/-- TMG_PACE_LOW, R191 RO. -/
def TMG_PACE_LOW : Nat := 0x400024
/-- TMG_AVS_CTL, R191 RW. -/
def TMG_AVS_CTL : Nat := 0x400028
/-- TMG_CMD, R191 WO. -/
def TMG_CMD : Nat := 0x40002C
/-- TMG_ISTAT, R191 W1C. -/
def TMG_ISTAT : Nat := 0x400030
/-- TMG_IEN, R191 RW. -/
def TMG_IEN : Nat := 0x400034
/-- TMG_ERR, R191 RO. -/
def TMG_ERR : Nat := 0x400038
/-- TMG_PER_LO, R191 ST. -/
def TMG_PER_LO (n : Nat) (i : Nat) : Nat := 0x400100 + 0x1000 * n + 8 * i
/-- TMG_PER_HI, R191 ST. -/
def TMG_PER_HI (n : Nat) (i : Nat) : Nat := 0x400104 + 0x1000 * n + 8 * i
/-- TMG_ACC0, R191 RO. -/
def TMG_ACC0 (n : Nat) : Nat := 0x400180 + 0x1000 * n
/-- TMG_ACC1, R191 RO. -/
def TMG_ACC1 (n : Nat) : Nat := 0x400184 + 0x1000 * n
/-- TMG_ACC2, R191 RO. -/
def TMG_ACC2 (n : Nat) : Nat := 0x400188 + 0x1000 * n
/-- TMG_PACE, R191 RO. -/
def TMG_PACE (n : Nat) : Nat := 0x40018C + 0x1000 * n
/-- TMG_FIFO_MIN, R191 RO. -/
def TMG_FIFO_MIN (n : Nat) : Nat := 0x400190 + 0x1000 * n
/-- TMG_PFLT, R191 RO. -/
def TMG_PFLT (n : Nat) : Nat := 0x400194 + 0x1000 * n
/-- TMG_PFLT_VEC_LO, R191 RO. -/
def TMG_PFLT_VEC_LO (n : Nat) : Nat := 0x400198 + 0x1000 * n
/-- TMG_PFLT_VEC_HI, R191 RO. -/
def TMG_PFLT_VEC_HI (n : Nat) : Nat := 0x40019C + 0x1000 * n

/-- CHN_DSK_PATH, R192 RW. -/
def CHN_DSK_PATH (n : Nat) : Nat := 0x600200 + 0x1000 * n
/-- CHN_DSK_DRV, R192 RO. -/
def CHN_DSK_DRV (n : Nat) : Nat := 0x600204 + 0x1000 * n
/-- CHN_DSK_CMP, R192 RO. -/
def CHN_DSK_CMP (n : Nat) : Nat := 0x600208 + 0x1000 * n
/-- CHN_EDGE_STAT, R192 RO. -/
def CHN_EDGE_STAT (n : Nat) : Nat := 0x60020C + 0x1000 * n
/-- CHN_FIFO, R192 RO. -/
def CHN_FIFO (n : Nat) : Nat := 0x600210 + 0x1000 * n
/-- CHN_MASK, R215 ST. -/
def CHN_MASK (n : Nat) : Nat := 0x600040 + 0x1000 * n
/-- CHN_FLOG_CTL, R215 ST. -/
def CHN_FLOG_CTL (n : Nat) : Nat := 0x600044 + 0x1000 * n
/-- CHN_FLOG_LIMIT, R215 ST. -/
def CHN_FLOG_LIMIT (n : Nat) : Nat := 0x600048 + 0x1000 * n
/-- CHN_CMP_STAT, R215 RO. -/
def CHN_CMP_STAT (n : Nat) : Nat := 0x60004C + 0x1000 * n
/-- CHN_FCNT_LO, R215 RO. -/
def CHN_FCNT_LO (n : Nat) : Nat := 0x600050 + 0x1000 * n
/-- CHN_FCNT_HI, R215 RO. -/
def CHN_FCNT_HI (n : Nat) : Nat := 0x600054 + 0x1000 * n
/-- CHN_CCNT_LO, R215 RO. -/
def CHN_CCNT_LO (n : Nat) : Nat := 0x600058 + 0x1000 * n
/-- CHN_CCNT_HI, R215 RO. -/
def CHN_CCNT_HI (n : Nat) : Nat := 0x60005C + 0x1000 * n
/-- CHN_MFCNT, R215 RO. -/
def CHN_MFCNT (n : Nat) : Nat := 0x600060 + 0x1000 * n
/-- CHN_FFV_LO, R215 RO. -/
def CHN_FFV_LO (n : Nat) : Nat := 0x600064 + 0x1000 * n
/-- CHN_FFV_HI, R215 RO. -/
def CHN_FFV_HI (n : Nat) : Nat := 0x600068 + 0x1000 * n
/-- CHN_FF_INFO, R215 RO. -/
def CHN_FF_INFO (n : Nat) : Nat := 0x60006C + 0x1000 * n
/-- CHN_FF_SEG, R215 RO. -/
def CHN_FF_SEG (n : Nat) : Nat := 0x600070 + 0x1000 * n
/-- CHN_FLOG_CNT_LO, R215 RO. -/
def CHN_FLOG_CNT_LO (n : Nat) : Nat := 0x600074 + 0x1000 * n
/-- CHN_FLOG_CNT_HI, R215 RO. -/
def CHN_FLOG_CNT_HI (n : Nat) : Nat := 0x600078 + 0x1000 * n
/-- CHN_FLOG_LOST_LO, R215 RO. -/
def CHN_FLOG_LOST_LO (n : Nat) : Nat := 0x60007C + 0x1000 * n
/-- CHN_FLOG_LOST_HI, R215 RO. -/
def CHN_FLOG_LOST_HI (n : Nat) : Nat := 0x600080 + 0x1000 * n
/-- CHN_FLOG_LREASON, R215 RO. -/
def CHN_FLOG_LREASON (n : Nat) : Nat := 0x600084 + 0x1000 * n
/-- CHN_FLOG_LVEC_LO, R215 RO. -/
def CHN_FLOG_LVEC_LO (n : Nat) : Nat := 0x600088 + 0x1000 * n
/-- CHN_FLOG_LVEC_HI, R215 RO. -/
def CHN_FLOG_LVEC_HI (n : Nat) : Nat := 0x60008C + 0x1000 * n
/-- CHN_CMP_ISTAT, R215 W1C. -/
def CHN_CMP_ISTAT (n : Nat) : Nat := 0x600090 + 0x1000 * n
/-- CHN_CMP_IEN, R215 RW. -/
def CHN_CMP_IEN (n : Nat) : Nat := 0x600094 + 0x1000 * n

/-- GLB_APPLY, R220 WO. -/
def GLB_APPLY : Nat := 0x100
/-- GLB_STG_HOLD, R220 RW. -/
def GLB_STG_HOLD : Nat := 0x104

/-- CSH_ID, R241 RO. -/
def CSH_ID : Nat := 0xE00000
/-- CSH_AREA, R241 RO. -/
def CSH_AREA : Nat := 0xE00004
/-- CSH_ENEXT_LO, R241 RO. -/
def CSH_ENEXT_LO : Nat := 0xE00008
/-- CSH_ENEXT_HI, R241 RO. -/
def CSH_ENEXT_HI : Nat := 0xE0000C
/-- CSH_ERES_LO, R241 RO. -/
def CSH_ERES_LO : Nat := 0xE00010
/-- CSH_ERES_HI, R241 RO. -/
def CSH_ERES_HI : Nat := 0xE00014
/-- CSH_ACQ, R241 RO. -/
def CSH_ACQ (n : Nat) : Nat := 0xE00100 + 0x1000 * n
/-- CSH_REL, R241 WO. -/
def CSH_REL (n : Nat) : Nat := 0xE00104 + 0x1000 * n
/-- CSH_STAT, R241 RO. -/
def CSH_STAT (n : Nat) : Nat := 0xE00108 + 0x1000 * n
/-- CSH_AEPOCH_LO, R241 RO. -/
def CSH_AEPOCH_LO (n : Nat) : Nat := 0xE0010C + 0x1000 * n
/-- CSH_AEPOCH_HI, R241 RO. -/
def CSH_AEPOCH_HI (n : Nat) : Nat := 0xE00110 + 0x1000 * n
/-- CSH_NEPOCH_LO, R241 RO. -/
def CSH_NEPOCH_LO (n : Nat) : Nat := 0xE00114 + 0x1000 * n
/-- CSH_NEPOCH_HI, R241 RO. -/
def CSH_NEPOCH_HI (n : Nat) : Nat := 0xE00118 + 0x1000 * n
/-- CSH_NINDEX, R241 RO. -/
def CSH_NINDEX (n : Nat) : Nat := 0xE0011C + 0x1000 * n
/-- CSH_SKIPPED, R241 RO. -/
def CSH_SKIPPED (n : Nat) : Nat := 0xE00120 + 0x1000 * n
/-- CSH_BUF_OFS, R241 RO. -/
def CSH_BUF_OFS (n : Nat) (i : Nat) : Nat := 0xE00124 + 0x1000 * n + 4 * i
/-- CSH_FREL, R241 WO. -/
def CSH_FREL (n : Nat) : Nat := 0xE00130 + 0x1000 * n
/-- CSH_ISTAT, R241 W1C. -/
def CSH_ISTAT (n : Nat) : Nat := 0xE00134 + 0x1000 * n
/-- CSH_IEN, R241 RW. -/
def CSH_IEN (n : Nat) : Nat := 0xE00138 + 0x1000 * n

/-- TMU_ID, R276 RO. -/
def TMU_ID : Nat := 0x800000
/-- TMU_CAL_CTL, R276 RW. -/
def TMU_CAL_CTL : Nat := 0x800004
/-- TMU_CAPOFS, R276 RO. -/
def TMU_CAPOFS : Nat := 0x800008
/-- TMU_ISUM, R276 RO. -/
def TMU_ISUM (i : Nat) : Nat := 0x800010 + 4 * i
/-- TMU_CTL, R276 RW. -/
def TMU_CTL (n : Nat) : Nat := 0x800100 + 0x1000 * n
/-- TMU_INP, R276 RW. -/
def TMU_INP (n : Nat) : Nat := 0x800104 + 0x1000 * n
/-- TMU_OPEN, R276 RW. -/
def TMU_OPEN (n : Nat) (i : Nat) : Nat := 0x800108 + 0x1000 * n + 4 * i
/-- TMU_CLOSE, R276 RW. -/
def TMU_CLOSE (n : Nat) (i : Nat) : Nat := 0x800114 + 0x1000 * n + 4 * i
/-- TMU_LEN_LO, R276 RW. -/
def TMU_LEN_LO (n : Nat) : Nat := 0x800120 + 0x1000 * n
/-- TMU_LEN_HI, R276 RW. -/
def TMU_LEN_HI (n : Nat) : Nat := 0x800124 + 0x1000 * n
/-- TMU_COUNT, R276 RW. -/
def TMU_COUNT (n : Nat) : Nat := 0x800128 + 0x1000 * n
/-- TMU_RANGE, R276 RW. -/
def TMU_RANGE (n : Nat) : Nat := 0x80012C + 0x1000 * n
/-- TMU_HORG_LO, R276 RW. -/
def TMU_HORG_LO (n : Nat) : Nat := 0x800130 + 0x1000 * n
/-- TMU_HORG_HI, R276 RW. -/
def TMU_HORG_HI (n : Nat) : Nat := 0x800134 + 0x1000 * n
/-- TMU_HWID, R276 RW. -/
def TMU_HWID (n : Nat) : Nat := 0x800138 + 0x1000 * n
/-- TMU_DR_BASE_LO, R276 RW. -/
def TMU_DR_BASE_LO (n : Nat) : Nat := 0x80013C + 0x1000 * n
/-- TMU_DR_BASE_HI, R276 RW. -/
def TMU_DR_BASE_HI (n : Nat) : Nat := 0x800140 + 0x1000 * n
/-- TMU_RSIZE, R276 RW. -/
def TMU_RSIZE (n : Nat) : Nat := 0x800144 + 0x1000 * n
/-- TMU_RD, R276 RW. -/
def TMU_RD (n : Nat) : Nat := 0x800148 + 0x1000 * n
/-- TMU_WR, R276 RO. -/
def TMU_WR (n : Nat) : Nat := 0x80014C + 0x1000 * n
/-- TMU_CMD, R276 WO. -/
def TMU_CMD (n : Nat) : Nat := 0x800150 + 0x1000 * n
/-- TMU_STAT, R276 RO. -/
def TMU_STAT (n : Nat) : Nat := 0x800154 + 0x1000 * n
/-- TMU_ERR, R276 RO. -/
def TMU_ERR (n : Nat) : Nat := 0x800158 + 0x1000 * n
/-- TMU_ZERO, R276 RO. -/
def TMU_ZERO (n : Nat) : Nat := 0x80015C + 0x1000 * n
/-- TMU_HITS_LO, R276 RO. -/
def TMU_HITS_LO (n : Nat) : Nat := 0x800160 + 0x1000 * n
/-- TMU_HITS_HI, R276 RO. -/
def TMU_HITS_HI (n : Nat) : Nat := 0x800164 + 0x1000 * n
/-- TMU_STAMPS_LO, R276 RO. -/
def TMU_STAMPS_LO (n : Nat) : Nat := 0x800168 + 0x1000 * n
/-- TMU_STAMPS_HI, R276 RO. -/
def TMU_STAMPS_HI (n : Nat) : Nat := 0x80016C + 0x1000 * n
/-- TMU_MISS_LO, R276 RO. -/
def TMU_MISS_LO (n : Nat) : Nat := 0x800170 + 0x1000 * n
/-- TMU_MISS_HI, R276 RO. -/
def TMU_MISS_HI (n : Nat) : Nat := 0x800174 + 0x1000 * n
/-- TMU_LOST_LO, R276 RO. -/
def TMU_LOST_LO (n : Nat) : Nat := 0x800178 + 0x1000 * n
/-- TMU_LOST_HI, R276 RO. -/
def TMU_LOST_HI (n : Nat) : Nat := 0x80017C + 0x1000 * n
/-- TMU_LOST1, R276 RO. -/
def TMU_LOST1 (n : Nat) : Nat := 0x800180 + 0x1000 * n
/-- TMU_CAL_AGE, R276 RO. -/
def TMU_CAL_AGE (n : Nat) : Nat := 0x800184 + 0x1000 * n
/-- TMU_ISTAT, R276 W1C. -/
def TMU_ISTAT (n : Nat) : Nat := 0x800188 + 0x1000 * n
/-- TMU_IEN, R276 RW. -/
def TMU_IEN (n : Nat) : Nat := 0x80018C + 0x1000 * n
/-- TMU_HUNDER, R276 RO. -/
def TMU_HUNDER (n : Nat) : Nat := 0x800190 + 0x1000 * n
/-- TMU_HOVER, R276 RO. -/
def TMU_HOVER (n : Nat) : Nat := 0x800194 + 0x1000 * n
/-- TMU_RSEQ, R276 RO. -/
def TMU_RSEQ (n : Nat) : Nat := 0x800200 + 0x1000 * n
/-- TMU_RFLAGS, R276 RO. -/
def TMU_RFLAGS (n : Nat) : Nat := 0x800204 + 0x1000 * n
/-- TMU_ROPEN, R276 RO. -/
def TMU_ROPEN (n : Nat) (i : Nat) : Nat := 0x800208 + 0x1000 * n + 4 * i
/-- TMU_RCLOSE, R276 RO. -/
def TMU_RCLOSE (n : Nat) (i : Nat) : Nat := 0x800214 + 0x1000 * n + 4 * i
/-- TMU_T0, R276 RO. -/
def TMU_T0 (n : Nat) (i : Nat) : Nat := 0x800220 + 0x1000 * n + 4 * i
/-- TMU_N_LO, R276 RO. -/
def TMU_N_LO (n : Nat) : Nat := 0x800230 + 0x1000 * n
/-- TMU_N_HI, R276 RO. -/
def TMU_N_HI (n : Nat) : Nat := 0x800234 + 0x1000 * n
/-- TMU_SUM, R276 RO. -/
def TMU_SUM (n : Nat) (i : Nat) : Nat := 0x800238 + 0x1000 * n + 4 * i
/-- TMU_SQ, R276 RO. -/
def TMU_SQ (n : Nat) (i : Nat) : Nat := 0x800244 + 0x1000 * n + 4 * i
/-- TMU_MIN_LO, R276 RO. -/
def TMU_MIN_LO (n : Nat) : Nat := 0x800258 + 0x1000 * n
/-- TMU_MIN_HI, R276 RO. -/
def TMU_MIN_HI (n : Nat) : Nat := 0x80025C + 0x1000 * n
/-- TMU_MAX_LO, R276 RO. -/
def TMU_MAX_LO (n : Nat) : Nat := 0x800260 + 0x1000 * n
/-- TMU_MAX_HI, R276 RO. -/
def TMU_MAX_HI (n : Nat) : Nat := 0x800264 + 0x1000 * n
/-- TMU_UNPAIRED, R276 RO. -/
def TMU_UNPAIRED (n : Nat) : Nat := 0x800268 + 0x1000 * n
/-- TMU_OVR, R276 RO. -/
def TMU_OVR (n : Nat) : Nat := 0x80026C + 0x1000 * n
/-- TMU_M_LO, R276 RO. -/
def TMU_M_LO (n : Nat) : Nat := 0x800270 + 0x1000 * n
/-- TMU_M_HI, R276 RO. -/
def TMU_M_HI (n : Nat) : Nat := 0x800274 + 0x1000 * n
/-- TMU_SN, R276 RO. -/
def TMU_SN (n : Nat) (i : Nat) : Nat := 0x800278 + 0x1000 * n + 4 * i
/-- TMU_ST, R276 RO. -/
def TMU_ST (n : Nat) (i : Nat) : Nat := 0x800284 + 0x1000 * n + 4 * i
/-- TMU_SNN, R276 RO. -/
def TMU_SNN (n : Nat) (i : Nat) : Nat := 0x800290 + 0x1000 * n + 4 * i
/-- TMU_SNT, R276 RO. -/
def TMU_SNT (n : Nat) (i : Nat) : Nat := 0x8002A0 + 0x1000 * n + 4 * i
/-- TMU_BIN0, R276 RO. -/
def TMU_BIN0 (n : Nat) (i : Nat) : Nat := 0x800300 + 0x1000 * n + 4 * i
/-- TMU_BIN1, R276 RO. -/
def TMU_BIN1 (n : Nat) (i : Nat) : Nat := 0x800400 + 0x1000 * n + 4 * i

/-- ACQ_ID, R306 RO. -/
def ACQ_ID : Nat := 0xA00000
/-- ACQ_CAPOFS, R306 RO. -/
def ACQ_CAPOFS : Nat := 0xA00004
/-- ACQ_ISUM, R306 RO. -/
def ACQ_ISUM (i : Nat) : Nat := 0xA00010 + 4 * i
/-- ACQ_CTL, R306 RW. -/
def ACQ_CTL (n : Nat) : Nat := 0xA00100 + 0x1000 * n
/-- ACQ_AREA, R306 RW. -/
def ACQ_AREA (n : Nat) : Nat := 0xA00104 + 0x1000 * n
/-- ACQ_TC, R306 RW. -/
def ACQ_TC (n : Nat) : Nat := 0xA00108 + 0x1000 * n
/-- ACQ_AVG, R306 RW. -/
def ACQ_AVG (n : Nat) : Nat := 0xA0010C + 0x1000 * n
/-- ACQ_LEN, R306 RW. -/
def ACQ_LEN (n : Nat) : Nat := 0xA00110 + 0x1000 * n
/-- ACQ_PRE, R306 RW. -/
def ACQ_PRE (n : Nat) : Nat := 0xA00114 + 0x1000 * n
/-- ACQ_NFRAME, R306 RW. -/
def ACQ_NFRAME (n : Nat) : Nat := 0xA00118 + 0x1000 * n
/-- ACQ_HOLD, R306 RW. -/
def ACQ_HOLD (n : Nat) : Nat := 0xA0011C + 0x1000 * n
/-- ACQ_TMO, R306 RW. -/
def ACQ_TMO (n : Nat) : Nat := 0xA00120 + 0x1000 * n
/-- ACQ_START, R306 RW. -/
def ACQ_START (n : Nat) (i : Nat) : Nat := 0xA00124 + 0x1000 * n + 4 * i
/-- ACQ_TA, R306 RW. -/
def ACQ_TA (n : Nat) : Nat := 0xA00130 + 0x1000 * n
/-- ACQ_TA_LVL, R306 RW. -/
def ACQ_TA_LVL (n : Nat) : Nat := 0xA00134 + 0x1000 * n
/-- ACQ_TA_HYS, R306 RW. -/
def ACQ_TA_HYS (n : Nat) : Nat := 0xA00138 + 0x1000 * n
/-- ACQ_TB, R306 RW. -/
def ACQ_TB (n : Nat) : Nat := 0xA0013C + 0x1000 * n
/-- ACQ_TB_LVL, R306 RW. -/
def ACQ_TB_LVL (n : Nat) : Nat := 0xA00140 + 0x1000 * n
/-- ACQ_TB_HYS, R306 RW. -/
def ACQ_TB_HYS (n : Nat) : Nat := 0xA00144 + 0x1000 * n
/-- ACQ_MSK_BASE_LO, R306 RW. -/
def ACQ_MSK_BASE_LO (n : Nat) : Nat := 0xA00148 + 0x1000 * n
/-- ACQ_MSK_BASE_HI, R306 RW. -/
def ACQ_MSK_BASE_HI (n : Nat) : Nat := 0xA0014C + 0x1000 * n
/-- ACQ_MSK_LEN, R306 RW. -/
def ACQ_MSK_LEN (n : Nat) : Nat := 0xA00150 + 0x1000 * n
/-- ACQ_DR_BASE_LO, R306 RW. -/
def ACQ_DR_BASE_LO (n : Nat) : Nat := 0xA00154 + 0x1000 * n
/-- ACQ_DR_BASE_HI, R306 RW. -/
def ACQ_DR_BASE_HI (n : Nat) : Nat := 0xA00158 + 0x1000 * n
/-- ACQ_DR_SIZE, R306 RW. -/
def ACQ_DR_SIZE (n : Nat) : Nat := 0xA0015C + 0x1000 * n
/-- ACQ_CMD, R306 WO. -/
def ACQ_CMD (n : Nat) : Nat := 0xA00160 + 0x1000 * n
/-- ACQ_STAT, R306 RO. -/
def ACQ_STAT (n : Nat) : Nat := 0xA00164 + 0x1000 * n
/-- ACQ_ERR, R306 RO. -/
def ACQ_ERR (n : Nat) : Nat := 0xA00168 + 0x1000 * n
/-- ACQ_FDONE, R306 RO. -/
def ACQ_FDONE (n : Nat) : Nat := 0xA0016C + 0x1000 * n
/-- ACQ_TIGN, R306 RO. -/
def ACQ_TIGN (n : Nat) : Nat := 0xA00170 + 0x1000 * n
/-- ACQ_VIOL, R306 RO. -/
def ACQ_VIOL (n : Nat) : Nat := 0xA00174 + 0x1000 * n
/-- ACQ_LOSTS, R306 RO. -/
def ACQ_LOSTS (n : Nat) : Nat := 0xA00178 + 0x1000 * n
/-- ACQ_GDLY, R306 RO. -/
def ACQ_GDLY (n : Nat) : Nat := 0xA0017C + 0x1000 * n
/-- ACQ_ISTAT, R306 W1C. -/
def ACQ_ISTAT (n : Nat) : Nat := 0xA00180 + 0x1000 * n
/-- ACQ_IEN, R306 RW. -/
def ACQ_IEN (n : Nat) : Nat := 0xA00184 + 0x1000 * n
/-- ACQ_FSTRIDE, R306 RO. -/
def ACQ_FSTRIDE (n : Nat) : Nat := 0xA00188 + 0x1000 * n
/-- ACQ_LAST, R306 RO. -/
def ACQ_LAST (n : Nat) : Nat := 0xA0018C + 0x1000 * n

/-- PEL_ID, R324 RO. -/
def PEL_ID : Nat := 0xC00000
/-- PEL_TEMP, R324 RO. -/
def PEL_TEMP (i : Nat) : Nat := 0xC00004 + 4 * i
/-- PEL_ISUM, R324 RO. -/
def PEL_ISUM (i : Nat) : Nat := 0xC00020 + 4 * i
/-- PEL_DRV_CTL, R324 ST. -/
def PEL_DRV_CTL (n : Nat) : Nat := 0xC00100 + 0x1000 * n
/-- PEL_VIH, R324 ST. -/
def PEL_VIH (n : Nat) : Nat := 0xC00104 + 0x1000 * n
/-- PEL_VIL, R324 ST. -/
def PEL_VIL (n : Nat) : Nat := 0xC00108 + 0x1000 * n
/-- PEL_VT, R324 ST. -/
def PEL_VT (n : Nat) : Nat := 0xC0010C + 0x1000 * n
/-- PEL_VOH, R324 ST. -/
def PEL_VOH (n : Nat) : Nat := 0xC00110 + 0x1000 * n
/-- PEL_VOL, R324 ST. -/
def PEL_VOL (n : Nat) : Nat := 0xC00114 + 0x1000 * n
/-- PEL_IOL, R324 ST. -/
def PEL_IOL (n : Nat) : Nat := 0xC00118 + 0x1000 * n
/-- PEL_IOH, R324 ST. -/
def PEL_IOH (n : Nat) : Nat := 0xC0011C + 0x1000 * n
/-- PEL_VCOM, R324 ST. -/
def PEL_VCOM (n : Nat) : Nat := 0xC00120 + 0x1000 * n
/-- PEL_VCH, R324 ST. -/
def PEL_VCH (n : Nat) : Nat := 0xC00124 + 0x1000 * n
/-- PEL_VCL, R324 ST. -/
def PEL_VCL (n : Nat) : Nat := 0xC00128 + 0x1000 * n
/-- PEL_PMU_CTL, R324 ST. -/
def PEL_PMU_CTL (n : Nat) : Nat := 0xC0012C + 0x1000 * n
/-- PEL_PMU_FORCE, R324 ST. -/
def PEL_PMU_FORCE (n : Nat) : Nat := 0xC00130 + 0x1000 * n
/-- PEL_PMU_CLH, R324 ST. -/
def PEL_PMU_CLH (n : Nat) : Nat := 0xC00134 + 0x1000 * n
/-- PEL_PMU_CLL, R324 ST. -/
def PEL_PMU_CLL (n : Nat) : Nat := 0xC00138 + 0x1000 * n
/-- PEL_STAT, R324 RO. -/
def PEL_STAT (n : Nat) : Nat := 0xC0013C + 0x1000 * n
/-- PEL_ERR, R324 RO. -/
def PEL_ERR (n : Nat) : Nat := 0xC00140 + 0x1000 * n
/-- PEL_CMD, R324 WO. -/
def PEL_CMD (n : Nat) : Nat := 0xC00144 + 0x1000 * n
/-- PEL_REFL_CTL, R324 RW. -/
def PEL_REFL_CTL (n : Nat) : Nat := 0xC00148 + 0x1000 * n
/-- PEL_REFL_RES, R324 RO. -/
def PEL_REFL_RES (n : Nat) : Nat := 0xC0014C + 0x1000 * n
/-- PEL_REFL_RAW, R324 RO. -/
def PEL_REFL_RAW (n : Nat) : Nat := 0xC00150 + 0x1000 * n
/-- PEL_REFL_OFS, R324 RO. -/
def PEL_REFL_OFS (n : Nat) : Nat := 0xC00154 + 0x1000 * n
/-- PEL_CLAMP_CNT, R324 RO. -/
def PEL_CLAMP_CNT (n : Nat) : Nat := 0xC00158 + 0x1000 * n
/-- PEL_ISTAT, R324 W1C. -/
def PEL_ISTAT (n : Nat) : Nat := 0xC0015C + 0x1000 * n
/-- PEL_IEN, R324 RW. -/
def PEL_IEN (n : Nat) : Nat := 0xC00160 + 0x1000 * n

/-- CAL_ID, R350 RO. -/
def CAL_ID : Nat := 0xD00000
/-- CAL_CTL, R350 RW. -/
def CAL_CTL : Nat := 0xD00004
/-- CAL_CMD, R350 WO. -/
def CAL_CMD : Nat := 0xD00008
/-- CAL_STAT, R350 RO. -/
def CAL_STAT : Nat := 0xD0000C
/-- CAL_SEQ, R350 RO. -/
def CAL_SEQ : Nat := 0xD00010
/-- CAL_SEQ_A, R350 RO. -/
def CAL_SEQ_A : Nat := 0xD00014
/-- CAL_SEQ_B, R350 RO. -/
def CAL_SEQ_B : Nat := 0xD00018
/-- CAL_ROT, R350 RO. -/
def CAL_ROT : Nat := 0xD0001C
/-- CAL_REJ, R350 RO. -/
def CAL_REJ : Nat := 0xD00020
/-- CAL_REJ_CNT, R350 RO. -/
def CAL_REJ_CNT : Nat := 0xD00024
/-- CAL_TILE, R350 RO. -/
def CAL_TILE : Nat := 0xD00028
/-- CAL_ISTAT, R350 W1C. -/
def CAL_ISTAT : Nat := 0xD0002C
/-- CAL_IEN, R350 RW. -/
def CAL_IEN : Nat := 0xD00030
/-- CAL_STORE_ERR, R350 RO. -/
def CAL_STORE_ERR : Nat := 0xD00034
/-- CAL_CH_AGE, R350 RO. -/
def CAL_CH_AGE (n : Nat) : Nat := 0xD00100 + 0x1000 * n
/-- CAL_CH_STAT, R350 RO. -/
def CAL_CH_STAT (n : Nat) : Nat := 0xD00104 + 0x1000 * n
/-- CAL_CH_DIGAGE, R350 RO. -/
def CAL_CH_DIGAGE (n : Nat) : Nat := 0xD00108 + 0x1000 * n

/-- ANE_ID, R372 RO. -/
def ANE_ID : Nat := 0xF00000
/-- ANE_CTL, R372 RW. -/
def ANE_CTL : Nat := 0xF00004
/-- ANE_CMD, R372 WO. -/
def ANE_CMD : Nat := 0xF00008
/-- ANE_STAT, R372 RO. -/
def ANE_STAT : Nat := 0xF0000C
/-- ANE_POOL, R372 RO. -/
def ANE_POOL : Nat := 0xF00010
/-- ANE_GSTATE, R372 RO. -/
def ANE_GSTATE : Nat := 0xF00014
/-- ANE_NOFLOW, R372 RO. -/
def ANE_NOFLOW : Nat := 0xF00018
/-- ANE_ISTAT, R372 W1C. -/
def ANE_ISTAT : Nat := 0xF0001C
/-- ANE_IEN, R372 RW. -/
def ANE_IEN : Nat := 0xF00020
/-- ANE_NSEL, R372 RW. -/
def ANE_NSEL : Nat := 0xF00024
/-- ANE_N_INFO, R372 RO. -/
def ANE_N_INFO : Nat := 0xF00028
/-- ANE_N_OFS, R372 RO. -/
def ANE_N_OFS : Nat := 0xF0002C
/-- ANE_FSEL, R372 RW. -/
def ANE_FSEL : Nat := 0xF00030
/-- ANE_F_STAT, R372 RO. -/
def ANE_F_STAT : Nat := 0xF00034
/-- ANE_F_DEPTH, R372 RO. -/
def ANE_F_DEPTH : Nat := 0xF00038
/-- ANE_F_SPILL, R372 RO. -/
def ANE_F_SPILL : Nat := 0xF0003C
/-- ANE_F_SPMAX, R372 RO. -/
def ANE_F_SPMAX : Nat := 0xF00040
/-- ANE_F_ADMIT_LO, R372 RO. -/
def ANE_F_ADMIT_LO : Nat := 0xF00044
/-- ANE_F_ADMIT_HI, R372 RO. -/
def ANE_F_ADMIT_HI : Nat := 0xF00048
/-- ANE_F_SPILLED_LO, R372 RO. -/
def ANE_F_SPILLED_LO : Nat := 0xF0004C
/-- ANE_F_SPILLED_HI, R372 RO. -/
def ANE_F_SPILLED_HI : Nat := 0xF00050
/-- ANE_F_LOST_LO, R372 RO. -/
def ANE_F_LOST_LO : Nat := 0xF00054
/-- ANE_F_LOST_HI, R372 RO. -/
def ANE_F_LOST_HI : Nat := 0xF00058
/-- ANE_F_LREASON, R372 RO. -/
def ANE_F_LREASON : Nat := 0xF0005C
/-- ANE_F_LMT_LO, R372 RO. -/
def ANE_F_LMT_LO : Nat := 0xF00060
/-- ANE_F_LMT_HI, R372 RO. -/
def ANE_F_LMT_HI : Nat := 0xF00064
/-- ANE_F_LITEM, R372 RO. -/
def ANE_F_LITEM (i : Nat) : Nat := 0xF00068 + 4 * i
/-- ANE_F_DONE_LO, R372 RO. -/
def ANE_F_DONE_LO : Nat := 0xF00078
/-- ANE_F_DONE_HI, R372 RO. -/
def ANE_F_DONE_HI : Nat := 0xF0007C
/-- ANE_F_WAIT_MAX, R372 RO. -/
def ANE_F_WAIT_MAX : Nat := 0xF00080
/-- ANE_F_WAIT_SUM_LO, R372 RO. -/
def ANE_F_WAIT_SUM_LO : Nat := 0xF00084
/-- ANE_F_WAIT_SUM_HI, R372 RO. -/
def ANE_F_WAIT_SUM_HI : Nat := 0xF00088
/-- ANE_E_STAT, R372 RO. -/
def ANE_E_STAT (n : Nat) : Nat := 0xF00100 + 0x1000 * n
/-- ANE_E_RDYMAX, R372 RO. -/
def ANE_E_RDYMAX (n : Nat) : Nat := 0xF00104 + 0x1000 * n
/-- ANE_E_OPS_LO, R372 RO. -/
def ANE_E_OPS_LO (n : Nat) : Nat := 0xF00108 + 0x1000 * n
/-- ANE_E_OPS_HI, R372 RO. -/
def ANE_E_OPS_HI (n : Nat) : Nat := 0xF0010C + 0x1000 * n
/-- ANE_E_LOAD, R372 RO. -/
def ANE_E_LOAD (n : Nat) : Nat := 0xF00110 + 0x1000 * n

/-- DRC_ID, R395 RO. -/
def DRC_ID : Nat := 0x1000000
/-- DRC_CFG, R395 RO. -/
def DRC_CFG : Nat := 0x1000004
/-- DRC_SPEED, R395 RW. -/
def DRC_SPEED : Nat := 0x1000008
/-- DRC_CMD, R395 WO. -/
def DRC_CMD : Nat := 0x100000C
/-- DRC_STAT, R395 RO. -/
def DRC_STAT : Nat := 0x1000010
/-- DRC_SR_IDLE, R395 RW. -/
def DRC_SR_IDLE : Nat := 0x1000014
/-- DRC_SCRUB, R395 RW. -/
def DRC_SCRUB : Nat := 0x1000018
/-- DRC_SCRUB_POS, R395 RO. -/
def DRC_SCRUB_POS : Nat := 0x100001C
/-- DRC_CLR, R395 RO. -/
def DRC_CLR : Nat := 0x1000020
/-- DRC_TRAIN, R395 RO. -/
def DRC_TRAIN : Nat := 0x1000024
/-- DRC_ISTAT, R395 W1C. -/
def DRC_ISTAT : Nat := 0x1000028
/-- DRC_IEN, R395 RW. -/
def DRC_IEN : Nat := 0x100002C
/-- DRC_CH_STAT, R395 RO. -/
def DRC_CH_STAT (n : Nat) : Nat := 0x1000100 + 0x10000 * n
/-- DRC_CH_TEMP, R395 RO. -/
def DRC_CH_TEMP (n : Nat) : Nat := 0x1000104 + 0x10000 * n
/-- DRC_CE_CNT, R395 RO. -/
def DRC_CE_CNT (n : Nat) : Nat := 0x1000108 + 0x10000 * n
/-- DRC_UE_CNT, R395 RO. -/
def DRC_UE_CNT (n : Nat) : Nat := 0x100010C + 0x10000 * n
/-- DRC_FE_ADDR_LO, R395 RO. -/
def DRC_FE_ADDR_LO (n : Nat) : Nat := 0x1000110 + 0x10000 * n
/-- DRC_FE_ADDR_HI, R395 RO. -/
def DRC_FE_ADDR_HI (n : Nat) : Nat := 0x1000114 + 0x10000 * n
/-- DRC_FE_INFO, R395 RO. -/
def DRC_FE_INFO (n : Nat) : Nat := 0x1000118 + 0x10000 * n
/-- DRC_FE_MT_LO, R395 RO. -/
def DRC_FE_MT_LO (n : Nat) : Nat := 0x100011C + 0x10000 * n
/-- DRC_FE_MT_HI, R395 RO. -/
def DRC_FE_MT_HI (n : Nat) : Nat := 0x1000120 + 0x10000 * n
/-- DRC_REF_MAX, R395 RO. -/
def DRC_REF_MAX (n : Nat) : Nat := 0x1000124 + 0x10000 * n
/-- DRC_PF_LAT, R395 RO. -/
def DRC_PF_LAT (n : Nat) : Nat := 0x1000128 + 0x10000 * n
/-- DRC_INJ, R395 RW. -/
def DRC_INJ (n : Nat) : Nat := 0x100012C + 0x10000 * n
/-- DRC_CH_ISTAT, R395 W1C. -/
def DRC_CH_ISTAT (n : Nat) : Nat := 0x1000130 + 0x10000 * n

/-- DMA_ID, R414 RO. -/
def DMA_ID : Nat := 0x1100000
/-- DMA_ISUM, R414 RO. -/
def DMA_ISUM : Nat := 0x1100004
/-- DMA_ACTIVE, R414 RO. -/
def DMA_ACTIVE : Nat := 0x1100008
/-- DMA_CTL, R414 RW. -/
def DMA_CTL (n : Nat) : Nat := 0x1100100 + 0x1000 * n
/-- DMA_CMD, R414 WO. -/
def DMA_CMD (n : Nat) : Nat := 0x1100104 + 0x1000 * n
/-- DMA_STAT, R414 RO. -/
def DMA_STAT (n : Nat) : Nat := 0x1100108 + 0x1000 * n
/-- DMA_HEAD_LO, R414 RW. -/
def DMA_HEAD_LO (n : Nat) : Nat := 0x110010C + 0x1000 * n
/-- DMA_HEAD_HI, R414 RW. -/
def DMA_HEAD_HI (n : Nat) : Nat := 0x1100110 + 0x1000 * n
/-- DMA_CUR_LO, R414 RO. -/
def DMA_CUR_LO (n : Nat) : Nat := 0x1100114 + 0x1000 * n
/-- DMA_CUR_HI, R414 RO. -/
def DMA_CUR_HI (n : Nat) : Nat := 0x1100118 + 0x1000 * n
/-- DMA_DONE_CNT, R414 RO. -/
def DMA_DONE_CNT (n : Nat) : Nat := 0x110011C + 0x1000 * n
/-- DMA_BYTES_LO, R414 RO. -/
def DMA_BYTES_LO (n : Nat) : Nat := 0x1100120 + 0x1000 * n
/-- DMA_BYTES_HI, R414 RO. -/
def DMA_BYTES_HI (n : Nat) : Nat := 0x1100124 + 0x1000 * n
/-- DMA_PIDX, R414 RO. -/
def DMA_PIDX (n : Nat) : Nat := 0x1100128 + 0x1000 * n
/-- DMA_ERR, R414 RO. -/
def DMA_ERR (n : Nat) : Nat := 0x110012C + 0x1000 * n
/-- DMA_ERR_ADDR_LO, R414 RO. -/
def DMA_ERR_ADDR_LO (n : Nat) : Nat := 0x1100130 + 0x1000 * n
/-- DMA_ERR_ADDR_HI, R414 RO. -/
def DMA_ERR_ADDR_HI (n : Nat) : Nat := 0x1100134 + 0x1000 * n
/-- DMA_ISTAT, R414 W1C. -/
def DMA_ISTAT (n : Nat) : Nat := 0x1100138 + 0x1000 * n
/-- DMA_IEN, R414 RW. -/
def DMA_IEN (n : Nat) : Nat := 0x110013C + 0x1000 * n

/-- GLB_ID, R422 RO. -/
def GLB_ID : Nat := 0x0
/-- GLB_MODULE, R422 RW. -/
def GLB_MODULE : Nat := 0x4
/-- GLB_SERIAL_LO, R422 RO. -/
def GLB_SERIAL_LO : Nat := 0x8
/-- GLB_SERIAL_HI, R422 RO. -/
def GLB_SERIAL_HI : Nat := 0xC

/-- HIF_ID, R437 RO. -/
def HIF_ID : Nat := 0x1200000
/-- HIF_LINK, R437 RO. -/
def HIF_LINK : Nat := 0x1200004
/-- HIF_WOA, R437 RW. -/
def HIF_WOA : Nat := 0x1200008
/-- HIF_DENY_INFO, R437 RO. -/
def HIF_DENY_INFO : Nat := 0x120000C
/-- HIF_DENY_ADDR_LO, R437 RO. -/
def HIF_DENY_ADDR_LO : Nat := 0x1200010
/-- HIF_DENY_ADDR_HI, R437 RO. -/
def HIF_DENY_ADDR_HI : Nat := 0x1200014
/-- HIF_DENY_CNT, R437 W1C. -/
def HIF_DENY_CNT : Nat := 0x1200018
/-- HIF_DORM_INFO, R437 RO. -/
def HIF_DORM_INFO : Nat := 0x120001C
/-- HIF_PT_ERR, R437 RO. -/
def HIF_PT_ERR : Nat := 0x1200020
/-- HIF_AER_CNT, R437 RO. -/
def HIF_AER_CNT : Nat := 0x1200024
/-- HIF_ISTAT, R437 W1C. -/
def HIF_ISTAT : Nat := 0x1200028
/-- HIF_IEN, R437 RW. -/
def HIF_IEN : Nat := 0x120002C
/-- HIF_W2BASE, R437 RW. -/
def HIF_W2BASE (i : Nat) : Nat := 0x1200100 + 4 * i
/-- HIF_PT, R437 RW. -/
def HIF_PT (i : Nat) : Nat := 0x1201000 + 4 * i

/-- LNK_ID, R459 RO. -/
def LNK_ID : Nat := 0x1300000
/-- LNK_EYE_CTL, R459 RW. -/
def LNK_EYE_CTL : Nat := 0x1300004
/-- LNK_ISUM, R459 RO. -/
def LNK_ISUM : Nat := 0x1300008
/-- LNK_CTL, R459 RW. -/
def LNK_CTL (n : Nat) : Nat := 0x1300100 + 0x1000 * n
/-- LNK_CMD, R459 WO. -/
def LNK_CMD (n : Nat) : Nat := 0x1300104 + 0x1000 * n
/-- LNK_STAT, R459 RO. -/
def LNK_STAT (n : Nat) : Nat := 0x1300108 + 0x1000 * n
/-- LNK_REPLAY, R459 RO. -/
def LNK_REPLAY (n : Nat) : Nat := 0x130010C + 0x1000 * n
/-- LNK_LASTING, R459 RO. -/
def LNK_LASTING (n : Nat) : Nat := 0x1300110 + 0x1000 * n
/-- LNK_RWIN_BASE, R459 RW. -/
def LNK_RWIN_BASE (n : Nat) : Nat := 0x1300114 + 0x1000 * n
/-- LNK_RWIN_SIZE, R459 RW. -/
def LNK_RWIN_SIZE (n : Nat) : Nat := 0x1300118 + 0x1000 * n
/-- LNK_RDROP, R459 RO. -/
def LNK_RDROP (n : Nat) : Nat := 0x130011C + 0x1000 * n
/-- LNK_XSRC_LO, R459 RW. -/
def LNK_XSRC_LO (n : Nat) : Nat := 0x1300120 + 0x1000 * n
/-- LNK_XSRC_HI, R459 RW. -/
def LNK_XSRC_HI (n : Nat) : Nat := 0x1300124 + 0x1000 * n
/-- LNK_XDST_LO, R459 RW. -/
def LNK_XDST_LO (n : Nat) : Nat := 0x1300128 + 0x1000 * n
/-- LNK_XDST_HI, R459 RW. -/
def LNK_XDST_HI (n : Nat) : Nat := 0x130012C + 0x1000 * n
/-- LNK_XLEN, R459 RW. -/
def LNK_XLEN (n : Nat) : Nat := 0x1300130 + 0x1000 * n
/-- LNK_XSTAT, R459 RO. -/
def LNK_XSTAT (n : Nat) : Nat := 0x1300134 + 0x1000 * n
/-- LNK_TXR, R459 RW. -/
def LNK_TXR (n : Nat) (i : Nat) : Nat := 0x1300140 + 0x1000 * n + 4 * i
/-- LNK_TXLOST_LO, R459 RO. -/
def LNK_TXLOST_LO (n : Nat) : Nat := 0x1300180 + 0x1000 * n
/-- LNK_TXLOST_HI, R459 RO. -/
def LNK_TXLOST_HI (n : Nat) : Nat := 0x1300184 + 0x1000 * n
/-- LNK_TXLOST1, R459 RO. -/
def LNK_TXLOST1 (n : Nat) : Nat := 0x1300188 + 0x1000 * n
/-- LNK_ISTAT, R459 W1C. -/
def LNK_ISTAT (n : Nat) : Nat := 0x130018C + 0x1000 * n
/-- LNK_IEN, R459 RW. -/
def LNK_IEN (n : Nat) : Nat := 0x1300190 + 0x1000 * n
/-- LNK_L_EQ, R459 RO. -/
def LNK_L_EQ (n : Nat) (i : Nat) : Nat := 0x1300200 + 0x1000 * n + 16 * i
/-- LNK_L_EYE, R459 RO. -/
def LNK_L_EYE (n : Nat) (i : Nat) : Nat := 0x1300204 + 0x1000 * n + 16 * i
/-- LNK_L_HDRERR, R459 RO. -/
def LNK_L_HDRERR (n : Nat) (i : Nat) : Nat := 0x1300208 + 0x1000 * n + 16 * i
/-- LNK_TL_STAT, R459 RO. -/
def LNK_TL_STAT (n : Nat) : Nat := 0x1300100 + 0x1000 * n
/-- LNK_TL_EYE, R459 RO. -/
def LNK_TL_EYE (n : Nat) : Nat := 0x1300104 + 0x1000 * n
/-- LNK_TL_EQ, R459 RO. -/
def LNK_TL_EQ (n : Nat) : Nat := 0x1300108 + 0x1000 * n
/-- LNK_TL_SETERR, R459 RO. -/
def LNK_TL_SETERR (n : Nat) : Nat := 0x130010C + 0x1000 * n

/-- MTB_ID, R480 RO. -/
def MTB_ID : Nat := 0x1400000
/-- MTB_CTL, R480 RW. -/
def MTB_CTL : Nat := 0x1400004
/-- MTB_CMD, R480 WO. -/
def MTB_CMD : Nat := 0x1400008
/-- MTB_STAT, R480 RO. -/
def MTB_STAT : Nat := 0x140000C
/-- MTB_NOW, R480 RO. -/
def MTB_NOW (i : Nat) : Nat := 0x1400010 + 4 * i
/-- MTB_OFS, R480 RO. -/
def MTB_OFS : Nat := 0x140001C
/-- MTB_RTT, R480 RO. -/
def MTB_RTT : Nat := 0x1400020
/-- MTB_ASYM0, R480 RW. -/
def MTB_ASYM0 : Nat := 0x1400024
/-- MTB_ASYM1, R480 RW. -/
def MTB_ASYM1 : Nat := 0x1400028
/-- MTB_HOLD_MAX, R480 RW. -/
def MTB_HOLD_MAX : Nat := 0x140002C
/-- MTB_SYNC_LAT, R480 RW. -/
def MTB_SYNC_LAT : Nat := 0x1400030
/-- MTB_SWITCH, R480 RO. -/
def MTB_SWITCH : Nat := 0x1400034
/-- MTB_SWMT, R480 RO. -/
def MTB_SWMT (i : Nat) : Nat := 0x1400038 + 4 * i
/-- MTB_SYNC_LOST, R480 RO. -/
def MTB_SYNC_LOST : Nat := 0x1400044
/-- MTB_SYNC_LATE, R480 RO. -/
def MTB_SYNC_LATE : Nat := 0x1400048
/-- MTB_DISC, R480 RO. -/
def MTB_DISC : Nat := 0x140004C
/-- MTB_ISTAT, R480 W1C. -/
def MTB_ISTAT : Nat := 0x1400050
/-- MTB_IEN, R480 RW. -/
def MTB_IEN : Nat := 0x1400054
/-- MTB_XT_CFG, R480 RW. -/
def MTB_XT_CFG (i : Nat) : Nat := 0x1400060 + 4 * i
/-- MTB_XT_STAMP0, R480 RO. -/
def MTB_XT_STAMP0 (i : Nat) : Nat := 0x1400080 + 16 * i
/-- MTB_XT_STAMP1, R480 RO. -/
def MTB_XT_STAMP1 (i : Nat) : Nat := 0x1400084 + 16 * i
/-- MTB_XT_STAMP2, R480 RO. -/
def MTB_XT_STAMP2 (i : Nat) : Nat := 0x1400088 + 16 * i

/-- FLT_ID, R496 RO. -/
def FLT_ID : Nat := 0x1500000
/-- FLT_STAT, R496 RO. -/
def FLT_STAT : Nat := 0x1500004
/-- FLT_CTL, R496 RW. -/
def FLT_CTL : Nat := 0x1500008
/-- FLT_CMD, R496 WO. -/
def FLT_CMD : Nat := 0x150000C
/-- FLT_INJ, R496 RW. -/
def FLT_INJ : Nat := 0x1500010
/-- FLT_ISTAT, R496 W1C. -/
def FLT_ISTAT : Nat := 0x1500014
/-- FLT_IEN, R496 RW. -/
def FLT_IEN : Nat := 0x1500018
/-- FLT_SITE, R496 RO. -/
def FLT_SITE : Nat := 0x150001C
/-- FLT_CNT, R496 RO. -/
def FLT_CNT (i : Nat) : Nat := 0x1500020 + 4 * i
/-- FLT_LOG_WR, R496 RO. -/
def FLT_LOG_WR : Nat := 0x1500034
/-- FLT_FIRST, R496 RO. -/
def FLT_FIRST (i : Nat) : Nat := 0x1500100 + 4 * i
/-- FLT_WORST, R496 RO. -/
def FLT_WORST (i : Nat) : Nat := 0x1500120 + 4 * i
/-- FLT_PGRAVE, R496 RO. -/
def FLT_PGRAVE (i : Nat) : Nat := 0x1500140 + 4 * i
/-- FLT_LOG, R496 RO. -/
def FLT_LOG (i : Nat) : Nat := 0x1500800 + 4 * i

/-- PWR_ID, R522 RO. -/
def PWR_ID : Nat := 0x1600000
/-- PWR_CTL, R522 RW. -/
def PWR_CTL : Nat := 0x1600004
/-- PWR_CMD, R522 WO. -/
def PWR_CMD : Nat := 0x1600008
/-- PWR_STAT, R522 RO. -/
def PWR_STAT : Nat := 0x160000C
/-- PWR_IDLE_CH, R522 RW. -/
def PWR_IDLE_CH : Nat := 0x1600010
/-- PWR_IDLE_DIG, R522 RW. -/
def PWR_IDLE_DIG : Nat := 0x1600014
/-- PWR_IDLE_AE, R522 RW. -/
def PWR_IDLE_AE : Nat := 0x1600018
/-- PWR_LOWCH, R522 RO. -/
def PWR_LOWCH (i : Nat) : Nat := 0x160001C + 4 * i
/-- PWR_LOWDIG, R522 RO. -/
def PWR_LOWDIG (i : Nat) : Nat := 0x160002C + 4 * i
/-- PWR_LOWAE, R522 RO. -/
def PWR_LOWAE : Nat := 0x160003C
/-- PWR_WREC0, R522 RO. -/
def PWR_WREC0 : Nat := 0x1600040
/-- PWR_WREC1, R522 RO. -/
def PWR_WREC1 : Nat := 0x1600044
/-- PWR_WREC2, R522 RO. -/
def PWR_WREC2 : Nat := 0x1600048
/-- PWR_WREC3, R522 RO. -/
def PWR_WREC3 : Nat := 0x160004C
/-- PWR_PFW_CNT, R522 RO. -/
def PWR_PFW_CNT : Nat := 0x1600050
/-- PWR_BOOT, R522 RO. -/
def PWR_BOOT : Nat := 0x1600054
/-- PWR_START_MS, R522 RO. -/
def PWR_START_MS : Nat := 0x1600058
/-- PWR_ISTAT, R522 W1C. -/
def PWR_ISTAT : Nat := 0x160005C
/-- PWR_IEN, R522 RW. -/
def PWR_IEN : Nat := 0x1600060

/-- SUP_ID, R523 RO. -/
def SUP_ID : Nat := 0x1700000
/-- SUP_FW, R523 RO. -/
def SUP_FW : Nat := 0x1700004
/-- SUP_FWVER_A, R523 RO. -/
def SUP_FWVER_A : Nat := 0x1700008
/-- SUP_FWVER_B, R523 RO. -/
def SUP_FWVER_B : Nat := 0x170000C
/-- SUP_CMD, R523 WO. -/
def SUP_CMD : Nat := 0x1700010
/-- SUP_SRC_LO, R523 RW. -/
def SUP_SRC_LO : Nat := 0x1700014
/-- SUP_SRC_HI, R523 RW. -/
def SUP_SRC_HI : Nat := 0x1700018
/-- SUP_LEN, R523 RW. -/
def SUP_LEN : Nat := 0x170001C
/-- SUP_STAT, R523 RO. -/
def SUP_STAT : Nat := 0x1700020
/-- SUP_HBEAT, R523 RO. -/
def SUP_HBEAT : Nat := 0x1700024
/-- SUP_ISTAT, R523 W1C. -/
def SUP_ISTAT : Nat := 0x1700028
/-- SUP_IEN, R523 RW. -/
def SUP_IEN : Nat := 0x170002C

/-- NVM_ID, R524 RO. -/
def NVM_ID : Nat := 0x1800000
/-- NVM_STAT, R524 RO. -/
def NVM_STAT : Nat := 0x1800004
/-- NVM_ERASE_MAX, R524 RO. -/
def NVM_ERASE_MAX : Nat := 0x1800008
/-- NVM_ERR, R524 RO. -/
def NVM_ERR : Nat := 0x180000C

end Reg

/-- Rows of GLB. -/
def rowsGLB0 : List RegRow :=
  [⟨0x100, 4, 1, .wo, 0x0, 0xFFFF⟩,
   ⟨0x104, 4, 1, .rw, 0x0, 0xFFFF⟩,
   ⟨0x0, 4, 1, .ro, 0x100B1, 0x0⟩,
   ⟨0x4, 4, 1, .rw, 0x0, 0xFFFF⟩,
   ⟨0x8, 4, 1, .ro, 0x0, 0x0⟩,
   ⟨0xC, 4, 1, .ro, 0x0, 0x0⟩]

/-- Rows of STI. -/
def rowsSTI0 : List RegRow :=
  [⟨0x0, 4, 1, .ro, 0x100B1, 0x0⟩,
   ⟨0x4, 4, 1, .wo, 0x0, 0x7B0F⟩,
   ⟨0x8, 4, 1, .rw, 0x0, 0xFFFFFFF0⟩,
   ⟨0xC, 4, 1, .rw, 0x0, 0x3FF⟩,
   ⟨0x10, 4, 1, .ro, 0x80, 0x0⟩,
   ⟨0x14, 4, 1, .ro, 0x0, 0x0⟩,
   ⟨0x18, 4, 1, .ro, 0x0, 0x0⟩,
   ⟨0x1C, 4, 1, .ro, 0x0, 0x0⟩,
   ⟨0x20, 4, 1, .ro, 0x0, 0x0⟩,
   ⟨0x24, 4, 1, .ro, 0x0, 0x0⟩,
   ⟨0x28, 4, 1, .ro, 0x0, 0x0⟩,
   ⟨0x2C, 4, 1, .ro, 0x0, 0x0⟩,
   ⟨0x30, 4, 1, .ro, 0x0, 0x0⟩,
   ⟨0x34, 4, 1, .rw, 0x3E8, 0x3FFF⟩,
   ⟨0x38, 4, 1, .rw, 0x0, 0x7⟩,
   ⟨0x3C, 4, 1, .ro, 0x1, 0x0⟩,
   ⟨0x40, 4, 1, .w1c, 0x0, 0x3⟩,
   ⟨0x44, 4, 1, .rw, 0x0, 0x3⟩,
   ⟨0x48, 4, 12, .ro, 0x0, 0x0⟩,
   ⟨0x78, 4, 1, .ro, 0x0, 0x0⟩]

/-- Rows of SEQ. -/
def rowsSEQ0 : List RegRow :=
  [⟨0x0, 4, 1, .rw, 0x0, 0x7⟩,
   ⟨0x4, 4, 1, .wo, 0x0, 0xF⟩,
   ⟨0x8, 4, 1, .ro, 0x0, 0x0⟩,
   ⟨0xC, 4, 1, .rw, 0x0, 0xFFFFF⟩,
   ⟨0x10, 4, 1, .ro, 0x0, 0x0⟩,
   ⟨0x14, 4, 1, .ro, 0x0, 0x0⟩,
   ⟨0x18, 4, 1, .ro, 0x0, 0x0⟩,
   ⟨0x1C, 4, 1, .ro, 0x0, 0x0⟩,
   ⟨0x20, 4, 1, .ro, 0x0, 0x0⟩,
   ⟨0x24, 4, 1, .ro, 0x0, 0x0⟩,
   ⟨0x28, 4, 1, .ro, 0x180, 0x0⟩,
   ⟨0x2C, 4, 1, .ro, 0x600, 0x0⟩,
   ⟨0x30, 4, 1, .ro, 0x0, 0x0⟩,
   ⟨0x34, 4, 1, .ro, 0x0, 0x0⟩,
   ⟨0x38, 4, 1, .rw, 0xFFFFFFFF, 0xFFFFFFFF⟩,
   ⟨0x3C, 4, 1, .rw, 0xFFFFFFFF, 0xFFFFFFFF⟩,
   ⟨0x40, 4, 1, .ro, 0x0, 0x0⟩,
   ⟨0x44, 4, 1, .ro, 0x0, 0x0⟩,
   ⟨0x48, 4, 1, .st, 0x0, 0xFFFFFFFF⟩,
   ⟨0x4C, 4, 1, .st, 0x0, 0xFFFFFFFF⟩,
   ⟨0x50, 4, 1, .wo, 0x0, 0xFFFFFFFF⟩,
   ⟨0x54, 4, 1, .wo, 0x0, 0xFFFFFFFF⟩,
   ⟨0x58, 4, 1, .ro, 0x0, 0x0⟩,
   ⟨0x5C, 4, 1, .w1c, 0x0, 0x1FFFFFF⟩,
   ⟨0x60, 4, 1, .wo, 0x0, 0x1⟩,
   ⟨0x64, 4, 1, .ro, 0x0, 0x0⟩,
   ⟨0x68, 4, 1, .ro, 0x0, 0x0⟩,
   ⟨0x6C, 4, 1, .ro, 0x0, 0x0⟩,
   ⟨0x70, 4, 8, .st, 0x0, 0x1FFFFFF⟩,
   ⟨0x90, 4, 4, .st, 0x0, 0xFC0FFFFF⟩]

/-- Rows of SEQ. -/
def rowsSEQ1 : List RegRow :=
  [⟨0xA0, 4, 1, .wo, 0x0, 0xF⟩,
   ⟨0xA4, 4, 1, .ro, 0x0, 0x0⟩,
   ⟨0xA8, 4, 1, .st, 0x0, 0x8000FFFF⟩,
   ⟨0xAC, 4, 1, .st, 0x0, 0xFFFF⟩,
   ⟨0xB0, 4, 1, .st, 0x0, 0x1FFFF⟩,
   ⟨0xB4, 4, 1, .ro, 0x0, 0x0⟩,
   ⟨0xB8, 4, 1, .ro, 0x0, 0x0⟩,
   ⟨0xBC, 4, 1, .ro, 0x0, 0x0⟩,
   ⟨0xC0, 4, 1, .ro, 0x0, 0x0⟩,
   ⟨0xC4, 4, 1, .ro, 0x0, 0x0⟩,
   ⟨0xC8, 4, 1, .w1c, 0x0, 0x3F⟩,
   ⟨0xCC, 4, 1, .rw, 0x0, 0x3F⟩,
   ⟨0xD0, 4, 8, .ro, 0x0, 0x0⟩]

/-- Rows of TMG (global). -/
def rowsTMGG0 : List RegRow :=
  [⟨0x0, 4, 1, .ro, 0x100B1, 0x0⟩,
   ⟨0x4, 4, 1, .ro, 0x0, 0x0⟩,
   ⟨0x8, 4, 4, .ro, 0x0, 0x0⟩,
   ⟨0x18, 4, 1, .ro, 0x0, 0x0⟩,
   ⟨0x1C, 4, 1, .ro, 0x352, 0x0⟩,
   ⟨0x20, 4, 1, .ro, 0xFFFFFF, 0x0⟩,
   ⟨0x24, 4, 1, .ro, 0xFFFFFF, 0x0⟩,
   ⟨0x28, 4, 1, .rw, 0x0, 0x1⟩,
   ⟨0x2C, 4, 1, .wo, 0x0, 0x1⟩,
   ⟨0x30, 4, 1, .w1c, 0x0, 0x1F⟩,
   ⟨0x34, 4, 1, .rw, 0x0, 0x1F⟩,
   ⟨0x38, 4, 1, .ro, 0x0, 0x0⟩]

/-- Rows of TMG. -/
def rowsTMG0 : List RegRow :=
  [⟨0x100, 8, 16, .st, 0x40000, 0xFFFFFFFF⟩,
   ⟨0x104, 8, 16, .st, 0x0, 0x7F⟩,
   ⟨0x180, 4, 1, .ro, 0x0, 0x0⟩,
   ⟨0x184, 4, 1, .ro, 0x0, 0x0⟩,
   ⟨0x188, 4, 1, .ro, 0x0, 0x0⟩,
   ⟨0x18C, 4, 1, .ro, 0xFFFF, 0x0⟩,
   ⟨0x190, 4, 1, .ro, 0x40, 0x0⟩,
   ⟨0x194, 4, 1, .ro, 0x0, 0x0⟩,
   ⟨0x198, 4, 1, .ro, 0x0, 0x0⟩,
   ⟨0x19C, 4, 1, .ro, 0x0, 0x0⟩]

/-- Rows of CHN. -/
def rowsCHN0 : List RegRow :=
  [⟨0x0, 4, 1, .rw, 0x1, 0x1⟩,
   ⟨0x4, 4, 1, .ro, 0x0, 0x0⟩,
   ⟨0x8, 4, 1, .st, 0x0, 0xFFFFFFFF⟩,
   ⟨0xC, 4, 1, .st, 0x0, 0x800000F3⟩,
   ⟨0x10, 4, 1, .ro, 0x0, 0x0⟩,
   ⟨0x14, 4, 1, .ro, 0x0, 0x0⟩,
   ⟨0x18, 4, 1, .ro, 0x0, 0x0⟩,
   ⟨0x1C, 4, 1, .ro, 0xFFFFFFFF, 0x0⟩,
   ⟨0x20, 4, 1, .ro, 0xFFFFFFFF, 0x0⟩,
   ⟨0x24, 4, 1, .w1c, 0x0, 0x7⟩,
   ⟨0x28, 4, 1, .rw, 0x0, 0x7⟩,
   ⟨0x200, 4, 1, .rw, 0x0, 0xFFFF⟩,
   ⟨0x204, 4, 1, .ro, 0x0, 0x0⟩,
   ⟨0x208, 4, 1, .ro, 0x0, 0x0⟩,
   ⟨0x20C, 4, 1, .ro, 0x80000000, 0x0⟩,
   ⟨0x210, 4, 1, .ro, 0x400000, 0x0⟩,
   ⟨0x40, 4, 1, .st, 0x0, 0xFFFF⟩,
   ⟨0x44, 4, 1, .st, 0x0, 0x87703FFF⟩,
   ⟨0x48, 4, 1, .st, 0x0, 0xFFFFFFFF⟩,
   ⟨0x4C, 4, 1, .ro, 0x0, 0x0⟩,
   ⟨0x50, 4, 1, .ro, 0x0, 0x0⟩,
   ⟨0x54, 4, 1, .ro, 0x0, 0x0⟩,
   ⟨0x58, 4, 1, .ro, 0x0, 0x0⟩,
   ⟨0x5C, 4, 1, .ro, 0x0, 0x0⟩,
   ⟨0x60, 4, 1, .ro, 0x0, 0x0⟩,
   ⟨0x64, 4, 1, .ro, 0xFFFFFFFF, 0x0⟩,
   ⟨0x68, 4, 1, .ro, 0xFFFFFFFF, 0x0⟩,
   ⟨0x6C, 4, 1, .ro, 0x0, 0x0⟩,
   ⟨0x70, 4, 1, .ro, 0x0, 0x0⟩,
   ⟨0x74, 4, 1, .ro, 0x0, 0x0⟩]

/-- Rows of CHN. -/
def rowsCHN1 : List RegRow :=
  [⟨0x78, 4, 1, .ro, 0x0, 0x0⟩,
   ⟨0x7C, 4, 1, .ro, 0x0, 0x0⟩,
   ⟨0x80, 4, 1, .ro, 0x0, 0x0⟩,
   ⟨0x84, 4, 1, .ro, 0x0, 0x0⟩,
   ⟨0x88, 4, 1, .ro, 0xFFFFFFFF, 0x0⟩,
   ⟨0x8C, 4, 1, .ro, 0xFFFFFFFF, 0x0⟩,
   ⟨0x90, 4, 1, .w1c, 0x0, 0x7⟩,
   ⟨0x94, 4, 1, .rw, 0x0, 0x7⟩]

/-- Rows of TMU (global). -/
def rowsTMUG0 : List RegRow :=
  [⟨0x0, 4, 1, .ro, 0x100B1, 0x0⟩,
   ⟨0x4, 4, 1, .rw, 0xA01, 0xFFFF⟩,
   ⟨0x8, 4, 1, .ro, 0x1800000, 0x0⟩,
   ⟨0x10, 4, 4, .ro, 0x0, 0x0⟩]

/-- Rows of TMU. -/
def rowsTMU0 : List RegRow :=
  [⟨0x100, 4, 1, .rw, 0x0, 0xFF1F77⟩,
   ⟨0x104, 4, 1, .rw, 0x77, 0xFFFF0077⟩,
   ⟨0x108, 4, 2, .rw, 0x0, 0xFFFFFFFF⟩,
   ⟨0x110, 4, 1, .rw, 0x0, 0xFFFF⟩,
   ⟨0x114, 4, 2, .rw, 0x0, 0xFFFFFFFF⟩,
   ⟨0x11C, 4, 1, .rw, 0x0, 0xFFFF⟩,
   ⟨0x120, 4, 1, .rw, 0x0, 0xFFFFFFFF⟩,
   ⟨0x124, 4, 1, .rw, 0x0, 0xFF⟩,
   ⟨0x128, 4, 1, .rw, 0x0, 0xFFFFFFFF⟩,
   ⟨0x12C, 4, 1, .rw, 0x0, 0xFFFFFFFF⟩,
   ⟨0x130, 4, 1, .rw, 0x0, 0xFFFFFFFF⟩,
   ⟨0x134, 4, 1, .rw, 0x0, 0xFFFFFFFF⟩,
   ⟨0x138, 4, 1, .rw, 0x1, 0xFFFFFF⟩,
   ⟨0x13C, 4, 1, .rw, 0x0, 0xFFFFFFC0⟩,
   ⟨0x140, 4, 1, .rw, 0x0, 0x3FF⟩,
   ⟨0x144, 4, 1, .rw, 0x0, 0xFFFFFFFF⟩,
   ⟨0x148, 4, 1, .rw, 0x0, 0xFFFFFFFF⟩,
   ⟨0x14C, 4, 1, .ro, 0x0, 0x0⟩,
   ⟨0x150, 4, 1, .wo, 0x0, 0x7⟩,
   ⟨0x154, 4, 1, .ro, 0x0, 0x0⟩,
   ⟨0x158, 4, 1, .ro, 0x0, 0x0⟩,
   ⟨0x15C, 4, 1, .ro, 0x0, 0x0⟩,
   ⟨0x160, 4, 1, .ro, 0x0, 0x0⟩,
   ⟨0x164, 4, 1, .ro, 0x0, 0x0⟩,
   ⟨0x168, 4, 1, .ro, 0x0, 0x0⟩,
   ⟨0x16C, 4, 1, .ro, 0x0, 0x0⟩,
   ⟨0x170, 4, 1, .ro, 0x0, 0x0⟩,
   ⟨0x174, 4, 1, .ro, 0x0, 0x0⟩,
   ⟨0x178, 4, 1, .ro, 0x0, 0x0⟩,
   ⟨0x17C, 4, 1, .ro, 0x0, 0x0⟩]

/-- Rows of TMU. -/
def rowsTMU1 : List RegRow :=
  [⟨0x180, 4, 1, .ro, 0xFFFFFFFF, 0x0⟩,
   ⟨0x184, 4, 1, .ro, 0xFFFFFFFF, 0x0⟩,
   ⟨0x188, 4, 1, .w1c, 0x0, 0x1F⟩,
   ⟨0x18C, 4, 1, .rw, 0x0, 0x1F⟩,
   ⟨0x190, 4, 1, .ro, 0x0, 0x0⟩,
   ⟨0x194, 4, 1, .ro, 0x0, 0x0⟩,
   ⟨0x200, 4, 1, .ro, 0x0, 0x0⟩,
   ⟨0x204, 4, 1, .ro, 0x0, 0x0⟩,
   ⟨0x208, 4, 3, .ro, 0x0, 0x0⟩,
   ⟨0x214, 4, 3, .ro, 0x0, 0x0⟩,
   ⟨0x220, 4, 3, .ro, 0x0, 0x0⟩,
   ⟨0x230, 4, 1, .ro, 0x0, 0x0⟩,
   ⟨0x234, 4, 1, .ro, 0x0, 0x0⟩,
   ⟨0x238, 4, 3, .ro, 0x0, 0x0⟩,
   ⟨0x244, 4, 5, .ro, 0x0, 0x0⟩,
   ⟨0x258, 4, 1, .ro, 0x0, 0x0⟩,
   ⟨0x25C, 4, 1, .ro, 0x0, 0x0⟩,
   ⟨0x260, 4, 1, .ro, 0x0, 0x0⟩,
   ⟨0x264, 4, 1, .ro, 0x0, 0x0⟩,
   ⟨0x268, 4, 1, .ro, 0x0, 0x0⟩,
   ⟨0x26C, 4, 1, .ro, 0x0, 0x0⟩,
   ⟨0x270, 4, 1, .ro, 0x0, 0x0⟩,
   ⟨0x274, 4, 1, .ro, 0x0, 0x0⟩,
   ⟨0x278, 4, 3, .ro, 0x0, 0x0⟩,
   ⟨0x284, 4, 3, .ro, 0x0, 0x0⟩,
   ⟨0x290, 4, 4, .ro, 0x0, 0x0⟩,
   ⟨0x2A0, 4, 5, .ro, 0x0, 0x0⟩,
   ⟨0x300, 4, 64, .ro, 0x0, 0x0⟩,
   ⟨0x400, 4, 64, .ro, 0x0, 0x0⟩]

/-- Rows of ACQ (global). -/
def rowsACQG0 : List RegRow :=
  [⟨0x0, 4, 1, .ro, 0x100B1, 0x0⟩,
   ⟨0x4, 4, 1, .ro, 0x1800000, 0x0⟩,
   ⟨0x10, 4, 4, .ro, 0x0, 0x0⟩]

/-- Rows of ACQ. -/
def rowsACQ0 : List RegRow :=
  [⟨0x100, 4, 1, .rw, 0x0, 0xFF003803⟩,
   ⟨0x104, 4, 1, .rw, 0x0, 0xFFFF⟩,
   ⟨0x108, 4, 1, .rw, 0x3E8, 0xFFFFFFFF⟩,
   ⟨0x10C, 4, 1, .rw, 0x0, 0xFFFF⟩,
   ⟨0x110, 4, 1, .rw, 0x400, 0x1FFFFF⟩,
   ⟨0x114, 4, 1, .rw, 0x0, 0xFFF⟩,
   ⟨0x118, 4, 1, .rw, 0x1, 0x1FFFF⟩,
   ⟨0x11C, 4, 1, .rw, 0x0, 0xFFFFFFFF⟩,
   ⟨0x120, 4, 1, .rw, 0x0, 0xFFFFFFFF⟩,
   ⟨0x124, 4, 2, .rw, 0x0, 0xFFFFFFFF⟩,
   ⟨0x12C, 4, 1, .rw, 0x0, 0xFFFF⟩,
   ⟨0x130, 4, 1, .rw, 0x0, 0xFDF00000⟩,
   ⟨0x134, 4, 1, .rw, 0x0, 0xFFFFFFFF⟩,
   ⟨0x138, 4, 1, .rw, 0x0, 0x7FFFFFFF⟩,
   ⟨0x13C, 4, 1, .rw, 0x0, 0xFDF00000⟩,
   ⟨0x140, 4, 1, .rw, 0x0, 0xFFFFFFFF⟩,
   ⟨0x144, 4, 1, .rw, 0x0, 0x7FFFFFFF⟩,
   ⟨0x148, 4, 1, .rw, 0x0, 0xFFFFFFC0⟩,
   ⟨0x14C, 4, 1, .rw, 0x0, 0x3FF⟩,
   ⟨0x150, 4, 1, .rw, 0x0, 0x1FFFF⟩,
   ⟨0x154, 4, 1, .rw, 0x0, 0xFFFFFFC0⟩,
   ⟨0x158, 4, 1, .rw, 0x0, 0x3FF⟩,
   ⟨0x15C, 4, 1, .rw, 0x0, 0xFFFFFFFF⟩,
   ⟨0x160, 4, 1, .wo, 0x0, 0x7⟩,
   ⟨0x164, 4, 1, .ro, 0x0, 0x0⟩,
   ⟨0x168, 4, 1, .ro, 0x0, 0x0⟩,
   ⟨0x16C, 4, 1, .ro, 0x0, 0x0⟩,
   ⟨0x170, 4, 1, .ro, 0x0, 0x0⟩,
   ⟨0x174, 4, 1, .ro, 0x0, 0x0⟩,
   ⟨0x178, 4, 1, .ro, 0x0, 0x0⟩]

/-- Rows of ACQ. -/
def rowsACQ1 : List RegRow :=
  [⟨0x17C, 4, 1, .ro, 0x0, 0x0⟩,
   ⟨0x180, 4, 1, .w1c, 0x0, 0x1F⟩,
   ⟨0x184, 4, 1, .rw, 0x0, 0x1F⟩,
   ⟨0x188, 4, 1, .ro, 0x1040, 0x0⟩,
   ⟨0x18C, 4, 1, .ro, 0x0, 0x0⟩]

/-- Rows of PEL (global). -/
def rowsPELG0 : List RegRow :=
  [⟨0x0, 4, 1, .ro, 0x100B1, 0x0⟩,
   ⟨0x4, 4, 4, .ro, 0x0, 0x0⟩,
   ⟨0x20, 4, 4, .ro, 0x0, 0x0⟩]

/-- Rows of PEL. -/
def rowsPEL0 : List RegRow :=
  [⟨0x100, 4, 1, .st, 0x20000000, 0xE0000000⟩,
   ⟨0x104, 4, 1, .st, 0x0, 0xFFFF⟩,
   ⟨0x108, 4, 1, .st, 0x0, 0xFFFF⟩,
   ⟨0x10C, 4, 1, .st, 0x0, 0xFFFF⟩,
   ⟨0x110, 4, 1, .st, 0x0, 0xFFFF⟩,
   ⟨0x114, 4, 1, .st, 0x0, 0xFFFF⟩,
   ⟨0x118, 4, 1, .st, 0x0, 0xFFFF⟩,
   ⟨0x11C, 4, 1, .st, 0x0, 0xFFFF⟩,
   ⟨0x120, 4, 1, .st, 0x0, 0xFFFF⟩,
   ⟨0x124, 4, 1, .st, 0x6D60, 0xFFFF⟩,
   ⟨0x128, 4, 1, .st, 0xE0C0, 0xFFFF⟩,
   ⟨0x12C, 4, 1, .st, 0x40, 0x73⟩,
   ⟨0x130, 4, 1, .st, 0x0, 0xFFFF⟩,
   ⟨0x134, 4, 1, .st, 0x7D00, 0xFFFF⟩,
   ⟨0x138, 4, 1, .st, 0x8300, 0xFFFF⟩,
   ⟨0x13C, 4, 1, .ro, 0x40, 0x0⟩,
   ⟨0x140, 4, 1, .ro, 0x0, 0x0⟩,
   ⟨0x144, 4, 1, .wo, 0x0, 0x3⟩,
   ⟨0x148, 4, 1, .rw, 0x100, 0x1FFF⟩,
   ⟨0x14C, 4, 1, .ro, 0x0, 0x0⟩,
   ⟨0x150, 4, 1, .ro, 0x0, 0x0⟩,
   ⟨0x154, 4, 1, .ro, 0x0, 0x0⟩,
   ⟨0x158, 4, 1, .ro, 0x0, 0x0⟩,
   ⟨0x15C, 4, 1, .w1c, 0x0, 0xF⟩,
   ⟨0x160, 4, 1, .rw, 0x0, 0xF⟩]

/-- Rows of CAL (global). -/
def rowsCALG0 : List RegRow :=
  [⟨0x0, 4, 1, .ro, 0x100B1, 0x0⟩,
   ⟨0x4, 4, 1, .rw, 0x3C03, 0xFF03⟩,
   ⟨0x8, 4, 1, .wo, 0x0, 0x3⟩,
   ⟨0xC, 4, 1, .ro, 0xFF, 0x0⟩,
   ⟨0x10, 4, 1, .ro, 0x0, 0x0⟩,
   ⟨0x14, 4, 1, .ro, 0x0, 0x0⟩,
   ⟨0x18, 4, 1, .ro, 0x0, 0x0⟩,
   ⟨0x1C, 4, 1, .ro, 0x0, 0x0⟩,
   ⟨0x20, 4, 1, .ro, 0x0, 0x0⟩,
   ⟨0x24, 4, 1, .ro, 0x0, 0x0⟩,
   ⟨0x28, 4, 1, .ro, 0x0, 0x0⟩,
   ⟨0x2C, 4, 1, .w1c, 0x0, 0x3F⟩,
   ⟨0x30, 4, 1, .rw, 0x0, 0x3F⟩,
   ⟨0x34, 4, 1, .ro, 0x0, 0x0⟩]

/-- Rows of CAL. -/
def rowsCAL0 : List RegRow :=
  [⟨0x100, 4, 1, .ro, 0xFFFFFFFF, 0x0⟩,
   ⟨0x104, 4, 1, .ro, 0x0, 0x0⟩,
   ⟨0x108, 4, 1, .ro, 0xFFFFFFFF, 0x0⟩]

/-- Rows of CSH (global). -/
def rowsCSHG0 : List RegRow :=
  [⟨0x0, 4, 1, .ro, 0x100B1, 0x0⟩,
   ⟨0x4, 4, 1, .ro, 0x2C00000, 0x0⟩,
   ⟨0x8, 4, 1, .ro, 0x0, 0x0⟩,
   ⟨0xC, 4, 1, .ro, 0x0, 0x0⟩,
   ⟨0x10, 4, 1, .ro, 0x0, 0x0⟩,
   ⟨0x14, 4, 1, .ro, 0x0, 0x0⟩]

/-- Rows of CSH. -/
def rowsCSH0 : List RegRow :=
  [⟨0x100, 4, 1, .ro, 0x0, 0x0⟩,
   ⟨0x104, 4, 1, .wo, 0x0, 0x3⟩,
   ⟨0x108, 4, 1, .ro, 0x0, 0x0⟩,
   ⟨0x10C, 4, 1, .ro, 0x0, 0x0⟩,
   ⟨0x110, 4, 1, .ro, 0x0, 0x0⟩,
   ⟨0x114, 4, 1, .ro, 0x0, 0x0⟩,
   ⟨0x118, 4, 1, .ro, 0x0, 0x0⟩,
   ⟨0x11C, 4, 1, .ro, 0x0, 0x0⟩,
   ⟨0x120, 4, 1, .ro, 0x0, 0x0⟩,
   ⟨0x124, 4, 3, .ro, 0x0, 0x0⟩,
   ⟨0x130, 4, 1, .wo, 0x0, 0x3⟩,
   ⟨0x134, 4, 1, .w1c, 0x0, 0x7⟩,
   ⟨0x138, 4, 1, .rw, 0x0, 0x7⟩]

/-- Rows of ANE (global). -/
def rowsANEG0 : List RegRow :=
  [⟨0x0, 4, 1, .ro, 0x100B1, 0x0⟩,
   ⟨0x4, 4, 1, .rw, 0x4, 0xFF⟩,
   ⟨0x8, 4, 1, .wo, 0x0, 0xFF0F⟩,
   ⟨0xC, 4, 1, .ro, 0x0, 0x0⟩,
   ⟨0x10, 4, 1, .ro, 0x80008000, 0x0⟩,
   ⟨0x14, 4, 1, .ro, 0x2F00000, 0x0⟩,
   ⟨0x18, 4, 1, .ro, 0x0, 0x0⟩,
   ⟨0x1C, 4, 1, .w1c, 0x0, 0x1F⟩,
   ⟨0x20, 4, 1, .rw, 0x0, 0x1F⟩,
   ⟨0x24, 4, 1, .rw, 0x0, 0x3FF⟩,
   ⟨0x28, 4, 1, .ro, 0x0, 0x0⟩,
   ⟨0x2C, 4, 1, .ro, 0x0, 0x0⟩,
   ⟨0x30, 4, 1, .rw, 0x0, 0x3FFF⟩,
   ⟨0x34, 4, 1, .ro, 0x0, 0x0⟩,
   ⟨0x38, 4, 1, .ro, 0x0, 0x0⟩,
   ⟨0x3C, 4, 1, .ro, 0x0, 0x0⟩,
   ⟨0x40, 4, 1, .ro, 0x0, 0x0⟩,
   ⟨0x44, 4, 1, .ro, 0x0, 0x0⟩,
   ⟨0x48, 4, 1, .ro, 0x0, 0x0⟩,
   ⟨0x4C, 4, 1, .ro, 0x0, 0x0⟩,
   ⟨0x50, 4, 1, .ro, 0x0, 0x0⟩,
   ⟨0x54, 4, 1, .ro, 0x0, 0x0⟩,
   ⟨0x58, 4, 1, .ro, 0x0, 0x0⟩,
   ⟨0x5C, 4, 1, .ro, 0x0, 0x0⟩,
   ⟨0x60, 4, 1, .ro, 0x0, 0x0⟩,
   ⟨0x64, 4, 1, .ro, 0x0, 0x0⟩,
   ⟨0x68, 4, 4, .ro, 0x0, 0x0⟩,
   ⟨0x78, 4, 1, .ro, 0x0, 0x0⟩,
   ⟨0x7C, 4, 1, .ro, 0x0, 0x0⟩,
   ⟨0x80, 4, 1, .ro, 0x0, 0x0⟩]

/-- Rows of ANE (global). -/
def rowsANEG1 : List RegRow :=
  [⟨0x84, 4, 1, .ro, 0x0, 0x0⟩,
   ⟨0x88, 4, 1, .ro, 0x0, 0x0⟩]

/-- Rows of ANE. -/
def rowsANE0 : List RegRow :=
  [⟨0x100, 4, 1, .ro, 0x0, 0x0⟩,
   ⟨0x104, 4, 1, .ro, 0x0, 0x0⟩,
   ⟨0x108, 4, 1, .ro, 0x0, 0x0⟩,
   ⟨0x10C, 4, 1, .ro, 0x0, 0x0⟩,
   ⟨0x110, 4, 1, .ro, 0x0, 0x0⟩]

/-- Rows of DRC (global). -/
def rowsDRCG0 : List RegRow :=
  [⟨0x0, 4, 1, .ro, 0x100B1, 0x0⟩,
   ⟨0x4, 4, 1, .ro, 0x0, 0x0⟩,
   ⟨0x8, 4, 1, .rw, 0x0, 0x3⟩,
   ⟨0xC, 4, 1, .wo, 0x0, 0xFF0F⟩,
   ⟨0x10, 4, 1, .ro, 0x0, 0x0⟩,
   ⟨0x14, 4, 1, .rw, 0x64, 0xFFFF⟩,
   ⟨0x18, 4, 1, .rw, 0x80000018, 0x800000FF⟩,
   ⟨0x1C, 4, 1, .ro, 0x0, 0x0⟩,
   ⟨0x20, 4, 1, .ro, 0x0, 0x0⟩,
   ⟨0x24, 4, 1, .ro, 0x0, 0x0⟩,
   ⟨0x28, 4, 1, .w1c, 0x0, 0x3F⟩,
   ⟨0x2C, 4, 1, .rw, 0x0, 0x3F⟩]

/-- Rows of DRC. -/
def rowsDRC0 : List RegRow :=
  [⟨0x100, 4, 1, .ro, 0x0, 0x0⟩,
   ⟨0x104, 4, 1, .ro, 0x0, 0x0⟩,
   ⟨0x108, 4, 1, .ro, 0x0, 0x0⟩,
   ⟨0x10C, 4, 1, .ro, 0x0, 0x0⟩,
   ⟨0x110, 4, 1, .ro, 0x0, 0x0⟩,
   ⟨0x114, 4, 1, .ro, 0x0, 0x0⟩,
   ⟨0x118, 4, 1, .ro, 0x0, 0x0⟩,
   ⟨0x11C, 4, 1, .ro, 0x0, 0x0⟩,
   ⟨0x120, 4, 1, .ro, 0x0, 0x0⟩,
   ⟨0x124, 4, 1, .ro, 0x0, 0x0⟩,
   ⟨0x128, 4, 1, .ro, 0x0, 0x0⟩,
   ⟨0x12C, 4, 1, .rw, 0x0, 0xE0000000⟩,
   ⟨0x130, 4, 1, .w1c, 0x0, 0x7⟩]

/-- Rows of DMA (global). -/
def rowsDMAG0 : List RegRow :=
  [⟨0x0, 4, 1, .ro, 0x100B1, 0x0⟩,
   ⟨0x4, 4, 1, .ro, 0x0, 0x0⟩,
   ⟨0x8, 4, 1, .ro, 0x0, 0x0⟩]

/-- Rows of DMA. -/
def rowsDMA0 : List RegRow :=
  [⟨0x100, 4, 1, .rw, 0x0, 0xFF3F⟩,
   ⟨0x104, 4, 1, .wo, 0x0, 0x7⟩,
   ⟨0x108, 4, 1, .ro, 0x0, 0x0⟩,
   ⟨0x10C, 4, 1, .rw, 0x0, 0xFFFFFFC0⟩,
   ⟨0x110, 4, 1, .rw, 0x0, 0xFFFFFFFF⟩,
   ⟨0x114, 4, 1, .ro, 0x0, 0x0⟩,
   ⟨0x118, 4, 1, .ro, 0x0, 0x0⟩,
   ⟨0x11C, 4, 1, .ro, 0x0, 0x0⟩,
   ⟨0x120, 4, 1, .ro, 0x0, 0x0⟩,
   ⟨0x124, 4, 1, .ro, 0x0, 0x0⟩,
   ⟨0x128, 4, 1, .ro, 0x0, 0x0⟩,
   ⟨0x12C, 4, 1, .ro, 0x0, 0x0⟩,
   ⟨0x130, 4, 1, .ro, 0x0, 0x0⟩,
   ⟨0x134, 4, 1, .ro, 0x0, 0x0⟩,
   ⟨0x138, 4, 1, .w1c, 0x0, 0x3F⟩,
   ⟨0x13C, 4, 1, .rw, 0x0, 0x3F⟩]

/-- Rows of HIF. -/
def rowsHIF0 : List RegRow :=
  [⟨0x0, 4, 1, .ro, 0x100B1, 0x0⟩,
   ⟨0x4, 4, 1, .ro, 0x0, 0x0⟩,
   ⟨0x8, 4, 1, .rw, 0xFFFFF, 0xFFFFF⟩,
   ⟨0xC, 4, 1, .ro, 0x0, 0x0⟩,
   ⟨0x10, 4, 1, .ro, 0x0, 0x0⟩,
   ⟨0x14, 4, 1, .ro, 0x0, 0x0⟩,
   ⟨0x18, 4, 1, .w1c, 0x0, 0xFFFFFFFF⟩,
   ⟨0x1C, 4, 1, .ro, 0x0, 0x0⟩,
   ⟨0x20, 4, 1, .ro, 0x0, 0x0⟩,
   ⟨0x24, 4, 1, .ro, 0x0, 0x0⟩,
   ⟨0x28, 4, 1, .w1c, 0x0, 0xF⟩,
   ⟨0x2C, 4, 1, .rw, 0x0, 0xF⟩,
   ⟨0x100, 4, 16, .rw, 0x0, 0xFFF⟩]

/-- Rows of LNK (global). -/
def rowsLNKG0 : List RegRow :=
  [⟨0x0, 4, 1, .ro, 0x100B1, 0x0⟩,
   ⟨0x4, 4, 1, .rw, 0x2040, 0xFFFF⟩,
   ⟨0x8, 4, 1, .ro, 0x0, 0x0⟩]

/-- Rows of MTB. -/
def rowsMTB0 : List RegRow :=
  [⟨0x0, 4, 1, .ro, 0x100B1, 0x0⟩,
   ⟨0x4, 4, 1, .rw, 0x0, 0xF3000000⟩,
   ⟨0x8, 4, 1, .wo, 0x0, 0x3⟩,
   ⟨0xC, 4, 1, .ro, 0x0, 0x0⟩,
   ⟨0x10, 4, 3, .ro, 0x0, 0x0⟩,
   ⟨0x1C, 4, 1, .ro, 0x0, 0x0⟩,
   ⟨0x20, 4, 1, .ro, 0x0, 0x0⟩,
   ⟨0x24, 4, 1, .rw, 0x0, 0xFFFFFFFF⟩,
   ⟨0x28, 4, 1, .rw, 0x0, 0xFFFFFFFF⟩,
   ⟨0x2C, 4, 1, .rw, 0x3E8, 0xFFFF⟩,
   ⟨0x30, 4, 1, .rw, 0x1F40, 0x1FFFFF⟩,
   ⟨0x34, 4, 1, .ro, 0x0, 0x0⟩,
   ⟨0x38, 4, 3, .ro, 0x0, 0x0⟩,
   ⟨0x44, 4, 1, .ro, 0x0, 0x0⟩,
   ⟨0x48, 4, 1, .ro, 0x0, 0x0⟩,
   ⟨0x4C, 4, 1, .ro, 0x0, 0x0⟩,
   ⟨0x50, 4, 1, .w1c, 0x0, 0x3F⟩,
   ⟨0x54, 4, 1, .rw, 0x0, 0x3F⟩,
   ⟨0x60, 4, 8, .rw, 0x1, 0xF000FFFF⟩,
   ⟨0x80, 16, 8, .ro, 0x0, 0x0⟩,
   ⟨0x84, 16, 8, .ro, 0x0, 0x0⟩,
   ⟨0x88, 16, 8, .ro, 0x0, 0x0⟩]

/-- Rows of FLT. -/
def rowsFLT0 : List RegRow :=
  [⟨0x0, 4, 1, .ro, 0x100B1, 0x0⟩,
   ⟨0x4, 4, 1, .ro, 0x0, 0x0⟩,
   ⟨0x8, 4, 1, .rw, 0x20, 0x77⟩,
   ⟨0xC, 4, 1, .wo, 0x0, 0xF⟩,
   ⟨0x10, 4, 1, .rw, 0x0, 0xE700FFFF⟩,
   ⟨0x14, 4, 1, .w1c, 0x0, 0x7F⟩,
   ⟨0x18, 4, 1, .rw, 0x0, 0x7F⟩,
   ⟨0x1C, 4, 1, .ro, 0x0, 0x0⟩,
   ⟨0x20, 4, 5, .ro, 0x0, 0x0⟩,
   ⟨0x34, 4, 1, .ro, 0x0, 0x0⟩,
   ⟨0x100, 4, 8, .ro, 0x0, 0x0⟩,
   ⟨0x120, 4, 8, .ro, 0x0, 0x0⟩,
   ⟨0x140, 4, 8, .ro, 0x0, 0x0⟩,
   ⟨0x800, 4, 512, .ro, 0x0, 0x0⟩]

/-- Rows of PWR. -/
def rowsPWR0 : List RegRow :=
  [⟨0x0, 4, 1, .ro, 0x100B1, 0x0⟩,
   ⟨0x4, 4, 1, .rw, 0x1, 0x1⟩,
   ⟨0x8, 4, 1, .wo, 0x0, 0xF0F⟩,
   ⟨0xC, 4, 1, .ro, 0x8000001, 0x0⟩,
   ⟨0x10, 4, 1, .rw, 0x3E8, 0xFFFF⟩,
   ⟨0x14, 4, 1, .rw, 0x3E8, 0xFFFF⟩,
   ⟨0x18, 4, 1, .rw, 0x64, 0xFFFF⟩,
   ⟨0x1C, 4, 4, .ro, 0x0, 0x0⟩,
   ⟨0x2C, 4, 4, .ro, 0x0, 0x0⟩,
   ⟨0x3C, 4, 1, .ro, 0x0, 0x0⟩,
   ⟨0x40, 4, 1, .ro, 0x0, 0x0⟩,
   ⟨0x44, 4, 1, .ro, 0x0, 0x0⟩,
   ⟨0x48, 4, 1, .ro, 0x0, 0x0⟩,
   ⟨0x4C, 4, 1, .ro, 0x0, 0x0⟩,
   ⟨0x50, 4, 1, .ro, 0x0, 0x0⟩,
   ⟨0x54, 4, 1, .ro, 0x0, 0x0⟩,
   ⟨0x58, 4, 1, .ro, 0x0, 0x0⟩,
   ⟨0x5C, 4, 1, .w1c, 0x0, 0x1F⟩,
   ⟨0x60, 4, 1, .rw, 0x0, 0x1F⟩]

/-- Rows of SUP. -/
def rowsSUP0 : List RegRow :=
  [⟨0x0, 4, 1, .ro, 0x100B1, 0x0⟩,
   ⟨0x4, 4, 1, .ro, 0x0, 0x0⟩,
   ⟨0x8, 4, 1, .ro, 0x0, 0x0⟩,
   ⟨0xC, 4, 1, .ro, 0x0, 0x0⟩,
   ⟨0x10, 4, 1, .wo, 0x0, 0x10F⟩,
   ⟨0x14, 4, 1, .rw, 0x0, 0xFFFFFFF0⟩,
   ⟨0x18, 4, 1, .rw, 0x0, 0xFFFFFFFF⟩,
   ⟨0x1C, 4, 1, .rw, 0x0, 0x7FFFFF⟩,
   ⟨0x20, 4, 1, .ro, 0x0, 0x0⟩,
   ⟨0x24, 4, 1, .ro, 0x0, 0x0⟩,
   ⟨0x28, 4, 1, .w1c, 0x0, 0xF⟩,
   ⟨0x2C, 4, 1, .rw, 0x0, 0xF⟩]

/-- Rows of NVM. -/
def rowsNVM0 : List RegRow :=
  [⟨0x0, 4, 1, .ro, 0x100B1, 0x0⟩,
   ⟨0x4, 4, 1, .ro, 0x0, 0x0⟩,
   ⟨0x8, 4, 1, .ro, 0x0, 0x0⟩,
   ⟨0xC, 4, 1, .ro, 0x0, 0x0⟩]

/-- Port rows of LNK[0]–LNK[3] (R459). -/
def rowsLNKport : List RegRow :=
  [⟨0x100, 4, 1, .rw, 0x0, 0x3⟩,
   ⟨0x104, 4, 1, .wo, 0x0, 0xF⟩,
   ⟨0x108, 4, 1, .ro, 0x0, 0x0⟩,
   ⟨0x10C, 4, 1, .ro, 0x0, 0x0⟩,
   ⟨0x110, 4, 1, .ro, 0x0, 0x0⟩,
   ⟨0x114, 4, 1, .rw, 0x0, 0x3FFFFF⟩,
   ⟨0x118, 4, 1, .rw, 0x0, 0x7FFFFF⟩,
   ⟨0x11C, 4, 1, .ro, 0x0, 0x0⟩,
   ⟨0x120, 4, 1, .rw, 0x0, 0xFFFFFFC0⟩,
   ⟨0x124, 4, 1, .rw, 0x0, 0x3FF⟩,
   ⟨0x128, 4, 1, .rw, 0x0, 0xFFFFFFC0⟩,
   ⟨0x12C, 4, 1, .rw, 0x0, 0x3FF⟩,
   ⟨0x130, 4, 1, .rw, 0x0, 0xFFFFFFFF⟩,
   ⟨0x134, 4, 1, .ro, 0x0, 0x0⟩,
   ⟨0x140, 4, 16, .rw, 0x0, 0xBFFF3FFF⟩,
   ⟨0x180, 4, 1, .ro, 0x0, 0x0⟩,
   ⟨0x184, 4, 1, .ro, 0x0, 0x0⟩,
   ⟨0x188, 4, 1, .ro, 0x0, 0x0⟩,
   ⟨0x18C, 4, 1, .w1c, 0x0, 0x3F⟩,
   ⟨0x190, 4, 1, .rw, 0x0, 0x3F⟩,
   ⟨0x200, 16, 4, .ro, 0x0, 0x0⟩,
   ⟨0x204, 16, 4, .ro, 0x0, 0x0⟩,
   ⟨0x208, 16, 4, .ro, 0x0, 0x0⟩]

/-- Time-lane rows of LNK[4]–LNK[5] (R459). -/
def rowsLNKtl : List RegRow :=
  [⟨0x18C, 4, 1, .w1c, 0x0, 0x3F⟩,
   ⟨0x190, 4, 1, .rw, 0x0, 0x3F⟩,
   ⟨0x100, 4, 1, .ro, 0x0, 0x0⟩,
   ⟨0x104, 4, 1, .ro, 0x0, 0x0⟩,
   ⟨0x108, 4, 1, .ro, 0x0, 0x0⟩,
   ⟨0x10C, 4, 1, .ro, 0x0, 0x0⟩]

/-- The blocks of R420 but for LNK, whose instances have two kinds of rows. -/
def blocksA : List RegBlock :=
  [⟨0x0, 0x100000, 1, 0x100000, [], rowsGLB0⟩,
   ⟨0x100000, 0x200000, 1, 0x100000, [], rowsSTI0⟩,
   ⟨0x200000, 0x400000, 16, 0x10000, [], rowsSEQ0 ++ rowsSEQ1⟩,
   ⟨0x400000, 0x600000, 16, 0x1000, rowsTMGG0, rowsTMG0⟩,
   ⟨0x600000, 0x800000, 128, 0x1000, [], rowsCHN0 ++ rowsCHN1⟩,
   ⟨0x800000, 0xA00000, 128, 0x1000, rowsTMUG0, rowsTMU0 ++ rowsTMU1⟩,
   ⟨0xA00000, 0xC00000, 128, 0x1000, rowsACQG0, rowsACQ0 ++ rowsACQ1⟩,
   ⟨0xC00000, 0xD00000, 128, 0x1000, rowsPELG0, rowsPEL0⟩,
   ⟨0xD00000, 0xE00000, 128, 0x1000, rowsCALG0, rowsCAL0⟩,
   ⟨0xE00000, 0xF00000, 16, 0x1000, rowsCSHG0, rowsCSH0⟩]

/-- The rest of the blocks of R420. -/
def blocksB : List RegBlock :=
  [⟨0xF00000, 0x1000000, 32, 0x1000, rowsANEG0 ++ rowsANEG1, rowsANE0⟩,
   ⟨0x1000000, 0x1100000, 8, 0x10000, rowsDRCG0, rowsDRC0⟩,
   ⟨0x1100000, 0x1200000, 16, 0x1000, rowsDMAG0, rowsDMA0⟩,
   ⟨0x1200000, 0x1300000, 1, 0x100000, [], rowsHIF0⟩,
   ⟨0x1400000, 0x1500000, 1, 0x100000, [], rowsMTB0⟩,
   ⟨0x1500000, 0x1600000, 1, 0x100000, [], rowsFLT0⟩,
   ⟨0x1600000, 0x1700000, 1, 0x100000, [], rowsPWR0⟩,
   ⟨0x1700000, 0x1800000, 1, 0x100000, [], rowsSUP0⟩,
   ⟨0x1800000, 0x1900000, 1, 0x100000, [], rowsNVM0⟩]

/-- The row of a list whose registers include offset `o`. -/
def findRow (o : Nat) : List RegRow → Option RegRow
  | [] => none
  | r :: rs =>
    if r.off ≤ o ∧ (o - r.off) % r.step = 0 ∧ (o - r.off) / r.step < r.cnt then some r
    else findRow o rs

/-- The block of a list that holds address `a`. -/
def findBlock (a : Nat) : List RegBlock → Option RegBlock
  | [] => none
  | b :: bs => if b.base ≤ a ∧ a < b.top then some b else findBlock a bs

/-- The row of block `b` for address `a`: a global row at instance 0, else an instance row; none where
the chapter lists nothing (R420: such an offset behaves as access RV). -/
def rowIn (b : RegBlock) (a : Nat) : Option RegRow :=
  let o := a - b.base
  let n := o / b.stride
  if n < b.insts then
    (if n = 0 then findRow o b.globals else none).orElse fun _ => findRow (o % b.stride) b.rows
  else none

/-- The row of LNK for address `a` (R459). -/
def rowLnk (a : Nat) : Option RegRow :=
  let o := a - 0x1300000
  let n := o / 0x1000
  if n = 0 then (findRow o (rowsLNKG0)).orElse fun _ => findRow o rowsLNKport
  else if n < 4 then findRow (o % 0x1000) rowsLNKport
  else if n < 6 then findRow (o % 0x1000) rowsLNKtl
  else none

/-- The word that protection slot register `a` (HIF_PT, R430) reads when the slot is empty: its own
KIND and INDEX in word 0, zero in words 1–3. -/
def ptEmptyWord (slot w : Nat) : Nat :=
  if w ≠ 0 then 0
  else if slot < 16 then 0x100000 + slot
  else if slot < 144 then 0x200000 + (slot - 16)
  else if slot < 160 then 0x300000 + (slot - 144)
  else if slot < 176 then 0x400000 + (slot - 160)
  else if slot < 240 then 0x500000 + (slot - 176)
  else 0x600000 + (slot - 240)

/-- The register row at BAR0 address `a`; none for an offset no chapter lists. -/
def regRow (a : Nat) : Option RegRow :=
  if 0x1300000 ≤ a ∧ a < 0x1400000 then rowLnk a
  else if 0x1201000 ≤ a ∧ a < 0x1202300 then
    if (a - 0x1201000) % 4 = 0 then
      some ⟨a - 0x1200000, 4, 1, .rw,
        ptEmptyWord ((a - 0x1201000) / 16) ((a - 0x1201000) % 16 / 4), 0xFFFFFFFF⟩
    else none
  else
    match findBlock a blocksA with
    | some b => rowIn b a
    | none => (findBlock a blocksB).bind (rowIn · a)

/-- The value a register holds right after reset: the Reset column of its table, and 0 where the
manual gives none (log entry 2). -/
def regReset (a : Nat) : BitVec 32 :=
  match regRow a with
  | some r => BitVec.ofNat 32 r.reset
  | none => 0

/-- Values wider than 32 bits (R6): the address of the first low word, the distance and number of
its instances, and how many upper words follow. -/
structure WideRow where
  base : Nat
  step : Nat
  cnt : Nat
  ups : Nat
  deriving DecidableEq, Repr

/-- Wide values, first half. -/
def wideRowsA : List WideRow :=
  [⟨0x100008, 0x4, 1, 1⟩, ⟨0x200018, 0x10000, 16, 1⟩, ⟨0x200020, 0x10000, 16, 1⟩,
   ⟨0x200030, 0x10000, 16, 1⟩, ⟨0x200038, 0x10000, 16, 1⟩, ⟨0x200040, 0x10000, 16, 1⟩,
   ⟨0x200048, 0x10000, 16, 1⟩, ⟨0x60001C, 0x1000, 128, 1⟩, ⟨0x400198, 0x1000, 16, 1⟩,
   ⟨0x600050, 0x1000, 128, 1⟩, ⟨0x600058, 0x1000, 128, 1⟩, ⟨0x600064, 0x1000, 128, 1⟩,
   ⟨0x600074, 0x1000, 128, 1⟩, ⟨0x60007C, 0x1000, 128, 1⟩, ⟨0x600088, 0x1000, 128, 1⟩,
   ⟨0xE00008, 0x4, 1, 1⟩, ⟨0xE00010, 0x4, 1, 1⟩, ⟨0xE0010C, 0x1000, 16, 1⟩,
   ⟨0xE00114, 0x1000, 16, 1⟩, ⟨0x800120, 0x1000, 128, 1⟩, ⟨0x800130, 0x1000, 128, 1⟩,
   ⟨0x80013C, 0x1000, 128, 1⟩, ⟨0x800160, 0x1000, 128, 1⟩, ⟨0x800168, 0x1000, 128, 1⟩,
   ⟨0x800170, 0x1000, 128, 1⟩, ⟨0x800178, 0x1000, 128, 1⟩]

/-- Wide values, second half. -/
def wideRowsB : List WideRow :=
  [⟨0xA00148, 0x1000, 128, 1⟩, ⟨0xA00154, 0x1000, 128, 1⟩, ⟨0xF00108, 0x1000, 32, 1⟩,
   ⟨0x1000110, 0x10000, 8, 1⟩, ⟨0x100011C, 0x10000, 8, 1⟩, ⟨0x110010C, 0x1000, 16, 1⟩,
   ⟨0x1100114, 0x1000, 16, 1⟩, ⟨0x1100120, 0x1000, 16, 1⟩, ⟨0x1100130, 0x1000, 16, 1⟩,
   ⟨0x8, 0x4, 1, 1⟩, ⟨0x1200010, 0x4, 1, 1⟩, ⟨0x1300120, 0x1000, 4, 1⟩,
   ⟨0x1300128, 0x1000, 4, 1⟩, ⟨0x1300180, 0x1000, 4, 1⟩, ⟨0x1700014, 0x4, 1, 1⟩,
   ⟨0x400180, 0x1000, 16, 2⟩, ⟨0x800108, 0x1000, 128, 2⟩, ⟨0x800114, 0x1000, 128, 2⟩,
   ⟨0xA00124, 0x1000, 128, 2⟩, ⟨0x1400010, 0x4, 1, 2⟩, ⟨0x1400038, 0x4, 1, 2⟩,
   ⟨0x1400080, 0x10, 8, 2⟩, ⟨0x1500100, 0x8, 2, 1⟩, ⟨0x1500120, 0x8, 2, 1⟩,
   ⟨0x1500140, 0x8, 2, 1⟩, ⟨0x1600044, 0x4, 1, 1⟩]

/-- Wide values of a TMU bank (R258, R276), of the flow window (R372), and the image digest (R72). -/
def wideRowsC : List WideRow :=
  [⟨0x800208, 0x1000, 128, 2⟩, ⟨0x800214, 0x1000, 128, 2⟩, ⟨0x800220, 0x1000, 128, 2⟩,
   ⟨0x800230, 0x1000, 128, 1⟩, ⟨0x800238, 0x1000, 128, 2⟩, ⟨0x800244, 0x1000, 128, 4⟩,
   ⟨0x800258, 0x1000, 128, 1⟩, ⟨0x800260, 0x1000, 128, 1⟩, ⟨0x800270, 0x1000, 128, 1⟩,
   ⟨0x800278, 0x1000, 128, 2⟩, ⟨0x800284, 0x1000, 128, 2⟩, ⟨0x800290, 0x1000, 128, 3⟩,
   ⟨0x8002A0, 0x1000, 128, 4⟩, ⟨0xF00044, 0x4, 1, 1⟩, ⟨0xF0004C, 0x4, 1, 1⟩, ⟨0xF00054, 0x4, 1, 1⟩,
   ⟨0xF00060, 0x4, 1, 1⟩, ⟨0xF00078, 0x4, 1, 1⟩, ⟨0xF00084, 0x4, 1, 1⟩,
   ⟨0x100048, 0x4, 1, 11⟩]

/-- How many upper words follow in the value whose low word is at `a`, by a table. -/
def wideIn (a : Nat) : List WideRow → Nat
  | [] => 0
  | r :: rs =>
    if r.base ≤ a ∧ (a - r.base) % r.step = 0 ∧ (a - r.base) / r.step < r.cnt then r.ups
    else wideIn a rs

/-- How many upper words the wide value with low word at `a` has; 0 where `a` is no low word. The
periods of TMG[n] (16 pairs) and the log slots (words 0–1 and 2–3, R489) are computed. -/
def wideUps (a : Nat) : Nat :=
  if 0x400000 ≤ a ∧ a < 0x410000 ∧ 0x100 ≤ a % 0x1000 ∧ a % 0x1000 < 0x180 ∧ a % 8 = 0 then 1
  else if 0x1500800 ≤ a ∧ a < 0x1501000 ∧ a % 32 < 16 ∧ a % 8 = 0 then 1
  else match wideIn a wideRowsA with
    | 0 =>
      match wideIn a wideRowsB with
      | 0 => wideIn a wideRowsC
      | n => n
    | n => n

end Sys2Proof.Machine
end

