-- ==== Sys2Proof/Machine/Ops.lean ====
section
/-! DEFINITION. The named operations every meaning is written with: sparse maps, bit fields, registers,
byte memories, faults on their way to the collector, ownership, and power units. -/

namespace Sys2Proof.Machine

open Sys2Proof

/-! ### Sparse maps in canonical form -/

section maps
variable {α : Type}

/-- The value listed at key `k`. -/
def kfind : KMap α → Nat → Option α
  | [], _ => none
  | (j, v) :: m, k => if k = j then some v else kfind m k

/-- The value at key `k`; an unlisted key has the default `d k`. -/
def kget (d : Nat → α) (m : KMap α) (k : Nat) : α :=
  match kfind m k with
  | some v => v
  | none => d k

/-- List `v` at key `k`, in the order of the keys. -/
def kput (k : Nat) (v : α) : KMap α → KMap α
  | [] => [(k, v)]
  | (j, w) :: m =>
    if k < j then (k, v) :: (j, w) :: m
    else if k = j then (k, v) :: m
    else (j, w) :: kput k v m

/-- Remove key `k` from the list. -/
def kdel (k : Nat) : KMap α → KMap α
  | [] => []
  | (j, w) :: m => if k = j then kdel k m else (j, w) :: kdel k m

/-- Set the value at key `k`; writing the default removes the entry, so equal maps are equal data. -/
def kset [DecidableEq α] (d : Nat → α) (m : KMap α) (k : Nat) (v : α) : KMap α :=
  if v = d k then kdel k m else kput k v m

/-- The canonical form: keys strictly rising, no entry equal to its key's default. -/
def kwf [DecidableEq α] (d : Nat → α) (m : KMap α) : Bool :=
  decide ((m.map Prod.fst).Pairwise (· < ·)) && m.all fun p => decide (p.2 ≠ d p.1)

/-- Apply a state change for each number of a list, in order. -/
def forEach (l : List Nat) (f : Nat → α → α) (a : α) : α := l.foldl (fun a n => f n a) a

end maps

/-! ### Words, fields and bytes -/

/-- Field [hi:lo] of a word. -/
def fld (v : Word) (hi lo : Nat) : Nat := v.toNat / 2 ^ lo % 2 ^ (hi + 1 - lo)

/-- Bit `i` of a word. -/
def bit (v : Word) (i : Nat) : Bool := fld v i i == 1

/-- A word with field [hi:lo] set to `x`, cut to its width. -/
def setFld (v : Word) (hi lo x : Nat) : Word :=
  BitVec.ofNat 32 (v.toNat - 2 ^ lo * fld v hi lo + 2 ^ lo * (x % 2 ^ (hi + 1 - lo)))

/-- 1 for true. -/
def b2n (b : Bool) : Nat := if b then 1 else 0

/-- A word of a number, modulo 2^32. -/
def word (n : Nat) : Word := BitVec.ofNat 32 n

/-- Word `i` of a wide number, low word first (R6). -/
def wordOf (n i : Nat) : Word := word (n / 2 ^ (32 * i))

/-- A `bits`-bit two's complement number. -/
def sext (bits n : Nat) : Int :=
  if n % 2 ^ bits < 2 ^ (bits - 1) then (n % 2 ^ bits : Int) else (n % 2 ^ bits : Int) - 2 ^ bits

/-- The `bits`-bit two's complement code of an integer. -/
def ofInt (bits : Nat) (i : Int) : Nat := (i % 2 ^ bits).toNat

/-- `n` cut at the largest `bits`-bit number (a saturating counter). -/
def sat (bits n : Nat) : Nat := if 2 ^ bits ≤ n then 2 ^ bits - 1 else n

/-- The numbers 0 … n−1 whose bit is 1 in `m`. -/
def bitsOf (n m : Nat) : List Nat := (List.range n).filter fun i => m.testBit i

/-- The bit mask of a list of numbers. -/
def maskOf (l : List Nat) : Nat := l.foldl (fun a i => a ||| 2 ^ i) 0

/-! ### Registers -/

/-- The stored value of the register at BAR0 address `a`. -/
def State.rd (s : State) (a : Nat) : Word := kget regReset s.regs a

/-- Store a value in the register at `a`. -/
def State.wr (s : State) (a : Nat) (v : Word) : State := { s with regs := kset regReset s.regs a v }

/-- Field [hi:lo] of the register at `a`. -/
def State.rdF (s : State) (a hi lo : Nat) : Nat := fld (s.rd a) hi lo

/-- Set field [hi:lo] of the register at `a`. -/
def State.wrF (s : State) (a hi lo x : Nat) : State := s.wr a (setFld (s.rd a) hi lo x)

/-- Store a number in the register at `a`, modulo 2^32. -/
def State.wrN (s : State) (a n : Nat) : State := s.wr a (word n)

/-- A wide number held in `k` consecutive registers from `a`, low word first (R6). -/
def State.rdWide (s : State) (a k : Nat) : Nat :=
  match k with
  | 0 => 0
  | k + 1 => (s.rd a).toNat + 2 ^ 32 * s.rdWide (a + 4) k

/-- Store a wide number in `k` consecutive registers from `a`. -/
def State.wrWide (s : State) (a k n : Nat) : State :=
  match k with
  | 0 => s
  | k + 1 => (s.wrN a n).wrWide (a + 4) k (n / 2 ^ 32)

/-- Set the bits of mask `m` in the register at `a`. -/
def State.setBits (s : State) (a m : Nat) : State := s.wrN a ((s.rd a).toNat ||| m)

/-- Clear the bits of mask `m` in the register at `a`. -/
def State.clrBits (s : State) (a m : Nat) : State :=
  s.wr a ((s.rd a) &&& ~~~ (word m))

/-- Add `n` to the counter in the register at `a`, which saturates at 2^32 − 1. -/
def State.count (s : State) (a n : Nat) : State := s.wrN a (sat 32 ((s.rd a).toNat + n))

/-- Add `n` to the saturating counter in field [hi:lo] of the register at `a`. -/
def State.countF (s : State) (a hi lo n : Nat) : State :=
  s.wrF a hi lo (sat (hi + 1 - lo) (s.rdF a hi lo + n))

/-- A write to the read-write register at `a`: its writable bits take the value, reserved bits read 0
(R3, R5); an address of no such register is left alone. -/
def State.wrRow (s : State) (a : Nat) (v : Word) : State :=
  match regRow a with
  | some r => if r.acc = .rw then s.wr a (v &&& word r.mask) else s
  | none => s

/-- The applied value of the staged register at `a`. -/
def State.apv (s : State) (a : Nat) : Word := kget regReset s.applied a

/-- Set the applied value of the staged register at `a`. -/
def State.setApv (s : State) (a : Nat) (v : Word) : State :=
  { s with applied := kset regReset s.applied a v }

/-! ### Units held in maps -/

/-- Sequencer SQn. -/
def State.sq (s : State) (n : Nat) : SeqUnit := kget (fun _ => {}) s.seq n
/-- Set sequencer SQn. -/
def State.setSq (s : State) (n : Nat) (u : SeqUnit) : State :=
  { s with seq := kset (fun _ => {}) s.seq n u }
/-- Channel CHc's formatter, compare path and driver. -/
def State.ch (s : State) (c : Nat) : ChUnit := kget (fun _ => {}) s.chn c
/-- Set channel CHc. -/
def State.setCh (s : State) (c : Nat) (u : ChUnit) : State :=
  { s with chn := kset (fun _ => {}) s.chn c u }
/-- CHc's time measurement unit. -/
def State.tm (s : State) (c : Nat) : TmuUnit := kget (fun _ => {}) s.tmu c
/-- Set CHc's time measurement unit. -/
def State.setTm (s : State) (c : Nat) (u : TmuUnit) : State :=
  { s with tmu := kset (fun _ => {}) s.tmu c u }
/-- CHc's acquisition unit. -/
def State.aq (s : State) (c : Nat) : AcqUnit := kget (fun _ => {}) s.acq c
/-- Set CHc's acquisition unit. -/
def State.setAq (s : State) (c : Nat) (u : AcqUnit) : State :=
  { s with acq := kset (fun _ => {}) s.acq c u }
/-- DMA channel DCn. -/
def State.dc (s : State) (n : Nat) : DmaUnit := kget (fun _ => {}) s.dma n
/-- Set DMA channel DCn. -/
def State.setDc (s : State) (n : Nat) (u : DmaUnit) : State :=
  { s with dma := kset (fun _ => {}) s.dma n u }
/-- Falin port FPp. -/
def State.fp (s : State) (p : Nat) : Port := kget (fun _ => {}) s.port p
/-- Set Falin port FPp. -/
def State.setFp (s : State) (p : Nat) (u : Port) : State :=
  { s with port := kset (fun _ => {}) s.port p u }
/-- Time lane TLl. -/
def State.tl (s : State) (l : Nat) : Lane := kget (fun _ => {}) s.lane l
/-- Set time lane TLl. -/
def State.setTl (s : State) (l : Nat) (u : Lane) : State :=
  { s with lane := kset (fun _ => {}) s.lane l u }
/-- Flow context f. -/
def State.fw (s : State) (f : Nat) : FlowSt := kget (fun _ => {}) s.ane.flows f
/-- Set flow context f. -/
def State.setFw (s : State) (f : Nat) (u : FlowSt) : State :=
  { s with ane := { s.ane with flows := kset (fun _ => {}) s.ane.flows f u } }
/-- Analysis engine AEe. -/
def State.eng (s : State) (e : Nat) : EngSt := kget (fun _ => {}) s.ane.engines e
/-- Set analysis engine AEe. Without work its pace monitor reports 0xFFFF (R187). -/
def State.setEng (s : State) (e : Nat) (u : EngSt) : State :=
  { s with ane := { s.ane with engines := kset (fun _ => {}) s.ane.engines e u },
           pace := if u.ready.isEmpty then kset (fun _ => 0xFFFF) s.pace (0x22 + e) 0xFFFF else s.pace }

/-! ### Byte memories -/

/-- What a DRAM byte that nothing has written reads as: 0, the cleared state of R390. -/
def dramFill (_ : Nat) : Byte := 0
/-- What an SRAM byte that nothing has written reads as (log entry 3). -/
def sramFill (_ : Nat) : Byte := 0
/-- What a NOR byte that nothing has written reads as: what the factory wrote (R229, R326), else erased flash (log
entry 3). -/
def norFill (a : Nat) : Byte := factoryByte a

/-- `n` bytes of a memory from address `a`. -/
def memRead (d : Nat → Byte) (m : KMap Byte) (a : Nat) : Nat → List Byte
  | 0 => []
  | n + 1 => kget d m a :: memRead d m (a + 1) n

/-- The entries that bytes from address `a` make: none for a byte an unlisted address reads as. -/
def memEntries (d : Nat → Byte) (a : Nat) : List Byte → KMap Byte
  | [] => []
  | b :: bs => if b = d a then memEntries d (a + 1) bs else (a, b) :: memEntries d (a + 1) bs

/-- Write bytes into a memory from address `a`: their entries in place of what stood there. -/
def memWrite (d : Nat → Byte) (m : KMap Byte) (a : Nat) (bs : List Byte) : KMap Byte :=
  m.filter (fun p => decide (p.1 < a)) ++ memEntries d a bs ++
    m.filter (fun p => decide (a + bs.length ≤ p.1))

/-- Read `n` bytes of on-chip SRAM at BAR4 offset `a`. -/
def State.sramRd (s : State) (a n : Nat) : List Byte := memRead sramFill s.sram a n
/-- Write on-chip SRAM at BAR4 offset `a`. -/
def State.sramWr (s : State) (a : Nat) (bs : List Byte) : State :=
  { s with sram := memWrite sramFill s.sram a bs }
/-- The 32-bit word of on-chip SRAM at BAR4 offset `a`. -/
def State.sramW (s : State) (a : Nat) : Word := word (leNat (s.sramRd a 4))
/-- Read `n` bytes of DRAM as they are held. -/
def State.dramRd (s : State) (a n : Nat) : List Byte := memRead dramFill s.dram a n
/-- Read `n` bytes of the NOR flash. -/
def State.norRd (s : State) (a n : Nat) : List Byte := memRead norFill s.nor a n
/-- Write the NOR flash (erase and program). -/
def State.norWr (s : State) (a : Nat) (bs : List Byte) : State :=
  { s with nor := memWrite norFill s.nor a bs }

/-! ### What leaves the module, and free values -/

/-- Send something out. -/
def State.send (s : State) (o : Output) : State := { s with out := o :: s.out }

/-- Hand the last host read its data. -/
def State.answer (s : State) (ws : List Word) : State := { s with rdata := ws, rpoison := false }

/-- The next free value (log entry 5). -/
def State.freeNow (s : State) : Nat := Config.freeValue s.free

/-- Draw one free value. -/
def State.drawn (s : State) : State := { s with free := s.free + 1 }

/-! ### Blocks and faults -/

/-- The block number of a BAR0 address (R421): index × 256 + instance. -/
def blockNum (a : Nat) : Nat :=
  if a < 0x100000 then 0
  else if a < 0x200000 then 0x100
  else if a < 0x400000 then 0x200 + (a - 0x200000) / 0x10000
  else if a < 0xC00000 then 0x100 * (a / 0x200000 + 1) + a % 0x200000 / 0x1000
  else if a < 0x1000000 then 0x100 * (a / 0x100000 - 5) + a % 0x100000 / 0x1000
  else if a < 0x1100000 then 0xB00 + (a - 0x1000000) / 0x10000
  else if a < 0x1200000 then 0xC00 + (a - 0x1100000) / 0x1000
  else if a < 0x1300000 then 0xD00
  else if a < 0x1400000 then 0xE00 + (a - 0x1300000) / 0x1000
  else 0x100 * (a / 0x100000 - 5)

/-- Block number of HIF. -/
def blkHIF : Nat := 0xD00
/-- Block number of FLT. -/
def blkFLT : Nat := 0x1000
/-- Block number of PWR. -/
def blkPWR : Nat := 0x1100

/-- A checker detects a fault: it is on its way to the collector (R482). -/
def State.detect (s : State) (r : FaultRec) : State := { s with detected := s.detected ++ [r] }

/-- A NOTE fault of block `src` with a reason code, an address and no requester. -/
def State.note (s : State) (src : Nat) (code : Nat := 0) (addr : Nat := 0) : State :=
  s.detect { src := src, code := code, addr := addr }

/-- A NOTE fault of a domain's refused write at BAR0 address `a`: source the block, requester the
domain (R489, R541). -/
def State.noteReg (s : State) (dom a : Nat) (code : Nat := 0) : State :=
  s.detect { src := blockNum a, code := code, addr := a, rkind := 1, access := 1, rid := dom }

/-- A MOD-class fault (R481). -/
def State.modFault (s : State) (src code : Nat) (chk : Nat := 7) : State :=
  s.detect { src := src, cls := 3, chk := chk, code := code }

/-- An injection is armed for checker `chk` of block `src` (R492). -/
def State.injArmed (s : State) (src chk : Nat) : Bool :=
  let v := s.rd Reg.FLT_INJ
  bit v 31 && fld v 15 0 == src && fld v 26 24 == chk

/-- The armed injection is ALL_STICKY. -/
def State.injSticky (s : State) : Bool := s.rdF Reg.FLT_INJ 30 29 == 2

/-- The armed injection has acted once: a ONCE mode is disarmed. -/
def State.injOnce (s : State) : State := if s.injSticky then s else s.wrF Reg.FLT_INJ 31 31 0

/-- The checker corrects one inverted check bit without a retry: SECDED, and the code of R391 (R488, R492). -/
def corrects (src chk : Nat) : Bool := chk == 0 || (chk == 3 && src / 256 == 0xB)

/-- The next check of the checker that record `r` names meets an armed injection (R492): true where it is lasting;
after a ONCE mode the retry succeeds, or the checker corrects, and CORR is recorded. -/
def State.injMeets (s : State) (r : FaultRec) : State × Bool :=
  if !s.injArmed r.src r.chk then (s, false)
  else if s.injSticky then (s, true)
  else
    (s.injOnce.detect
      { r with cls := 1, inj := true, retried := s.rdF Reg.FLT_INJ 30 29 == 1 || !corrects r.src r.chk }, false)

/-- A check of checker `chk` of block `src` that has no address of its own. -/
def State.injTake (s : State) (src chk : Nat) : State × Bool := s.injMeets { src := src, chk := chk }

/-- Set bits of an interrupt status register. -/
def State.irq (s : State) (a m : Nat) : State := s.setBits a m

/-- A MOD-class fault (or a GRAVE one) is held: FLT_STAT.MOD (R484, R485). -/
def State.modHeld (s : State) : Bool := bit (s.rd Reg.FLT_STAT) 30
/-- A GRAVE-class fault is held: FLT_STAT.GRAVE (R485). -/
def State.graveHeld (s : State) : Bool := bit (s.rd Reg.FLT_STAT) 31
/-- Safe mode: PWR_STAT.SAFE (R512). -/
def State.safeMode (s : State) : Bool := bit (s.rd Reg.PWR_STAT) 30
/-- PFW_N is asserted: PWR_STAT.PFW (R543). -/
def State.pfw (s : State) : Bool := bit (s.rd Reg.PWR_STAT) 25
/-- The timing PLL is locked: TMG_CLK_STAT.LOCK (R170). -/
def State.pllLocked (s : State) : Bool := bit (s.rd Reg.TMG_CLK_STAT) 31

/-- The module has power and is out of Safe mode, in which only the power stage, the supervisor core and the physical
function of the endpoint run (R512). -/
def State.runs (s : State) : Bool := s.pwr.on && !s.safeMode

/-- An event takes effect only while its block runs and the event is due; otherwise nothing happens (log entry 4). -/
def State.whenDue (s : State) (due : Bool) (k : State → State) : State :=
  if s.runs && due then k s else s

/-- The same of what runs in Safe mode too. -/
def State.whenOn (s : State) (due : Bool) (k : State → State) : State :=
  if s.pwr.on && due then k s else s

/-! ### The protection table (R430–R434) -/

/-- BAR0 address of word `w` of protection slot `i`. -/
def ptAddr (i w : Nat) : Nat := 0x1201000 + 16 * i + 4 * w

/-- First slot of a kind of R430. -/
def slotBase : Nat → Nat
  | 1 => 0
  | 2 => 16
  | 3 => 144
  | 4 => 160
  | 5 => 176
  | _ => 240

/-- Owner of resource `i` of kinds 1–4: D0 when its entry is not valid (R430). -/
def State.ptOwner (s : State) (kind i : Nat) : Nat :=
  let w := s.rd (ptAddr (slotBase kind + i) 0)
  if bit w 31 then fld w 27 24 else 0

/-- A domain owns a resource, or is D0, which may do all an owner may (R425). -/
def State.owns (s : State) (dom kind i : Nat) : Bool := dom == 0 || s.ptOwner kind i == dom

/-- The slot of kind 5 or 6 whose valid entry covers number `x` (a flow, or a megabyte of DRAM). -/
def State.coverSlot (s : State) (kind x : Nat) : Option Nat :=
  (List.range 64).find? fun i =>
    let b := slotBase kind + i
    bit (s.rd (ptAddr b 0)) 31 && decide ((s.rd (ptAddr b 1)).toNat ≤ x) &&
      decide (x < (s.rd (ptAddr b 1)).toNat + (s.rd (ptAddr b 2)).toNat)

/-- Domain `dom` may access the DRAM byte `a` (R430, R431): a byte no region covers belongs to D0. -/
def State.dramMay (s : State) (dom : Nat) (wr : Bool) (a : Nat) : Bool :=
  dom == 0 ||
    match s.coverSlot 6 (a / 2 ^ 20) with
    | none => false
    | some i =>
      let w := s.rd (ptAddr (240 + i) 0)
      fld w 27 24 == dom || (!wr && bit w 30)

/-- Domain `dom` may read the window of flow `f` (R372, R431). -/
def State.flowMay (s : State) (dom f : Nat) : Bool :=
  dom == 0 ||
    match s.coverSlot 5 f with
    | none => false
    | some i => fld (s.rd (ptAddr (176 + i) 0)) 27 24 == dom

/-- Domain `dom` may write the block at BAR0 address `a`: the write rights each block's chapter gives.
R372 keeps ANE_CTL, ANE_CMD and ANE_IEN to D0 and gives each domain its own selects. GLB_APPLY is open to every domain, its bits belong to the sequencers' owners (R219). An offset that no chapter lists is reserved: a write there is
discarded and no fault, whoever writes (R420). -/
def State.regMayWrite (s : State) (dom a : Nat) : Bool :=
  dom == 0 || (regRow a).isNone ||
    (if a < 0x100000 then a ≠ Reg.GLB_MODULE
     else if a < 0x200000 then false
     else if a < 0x400000 then s.owns dom 1 ((a - 0x200000) / 0x10000)
     else if a < 0x600000 then a % 0x1000 ≥ 0x100 && s.owns dom 1 (a % 0x200000 / 0x1000)
     else if a < 0xD00000 then
       (a < 0x800000 || a % 0x1000 ≥ 0x100) && s.owns dom 2 (a % 0x100000 / 0x1000 % 128)
     else if a < 0xE00000 then false
     else if a < 0xF00000 then
       a % 0x1000 ≥ 0x100 && a % 0x1000 ≠ 0x130 && s.owns dom 4 (a % 0x100000 / 0x1000)
     else if a < 0x1000000 then !(a == Reg.ANE_CTL || a == Reg.ANE_CMD || a == Reg.ANE_IEN)
     else if a < 0x1100000 then false
     else if a < 0x1200000 then a % 0x1000 ≥ 0x100 && s.owns dom 3 (a % 0x100000 / 0x1000)
     else false)

/-- Domain `dom` may read the register at BAR0 address `a`: the fault records and the log are D0's
(R496), CSH[n]_ACQ the sheet owner's (R232), and every other register can be read by any domain. -/
def State.regMayRead (s : State) (dom a : Nat) : Bool :=
  dom == 0 ||
    (if 0xE00000 ≤ a ∧ a < 0xE10000 ∧ a % 0x1000 = 0x100 then s.owns dom 4 ((a - 0xE00000) / 0x1000)
     else !((0x1500100 ≤ a && a < 0x1500160) || (0x1500800 ≤ a && a < 0x1501000)))

/-- A denied access (R434): counted, recorded when it is the first, and reported as a NOTE fault. -/
def State.deny (s : State) (space dom dc : Nat) (wr : Bool) (addr : Nat) : State :=
  let s := s.count Reg.HIF_DENY_CNT 1
  let s := if bit (s.rd Reg.HIF_DENY_INFO) 31 then s else
    ((s.wrN Reg.HIF_DENY_INFO (2 ^ 31 + 2 ^ 28 * space + b2n wr * 2 ^ 27 + 2 ^ 20 * dom + 2 ^ 16 * dc)).wrN
      Reg.HIF_DENY_ADDR_LO addr).wrN Reg.HIF_DENY_ADDR_HI (addr / 2 ^ 32)
  let s := s.irq Reg.HIF_ISTAT 1
  s.detect { src := blkHIF, addr := addr, rkind := if space = 3 then 2 else 1, access := b2n wr,
             rid := if space = 3 then dc else dom }

/-! ### Power units (R497–R503) -/

/-- Key of a power unit. -/
def unitKey (kind i : Nat) : Nat := 256 * kind + i

/-- State of a power unit: 0 ACTIVE, 1 ENTERING past AP1, 2 ENTERING past AP2, 3 LOW, 4 WAKING. -/
def State.unit (s : State) (kind i : Nat) : Nat := kget (fun _ => 0) s.pwr.units (unitKey kind i)

/-- The timing PLL goes down by command, is down, or comes back (R499; log entry 110). -/
def State.pllOff (s : State) : Bool := s.unit 7 0 != 0

/-- A unit is at work at this tick: its idle timer starts again (R497, R502). -/
def State.workNow (s : State) (kind i : Nat) : State :=
  { s with pwr := { s.pwr with workAt := kset (fun _ => 0) s.pwr.workAt (unitKey kind i) s.mt } }

/-- A unit has been idle for `us` microseconds. -/
def State.idleFor (s : State) (kind i us : Nat) : Bool :=
  decide (max s.pwr.startAt (kget (fun _ => 0) s.pwr.workAt (unitKey kind i)) + 4000 * us ≤ s.mt)

/-- Set the state of a power unit, and its LOW bit where a register shows one. -/
def State.setUnit (s : State) (kind i st : Nat) : State :=
  let s := { s with pwr := { s.pwr with units := kset (fun _ => 0) s.pwr.units (unitKey kind i) st } }
  let s := if st = 0 then s.workNow kind i else s
  match kind with
  | 1 => s.wrF (Reg.PWR_LOWCH (i / 32)) (i % 32) (i % 32) (b2n (st == 3))
  | 2 => s.wrF (Reg.PWR_LOWDIG (i / 32)) (i % 32) (i % 32) (b2n (st == 3))
  | 3 => s.wrF Reg.PWR_LOWAE i i (b2n (st == 3))
  | 4 =>
    let pd := kget (fun _ => false) s.drc.pdown i
    let s := if st = 0 then { s with drc := { s.drc with pdown := kset (fun _ => false) s.drc.pdown i false } } else s
    let s := if st = 4 then s else s.wrF (Reg.DRC_CH_STAT i) 31 29 (if st = 3 then 1 + b2n pd else 0)
    let s := if st = 4 then s else s.wrF Reg.DRC_STAT (8 + i) (8 + i) (b2n (st == 3 && !pd))
    if st = 4 then s else s.wrF Reg.DRC_STAT i i (b2n (st == 3 && pd))
  | 5 => s.wrF (Reg.LNK_STAT i) 28 27 (if st = 0 then 0 else if st ≤ 2 then 1 else st - 1)
  | _ => s

/-- The power unit whose clock and power the block at BAR0 address `a` depends on (R497); offsets past a block's last
instance belong to none, and neither do the registers of PEL[0] that serve the whole module nor LNK_CMD, through which a
port that sleeps is woken (log entry 110). -/
def unitAt (a : Nat) : Option (Nat × Nat) :=
  if 0x400000 ≤ a ∧ a < 0x600000 then some (7, 0)
  else if 0x600000 ≤ a ∧ a < 0xA00000 ∧ a % 0x200000 < 0x80000 then some (1, a % 0x200000 / 0x1000)
  else if 0xA00000 ≤ a ∧ a < 0xA80000 then some (2, a % 0x200000 / 0x1000)
  else if 0xC00100 ≤ a ∧ a < 0xC80000 then some (6, a % 0x100000 / 0x1000 / 32)
  else if 0xF00000 ≤ a ∧ a < 0xF20000 then some (3, a % 0x100000 / 0x1000)
  else if 0x1000000 ≤ a ∧ a < 0x1080000 ∧ 0x100 ≤ a % 0x10000 then some (4, a % 0x100000 / 0x10000)
  else if 0x1300100 ≤ a ∧ a < 0x1304000 ∧ 0x100 ≤ a % 0x1000 ∧ a % 0x1000 ≠ 0x104 then some (5, a % 0x100000 / 0x1000)
  else none

/-- The wake record (R503): unit, source, Module Time and, for an abandoned entry, its abort point. -/
def State.wakeRecord (s : State) (kind i source ap : Nat) : State :=
  let during := b2n (ap ≠ 0)
  let s := s.wrN Reg.PWR_WREC0
    (2 ^ 31 + 2 ^ 30 * during + 2 ^ 28 * ap + 2 ^ 24 * source + 2 ^ 20 * kind + i)
  let s := (s.wrN Reg.PWR_WREC1 s.mt).wrN Reg.PWR_WREC2 (s.mt / 2 ^ 32)
  let s := s.count Reg.PWR_WREC3 1
  if ap ≠ 0 then s.irq Reg.PWR_ISTAT 2 else s

/-- The abort point at which a wake that arrives now abandons an entry (R501): AP1 in the round in
which entry was decided, AP2 before the unit has drained, else AP3. -/
def State.abortPoint (s : State) (kind i : Nat) : Nat :=
  if s.unit kind i = 2 then 3
  else if s.mt / 16 = kget (fun _ => 0) s.pwr.entryAt (unitKey kind i) / 16 then 1
  else 2

/-- A wake source reaches a unit (R501): an entry is abandoned; a unit in LOW begins to wake and is
awake when its wake completes (R502); else nothing. -/
def State.wakeUnit (s : State) (kind i source : Nat) : State :=
  match s.unit kind i with
  | 1 => (s.setUnit kind i 0).wakeRecord kind i source (s.abortPoint kind i)
  | 2 => (s.setUnit kind i 0).wakeRecord kind i source 3
  | 3 =>
    let s := s.setUnit kind i 4
    let s := { s with pwr := { s.pwr with wakeAt := kset (fun _ => 0) s.pwr.wakeAt (unitKey kind i) s.mt } }
    s.wakeRecord kind i source 0
  | _ => s

/-- A unit is woken and its wake has completed: what work that needs the unit finds. -/
def State.wakeNow (s : State) (kind i source : Nat) : State :=
  let s := s.wakeUnit kind i source
  if s.unit kind i = 4 then s.setUnit kind i 0 else s

/-- A wake source reaches a unit that is ACTIVE: an entry decided in the same round is abandoned (R501). -/
def State.sourceNow (s : State) (kind i source : Nat) : State :=
  { s with pwr := { s.pwr with srcAt := kset (fun _ => none) s.pwr.srcAt (unitKey kind i) (some (s.mt, source)) } }

/-- A wake by command reaches a unit (R497, R501). -/
def State.cmdWake (s : State) (kind i : Nat) : State :=
  if s.unit kind i = 0 then s.sourceNow kind i 3 else s.wakeUnit kind i 3

/-- The entry of a unit is decided: AP1 (R500). Where a wake source has reached the unit in the same round, the entry is
abandoned at once (R501). -/
def State.enterUnit (s : State) (kind i : Nat) : State :=
  match (kget (fun _ => none) s.pwr.srcAt (unitKey kind i)).filter fun x => x.1 / 16 == s.mt / 16 with
  | some (_, source) => (s.workNow kind i).wakeRecord kind i source 1
  | none =>
    let s := s.setUnit kind i 1
    { s with pwr := { s.pwr with entryAt := kset (fun _ => 0) s.pwr.entryAt (unitKey kind i) s.mt } }

/-! ### DRAM lines and writes (R376, R385, R391, R394) -/

/-- The lines that `n` bytes from address `a` lie in (R376). -/
def linesOf (a n : Nat) : List Nat :=
  if n = 0 then [] else (List.range ((a + n - 1) / 64 - a / 64 + 1)).map (a / 64 + ·)

/-- The check state of line `l`. -/
def State.lineBad (s : State) (l : Nat) : Nat := kget (fun _ => 0) s.drc.bad l
/-- Set the check state of line `l`. -/
def State.setBad (s : State) (l x : Nat) : State :=
  { s with drc := { s.drc with bad := kset (fun _ => 0) s.drc.bad l x } }

/-- The channels that `n` bytes from `a` lie in, ascending (R376). -/
def chansOf (a n : Nat) : List Nat := (List.range 8).filter fun d => ((linesOf a n).take 8).any fun l => l % 8 == d

/-- A request reaches its channels, whose idle time starts again: those in self-refresh, or entering it, leave it
(R385). -/
def State.dramWake (s : State) (a n : Nat) : State :=
  forEach (chansOf a n) (fun d s =>
    let s := s.workNow 4 d
    if s.unit 4 d = 0 ∨ kget (fun _ => false) s.drc.pdown d = true then s else s.wakeNow 4 d 1) s

/-- Line `l` is written: fresh check bits where all of it is, and inverted ones where an injection is
armed on its channel (R394). -/
def State.lineWritten (s : State) (full : Bool) (l : Nat) : State :=
  let a := Reg.DRC_INJ (l % 8)
  if bit (s.rd a) 31 then
    (s.wrF a 31 31 0).setBad l (if s.rdF a 30 29 = 1 then 6 else 5)
  else if full then s.setBad l 0
  else s

/-- Write DRAM: the channels are awake, the lines get their check bits, the bytes stand in memory. -/
def State.dramWr (s : State) (a : Nat) (bs : List Byte) : State :=
  let s := s.dramWake a bs.length
  let s := forEach (linesOf a bs.length)
    (fun l s => s.lineWritten (decide (a ≤ 64 * l) && decide (64 * l + 64 ≤ a + bs.length)) l) s
  { s with dram := memWrite dramFill s.dram a bs }

/-! ### Access to a block (R434–R436) -/

/-- An access at address `a` to the dormant block of number `blk` (R435): NOTE fault, and the first one
recorded; `late` where the block has not come awake in time (R436). -/
def State.dormantAt (s : State) (dom a blk : Nat) (wr : Bool) (late : Bool := false) : State :=
  let s := if bit (s.rd Reg.HIF_DORM_INFO) 31 then s else
    s.wrN Reg.HIF_DORM_INFO (2 ^ 31 + b2n wr * 2 ^ 30 + 2 ^ 20 * dom + blk)
  let s := if late then s.wrF Reg.HIF_DORM_INFO 29 29 1 else s
  let s := s.irq Reg.HIF_ISTAT 2
  s.detect { src := blkHIF, addr := a, rkind := 1, access := b2n wr, rid := dom }

/-- An access to the dormant block at BAR0 address `a`. -/
def State.dormantNote (s : State) (dom a : Nat) (wr : Bool) (late : Bool := false) : State :=
  s.dormantAt dom a (blockNum a) wr late

/-- The pattern a dormant block answers with (R435). -/
def dormantWord (a : Nat) : Word := word (0xFFFF0000 + blockNum a)

end Sys2Proof.Machine
end

