-- ==== Sys2Proof/Machine/Operands.lean ====
section
/-! DEFINITION. Operand forms: the fields of a sequence instruction, a segment descriptor, a waveform
slot, the period entries, and what the structure in force says of channels, sites and carves. -/

namespace Sys2Proof.Machine

open Sys2Proof

/-! ### The structure in force (R39, R46–R49) -/

/-- The site of channel `c`. -/
def State.siteOfCh (s : State) (c : Nat) : Option Nat := kget (fun _ => none) s.str.siteOf c
/-- The sequencer that owns site `t`. -/
def State.seqOfSite (s : State) (t : Nat) : Option Nat := kget (fun _ => none) s.str.ownerOf t
/-- The sequencer that owns channel `c` (through its site). -/
def State.seqOfCh (s : State) (c : Nat) : Option Nat := (s.siteOfCh c).bind s.seqOfSite
/-- The sites SQn owns, ascending. -/
def State.ownedSites (s : State) (n : Nat) : List Nat :=
  (List.range 64).filter fun t => s.seqOfSite t == some n
/-- The channels SQn owns, ascending (R117). -/
def State.ownedChans (s : State) (n : Nat) : List Nat :=
  (List.range 128).filter fun c => s.seqOfCh c == some n
/-- The carve of SQn (R48). -/
def State.carveOf (s : State) (n : Nat) : Carve := kget (fun _ => {}) s.str.carve n
/-- The width of SQn's vector record in bytes (R117). -/
def State.recW (s : State) (n : Nat) : Nat := ((s.ownedChans n).length + 7) / 8 * 4

/-- Channel `c`'s crossbar entry (R49). -/
def State.xbarOf (s : State) (c : Nat) : Xbar := kget (fun _ => {}) s.str.xbar c
/-- Channel `c`'s acquisition route (R50). -/
def State.acqrOf (s : State) (c : Nat) : Acqr := kget (fun _ => {}) s.str.acqr c
/-- BAR4 offset of channel `c`'s capture area (R50, R267). -/
def State.capAt (s : State) (c : Nat) : Nat := 0x1800000 + 4096 * (s.acqrOf c).capBase
/-- End of the segment-table region of R120. -/
def segTop : Nat := 0x1000000

/-- Installed DRAM capacity in bytes: DRC_CFG.CAP gigabytes (R374). -/
def State.dramSize (s : State) : Nat := 2 ^ 30 * s.rdF Reg.DRC_CFG 12 0

/-! ### Sequence instructions (R78–R81) -/

/-- A sequence instruction, cut into its fields. -/
structure SInstr where
  op : Nat
  cond : Nat
  a : Nat
  b : Nat
  deriving DecidableEq, Repr

/-- The fields of a 64-bit instruction word. -/
def sInstr (w : Nat) : SInstr := ⟨w / 2 ^ 58 % 64, w / 2 ^ 54 % 16, w / 2 ^ 32 % 2 ^ 22, w % 2 ^ 32⟩

/-- Bits [hi:lo] of a number. -/
def bits (n hi lo : Nat) : Nat := n / 2 ^ lo % 2 ^ (hi + 1 - lo)

/-- The opcode is one of R79. -/
def opDefined (op : Nat) : Bool := op < 0x0F || (0x10 ≤ op && op ≤ 0x14)

/-- The opcode takes a condition (R80). -/
def opTakesCond (op : Nat) : Bool := op == 0x01 || op == 0x03 || op == 0x04 || op == 0x05

/-- The bits of B a condition reads (R81). -/
def condArgMask (c : Nat) : Nat :=
  if c = 6 then 0x3F else if 8 ≤ c ∧ c ≤ 0xB then 7 else if 0xE ≤ c then 7 else 0

/-- The bits of operand A that an opcode uses (R79). -/
def opMaskA (op : Nat) : Nat :=
  match op with
  | 0x02 | 0x03 | 0x04 => 0xFFFFF
  | 0x06 | 0x07 => 7
  | 0x08 => 0x1F
  | 0x09 | 0x0A => 0xF
  | 0x0B => 0xFFFF
  | 0x0C => 0x3F0F
  | 0x0E | 0x10 | 0x11 | 0x14 => 0xFFFF
  | _ => 0

/-- The bits of operand B that an opcode uses (R79, R81). -/
def opMaskB (i : SInstr) : Nat :=
  match i.op with
  | 0x01 | 0x03 | 0x04 | 0x05 => condArgMask i.cond
  | 0x06 | 0x0D | 0x10 | 0x11 | 0x12 | 0x13 | 0x14 => 0xFFFFFFFF
  | 0x0E => 0xF8FFFFFF
  | _ => 0

/-- R78, R88, R95: an unused bit is set, a LOOP count is 0, or a SIG has no destination. -/
def badOperand (i : SInstr) : Bool :=
  (i.a &&& opMaskA i.op) != i.a || (i.b &&& opMaskB i) != i.b ||
    (i.op == 0x06 && i.b == 0) || (i.op == 0x0C && bits i.a 10 8 == 0)

/-- BAR4 offset of instruction `pc` of SQn (R73). -/
def State.sqsAddr (s : State) (n pc : Nat) : Nat := 4096 * (s.carveOf n).sqsBase + 8 * pc

/-- Instruction `pc` lies in SQn's carve (R73). -/
def State.pcInRange (s : State) (n pc : Nat) : Bool := pc < 512 * (s.carveOf n).sqsSize

/-- The instruction of SQn at `pc`. -/
def State.fetchSeq (s : State) (n pc : Nat) : SInstr := sInstr (leNat (s.sramRd (s.sqsAddr n pc) 8))

/-! ### Segment descriptors (R120–R122) -/

/-- DRAM address of segment-table entry `i` of SQn (R120). -/
def segEntry (n i : Nat) : Nat := 0x100000 * n + 16 * (i % 65536)

/-- BAR4 offset of the vector buffer. -/
def vbBase : Nat := 0x800000

/-- What a descriptor gives when it is read for play: the descriptor, or none where R122 finds it not
valid. -/
def State.readDesc (s : State) (n i : Nat) : Option Desc :=
  let e := segEntry n i
  let w0 := leNat (s.dramRd e 4)
  let w1 := leNat (s.dramRd (e + 4) 4)
  let w2 := leNat (s.dramRd (e + 8) 4)
  let w3 := leNat (s.dramRd (e + 12) 4)
  let loc := bits w1 30 30 == 1
  let nv := (bits w2 25 0 + 1) * 64
  let addr := 64 * bits w0 31 6 + 2 ^ 32 * bits w1 9 0
  let w := s.recW n
  let c := s.carveOf n
  let bad := bits w1 31 31 == 0 || bits w0 5 0 != 0 || bits w1 28 10 != 0 || bits w2 31 26 != 0 ||
    bits w3 28 16 != 0 ||
    (if loc then bits w1 9 0 != 0 || decide (4096 * c.vblSize < addr + nv * w)
     else decide (nv < 1024) || decide (addr < 0x1000000) || decide (s.dramSize < addr + nv * w) ||
       decide (4096 * c.vbpSize < 2048 * w))
  if bad then none else some ⟨addr, loc, bits w1 29 29 == 1, nv⟩

/-- The READY mark of a spool entry's descriptor (R121). -/
def State.readyMark (s : State) (n i : Nat) : Bool := bits (leNat (s.dramRd (segEntry n i + 12) 4)) 31 31 == 1

/-- A burst plays the bytes from before a write (R128): its first vector, number `first` of the run, had
started before the write, or an open value of the play that began at vector `rep` says so. -/
def BurstOld.plays (b : BurstOld) (rep first : Nat) : Bool :=
  decide (first < b.vcnt) || Config.freeValue (2 ^ 64 * (rep + 1) + b.draw) % 2 == 1

/-- The part of DRAM line `l` from `a` to `a + k` that a vector of SQn plays as vector `v` of a segment
(R128). -/
def State.burstRd (s : State) (n : Nat) (d : Desc) (v a k l : Nat) : List Byte :=
  let lo := max a (64 * l)
  let c := min (a + k) (64 * l + 64) - lo
  let rep := (s.sq n).vcnt - v
  match (kget (fun _ => []) (s.sq n).bursts l).find? (·.plays rep (rep + (64 * l - d.addr) / k)) with
  | some b => (b.old.drop (lo - 64 * l)).take c
  | none => s.dramRd lo c

/-- The bytes of vector record `v` of a segment (R117, R128). -/
def State.vecRecord (s : State) (n : Nat) (d : Desc) (v : Nat) : List Byte :=
  let w := s.recW n
  let a := d.addr + v * w
  if d.loc then s.sramRd (vbBase + 4096 * (s.carveOf n).vblBase + a) w
  else (linesOf a w).flatMap (s.burstRd n d v a w)

/-- The code of the `k`-th owned channel in a vector record (R117). -/
def codeAt (rec : List Byte) (k : Nat) : Nat := bits (getLE rec (k / 2) 1) (k % 2 * 4 + 3) (k % 2 * 4)

/-! ### Waveform entries (R145–R148) -/

/-- BAR4 offset of the waveform entry of channel `c`, timing set `t`, code `k` (R145). -/
def wftAddr (c t k : Nat) : Nat := 0x2400000 + 0x5000 * c + 640 * t + k * 40

/-- One event slot (R146): type, reserved bits, offset in 1/1024 tick. -/
structure Slot where
  typ : Nat
  resv : Nat
  ofs : Nat
  deriving DecidableEq, Repr

/-- The eight slots of a 40-byte entry. -/
def slotsOf (e : List Byte) : List Slot :=
  (List.range 8).map fun j =>
    let v := getLE e (5 * j) 5
    ⟨bits v 39 36, bits v 35 32, bits v 31 0⟩

/-- A drive-class type (R148). -/
def isDrive (t : Nat) : Bool := 1 ≤ t && t ≤ 4
/-- A compare-class type (R148). -/
def isCompare (t : Nat) : Bool := 5 ≤ t && t ≤ 9

/-- Insert a slot into a list ordered by offset, after those of the same offset. -/
def insertSlot (x : Slot) : List Slot → List Slot
  | [] => [x]
  | y :: ys => if x.ofs < y.ofs then x :: y :: ys else y :: insertSlot x ys

/-- Slots ordered by offset (R151). -/
def sortSlots (l : List Slot) : List Slot := l.foldl (fun a x => insertSlot x a) []

/-! ### Periods (R171–R174) -/

/-- The applied period of entry `e` of SQn in 2^-16 tick. -/
def State.period (s : State) (n e : Nat) : Nat :=
  (s.apv (Reg.TMG_PER_LO n e)).toNat + 2 ^ 32 * (s.apv (Reg.TMG_PER_HI n e)).toNat

/-- A period in 2^-16 tick is one R171 accepts: 2.5 to 2^22 ticks. -/
def periodOk (p : Nat) : Bool := 163840 ≤ p && p ≤ 2 ^ 38

end Sys2Proof.Machine
end

