-- ==== Sys2Proof/Machine/Dram.lean ====
section
/-! DEFINITION. Requests to DRAM (R377, R379, R385, R391, R394): capacity, channels put down, the check of
each line with its retry, correction and poison, and the first-error records. -/

namespace Sys2Proof.Machine

open Sys2Proof

/-- Where a line lies (R376). -/
structure DramPlace where
  channel : Nat
  sub : Nat
  bankGroup : Nat
  bank : Nat
  column : Nat
  row : Nat
  rank : Nat
  deriving DecidableEq, Repr

/-- Rows of a die of density DENS (DRC_CFG.DENS: 1 16 Gb, 2 24 Gb, 3 32 Gb). -/
def dieRows (dens : Nat) : Nat :=
  match dens with
  | 1 => 65536
  | 2 => 98304
  | _ => 131072

/-- The place of line `l` on dies of density `dens` (R376): channel, subchannel, bank group, bank, DRAM column, row,
logical rank. -/
def dramPlace (dens l : Nat) : DramPlace :=
  { channel := l % 8, sub := l / 2 ^ 3 % 2, bankGroup := l / 2 ^ 4 % 8, bank := l / 2 ^ 7 % 4, column := 16 * (l / 2 ^ 9 % 128),
    row := l / 2 ^ 16 % dieRows dens, rank := l / 2 ^ 16 / dieRows dens }

/-- The place of line `l` in the installed population. -/
def State.placeOf (s : State) (l : Nat) : DramPlace := dramPlace (s.rdF Reg.DRC_CFG 31 30) l

/-- ACCESS code of a request in a fault record: a scrub is a read. -/
def DramReq.access (q : DramReq) : Nat := if q.typ = 3 then 0 else q.typ

/-- A fault of the check on line `l` (R391), which was read twice. -/
def State.drcFault (s : State) (q : DramReq) (l cls : Nat) (inj : Bool) : State :=
  s.detect { src := 0xB00 + l % 8, cls := cls, chk := 3, addr := 64 * l, rkind := q.rkind, access := q.access,
             rid := q.id, retried := true, inj := inj }

/-- The first-error record of a channel (R394): kept once written. `dev` 0x1F names more than one
device. -/
def State.drcFirst (s : State) (q : DramReq) (l cls dev : Nat) : State :=
  let at_ := s.placeOf l
  let d := at_.channel
  if bit (s.rd (Reg.DRC_FE_ADDR_HI d)) 31 then s
  else
    let s := (s.wrN (Reg.DRC_FE_ADDR_LO d) (64 * l)).wrN (Reg.DRC_FE_ADDR_HI d) (2 ^ 31 + 64 * l / 2 ^ 32)
    let s := s.wrN (Reg.DRC_FE_INFO d) (2 ^ 29 * cls + 2 ^ 26 * q.typ + 2 ^ 22 * q.cls + q.id % 64 * 2 ^ 16 +
      dev * 2 ^ 11 + at_.sub * 2 ^ 10)
    s.wrWide (Reg.DRC_FE_MT_LO d) 2 s.mt

/-- The failing device of a correctable error, which the manual does not state (log entry 5). -/
def State.failDev (s : State) : Nat := s.freeNow % 10

/-- Ticks of a list that lie within the last second, this moment added (R392). -/
def State.lastSecond (s : State) (l : List Nat) : List Nat := s.mt :: l.filter fun t => decide (s.mt < t + 4000000000)

/-- A transient error: the second read is clean (R391). -/
def State.eccTransient (s : State) (q : DramReq) (l : Nat) : State :=
  ((s.drcFirst q l 1 s.failDev).drawn).drcFault q l 1 false

/-- A correctable error: the line is written back — a write that an armed injection reaches as any other (R394) —, logged
and counted; more than 1,024 on one channel within a second raise a NOTE fault (R391, R392). -/
def State.eccCorrect (s : State) (q : DramReq) (l : Nat) (inj : Bool) : State :=
  let d := l % 8
  let s := (s.drcFirst q l 1 s.failDev).drawn
  let s := ((s.lineWritten true l).drcFault q l 1 inj).count (Reg.DRC_CE_CNT d) 1
  let s := s.irq (Reg.DRC_CH_ISTAT d) 1
  let t := s.lastSecond (kget (fun _ => []) s.drc.ceSec d)
  let tooMany := decide (1024 < t.length)
  let s := { s with drc := { s.drc with ceSec := kset (fun _ => []) s.drc.ceSec d (if tooMany then [] else t) } }
  if tooMany then (s.irq Reg.DRC_ISTAT 2).note (0xB00 + d) else s

/-- A lasting uncorrectable error: the poison pattern is written, the error counted and noted — a
pattern prefetch raises its SITE-class stop instead — and more than 16 within a second raise a
MOD-class fault (R391, R392). -/
def State.eccPoison (s : State) (q : DramReq) (l : Nat) (inj : Bool) : State :=
  let d := l % 8
  let cls := if q.cls = 0 then 2 else 0
  let s := (((s.drcFirst q l cls 0x1F).lineWritten true l).setBad l 3).count (Reg.DRC_UE_CNT d) 1
  let s := (s.irq Reg.DRC_ISTAT 4).irq (Reg.DRC_CH_ISTAT d) 2
  let s := if q.cls = 0 then s else s.drcFault q l 0 inj
  let t := s.lastSecond s.drc.ueSec
  let tooMany := decide (16 < t.length)
  let s := { s with drc := { s.drc with ueSec := if tooMany then [] else t } }
  if tooMany then s.detect { src := 0xB00 + d, cls := 3, chk := 3, inj := inj } else s

/-- A request of classes 0–3 has read line `l` clean, ahead of the scrub in its pass (R393). -/
def State.cleanRead (s : State) (q : DramReq) (l : Nat) : State :=
  if bit (s.rd Reg.DRC_SCRUB) 31 && decide (q.cls ≤ 3) && decide (s.drc.scrubLine ≤ l) && !s.drc.clean.contains l then
    { s with drc := { s.drc with clean := l :: s.drc.clean } }
  else s

/-- The check of line `l` as a read finds it (R391, R492); the line is lost to the requester when the answer
is true. An injection that acts once is an error that the second read does not show, and the channel's first one is kept
(R394). A line that holds the poison pattern is reported without a new count. -/
def State.eccLine (s : State) (q : DramReq) (l : Nat) : State × Bool :=
  let once := s.injArmed (0xB00 + l % 8) 3 && !s.injSticky
  let i := s.injMeets { src := 0xB00 + l % 8, chk := 3, addr := 64 * l, rkind := q.rkind, access := q.access, rid := q.id }
  let s := if once then (i.1.drcFirst q l 1 i.1.failDev).drawn else i.1
  if i.2 then (s.eccPoison q l true, true)
  else match s.lineBad l with
  | 0 => (if once then s else s.cleanRead q l, false)
  | 3 => (s, true)
  | x => if x % 4 = 1 then (s.eccCorrect q l (decide (4 ≤ x)), false) else (s.eccPoison q l (decide (4 ≤ x)), true)

/-- The checks of several lines. -/
def State.eccLines (s : State) (q : DramReq) (ls : List Nat) : State × Bool :=
  ls.foldl (fun x l => let y := x.1.eccLine q l; (y.1, x.2 || y.2)) (s, false)

/-- A line lies on a channel put down by command (R386). -/
def State.lineDown (s : State) (l : Nat) : Bool :=
  kget (fun _ => false) s.drc.pdown (l % 8) && decide (3 ≤ s.unit 4 (l % 8))

/-- The NOTE fault of a request at or above the installed capacity (R377). -/
def State.rangeNote (s : State) (q : DramReq) (a : Nat) : State :=
  s.detect { src := 0xB00, addr := a, rkind := q.rkind, access := q.access, rid := q.id }

/-- Lines of the `n` bytes at `a` that lie below the installed capacity (R377). -/
def State.linesIn (s : State) (a n : Nat) : List Nat := linesOf a (min (a + n) s.dramSize - a)

/-- A request for the `n` bytes at `a` waits: while a speed change or a start keeps the channels from serving (R388–R390),
or until clearing has reached each of its lines (R390). -/
def State.dramHeld (s : State) (a n : Nat) : Bool :=
  decide (a < s.dramSize) &&
    (s.drc.closed || (bit (s.rd Reg.DRC_STAT) 30 && (s.linesIn a n).any fun l => decide (s.drc.clr ≤ l)))

/-- A request that waits. -/
def State.dramWaits (s : State) (w : DramWait) : State :=
  { s with drc := { s.drc with waiting := s.drc.waiting ++ [w] } }

/-- A request of `n` bytes at `a` reaches the controllers: a NOTE fault where part of it lies at or above the capacity
(R377), its channels leave self-refresh (R385), and a channel that is put down answers as a dormant block (R386, R435). -/
def State.dramReach (s : State) (q : DramReq) (dom a n : Nat) (wr : Bool) : State :=
  let k := min (a + n) s.dramSize - a
  let s := if s.dramSize < a + n then s.rangeNote q a else s
  let s := s.dramWake a k
  match (linesOf a k).find? s.lineDown with
  | some l => s.dormantAt dom a (0xB00 + l % 8) wr
  | none => s

/-- A read request of `n` bytes at `a`: the state after the checks of its lines, and whether one of them is lost to a
lasting uncorrectable error. Domain 0 stands for a requester that is no domain in a dormant record. -/
def State.dramAsk (s : State) (q : DramReq) (dom a n : Nat) : State × Bool :=
  let s := s.dramReach q dom a n false
  s.eccLines q ((s.linesIn a n).filter fun l => !s.lineDown l)

/-- What a read request returns for the byte at `a`: ones at or above the capacity (R377), the pattern of
a dormant block on a channel put down (R386, R435). -/
def State.dramByte (s : State) (a : Nat) : Byte :=
  if s.dramSize ≤ a then 0xFF
  else if s.lineDown (a / 64) then BitVec.ofNat 8 ((0xFFFF0B00 + a / 64 % 8) / 2 ^ (8 * (a % 4)))
  else kget dramFill s.dram a

/-- The bytes a read request returns. -/
def State.dramBytes (s : State) (a n : Nat) : List Byte := (List.range n).map fun i => s.dramByte (a + i)

/-- The bytes a read request hands its requester with the data of lines that are lost, which the manual
does not state (log entry 5). -/
def State.dramGive (s : State) (a n : Nat) : State × List Byte :=
  (linesOf a n).foldl (fun x l =>
    let lo := max a (64 * l)
    let k := min (a + n) (64 * l + 64) - lo
    if x.1.lineBad l = 3 then (x.1.drawn, x.2 ++ leBytes k x.1.freeNow) else (x.1, x.2 ++ x.1.dramBytes lo k)) (s, [])

/-- The lines a write covers only in part: they are read first (R381). -/
def partLines (a n : Nat) : List Nat :=
  (linesOf a n).filter fun l => !(decide (a ≤ 64 * l) && decide (64 * l + 64 ≤ a + n))

/-- A write request that is served: it is discarded at or above the capacity and on channels put down; the other lines
are written, after a check of those that are covered in part (R377, R381, R386). Where the bytes carry the poison mark
their lines hold the poison pattern (R452). -/
def State.dramPutNow (s : State) (q : DramReq) (dom a : Nat) (bs : List Byte) (poison : Bool) : State :=
  let n := bs.length
  let s := s.dramReach q dom a n true
  let ls := (s.linesIn a n).filter fun l => !s.lineDown l
  let s := (s.eccLines { q with typ := 2 } ((partLines a n).filter ls.contains)).1
  let s := if ls.length = (linesOf a n).length then s.dramWr a bs
    else
      forEach ls (fun l s =>
        let lo := max a (64 * l)
        s.dramWr lo ((bs.drop (lo - a)).take (64 * l + 64 - lo))) s
  if poison then forEach ls (fun l s => s.setBad l 3) s else s

/-- A write request, which waits where its lines are not served (R388, R390). -/
def State.dramPut (s : State) (q : DramReq) (dom a : Nat) (bs : List Byte) (poison : Bool := false) : State :=
  if s.dramHeld a bs.length then s.dramWaits (.write q dom a bs poison) else s.dramPutNow q dom a bs poison

/-- A read request of an engine, and the bytes it is handed; those of a line that is lost are open (log entry 5). -/
def State.dramGet (s : State) (q : DramReq) (a n : Nat) : State × List Byte :=
  (s.dramAsk q 0 a n).1.dramGive a n

/-- The descriptor of segment `i` of SQn in what a table read returned: none where R122 finds it not valid or its
line is lost (R391); ones and the pattern of a dormant block are no valid descriptor. -/
def descFrom (n i : Nat) (r : State × Bool) : State × Option Desc :=
  (r.1, if r.2 || decide (r.1.dramSize < segEntry n i + 16) || r.1.lineDown (segEntry n i / 64) then none
        else r.1.readDesc n i)

/-- Segment-table read of SQn. -/
def State.askDesc (s : State) (n i : Nat) : State × Option Desc :=
  descFrom n i (s.dramAsk { cls := 5, id := n, rkind := 3 } 0 (segEntry n i) 16)

end Sys2Proof.Machine
end

