-- ==== Sys2Proof/Machine/Flags.lean ====
section
/-! DEFINITION. Flags and conditions: trigger sets, the condition codes of R81 with their classes, the
fail horizon, and the results of a run. -/

namespace Sys2Proof.Machine

open Sys2Proof

/-! ### Run state -/

/-- SEQ_STAT.STATE of SQn (R109). -/
def State.seqState (s : State) (n : Nat) : Nat := s.rdF (Reg.SEQ_STAT n) 2 0
/-- Set SEQ_STAT.STATE. -/
def State.setSeqState (s : State) (n st : Nat) : State := s.wrF (Reg.SEQ_STAT n) 2 0 st
/-- SQn is in STOPPED. -/
def State.seqStopped (s : State) (n : Nat) : Bool := s.seqState n == 0
/-- SQn plays: RUNNING or WAITING. -/
def State.seqPlays (s : State) (n : Nat) : Bool := s.seqState n == 2 || s.seqState n == 3
/-- The owning sequencer of channel `c` is STOPPED, or the channel is in no site (R182). -/
def State.chStopped (s : State) (c : Nat) : Bool :=
  match s.seqOfCh c with
  | none => true
  | some n => s.seqStopped n

/-! ### Triggers (R90) -/

/-- Satisfied under ANY. -/
def trigAny (pend mask : Nat) : Bool := (pend &&& mask) != 0
/-- Satisfied under ALL. -/
def trigAll (pend mask : Nat) : Bool := (pend &&& mask) == mask
/-- Applied trigger set `i` of SQn. -/
def State.trigSet (s : State) (n i : Nat) : Nat := (s.apv (Reg.SEQ_TSET n i)).toNat
/-- Pending trigger bits of SQn. -/
def State.tpend (s : State) (n : Nat) : Nat := (s.rd (Reg.SEQ_TPEND n)).toNat
/-- Set pending trigger bits of SQn. -/
def State.pendTrig (s : State) (n m : Nat) : State := s.setBits (Reg.SEQ_TPEND n) m
/-- Clear the pending bits of a set. -/
def State.consumeTrig (s : State) (n m : Nat) : State := s.clrBits (Reg.SEQ_TPEND n) m

/-! ### Results of a site as a decision sees them (R99, R205) -/

/-- The fail state of a site. -/
def SiteRun.failState (r : SiteRun) : Bool := r.byMatch || !r.failVecs.isEmpty
/-- The fail state that results from vectors that started at least 384 vectors before boundary `v`. -/
def SiteRun.failAt (r : SiteRun) (v : Nat) : Bool := r.byMatch || r.failVecs.any fun f => decide (f + 384 ≤ v)
/-- First vector with a FAIL result on any channel of the site (R238). -/
def SiteRun.firstFail (r : SiteRun) : Option Nat := r.failVecs.foldl (fun a v => some ((a.getD v).min v)) none

/-- Site `t` in a run's site results. -/
def siteRun (m : KMap SiteRun) (t : Nat) : SiteRun := kget (fun _ => {}) m t
/-- Set site `t`'s results. -/
def setSiteRun (m : KMap SiteRun) (t : Nat) (r : SiteRun) : KMap SiteRun := kset (fun _ => {}) m t r
/-- The active sites of SQn, ascending. -/
def State.activeSites (s : State) (n : Nat) : List Nat :=
  (List.range 64).filter fun t => (siteRun (s.sq n).sites t).active

/-! ### Conditions (R81, R82) -/

/-- Classes of conditions. -/
inductive CondClass where
  | program | late | trigger
  deriving DecidableEq, Repr

/-- The class of a condition code (R81). -/
def condClass (c : Nat) : CondClass :=
  if c < 2 ∨ (8 ≤ c ∧ c < 0xC) then .program else if 0xE ≤ c then .trigger else .late

/-- A Program-class condition on the decode front's program state. -/
def condProgram (c arg : Nat) (p : Prog) : Bool :=
  match c with
  | 0 => true
  | 8 => p.flags.testBit (arg % 8)
  | 9 => !p.flags.testBit (arg % 8)
  | 0xA => kget (fun _ => 0) p.lc (arg % 8) == 1
  | 0xB => kget (fun _ => 0) p.lc (arg % 8) != 1
  | _ => false

/-- The active-site set that FALL, PANY and NOACT test (R99): a site that dropped out less than 384 vectors before
the decision point still counts as active. -/
def State.activeAtCut (s : State) (n : Nat) : List Nat :=
  let u := s.sq n
  (List.range 64).filter fun t =>
    let r := siteRun u.sites t
    r.active || match r.dropVec with | some b => decide (u.vcnt < b + 384) | none => false

/-- A Late-class condition of SQn at the boundary it stands at (R81, R99): FANY and PALL test the sites that are
active there. -/
def State.condLate (s : State) (n c arg : Nat) : Bool :=
  let u := s.sq n
  let act := s.activeSites n
  let cut := s.activeAtCut n
  let f := fun t => (siteRun u.sites t).failAt u.vcnt
  match c with
  | 2 => act.any f
  | 3 => !cut.isEmpty && cut.all f
  | 4 => !act.any f
  | 5 => cut.any fun t => !f t
  | 6 => f (arg % 64)
  | 7 => cut.isEmpty
  | 0xC => bit (s.rd (Reg.SEQ_STAT n)) 15
  | _ => !bit (s.rd (Reg.SEQ_STAT n)) 15

/-- Trigger state as it was sampled at the commit point of the last segment played; before the first
segment, the pending bits (R82, log entry 12). -/
def State.trigNow (s : State) (n : Nat) : Nat :=
  match (s.sq n).trigSample with
  | some m => m
  | none => s.tpend n

end Sys2Proof.Machine
end

