-- ==== Sys2Proof/Machine/Access.lean ====
section
/-! DEFINITION. The checks of an access before it reaches a block (R417, R418, R434–R436, R485, R501, R512), and the idle
conditions of the power units (R497). -/

namespace Sys2Proof.Machine

open Sys2Proof

/-! ### Idle conditions (R497) -/

/-- TMU_STAT.STATE: 0 IDLE, 1 ARMED, 2 OPEN. -/
def State.tmState (s : State) (c : Nat) : Nat := s.rdF (Reg.TMU_STAT c) 1 0

/-- ACQ_STAT.STATE (R289). -/
def State.aqState (s : State) (c : Nat) : Nat := s.rdF (Reg.ACQ_STAT c) 2 0

/-- MONITOR runs. -/
def State.aqMon (s : State) (c : Nat) : Bool := s.rdF (Reg.ACQ_STAT c) 11 11 == 1

/-- The tile's spare stands in for channel `c`, in a slot or for good (R21, R22). -/
def State.spareStands (s : State) (c : Nat) : Bool := bit (s.rd (Reg.CHN_EDGE_STAT c)) 29

/-- The idle condition of an idle-timer unit (R497). -/
def State.unitIdle (s : State) (kind i : Nat) : Bool :=
  match kind with
  | 1 => decide (i < 128) && s.chStopped i && s.tmState i == 0 && !(s.ch i).refl &&
      (match s.cal.slot with | some x => x.target != i && x.check != some i | none => true) &&
      !bit (s.rd (Reg.CAL_CH_STAT i)) 31 && !s.spareStands i
  | 2 => decide (i < 128) && s.aqState i == 0 && !s.aqMon i
  | 3 => decide (i < 32) && (s.eng i).ready.isEmpty
  | _ => false

/-- The idle timer of a kind, in µs; 0 disables entry. -/
def State.idleTimer (s : State) (kind : Nat) : Nat :=
  s.rdF (if kind = 1 then Reg.PWR_IDLE_CH else if kind = 2 then Reg.PWR_IDLE_DIG else Reg.PWR_IDLE_AE) 15 0

/-- The idle timer of a unit has expired, or expires by the end of the present round: entry may be decided in it (R497,
R500). -/
def State.entryNear (s : State) (kind i : Nat) : Bool :=
  s.unitIdle kind i && s.idleTimer kind != 0 && { s with mt := s.mt / 16 * 16 + 15 }.idleFor kind i (s.idleTimer kind)

/-! ### The unit of a block (R435, R436, R501) -/

/-- What an access finds at the power unit of its block: it is awake, or away, perhaps because its wake has not come in
time. -/
inductive Reach where
  | awake (s : State)
  | away (late : Bool)
  deriving DecidableEq, Repr

/-- A unit that is LOW by a command of the supervisor (R436): kinds 5–7, and a DRAM channel in
power-down (R386). -/
def State.lowByCommand (s : State) (kind i : Nat) : Bool :=
  decide (5 ≤ kind) || (kind == 4 && kget (fun _ => false) s.drc.pdown i)

/-- An access reaches the power unit of its block; `woa` says that wake on access is set. During entry it wakes the unit,
but for a Falin direction, which no access wakes (R456); a unit in LOW is woken where R435 and R436 say so, and comes awake
in time (log entry 110); one that was waking already answers as dormant where it has taken more than 20 µs, or was put down
by command. DRAM in self-refresh is no dormant block (R385). -/
def State.reach (s : State) (u : Option (Nat × Nat)) (woa : Bool) : Reach :=
  match u with
  | none => .awake s
  | some (kind, i) =>
    if kind = 4 && !s.lowByCommand kind i then .awake s
    else match s.unit kind i with
    | 0 => .awake (if s.entryNear kind i then s.sourceNow kind i 2 else s)
    | 3 => if s.lowByCommand kind i || !woa then .away false else .awake (s.wakeNow kind i 2)
    | 4 =>
      if s.lowByCommand kind i then .away false
      else if kget (fun _ => 0) s.pwr.wakeAt (unitKey kind i) + 80000 < s.mt then .away true
      else .awake (s.setUnit kind i 0)
    | _ => .awake (if kind = 5 then s else s.wakeUnit kind i 2)

/-! ### Host accesses -/

/-- The host reaches the module in the function of domain `dom`: power, the link (R417), and an enabled function (R418; log
entry 108). -/
def State.hostOn (s : State) (dom : Nat) : Bool :=
  s.pwr.on && bit (s.rd Reg.HIF_LINK) 0 && decide (dom ≤ s.vfs)

/-- A write that arrives poisoned: an uncorrectable error that AER reports, and that is all (R417). -/
def State.poisoned (s : State) (dom a : Nat) : State :=
  if s.hostOn dom then
    ((s.countF Reg.HIF_AER_CNT 31 16 1).irq Reg.HIF_ISTAT 8).detect
      { src := blkHIF, addr := a, rkind := 1, access := 1, rid := dom }
  else s

/-- What the checks of a host access to a register decide: it is served, in a state in which its block
is awake, or it is answered without reaching the block (a write: dropped). -/
inductive Served where
  | serve (s : State)
  | answer (s : State) (w : Word)
  deriving DecidableEq, Repr

/-- The blocks Safe mode still serves (R512), and those GRAVE still reads (R485). -/
def safeServed (a : Nat) : Bool := a < 0x100000 || (0x1500000 ≤ a && a < 0x1900000)
/-- The blocks that can be read while GRAVE is held (R485). -/
def graveServed (a : Nat) : Bool := a < 0x100000 || (0x1500000 ≤ a && a < 0x1700000)

/-- Wake on access is set for the block at `a` (R435). -/
def State.wakeOnAccess (s : State) (a : Nat) : Bool := bit (s.rd Reg.HIF_WOA) (blockNum a / 256)

/-- The checks of a host access to BAR0 address `a` (R434–R436, R485, R512): GRAVE, then protection,
then dormancy (log entry 6). -/
def State.access (s : State) (dom a : Nat) (wr : Bool) : Served :=
  if !s.hostOn dom then .answer s (word 0xFFFFFFFF)
  else if s.graveHeld && (wr || !graveServed a) then .answer s (word 0xFFFFFFFF)
  else if !(if wr then s.regMayWrite dom a else s.regMayRead dom a) then
    .answer (s.deny 0 dom 0 wr a) (word 0xFFFFFFFF)
  else if s.safeMode && !safeServed a then .answer (s.dormantNote dom a wr) (dormantWord a)
  else match s.reach (unitAt a) (s.wakeOnAccess a) with
    | .awake t => .serve t
    | .away late => .answer (s.dormantNote dom a wr late) (dormantWord a)

/-- A host write to a register: `k` acts where the checks serve it, and it is dropped elsewhere. -/
def State.hostWrite (s : State) (dom a : Nat) (k : State → State) : State :=
  match s.access dom a true with
  | .serve t => k t
  | .answer t _ => t

/-- A host read of a register: `k` gives the state and the words it returns. -/
def State.hostRead (s : State) (dom a : Nat) (k : State → State × List Word) : State :=
  match s.access dom a false with
  | .serve t => (k t).1.answer (k t).2
  | .answer t w => t.answer [w]

end Sys2Proof.Machine
end

