-- ==== Sys2Proof/Machine/Active.lean ====
section
/-! DEFINITION. The program of a sequencer as its decode front and the searches of R101 and R104 follow it, the
entries that are active in a run (R123, R126), and writes to their data (R128). -/

namespace Sys2Proof.Machine

open Sys2Proof

/-! ### Program steps, as the decode front and the search of R104 make them -/

/-- What a flow-control instruction does to the program state, or the SITE fault code it raises. -/
inductive ProgOut where
  | next (p : Prog)
  | fault (code : Nat)
  deriving DecidableEq, Repr

/-- Loop counter `i` (R88). -/
def Prog.lcAt (p : Prog) (i : Nat) : Nat := kget (fun _ => 0) p.lc i

/-- Continue with the next instruction. -/
def Prog.succ (p : Prog) : Prog := { p with pc := p.pc + 1 }

/-- The flow-control, loop and flag instructions on the program state (R87, R88, R96); `c` is the value
of the condition. Any other instruction only advances. -/
def progStep (i : SInstr) (c : Bool) (p : Prog) : ProgOut :=
  match i.op with
  | 0x02 => .next { p with pc := bits i.a 19 0 }
  | 0x03 => .next (if c then { p with pc := bits i.a 19 0 } else p.succ)
  | 0x04 =>
    if !c then .next p.succ
    else if 16 ≤ p.stack.length then .fault 0x05
    else .next { p with pc := bits i.a 19 0, stack := (p.pc + 1) :: p.stack }
  | 0x05 =>
    if !c then .next p.succ
    else
      match p.stack with
      | [] => .fault 0x06
      | r :: st => .next { p with pc := r, stack := st }
  | 0x06 =>
    .next { p.succ with lc := kset (fun _ => 0) p.lc (bits i.a 2 0) i.b,
                        lcStart := kset (fun _ => 0) p.lcStart (bits i.a 2 0) (p.pc + 1) }
  | 0x07 =>
    let k := bits i.a 2 0
    let v := p.lcAt k
    if v = 0 then .fault 0x07
    else
      let q := { p with lc := kset (fun _ => 0) p.lc k (v - 1) }
      .next (if v = 1 then q.succ else { q with pc := kget (fun _ => 0) p.lcStart k })
  | 0x0B => .next { p.succ with flags := ((p.flags &&& (255 - bits i.a 15 8)) ||| bits i.a 7 0) }
  | _ => .next p.succ

/-- A play instruction (R75): WAITT, PLAY, PLAYL, SPOOL, LEADER or MATCH. -/
def isPlayOp (op : Nat) : Bool := op == 0x0E || (0x10 ≤ op && op ≤ 0x14)

/-- A play instruction that a jump vector may reach first (R104): PLAYL, LEADER, WAITT or MATCH. -/
def jumpPlayOp (op : Nat) : Bool := op == 0x0E || op == 0x11 || op == 0x13 || op == 0x14

/-- Where the search of R104 ends on one path. -/
inductive Found where
  /-- A play instruction at `pc`. -/
  | play (pc : Nat) (i : SInstr)
  /-- A HALT that ends the run. -/
  | halt
  /-- A Late-class or Trigger-class instruction, and the instructions that may follow it (R77). -/
  | branch (i : SInstr) (p : Prog) (left : Nat)
  /-- The path ends in a fault, or in no play within the limit of R77. -/
  | none
  deriving DecidableEq, Repr

/-- A site named by SITEF is not owned (R81). -/
def State.siteNotOwned (s : State) (n : Nat) (i : SInstr) : Bool :=
  opTakesCond i.op && i.cond == 6 && s.seqOfSite (i.b % 64) != some n

/-- The fault code of an instruction that is wrong as it stands (R78–R81, R88, R95); 0 if none. BAD_COND comes before
a wrong operand where both are there (log entry 103). -/
def State.staticFault (s : State) (n : Nat) (i : SInstr) : Nat :=
  if !opDefined i.op then 0x01
  else if i.cond != 0 && !opTakesCond i.op then 0x02
  else if badOperand i || s.siteNotOwned n i then 0x03
  else 0

/-- Follow SQn's program from a program state to its first play instruction, HALT, or Late-class or
Trigger-class instruction (R104), at most `fuel` instructions, of which the last must be a play (R77). An instruction that
is wrong as it stands ends the path: no fault is raised for it, nor for a stack or a loop counter, before the decode front
comes there itself (log entry 103). -/
def State.findPlay (s : State) (n : Nat) : Nat → Prog → Found
  | 0, _ => .none
  | fuel + 1, p =>
    if !s.pcInRange n p.pc then .none
    else
      let i := s.fetchSeq n p.pc
      if s.staticFault n i != 0 then .none
      else if isPlayOp i.op then .play p.pc i
      else if fuel = 0 then .none
      else if opTakesCond i.op && condClass i.cond != .program then .branch i p fuel
      else
        let c := condProgram i.cond i.b p
        if i.op = 0x01 && c then .halt
        else
          match progStep i c p with
          | .next q => s.findPlay n fuel q
          | .fault _ => .none

/-- The limit of R77. -/
def runawayLimit : Nat := 4096

/-- Instructions that the decode front of SQn may execute, from the one it stands at, before a play must come (R77). -/
def SeqUnit.budget (u : SeqUnit) : Nat := runawayLimit - u.sincePlay

/-- The ends of both paths of a Late-class or Trigger-class instruction: true, false; `left` instructions may follow
it. -/
def State.findBoth (s : State) (n left : Nat) (i : SInstr) (p : Prog) : List Found :=
  let go := fun c =>
    if i.op = 0x01 && c then Found.halt
    else
      match progStep i c p with
      | .next q => s.findPlay n left q
      | .fault _ => Found.none
  [go true, go false]

/-- The first play instructions of a program state, on both paths of one Late or Trigger instruction. -/
def State.firstPlays (s : State) (n : Nat) (p : Prog) : List Found :=
  match s.findPlay n runawayLimit p with
  | .branch i q left => s.findBoth n left i q
  | f => [f]

/-- The segment-table entry that a found play instruction plays: the leader's for LEADER. -/
def State.foundSeg (s : State) (n : Nat) : Found → List Nat
  | .play _ i =>
    if i.op = 0x13 then
      let l := s.apv (Reg.SEQ_LEADER n)
      if bit l 31 then [fld l 15 0] else []
    else if jumpPlayOp i.op then [bits i.a 15 0] else []
  | _ => []

/-- The program state a jump vector begins with (R104): a CALL vector pushes one address. -/
def jumpProg (jv : Word) (ret : Nat) (p : Prog) : Prog :=
  { p with pc := fld jv 19 0, stack := if bit jv 30 then ret :: p.stack else p.stack }

/-! ### Active entries (R123, R126) -/

/-- Play operations queued between the fronts (at most 16, R73). -/
def SeqUnit.plays (u : SeqUnit) : Nat :=
  (u.queue.filter fun q => match q with | .play _ => true | _ => false).length

/-- Segment-table entries and descriptors of the plays that SQn has queued or plays. -/
def SeqUnit.heldPlays (u : SeqUnit) : List (Nat × Desc) :=
  (match u.cur with | some c => [(c.seg, c.desc)] | none => []) ++
    u.queue.filterMap fun q =>
      match q with
      | .play p => if p.kind == .spool then none else some (p.seg, p.desc)
      | .point .. => none

/-- The entry that a found play instruction has prefetched for a branch path (R101). -/
def State.pathSeg (s : State) (n : Nat) (f : Found) : List Nat :=
  match f with
  | .play _ i => if i.op = 0x10 then [bits i.a 15 0] else s.foundSeg n f
  | _ => []

/-- Entries prefetched for the paths of the Late-class or Trigger-class instruction that SQn's decode
front stands at (R101). -/
def State.branchSegs (s : State) (n : Nat) : List Nat :=
  let u := s.sq n
  let i := s.fetchSeq n u.prog.pc
  if u.decodeHalt || !s.pcInRange n u.prog.pc || !opTakesCond i.op || condClass i.cond == .program then []
  else (s.findBoth n (u.budget - 1) i u.prog).flatMap (s.pathSeg n)

/-- Entries held by number: the leader, the jump targets kept ready, and branch paths (R126). -/
def State.heldSegs (s : State) (n : Nat) : List Nat :=
  let l := s.apv (Reg.SEQ_LEADER n)
  (if bit l 31 then [fld l 15 0] else []) ++ (s.sq n).kept.flatMap Prod.snd ++ (s.sq n).prefetch ++ s.branchSegs n ++
    (s.sq n).ready ++ (s.sq n).nready

/-- SQn is in a run: PRIMING, RUNNING or WAITING. -/
def State.seqRuns (s : State) (n : Nat) : Bool := s.seqState n == 1 || s.seqPlays n

/-- The active entries of SQn: none outside a run (R126). -/
def State.activeEntries (s : State) (n : Nat) : List Nat :=
  if s.seqRuns n then (s.sq n).heldPlays.map Prod.fst ++ s.heldSegs n else []

/-- The copy of an active entry's descriptor: a queued play's, or the one read for another reason (R123). -/
def SeqUnit.copyOf (u : SeqUnit) (e : Nat) : Option (Option Desc) :=
  match u.heldPlays.find? (·.1 == e) with
  | some x => some (some x.2)
  | none => kget (fun _ => none) u.copies e

/-- The descriptor that entry `e` plays from: the copy while it is active, or what DRAM holds (R123). -/
def State.entryDesc (s : State) (n e : Nat) : State × Option Desc :=
  match (s.sq n).copyOf e with
  | some d => (s, d)
  | none => s.askDesc n e

/-- Entry `e` becomes active: its descriptor is read, unless it is active already (R123). -/
def State.takeCopy (s : State) (n e : Nat) : State :=
  let r := s.entryDesc n e
  r.1.setSq n { r.1.sq n with copies := kset (fun _ => none) (r.1.sq n).copies e (some r.2) }

/-- Copies of entries that are active for no reason any more go. -/
def State.pruneCopies (s : State) (n : Nat) : State :=
  let held := s.heldSegs n
  s.setSq n { s.sq n with copies := (s.sq n).copies.filter fun x => held.contains x.1 }

/-- The descriptors of SQn's active entries. -/
def State.activeDescs (s : State) (n : Nat) : List Desc :=
  if s.seqRuns n then
    (s.sq n).heldPlays.map Prod.snd ++ (s.heldSegs n).filterMap fun e => ((s.sq n).copyOf e).getD (s.readDesc n e)
  else []

/-- The descriptors of SQn's active local entries. -/
def State.activeLocals (s : State) (n : Nat) : List Desc := (s.activeDescs n).filter (·.loc)

/-- DRAM line `l` holds data of an active DRAM-backed entry of SQn. -/
def State.lineActive (s : State) (n l : Nat) : Bool :=
  (s.activeDescs n).any fun d =>
    !d.loc && decide (d.addr < 64 * l + 64) && decide (64 * l < d.addr + d.nvec * s.recW n)

/-- A write to line `l`: where the line holds active data of SQn its bytes are kept with an open value, and
where it does not, the next play of it finds the bytes of the write (R128). -/
def State.keepLine (n l : Nat) (s : State) : State :=
  let u := s.sq n
  let old := kget (fun _ => []) u.bursts l
  let kept : BurstOld := { old := s.dramRd (64 * l) 64, draw := s.free, vcnt := u.vcnt }
  if s.lineActive n l then (s.setSq n { u with bursts := kset (fun _ => []) u.bursts l (old ++ [kept]) }).drawn
  else if old.isEmpty then s
  else s.setSq n { u with bursts := kset (fun _ => []) u.bursts l [] }

/-- A write of `k` bytes at DRAM address `a` meets the sequencers' active data (R128). -/
def State.keepOld (s : State) (a k : Nat) : State :=
  forEach (List.range 16) (fun n s => forEach (linesOf a k) (State.keepLine n) s) s

/-- An engine of the module writes DRAM, as a request of capture spill (R377, R379, R381): what active data it meets is
kept (R128). -/
def State.engWr (s : State) (q : DramReq) (a : Nat) (bs : List Byte) : State :=
  (s.keepOld a bs.length).dramPut { q with cls := 1, typ := 1 } 0 a bs

end Sys2Proof.Machine
end

