-- ==== Sys2Proof/Machine/LinkTx.lean ====
section
/-! DEFINITION. Transmit routes of the Falin ports (R450): the copies that items make as they enter a flow,
and the wake of a transmit direction. -/

namespace Sys2Proof.Machine

open Sys2Proof

/-- LNK_STAT.STATE of port FPp: 0 DOWN, 1 TRAIN, 2 HELLO, 3 UP. -/
def State.lnkState (s : State) (p : Nat) : Nat := s.rdF (Reg.LNK_STAT p) 31 29

/-- Bytes of a frame on the lanes (R443). -/
def Frame.size (f : Frame) : Nat := (16 + f.data.length + 4 + 31) / 32 * 32
/-- Rows of a frame. -/
def Frame.rows (f : Frame) : Nat := f.size / 32

/-- The transmit direction of FPp begins to wake (R456): a wake burst leaves when it sleeps or has
announced its sleep. -/
def State.txWake (s : State) (p source : Nat) : State :=
  let u := s.unit 5 p
  let s := s.wakeUnit 5 p source
  let s := if u = 3 then s.setFp p { s.fp p with rowFrom := 75 * s.mt } else s
  if 2 ≤ u ∧ u ≤ 3 then s.send (.wakeBurst p) else s

/-- A copy or an ITEM is lost on FPp with a reason: 1 FULL, 2 DOWN, 3 SLEEP (R447, R450). -/
def State.txLose (s : State) (p flow reason : Nat) : State :=
  let n := s.rdWide (Reg.LNK_TXLOST_LO p) 2
  let s := s.wrWide (Reg.LNK_TXLOST_LO p) 2 (sat 48 (n + 1))
  if n = 0 then
    ((s.wrN (Reg.LNK_TXLOST1 p) (2 ^ 31 + 2 ^ 16 * reason + flow)).irq (Reg.LNK_ISTAT p) 32).note (0xE00 + p) reason flow
  else s

/-- An item of flow `f` copied for flow `rflow` at the peer, padded to a multiple of 16 bytes (R443). -/
def itemFrame (f rflow : Nat) (data : List Byte) : Frame :=
  { lflow := f, typ := 1, vc := 1, arg := rflow, data := data ++ List.replicate ((16 - data.length % 16) % 16) 0 }

/-- One transmit route of FPp queues a copy of an item of flow `f` (R450). -/
def State.txCopy (s : State) (p f rflow : Nat) (data : List Byte) : State :=
  let u := s.fp p
  let fr := itemFrame f rflow data
  let asleep := decide (3 ≤ s.unit 5 p)
  let auto := bit (s.rd (Reg.LNK_CTL p)) 1
  if s.lnkState p ≠ 3 then s.txLose p f 2
  else if s.unit 5 p = 3 ∧ !auto then s.txLose p f 3
  else if 65536 < (u.txq.map Frame.size).sum + fr.size then s.txLose p f 1
  else
    let s := s.setFp p { u with txq := u.txq ++ [fr] }
    if auto && (asleep || s.unit 5 p != 0) then s.txWake p 1 else s

/-- An item enters local flow `f`: every enabled route that names it queues a copy (R450). -/
def State.txCopies (s : State) (f : Nat) (data : List Byte) : State :=
  (List.range 64).foldl (fun s i =>
    let r := s.rd (Reg.LNK_TXR (i / 16) (i % 16))
    if bit r 31 && fld r 29 16 == f then s.txCopy (i / 16) f (fld r 13 0) data else s) s

end Sys2Proof.Machine
end

