-- ==== Sys2Proof/Machine/Graphs.lean ====
section
/-! DEFINITION. Analysis graphs (R351–R371): node keys and state, the operators, flows with their pool,
spill ring and losses, and the placement of ready flows on engines. -/

namespace Sys2Proof.Machine

open Sys2Proof

/-! ### Graphs, flows and nodes -/

/-- The loaded graph whose flow table names flow `f` (R352). -/
def State.graphOf (s : State) (f : Nat) : Option Graph :=
  s.str.graphs.find? fun g => g.flows.any fun x => x.flow == f

/-- The loaded graph with number `i`. -/
def State.graphNum (s : State) (i : Nat) : Option Graph := s.str.graphs.find? fun g => g.id == i

/-- The flow-table entry of flow `f`. -/
def Graph.entry (g : Graph) (f : Nat) : GFlow := (g.flows.find? fun x => x.flow == f).getD {}

/-- The node that consumes flow `f`: index and record. -/
def Graph.consumer (g : Graph) (f : Nat) : Option (Nat × GNode) :=
  (g.nodes.zipIdx.find? fun x => x.1.ins.contains f).map fun x => (x.2, x.1)

/-- An element is an item. -/
def Elem.isItem : Elem → Bool
  | .item .. => true
  | .marker _ => false

/-- Items among elements. -/
def itemsIn (l : List Elem) : Nat := (l.filter Elem.isItem).length

/-- Free slots of the item pool (R363): 32,768 less the items that flows hold. -/
def State.poolFree (s : State) : Nat := 32768 - (s.ane.flows.map fun x => itemsIn x.2.pool).sum

/-- Flow `f` of graph `g` has a free credit (R364). -/
def State.hasCredit (s : State) (g : Graph) (f : Nat) : Bool :=
  decide (itemsIn (s.fw f).pool < (g.entry f).credit)

/-- Every output of a node has a free credit (R364). -/
def State.outsFree (s : State) (g : Graph) (n : GNode) : Bool := n.outs.all fun f => s.hasCredit g f

/-! ### Node state (R356) -/

/-- Bytes of a node's state, header included (R356). -/
def GNode.size (n : GNode) : Nat :=
  8 + match n.op with
    | 1 => 4 * getLE n.params 0 2
    | 2 => 8 * getLE n.params 8 2
    | 3 => getLE n.params 10 1 * (4 + 2 * 2 ^ getLE n.params 8 1 + 2 * 2 ^ getLE n.params 9 1)
    | 4 => 16
    | 5 => 4 * getLE n.params 8 2 + 8
    | 6 => 72
    | 7 => 16
    | _ => 0

/-- A node's state in 64-byte units (R363). -/
def GNode.units (n : GNode) : Nat := (n.size + 63) / 64

/-- BAR4 offset of the state of node `i` of `g` (R372). -/
def Graph.nodeAt (g : Graph) (i : Nat) : Nat :=
  0x2F00000 + g.base + ((g.nodes.take i).map fun n => 64 * n.units).sum

/-- A little-endian number of `k` bytes in SRAM. -/
def State.sramN (s : State) (a k : Nat) : Nat := leNat (s.sramRd a k)

/-- Add 1 to a `k`-byte counter in SRAM, which saturates. -/
def State.bump (s : State) (a k : Nat) : State := s.sramWr a (leBytes k (sat (8 * k) (s.sramN a k + 1)))

/-! ### Keys (R355) -/

/-- The value of one term for an item. -/
def Term.value (t : Term) (data : List Byte) : Nat :=
  let v := getLE data t.ofs 4 / 2 ^ t.rsh % 2 ^ t.width
  if t.neg then (t.base + 2 ^ 32 - v) % 2 ^ 32 else (v + 2 ^ 32 - t.base % 2 ^ 32) % 2 ^ 32

/-- A node's key for an item. -/
def nodeKey (l : List Term) (data : List Byte) : Nat :=
  l.foldl (fun k t => if t.en then (k + t.value data * 2 ^ t.lsh) % 2 ^ 32 else k) 0

/-- The term of 8 bytes at offset `o` (R355). -/
def termAt (bs : List Byte) (o : Nat) : Term :=
  let b0 := getLE bs o 1
  { en := bits b0 7 7 == 1, neg := bits b0 6 6 == 1, ofs := bits b0 5 0,
    rsh := bits (getLE bs (o + 1) 1) 4 0, width := bits (getLE bs (o + 2) 1) 5 0,
    lsh := bits (getLE bs (o + 3) 1) 4 0, base := getLE bs (o + 4) 4 }

/-! ### Operators (R356–R359) -/

/-- Bytes 0x0–0x7 of an item; bytes beyond it read as 0. -/
def first8 (data : List Byte) : List Byte := leBytes 8 (getLE data 0 8)

/-- COUNT. -/
def opCount (s : State) (a : Nat) (n : GNode) (data : List Byte) : State × List (List Byte) :=
  let key := nodeKey n.key data
  if key < getLE n.params 0 2 then
    let s := s.bump (a + 8 + 4 * key) 4
    (s, [if n.outmode then leBytes 4 key ++ leBytes 4 (s.sramN (a + 8 + 4 * key) 4) ++ first8 data else data])
  else (s.bump (a + 4) 4, [])

/-- ACCUM: the signed 64-bit sum; a sum beyond 64 bits is a value the manual does not state. -/
def opAccum (s : State) (a : Nat) (n : GNode) (data : List Byte) : State × List (List Byte) :=
  let key := nodeKey n.key data
  if key < getLE n.params 8 2 then
    let o := a + 8 + 8 * key
    let sum := sext 64 (s.sramN o 8) + sext 32 ((termAt n.params 0).value data)
    let fits := decide (-(2 ^ 63 : Int) ≤ sum) && decide (sum < 2 ^ 63)
    (if fits then s.sramWr o (leBytes 8 (ofInt 64 sum)) else (s.sramWr o (leBytes 8 s.freeNow)).drawn, [data])
  else (s.bump (a + 4) 4, [])

/-- DRAM address of the plane byte that an item selects (R358). -/
def bitmapAt (n : GNode) (data : List Byte) : Nat := getLE n.params 0 8 + nodeKey n.key data / 8

/-- BITMAP (R358). -/
def opBitmap (s : State) (a : Nat) (n : GNode) (data : List Byte) : State × List (List Byte) :=
  let key := nodeKey n.key data
  let rb := getLE n.params 8 1
  let cb := getLE n.params 9 1
  let planes := getLE n.params 10 1
  let p := key / 2 ^ (rb + cb)
  let r := key / 2 ^ cb % 2 ^ rb
  let c := key % 2 ^ cb
  if planes ≤ p then (s.bump (a + 4) 4, [])
  else
    let d := bitmapAt n data
    let g := s.dramGet { cls := 1 } d 1
    let s := g.1
    let old := leNat g.2
    let fresh := !old.testBit (key % 8)
    let newAt := a + 8 + 4 * p
    let rowAt := a + 8 + 4 * planes + 2 * (p * 2 ^ rb + r)
    let colAt := a + 8 + 4 * planes + 2 * planes * 2 ^ rb + 2 * (p * 2 ^ cb + c)
    let s := if fresh then
        (((s.engWr { cls := 1 } d (leBytes 1 (old ||| 2 ^ (key % 8)))).bump newAt 4).bump rowAt 2).bump colAt 2
      else s
    if bits (getLE n.params 11 1) 0 0 = 1 ∧ !fresh then (s, [])
    else (s, [if n.outmode then leBytes 4 key ++ leBytes 2 (s.sramN rowAt 2) ++ leBytes 2 (s.sramN colAt 2) ++
      leBytes 2 p ++ leBytes 2 r ++ leBytes 2 c ++ leBytes 2 0 else data])

/-- COMPRESS: the open run is kept as the derived item it will become, with a count of 0 for none
(R357, R359). -/
def opCompress (s : State) (a : Nat) (n : GNode) (data : List Byte) : State × List (List Byte) :=
  let key := nodeKey n.key data
  let run := s.sramRd (a + 8) 16
  let cnt := getLE run 4 4
  let start := leBytes 4 key ++ leBytes 4 1 ++ first8 data
  if cnt = 0 then (s.sramWr (a + 8) start, [])
  else if getLE run 0 4 ≠ key ∨ getLE n.params 0 4 ≤ cnt then (s.sramWr (a + 8) start, [run])
  else (s.sramWr (a + 12) (leBytes 4 (cnt + 1)), [])

/-- HIST: a key outside the bins counts in UNDER or OVER, and in OVR (R356). -/
def opHist (s : State) (a : Nat) (n : GNode) (data : List Byte) : State × List (List Byte) :=
  let key := sext 32 (nodeKey n.key data)
  let org := sext 32 (getLE n.params 0 4)
  let wid : Int := getLE n.params 4 4
  let nb := getLE n.params 8 2
  if key < org then ((s.bump (a + 4) 4).bump (a + 8 + 4 * nb) 4, [data])
  else if org + nb * wid ≤ key then ((s.bump (a + 4) 4).bump (a + 8 + 4 * nb + 4) 4, [data])
  else (s.bump (a + 8 + 4 * ((key - org) / wid).toNat) 4, [data])

/-- REGRESS: exact sums, and N, a counter that saturates (R356). -/
def opRegress (s : State) (a : Nat) (n : GNode) (data : List Byte) : State × List (List Byte) :=
  let x : Int := nodeKey n.key data
  let y := sext 32 ((termAt n.params 0).value data)
  let add := fun (o k : Nat) (v : Int) (s : State) =>
    s.sramWr (a + o) (leBytes k (ofInt (8 * k) (sext (8 * k) (s.sramN (a + o) k) + v)))
  (add 64 16 (x * y) (add 48 16 (x * x) (add 32 16 y (add 16 16 x (s.bump (a + 8) 8)))), [data])

/-- BIN. -/
def opBin (s : State) (a : Nat) (n : GNode) (data : List Byte) : State × List (List Byte) :=
  let key := nodeKey n.key data
  let nt := getLE n.params 12 1
  let cls := ((List.range nt).filter fun i => decide (getLE n.params (4 * i) 4 ≤ key)).length
  let s := s.bump (a + 8 + 4 * cls) 4
  if (getLE n.params 13 1).testBit cls then
    (s, [if n.outmode then leBytes 4 key ++ leBytes 4 cls ++ leBytes 4 (getLE data (getLE n.params 14 1) 4) ++
      leBytes 4 0 else data])
  else (s, [])

/-- One item through one node (R356, R360): the new state and the items put out. -/
def State.nodeRun (s : State) (a : Nat) (n : GNode) (data : List Byte) : State × List (List Byte) :=
  let s := s.bump a 4
  match n.op with
  | 1 => opCount s a n data
  | 2 => opAccum s a n data
  | 3 => opBitmap s a n data
  | 4 => opCompress s a n data
  | 5 => opHist s a n data
  | 6 => opRegress s a n data
  | 7 => opBin s a n data
  | _ => (s, [data])

/-! ### Losses (R365, R366) -/

/-- A NOTE fault that names flow `f` (R366, R367, R489). -/
def State.noteFlow (s : State) (f code : Nat) : State := s.detect { src := 0xA00, code := code, rkind := 4, rid := f }

/-- Flow `f` loses an item. -/
def State.loseItem (s : State) (f reason : Nat) (data : List Byte) : State :=
  let u := s.fw f
  let u' := { u with lost := sat 48 (u.lost + 1) }
  if u.lreason ≠ 0 then s.setFw f u'
  else
    ((s.setFw f { u' with lreason := reason, lmt := s.mt, litem := leBytes 16 (getLE data 0 16) }).irq
      Reg.ANE_ISTAT 1).noteFlow f reason

/-! ### Placement (R369) -/

/-- Engine `e` can run flows of `g`. -/
def State.engOnline (s : State) (g : Graph) (e : Nat) : Bool := g.engines.testBit e && !(s.eng e).offline

/-- The engine of `g`'s mask with the least load, the lowest-numbered of several. -/
def State.leastLoaded (s : State) (g : Graph) : Option Nat :=
  ((List.range 32).filter fun e => s.engOnline g e).foldl (fun a e =>
    match a with
    | none => some e
    | some b => if (s.eng e).ready.length < (s.eng b).ready.length then some e else some b) none

/-- The engine a flow is placed on. -/
def State.engineFor (s : State) (g : Graph) (f : Nat) : Option Nat :=
  match (s.fw f).affine with
  | some e =>
    if s.engOnline g e && decide ((s.eng e).ready.length ≤ s.rdF Reg.ANE_CTL 7 0) then some e else s.leastLoaded g
  | none => s.leastLoaded g

/-- A graph whose mask holds no online engine is noted, once, by its number (R371; log entry 96). -/
def State.noteNoEngine (s : State) (g : Graph) : State :=
  if (List.range 32).any (s.engOnline g) || s.ane.noEngine.contains g.id then s
  else ({ s with ane := { s.ane with noEngine := g.id :: s.ane.noEngine } }).detect
    { src := 0xA00, code := 0, rkind := 7, rid := g.id }

/-- Flow `f` goes to the tail of an engine's ready list, which wakes the engine (R369, R497). -/
def State.placeFlow (s : State) (g : Graph) (f : Nat) : State :=
  match s.engineFor g f with
  | none => s.noteNoEngine g
  | some e =>
    let x := s.eng e
    let rdy := x.ready ++ [f]
    let s := s.setEng e { x with ready := rdy, rdyMax := max x.rdyMax rdy.length }
    (s.setFw f { s.fw f with affine := some e, ready := some e, since := s.mt }).wakeUnit 3 e 1

/-- The next element of a flow: in the pool, else in its spill ring. -/
def FlowSt.next (u : FlowSt) : Option Elem := match u.pool.head? with | some e => some e | none => u.spill.head?

/-- Moment of entry of an element that is an item. -/
def Elem.order : Elem → Option Nat
  | .item _ o => some o
  | .marker _ => none

/-- The input of a node whose next item is served: the earliest to have entered, the lower input of two; none while
that item is still in spill (R359). -/
def State.pickInput (s : State) (ins : List Nat) : Option (Nat × List Byte) :=
  let first := ins.foldl (fun (a : Option (Nat × Nat)) f =>
    match (s.fw f).next.bind Elem.order with
    | some o => if a.all fun b => decide (o < b.2) then some (f, o) else a
    | none => a) none
  match first with
  | none => none
  | some (f, _) => match (s.fw f).pool with | .item d _ :: _ => some (f, d) | _ => none

/-- The flow that names node `n` is ready (R369). -/
def State.nodeReady (s : State) (g : Graph) (n : GNode) : Bool :=
  n.op != 9 && (s.pickInput n.ins).isSome && s.outsFree g n && !(n.op == 3 && s.ane.clearing == some g.id)

/-- Every flow of graph `g` that is ready and on no list is placed. -/
def State.schedule (s : State) (g : Graph) : State :=
  g.nodes.foldl (fun s n =>
    match n.ins with
    | f :: _ => if (s.fw f).ready.isNone && s.nodeReady g n then s.placeFlow g f else s
    | [] => s) s

/-! ### Admission (R352, R364–R367) -/

/-- The fewest free pool slots are kept in ANE_POOL.LOW. -/
def State.poolLow (s : State) : State :=
  let n := s.poolFree
  if n < s.rdF Reg.ANE_POOL 31 16 then s.wrF Reg.ANE_POOL 31 16 n else s

/-- BAR4 offset of the item pool (R424). -/
def poolBase : Nat := 0x2D00000

/-- The lowest pool slot that no item holds: which free slot an item takes is the model's choice (log entry 95). -/
def State.freeSlot (s : State) : Nat :=
  let used := s.ane.flows.flatMap fun x => x.2.slots
  ((List.range (used.length + 1)).find? fun k => !used.contains k).getD 0

/-- The bytes of an element, in a whole slot (R351). -/
def Elem.slotBytes : Elem → List Byte
  | .item d _ => (d ++ List.replicate 64 0).take 64
  | .marker _ => []

/-- An item enters the pool of flow `f`: it takes a slot, which holds its bytes (R351, R352). -/
def State.poolPush (s : State) (f : Nat) (e : Elem) : State :=
  let u := s.fw f
  let pool := u.pool ++ [e]
  let k := s.freeSlot
  let s := s.sramWr (poolBase + 64 * k) e.slotBytes
  (s.setFw f { u with pool := pool, slots := u.slots ++ [k], qmax := max u.qmax (itemsIn pool) }).poolLow

/-- The oldest item of a flow's pool leaves it. -/
def FlowSt.popItem (u : FlowSt) : FlowSt := { u with pool := u.pool.drop 1, slots := u.slots.drop 1 }

/-- Markers that no item of the spill ring precedes pass on to the pool (R361). -/
def FlowSt.settled (u : FlowSt) : FlowSt :=
  if itemsIn u.spill = 0 then { u with pool := u.pool ++ u.spill, spill := [] } else u

/-- Capacity of a flow's spill ring in items (R354). -/
def GFlow.cap (x : GFlow) : Nat := 1024 * x.spillSize

/-- An item goes to the tail of flow `f`'s spill ring (R364, R367). -/
def State.spillPush (s : State) (f : Nat) (x : GFlow) (data : List Byte) (order : Nat) : State :=
  let u := s.fw f
  let k := itemsIn u.spill
  let s := s.engWr { cls := 1, id := f, rkind := 4 } (x.spillBase + (u.spHead + k) % x.cap * 64) data
  let full := decide (3 * x.cap < 4 * (k + 1)) && !u.s75
  let s := s.setFw f { u with spill := u.spill ++ [.item data order], spilled := sat 48 (u.spilled + 1),
                              spmax := max u.spmax (k + 1), s75 := u.s75 || full }
  if full then (s.irq Reg.ANE_ISTAT 2).noteFlow f 0 else s

/-- Remove the oldest item of a list, passing over markers: its bytes and the rest. -/
def dropOldest : List Elem → Option (List Byte × List Elem)
  | [] => none
  | .item d _ :: l => some (d, l)
  | .marker e :: l => (dropOldest l).map fun x => (x.1, .marker e :: x.2)

/-- A moment of entry (R359). -/
def State.nextOrder (s : State) : State := { s with ane := { s.ane with order := s.ane.order + 1 } }

/-- An item is in flow `f`, in the pool or in spill: it is counted as admitted, and copied to peers (R450). -/
def State.countAdmit (s : State) (f : Nat) (data : List Byte) : State :=
  (s.setFw f { s.fw f with admitted := sat 48 ((s.fw f).admitted + 1) }).txCopies f data

/-- An item reaches input flow `f`, which is in use with entry `x` of graph `g`: a pool slot, the spill
ring, or a loss (R364, R365). Lost items are given with their reasons. -/
def State.enterFlow (s : State) (g : Graph) (f : Nat) (x : GFlow) (data : List Byte) :
    State × List (Nat × List Byte) :=
  let s := s.nextOrder
  let o := s.ane.order
  let u := (s.fw f).settled
  let s := s.setFw f u
  let k := itemsIn u.spill
  if k = 0 ∧ s.hasCredit g f then (((s.poolPush f (.item data o)).countAdmit f data).schedule g, [])
  else if k < x.cap then ((s.spillPush f x data o).countAdmit f data, [])
  else
    match (if g.loss = 1 then dropOldest u.spill else none) with
    | some (old, rest) =>
      let s := s.loseItem f 3 old
      let s := s.setFw f { s.fw f with spill := rest, spHead := ((s.fw f).spHead + 1) % x.cap }
      ((s.spillPush f x data o).countAdmit f data, [(3, old)])
    | none => (s.loseItem f 3 data, [(3, data)])

/-- An item of `kind` from a source reaches flow `f` (R352, R366); `src` is the sequencer of a fail-log
record. -/
def State.takeIn (s : State) (f kind : Nat) (src : Option Nat) (data : List Byte) :
    State × List (Nat × List Byte) :=
  match s.graphOf f with
  | none => (s.count Reg.ANE_NOFLOW 1, [(1, data)])
  | some g =>
    let x := g.entry f
    if x.kind ≠ kind ∨ (kind = 1 ∧ g.owner ≠ none ∧ g.owner ≠ src) then (s.count Reg.ANE_NOFLOW 1, [(1, data)])
    else if s.ane.draining.contains g.id then (s.loseItem f 4 data, [(4, data)])
    else if kind != 1 && (match g.owner with | some n => s.seqStopped n | none => false) then
      (s.loseItem f 5 data, [(5, data)])
    else s.enterFlow g f x data

/-! ### Clearing and markers (R360, R361) -/

/-- Clear the state of every node of `g`. -/
def State.clearNodes (s : State) (g : Graph) : State :=
  s.sramWr (0x2F00000 + g.base) (List.replicate ((g.nodes.map fun n => 64 * n.units).sum) 0)

/-- Clear the counters of a flow. -/
def FlowSt.cleared (u : FlowSt) : FlowSt :=
  { u with admitted := 0, spilled := 0, lost := 0, lreason := 0, lmt := 0, litem := [], done := 0, qmax := itemsIn u.pool,
           waitSum := 0 }

/-- START of SQn clears its graphs' node state and flow counters (R360). -/
def State.clearGraphs (s : State) (n : Nat) : State :=
  (s.str.graphs.filter fun g => g.owner == some n).foldl (fun s g =>
    g.flows.foldl (fun s x => s.setFw x.flow (s.fw x.flow).cleared) (s.clearNodes g)) s

/-- A marker enters flow `f` in order (R361). -/
def State.putMarker (s : State) (f num : Nat) : State :=
  let u := (s.fw f).settled
  s.setFw f (if itemsIn u.spill = 0 then { u with pool := u.pool ++ [.marker num] }
    else { u with spill := u.spill ++ [.marker num] })

/-- The input flows of SQn's graphs of one kind class: fail-log flows, or the others. -/
def State.inputFlows (s : State) (n : Nat) (failLog : Bool) : List Nat :=
  ((s.str.graphs.filter fun g => g.owner == some n).map fun g =>
    (g.flows.filter fun x => x.kind != 0 && (x.kind == 1) == failLog).map fun x => x.flow).flatten

/-- A flow holds the marker of epoch `num`. -/
def FlowSt.holds (u : FlowSt) (num : Nat) : Bool := u.pool.contains (.marker num) || u.spill.contains (.marker num)

/-- Every node of SQn's graphs has passed the marker of epoch `num` (R361). -/
def State.markersPassed (s : State) (n num : Nat) : Bool :=
  ((s.sq n).marks.all fun m => m.1 != num) &&
    (s.str.graphs.filter fun g => g.owner == some n).all fun g => g.flows.all fun x => !(s.fw x.flow).holds num

/-- The EMIT copies of epoch `num`: offset in the graph area and bytes. -/
def State.emitsOf (s : State) (_n num : Nat) : List (Nat × List Byte) :=
  (s.ane.emits.filter fun x => x.1 == num).map fun x => x.2

end Sys2Proof.Machine
end

