-- ==== Sys2Proof/Machine/CalSlot.lean ====
section
/-! DEFINITION. The calibration working set and the slot in progress (R325–R338): what a channel takes
from the set, the return of a channel from the spare, and the ways host work and structure loads end a
slot. -/

namespace Sys2Proof.Machine

open Sys2Proof

/-- BAR4 offset of the calibration working set, kept there in the layout of R343 (log entry 17). -/
def calBase : Nat := 0x2B00000
/-- BAR4 offset of channel `c`'s record in the working set (R343). -/
def calRec (c : Nat) : Nat := calBase + 64 + 640 * c
/-- BAR4 offset of the record of tile `t`'s spare. -/
def calSpareRec (t : Nat) : Nat := calBase + 64 + 640 * 128 + 512 * t

/-- TMU_ZERO of channel `c` at its tile's die temperature (R325, R340): the stored value and its
coefficient; where the correction is no whole number the manual gives no rounding, and either
neighbour may result. -/
def State.zeroAt (s : State) (c : Nat) : Nat :=
  let base := sext 32 (s.sramN (calRec c + 8) 4)
  let coef := sext 16 (s.sramN (calRec c + 0x1E) 2)
  let dt := sext 16 (s.rdF (Reg.PEL_TEMP (c / 32)) 15 0) - sext 16 (s.sramN (calRec c + 0x1C) 2)
  let x := coef * dt
  ofInt 32 (base + x / 8 + (if x % 8 = 0 then 0 else (s.freeNow % 2 : Nat)))

/-- CHN_DSK_PATH in force (R182): of a channel in a site the value of the last START, of another one the register
(log entry 92). -/
def State.pathOf (s : State) (c : Nat) : Nat :=
  match s.siteOfCh c with
  | some _ => (s.ch c).path
  | none => s.rdF (Reg.CHN_DSK_PATH c) 15 0

/-- A signed register field of 16 bits. -/
def State.rdS16 (s : State) (a : Nat) : Int := sext 16 (s.rdF a 15 0)

/-- A residual of channel `c` at its tile's die temperature (R325, R344): the value at offset `o` of a channel record
with the front-end drift that its coefficient, at offset `k`, gives from TREF; where that is no whole number either
neighbour may result (log entry 5), and a value beyond R181's range is held at its end. -/
def State.residualAt (s : State) (c : Nat) (rec : List Byte) (o k : Nat) : Nat :=
  let base := sext 16 (getLE rec o 2)
  let dt := sext 16 (s.rdF (Reg.PEL_TEMP (c / 32)) 15 0) - sext 16 (getLE rec 0x1C 2)
  let x := sext 32 (getLE rec k 4) * dt
  let y := base + x / 2 ^ 19 + (if x % 2 ^ 19 = 0 then 0 else (s.freeNow % 2 : Nat))
  ofInt 16 (max (-4096) (min 4095 y))

/-- Channel `c`'s residual registers take the values of a channel record (R325, R330). -/
def State.dskLoad (s : State) (c : Nat) (rec : List Byte) : State :=
  ((s.wrN (Reg.CHN_DSK_DRV c) (s.residualAt c rec 4 0x14)).wrN (Reg.CHN_DSK_CMP c) (s.residualAt c rec 6 0x18)).drawn

/-- The residual registers of channel `c` act on its own generator (R181, R183). -/
def State.dskAct (s : State) (c : Nat) : State :=
  s.setCh c { s.ch c with drvRes := s.rdS16 (Reg.CHN_DSK_DRV c), cmpRes := s.rdS16 (Reg.CHN_DSK_CMP c) }

/-- Channel `c`'s calibration registers take the values of the working set (R325, R344). -/
def State.calLoadChan (s : State) (c : Nat) : State :=
  let s := ((s.dskLoad c (s.sramRd (calRec c) 640)).dskAct c).wrN (Reg.TMU_ZERO c) (s.zeroAt c)
  ((s.wrN (Reg.ACQ_GDLY c) (s.sramN (calRec c + 0xC) 4)).wrN (Reg.PEL_REFL_OFS c) (s.sramN (calRec c + 0x10) 4)).drawn

/-- The channels of tile `t`. -/
def tileChans (t : Nat) : List Nat := (List.range 32).map fun i => 32 * t + i

/-- Tile of a target. -/
def tileOf (target : Nat) : Nat := if target < 128 then target / 32 else target - 128

/-- Set the slot in progress. -/
def State.setSlot (s : State) (x : Option CalSlot) : State := { s with cal := { s.cal with slot := x } }

/-- The slot is over: its channel and the one whose TDC it took have been at work until now (R497). -/
def State.slotRests (s : State) (x : CalSlot) : State :=
  let s := s.workNow 1 x.target
  (match x.check with
    | some c => s.workNow 1 c
    | none => s).setSlot none

/-- Set CAL_STAT.PHASE. -/
def State.calPhase (s : State) (p : Nat) : State := s.wrF Reg.CAL_STAT 23 20 p

/-- The calibration age of channel `c` begins again (R330, R341). -/
def State.calAgeNew (s : State) (c : Nat) : State :=
  { s with cal := { s.cal with ageFrom := kset (fun _ => none) s.cal.ageFrom c (some (s.mt : Int)),
                               aged := kset (fun _ => false) s.cal.aged c false } }

/-- The channel's own generator takes its events over from the spare (R331, R335): under the new values once a verify
has passed, and then its age begins again, else under its previous ones. -/
def State.spareOut (s : State) (x : CalSlot) : State :=
  let c := x.target
  let s := if x.verified then (if x.subst then (s.dskAct c).calAgeNew c else s)
    else (s.wrN (Reg.CHN_DSK_DRV c) x.prev.1).wrN (Reg.CHN_DSK_CMP c) x.prev.2
  if x.spareIn then
    let s := if bit (s.rd (Reg.CHN_EDGE_STAT c)) 28 then s else s.wrF (Reg.CHN_EDGE_STAT c) 29 29 0
    (s.workNow 1 c).wrF (Reg.CAL_CH_STAT c) 31 31 0
  else s

/-- A result that takes the place of one already formed: STRUCTURE and LOCK (R334, R335). -/
def resultWins (result : Nat) : Bool := result == 7 || result == 8

/-- The slot in progress ends early with a result; it waits for its release (R334–R336). Before a switch-out the
result that stands is kept, but for STRUCTURE and LOCK. A direct slot takes nothing from its results then: its values are not in
the working set before its end (log entry 18). -/
def State.calAbort (s : State) (result : Nat) : State :=
  match s.cal.slot with
  | none => s
  | some x =>
    let ended := x.result.isSome && !x.spareIn
    if ended && !resultWins result then s
    else
      let y := { x with verified := x.verified && x.subst }
      let s := if x.target < 128 && !(ended && x.subst) then s.spareOut y else s
      let r := if resultWins result then result else x.result.getD (if y.verified then 0 else result)
      (s.setSlot (some { y with spareIn := false, result := some r })).calPhase 8

/-- A START of the owning sequencer preempts a direct slot of channel `c`, also while it is being released: the channel
keeps its previous values (R336). -/
def State.calStartHook (s : State) (c : Nat) : State :=
  match s.cal.slot with
  | some x =>
    if x.target = c ∧ !x.subst then
      let y := { x with verified := false }
      ((s.spareOut y).setSlot (some { y with result := some 6 })).calPhase 8
    else s
  | none => s

/-- The owning sequencer reaches STOPPED while the spare stands in for channel `c` (R335, log entry 18). -/
def State.calStopHook (s : State) (c : Nat) : State :=
  match s.cal.slot with
  | some x => if x.target = c ∧ x.subst then s.calAbort 6 else s
  | none => s

/-- A structure load that stops tile `t` ends its slot with STRUCTURE (R335). -/
def State.calTileStop (s : State) (t : Nat) : State :=
  match s.cal.slot with
  | some x => if (if x.target < 128 then x.target / 32 else x.target - 128) = t then s.calAbort 7 else s
  | none => s

/-- An acquisition of channel `c` has an ANALOG trigger enabled and runs (R298, R329). -/
def State.analogOn (s : State) (c : Nat) : Bool :=
  let on := fun (v : Word) => bit v 31 && fld v 30 28 == 1
  (on (s.rd (Reg.ACQ_TA c)) || on (s.rd (Reg.ACQ_TB c)))

/-- The check TDC of tile `t`: its lowest channel with an idle TMU and no ANALOG trigger enabled (R329). -/
def State.checkTdc (s : State) (t : Nat) : Option Nat :=
  ((List.range 32).map fun i => 32 * t + i).find? fun c => s.rdF (Reg.TMU_STAT c) 1 0 == 0 && !s.analogOn c

/-- A TMU ARM of the check TDC, channel `c`: the phase restarts on another TDC, or the slot ends with
NO_TDC (R336). -/
def State.calArmHook (s : State) (c : Nat) : State :=
  match s.cal.slot with
  | some x =>
    if x.check ≠ some c then s
    else
      match s.checkTdc (c / 32) with
      | some k => s.setSlot (some { x with check := some k })
      | none => s.calAbort 5
  | none => s

/-- An ACQ ARM or MONITOR of channel `c` ends the digitiser part of its slot (R336). -/
def State.calDigHook (s : State) (c : Nat) : State :=
  match s.cal.slot with
  | some x =>
    if x.target = c ∧ x.result.isNone then
      (s.setSlot (some { x with digSkip := true })).wrF (Reg.CAL_CH_STAT c) 30 30 1
    else s
  | none => s

end Sys2Proof.Machine
end

