-- ==== Sys2Proof/Machine/Pace.lean ====
section
/-! DEFINITION. Pacing of a DMA channel by a result source (R407, R408): the PACE word, which channel a source
paces, and the withdrawal of its request. -/

namespace Sys2Proof.Machine

open Sys2Proof

/-- FSTRIDE for a LEN (R285). -/
def fstride (len : Nat) : Nat := 64 + (len * 4 + 63) / 64 * 64

/-- Word `i` of the descriptor in service; 0 while there is none (R399). -/
def DmaUnit.dword (u : DmaUnit) (i : Nat) : Nat :=
  match u.desc with
  | some ws => (ws.getD i 0).toNat
  | none => 0

/-- PACE.KIND of the descriptor in service; 0 where it is not paced (R407). -/
def DmaUnit.paceKind (u : DmaUnit) : Nat :=
  let p := u.dword 8
  if bits p 31 31 = 1 then bits p 30 29 else 0
/-- PACE.CH. -/
def DmaUnit.paceCh (u : DmaUnit) : Nat := bits (u.dword 8) 22 16
/-- PACE.BURST. -/
def DmaUnit.paceBurst (u : DmaUnit) : Nat := bits (u.dword 8) 12 0

/-- A paced descriptor is in service, with KIND `kind` and channel `c`: from its read to its hand-back (R407). -/
def DmaUnit.pacedOn (u : DmaUnit) (kind c : Nat) : Bool := u.paceKind == kind && u.paceCh == c

/-- Some DMA channel is paced by source `kind` of channel `c`. -/
def State.pacedBy (s : State) (kind c : Nat) : Bool := (List.range 16).any fun n => (s.dc n).pacedOn kind c

/-- The source's request is withdrawn (R408): a burst that may run has read of the ranges that `places` gives at most, as
they stand now. -/
def State.paceCut (s : State) (kind c : Nat) (req : Nat → Nat → Bool) (places : Nat → Nat → List (Bool × Nat × Nat)) :
    State :=
  forEach (List.range 16) (fun n s =>
    let u := s.dc n
    let runs := s.rdF (Reg.DMA_STAT n) 2 0 == 1 || s.rdF (Reg.DMA_STAT n) 2 0 == 3
    if runs && u.pacedOn kind c && u.code.isNone && req n u.paceBurst then
      let l := places n u.paceBurst
      s.setDc n { u with cut := some (l, l.flatMap fun p => if p.1 then s.dramRd p.2.1 p.2.2 else s.sramRd p.2.1 p.2.2) }
    else s) s

end Sys2Proof.Machine
end

