-- ==== Sys2Proof/Machine/Tmu.lean ====
section
/-! DEFINITION. Time measurement (R242–R276): stamps, shutters, measures, records, the result bank, and
the commands of the TMU and of its TDC. -/

namespace Sys2Proof.Machine

open Sys2Proof

/-! ### State, configuration and stamps -/

/-- Set TMU_STAT.STATE. -/
def State.setTmState (s : State) (c st : Nat) : State := (s.workNow 1 c).wrF (Reg.TMU_STAT c) 1 0 st
/-- A field of TMU_CTL. -/
def State.tmCtl (s : State) (c hi lo : Nat) : Nat := s.rdF (Reg.TMU_CTL c) hi lo
/-- TMU_LEN in ticks. -/
def State.tmLen (s : State) (c : Nat) : Nat := s.rdWide (Reg.TMU_LEN_LO c) 2 % 2 ^ 40
/-- The measure formed: MODE, or HSRC in HIST mode (R259). -/
def State.tmKind (s : State) (c : Nat) : Nat :=
  if s.tmCtl c 2 0 = 6 then s.tmCtl c 6 4 else s.tmCtl c 2 0
/-- Records are made: RING_EN or FLOW_EN, on a channel that has a route (R50, R273; log entry 98). -/
def State.tmRecords (s : State) (c : Nat) : Bool :=
  (s.tmCtl c 10 10 == 1 || s.tmCtl c 12 12 == 1) && (s.acqrOf c).capSize != 0

/-- P of a code from the channel's bin tables (R247, R276). -/
def State.binPos (s : State) (c p code : Nat) : Nat :=
  let w := s.rd (if p = 0 then Reg.TMU_BIN0 c ((code - 16) / 2) else Reg.TMU_BIN1 c ((code - 16) / 2))
  if code % 2 = 0 then fld w 15 0 else fld w 31 16

/-- The stamp of a hit sampled on tick edge `e` with a code on path `p`, in 2^-16 tick (R250), under the PATH in force
(R182); one that lies before tick 0 is held there (log entry 34). -/
def State.stampOf (s : State) (c p e code : Nat) : Nat :=
  let x : Int := (65536 * e : Nat) - s.binPos c p code - sext 32 (s.rd (Reg.TMU_ZERO c)).toNat
  (if s.tmCtl c 9 9 = 0 then x - 64 * s.pathOf c else x).toNat

/-- Path `p` is free for a hit sampled on edge `e` with a code (R243). -/
def TmuUnit.free (u : TmuUnit) (e code p : Nat) : Bool :=
  decide (128 * kget (fun _ => 0) u.pathFree p + code ≤ 128 * e)

/-- The path a hit launches into: the next in turn, or the other one (R242). -/
def TmuUnit.freePath (u : TmuUnit) (e code : Nat) : Option Nat :=
  if u.free e code u.path then some u.path
  else if u.free e code (1 - u.path) then some (1 - u.path)
  else none

/-- A hit takes path `p`, which is free again 2 ticks after its sample (R243). -/
def TmuUnit.take (u : TmuUnit) (p e : Nat) : TmuUnit :=
  { u with pathFree := kset (fun _ => 0) u.pathFree p (e + 2), path := 1 - p }

/-! ### Records (R268–R272) -/

/-- A 16-byte record. -/
def stampRec (c t flags hitn : Nat) : List Byte :=
  leBytes 8 (t / 65536) ++ leBytes 2 t ++ leBytes 1 c ++ leBytes 1 flags ++ leBytes 4 hitn

/-- Stamp records among waiting records. -/
def stampsIn (l : List (List Byte)) : Nat := (l.filter fun r => getLE r 11 1 / 64 == 0).length

/-- The order of service with channel `c` waiting since tick `t`: behind those that wait already, but before a higher
channel number of the same tick (R34, R272). -/
def joinQ (t c : Nat) (q : List (Nat × Nat)) : List (Nat × Nat) :=
  if q.any fun x => x.2 == c then q
  else
    let later := fun (x : Nat × Nat) => x.1 == t && decide (c < x.2)
    q.takeWhile (fun x => !later x) ++ (t, c) :: q.dropWhile fun x => !later x

/-- The channel whose record is moved next (R272). -/
def State.nextServed (s : State) : Option Nat := s.stampQ.head?.map fun x => x.2

/-- A record waits to be moved, where records are made. -/
def State.holdRec (s : State) (c : Nat) (r : List Byte) : State :=
  if s.tmRecords c then
    { (s.setTm c { s.tm c with hold := (s.tm c).hold ++ [r] }) with stampQ := joinQ s.mt c s.stampQ }
  else s

/-- Add 1 to a 48-bit counter in two registers, which saturates (log entry 31). -/
def State.count48 (s : State) (a : Nat) : State := s.wrWide a 2 (sat 48 (s.rdWide a 2 + 1))

/-- A record of channel `c` is lost and counted; the first one is kept and noted (R270). -/
def State.stampLost (s : State) (c : Nat) (r : List Byte) : State :=
  let first := s.rdWide (Reg.TMU_LOST_LO c) 2 == 0
  let s := s.count48 (Reg.TMU_LOST_LO c)
  let s := if first then (s.wrN (Reg.TMU_LOST1 c) (getLE r 12 4)).irq (Reg.TMU_ISTAT c) 8 else s
  if (s.tm c).lostNote then s else (s.setTm c { s.tm c with lostNote := true }).note (0x500 + c)

/-- A record goes into the ring, or is lost because the ring is full (R269, R270). TMU_WR wraps past 2^32 − 1, and the
slot is that of the wrapped index (log entry 104). -/
def State.ringPut (s : State) (c : Nat) (r : List Byte) : State :=
  let wr := (s.rd (Reg.TMU_WR c)).toNat
  let size := (s.rd (Reg.TMU_RSIZE c)).toNat
  if (wr + 2 ^ 32 - (s.rd (Reg.TMU_RD c)).toNat) % 2 ^ 32 = size then
    s.stampLost c r
  else
    let o := wr % size * 16
    let s := if s.tmCtl c 11 11 = 0 then s.sramWr (s.capAt c + o) r
      else s.engWr { cls := 1, id := c } (s.rdWide (Reg.TMU_DR_BASE_LO c) 2 + o) r
    s.wrN (Reg.TMU_WR c) (wr + 1)

/-- Records in channel `c`'s ring. -/
def State.ringHeld (s : State) (c : Nat) : Nat :=
  ((s.rd (Reg.TMU_WR c)).toNat + 2 ^ 32 - (s.rd (Reg.TMU_RD c)).toNat) % 2 ^ 32

/-- Place of ring slot `i` modulo the ring: in DRAM, and its address there or BAR4 offset (R269). -/
def State.ringAt (s : State) (c i : Nat) : Bool × Nat :=
  let o := i % (s.rd (Reg.TMU_RSIZE c)).toNat * 16
  if s.tmCtl c 11 11 = 0 then (false, s.capAt c + o) else (true, s.rdWide (Reg.TMU_DR_BASE_LO c) 2 + o)

/-- The places of `k` records from slot TMU_RD of channel `c`'s ring (R407). -/
def State.ringPlaces (s : State) (c k : Nat) : List (Bool × Nat × Nat) :=
  (List.range k).map fun i => let p := s.ringAt c ((s.rd (Reg.TMU_RD c)).toNat + i); (p.1, p.2, 16)

/-- A ring request of a paced DMA channel with BURST units of 64 B is asserted (R407). -/
def State.ringReq (s : State) (c units : Nat) : Bool := decide (4 * units ≤ s.ringHeld c)

/-- A write to the ring's configuration or a load withdraws the ring's request (R408). -/
def State.ringCut (s : State) (c : Nat) : State :=
  s.paceCut 1 c (fun _ u => s.ringReq c u) (fun _ u => s.ringPlaces c (4 * u))

/-- The oldest waiting record of channel `c` is moved: into the ring, to its flow, or both; a channel with more takes
its turn behind the others (R272). -/
def State.stampMove (s : State) (c : Nat) : State :=
  match (s.tm c).hold with
  | [] => s
  | r :: rest =>
    let others := s.stampQ.filter fun x => x.2 != c
    let s : State := { (s.setTm c { s.tm c with hold := rest }) with
      stampQ := if rest.isEmpty then others else others ++ [(s.mt, c)] }
    let s := if s.tmCtl c 10 10 = 1 then s.ringPut c r else s
    if s.tmCtl c 12 12 = 1 then
      match (s.acqrOf c).stampFlow with
      | some f => (s.takeIn f 2 none r).1
      | none => s
    else s

/-- Records that wait on any channel. -/
def State.stampsWait (s : State) : Nat := (s.stampQ.map fun x => (s.tm x.2).hold.length).sum

/-- Waiting records are moved in turn until channel `c` has none left (R272). -/
def State.stampFlush (s : State) (c : Nat) : State :=
  forEach (List.range s.stampsWait) (fun _ s =>
    if (s.tm c).hold.isEmpty then s
    else match s.nextServed with
      | some k => s.stampMove k
      | none => s) s

/-! ### The result bank (R258) -/

/-- Latch the results of the last closed shutter; a minimum, maximum or first stamp of none is a value
the manual does not state (log entry 5). -/
def State.tmuLatch (s : State) (c : Nat) : State :=
  let u := s.tm c
  match u.done with
  | none => s
  | some d =>
    let m := d.sums
    let s := s.setTm c { u with done := none }
    let seq := (s.rd (Reg.TMU_RSEQ c)).toNat + 1
    let s := (s.wrN (Reg.TMU_RSEQ c) seq).wrF (Reg.TMU_STAT c) 31 16 seq
    let s := s.wrN (Reg.TMU_RFLAGS c) (2 ^ 31 + b2n m.sat * 2 ^ 30 + b2n m.gaps * 2 ^ 29 + d.cause)
    let s := (s.wrWide (Reg.TMU_ROPEN c 0) 3 d.openT).wrWide (Reg.TMU_RCLOSE c 0) 3 d.closeT
    let s := (s.wrWide (Reg.TMU_T0 c 0) 3 (match m.t0 with | some t => t | none => s.freeNow % 2 ^ 80)).drawn
    let s := (s.wrWide (Reg.TMU_N_LO c) 2 m.n).wrWide (Reg.TMU_SUM c 0) 3 (ofInt 96 m.sum)
    let s := s.wrWide (Reg.TMU_SQ c 0) 5 m.sq
    let s := (s.wrWide (Reg.TMU_MIN_LO c) 2 (if m.n = 0 then s.freeNow else ofInt 64 m.mn)).drawn
    let s := (s.wrWide (Reg.TMU_MAX_LO c) 2 (if m.n = 0 then s.freeNow else ofInt 64 m.mx)).drawn
    let s := (s.wrN (Reg.TMU_UNPAIRED c) m.unpaired).wrN (Reg.TMU_OVR c) m.ovr
    let s := (s.wrWide (Reg.TMU_M_LO c) 2 m.m).wrWide (Reg.TMU_SN c 0) 3 m.sn
    let s := (s.wrWide (Reg.TMU_ST c 0) 3 m.st).wrWide (Reg.TMU_SNN c 0) 4 m.snn
    (s.wrWide (Reg.TMU_SNT c 0) 5 m.snt).irq (Reg.TMU_ISTAT c) 1

/-! ### Shutters (R253–R257) -/

/-- A unit whose shutter begins: nothing measured yet. -/
def TmuUnit.fresh (u : TmuUnit) (openT closeT : Option Nat) : TmuUnit :=
  { u with openT := openT, closeT := closeT, recs := 0, presc := 0, n0 := none, prev := none, aOpen := none,
           freeA := [], freeB := [], sums := {} }

/-- The close time that an open time gives, where one is known then (R254). -/
def State.tmCloseFor (s : State) (c o : Nat) : Option Nat :=
  match s.tmCtl c 19 18 with
  | 0 => some (o + 65536 * s.tmLen c)
  | 1 => some (s.rdWide (Reg.TMU_CLOSE c 0) 3 % 2 ^ 80)
  | _ => none

/-- An open marker waits to be moved (R268). -/
def State.openMark (s : State) (c o : Nat) : State :=
  s.holdRec c (stampRec c o 64 ((s.rd (Reg.TMU_RSEQ c)).toNat + 1 + b2n (s.tm c).done.isSome))

/-- The shutter opens. -/
def State.tmuOpen (s : State) (c : Nat) : State :=
  match (s.tm c).openT with
  | none => s
  | some o => (s.setTmState c 2).openMark c o

/-- The shutter closes at time `t` with a cause; with CONT and cause CLOSE the next one opens there
(R255–R257). -/
def State.tmuClose (s : State) (c cause t : Nat) : State :=
  let s := s.tmuLatch c
  let u := s.tm c
  let r := (s.rd (Reg.TMU_RANGE c)).toNat
  let unp := if s.tmKind c = 4 then (u.freeA.filter fun a => decide (a + r ≤ t)).length else 0
  let d : TmuDone := { cause := cause, openT := u.openT.getD 0, closeT := t,
                       sums := { u.sums with unpaired := sat 32 (u.sums.unpaired + unp) } }
  let s := s.holdRec c (stampRec c t 128 u.recs)
  let s := s.wrF (Reg.TMU_STAT c) 6 4 cause
  let u := { s.tm c with done := some d }
  if cause = 1 ∧ s.tmCtl c 8 8 = 1 then
    (s.setTm c (u.fresh (some t) (some (t + 65536 * s.tmLen c)))).openMark c t
  else (s.setTm c (u.fresh none none)).setTmState c 0

/-- The shutter of channel `c` takes stamps: it is OPEN, or it has ended and stamps before its end may still come. -/
def State.tmTakes (s : State) (c : Nat) : Bool := s.tmState c == 2 || (s.tm c).ending.isSome

/-- A close with a cause is followed by the next shutter (R255). -/
def State.tmReopens (s : State) (c cause : Nat) : Bool := cause == 1 && s.tmCtl c 8 8 == 1

/-- How much later than the time it stamps a hit can be sampled, in 2^-16 tick: 2 ticks of the TDC, and the corrections
that R250 subtracts. -/
def State.stampLag (s : State) (c : Nat) : Nat :=
  2 * 65536 + (sext 32 (s.rd (Reg.TMU_ZERO c)).toNat).toNat + 64 * s.pathOf c

/-- No stamp before time `t` can come any more. -/
def State.stampsPast (s : State) (c t : Nat) : Bool := decide (t + s.stampLag c ≤ 65536 * s.mt)

/-- The longest FREQ shutter: 100 s (R264), in 2^-16 tick. -/
def freqLimit : Nat := 400000000000 * 65536

/-- The next end of an OPEN shutter that is known: time and cause, CLOSE or LIMIT. -/
def State.tmuEndAt (s : State) (c : Nat) : Option (Nat × Nat) :=
  let u := s.tm c
  let lim := u.openT.getD 0 + freqLimit
  if s.tmCtl c 2 0 = 5 then
    match u.closeT with
    | some t => if t ≤ lim then some (t, 1) else some (lim, 4)
    | none => some (lim, 4)
  else u.closeT.map fun t => (t, 1)

/-- What has come about by time `t`: the shutter has opened, or ended, and the next ones likewise. -/
def State.tmuAdvance (s : State) (c t : Nat) : Nat → State
  | 0 => s
  | fuel + 1 =>
    if s.tmState c = 1 then
      match (s.tm c).openT with
      | some o => if o ≤ t then (s.tmuOpen c).tmuAdvance c t fuel else s
      | none => s
    else if s.tmTakes c then
      match s.tmuEndAt c with
      | some (e, cause) =>
        if decide (e ≤ t) && ((s.tm c).ending.isNone || s.tmReopens c cause) then
          (s.tmuClose c cause e).tmuAdvance c t fuel
        else s
      | none => s
    else s

/-- Enough steps for every shutter that can have ended by time `t`. -/
def State.tmuFuel (s : State) (c t : Nat) : Nat :=
  3 + (t - (s.tm c).openT.getD t) / (65536 * s.tmLen c)

/-- The shutter of channel `c` as it stands at time `t`. -/
def State.tmuAt (s : State) (c t : Nat) : State := s.tmuAdvance c t (s.tmuFuel c t)

/-- A shutter that has ended is closed: no stamp before its end comes any more (R257). -/
def State.tmuSettle (s : State) (c : Nat) : State :=
  match (s.tm c).ending with
  | some (t, cause) =>
    let s := s.tmuAt c t
    (s.setTm c { s.tm c with ending := none }).tmuClose c cause t
  | none => s

/-- The shutter of channel `c` ends at a time with a cause: the unit is IDLE, and hits whose stamps lie before that time
still belong to the shutter until its results are latched (R257, R258). -/
def State.tmuEnding (s : State) (c : Nat) (e : Nat × Nat) : State :=
  ((s.setTm c { s.tm c with ending := some e }).wrF (Reg.TMU_STAT c) 6 4 e.2).setTmState c 0

/-- The shutter of channel `c` is ended at the present tick with cause STOP, STRUCTURE or FAULT, where it has not reached
its own end before (R257). One that has not opened ends without results (log entry 32). -/
def State.tmuEnd (s : State) (c cause : Nat) : State :=
  let now := 65536 * s.mt
  let s := if s.tmState c = 1 ∧ ((s.tm c).openT.any fun o => decide (o ≤ now)) = true then s.tmuOpen c else s
  match s.tmState c with
  | 1 => ((s.setTm c ((s.tm c).fresh none none)).setTmState c 0).wrF (Reg.TMU_STAT c) 6 4 cause
  | 2 => s.tmuEnding c (match s.tmuEndAt c with
      | some e => if e.1 ≤ now ∧ !s.tmReopens c e.2 then e else (now, cause)
      | none => (now, cause))
  | _ => s

/-- A sync event reaches the TMU of channel `c` at tick `t` (R253). -/
def State.tmuSync (s : State) (c e t : Nat) : State :=
  if s.tmState c = 1 ∧ s.tmCtl c 17 16 = 2 ∧ s.tmCtl c 23 20 = e ∧ (s.tm c).openT = none then
    let o := 65536 * t
    (s.setTm c { s.tm c with openT := some o, closeT := s.tmCloseFor c o }).tmuOpen c
  else s

/-! ### Measures (R260–R267) -/

/-- An x joins the sums of modes 2–4 (R263). -/
def sumsAddX (m : TmuSums) (x : Int) : TmuSums :=
  if 2 ^ 47 ≤ x.natAbs then { m with ovr := sat 32 (m.ovr + 1) }
  else
    let m' := { m with mn := if m.n = 0 then x else min m.mn x, mx := if m.n = 0 then x else max m.mx x }
    if m.n = 2 ^ 48 - 1 then m'
    else { m' with n := m.n + 1, sum := m.sum + x, sq := m.sq + x.natAbs * x.natAbs,
                   sat := m.sat || m.n + 1 == 2 ^ 48 - 1 }

/-- A stamp joins the regression sums: edge number `n`, time `t` since T0 (R264). -/
def sumsAddFreq (m : TmuSums) (n t : Nat) : TmuSums :=
  { m with m := m.m + 1, sn := m.sn + n, st := m.st + t, snn := m.snn + n * n, snt := m.snt + n * t }

/-- An x falls into the histogram (R267). -/
def State.histAdd (s : State) (c : Nat) (x : Int) : State :=
  let org := sext 64 (s.rdWide (Reg.TMU_HORG_LO c) 2)
  let wid : Int := s.rdF (Reg.TMU_HWID c) 23 0
  if x < org then s.count (Reg.TMU_HUNDER c) 1
  else if org + 1024 * wid ≤ x then s.count (Reg.TMU_HOVER c) 1
  else s.bump (s.capAt c + 4 * ((x - org) / wid).toNat) 4

/-- PERIOD: the x of a stamp of input A (R260). -/
def TmuUnit.period (u : TmuUnit) (t : Nat) (gap : Bool) : TmuUnit × List Int :=
  ({ u with prev := some t },
   match u.prev with
   | some p => if gap then [] else [(t : Int) - p]
   | none => [])

/-- INTERVAL: B closes the open interval, A opens one (R261). -/
def TmuUnit.interval (u : TmuUnit) (t : Nat) (isA isB : Bool) : TmuUnit × List Int :=
  let closed := if isB then u.aOpen else none
  let rest := if isB then none else u.aOpen
  ({ u with aOpen := if isA && rest.isNone then some t else rest },
   match closed with
   | some a => [(t : Int) - a]
   | none => [])

/-- SKEW: A hits whose windows have passed are unpaired; B takes the first A whose window holds it, A the
earliest free B in its window (R262). -/
def TmuUnit.skew (u : TmuUnit) (r t : Nat) (isA isB : Bool) : TmuUnit × List Int :=
  let dead := (u.freeA.filter fun a => decide (a + r ≤ t)).length
  let fa := u.freeA.filter fun a => decide (t < a + r)
  let fb := u.freeB.filter fun b => decide (t ≤ b + r)
  let hitA := if isB then fa.find? fun a => decide (a ≤ t + r) else none
  let fa := match hitA with | some a => fa.erase a | none => fa
  let fb := if isB && hitA.isNone then fb ++ [t] else fb
  let hitB := if isA then fb.find? fun b => decide (b < t + r) else none
  let fb := match hitB with | some b => fb.erase b | none => fb
  let fa := if isA && hitB.isNone then fa ++ [t] else fa
  ({ u with freeA := fa, freeB := fb, sums := { u.sums with unpaired := sat 32 (u.sums.unpaired + dead) } },
   (match hitA with | some a => [(t : Int) - a] | none => []) ++
     (match hitB with | some b => [(b : Int) - t] | none => []))

/-- What a stamp gives in the measure kinds 2–4. -/
def TmuUnit.measure (u : TmuUnit) (kind r t : Nat) (isA isB gap : Bool) : TmuUnit × List Int :=
  match kind with
  | 2 => if isA then u.period t gap else (u, [])
  | 3 => u.interval t isA isB
  | 4 => u.skew r t isA isB
  | _ => (u, [])

/-- The x that a stamp gives join the sums, or the histogram in HIST mode. -/
def State.addXs (s : State) (c : Nat) (xs : List Int) : State :=
  if s.tmCtl c 2 0 = 6 then xs.foldl (fun s x => s.histAdd c x) s
  else s.setTm c { s.tm c with sums := xs.foldl sumsAddX (s.tm c).sums }

/-- EDGE and INPUT of a record's flags for a source of R245; the edge of an internal hit is a value the
manual does not state. -/
def srcFlags (src draw : Nat) : Nat :=
  match src with
  | 0 => 32
  | 1 => 0
  | 2 => 32 + 8
  | 3 => 8
  | 4 => 32 + 16
  | 5 => 16
  | _ => 24 + 32 * (draw % 2)

/-- A hit is stamped at time `t` (R250, R258–R268); `raw` is the time before the corrections. -/
def State.stampHit (s : State) (c src t raw p e : Nat) (isA isB : Bool) : State :=
  let u := s.tm c
  let gap := u.gapNext
  let n0 := some (u.n0.getD u.edge)
  let hitn := if isA then u.edge - n0.getD 0 else 2 ^ 32 - 1
  let r := (s.rd (Reg.TMU_RANGE c)).toNat
  let m := { u.sums with gaps := u.sums.gaps || gap, t0 := some (u.sums.t0.getD t) }
  let m := if s.tmKind c = 5 then sumsAddFreq m hitn (t - m.t0.getD t) else m
  let u := { (u.take p e) with n0 := n0, gapNext := false, lastStamped := some raw, recs := u.recs + 1, sums := m }
  let x := u.measure (s.tmKind c) r t isA isB gap
  let u := if s.tmCtl c 19 18 = 2 ∧ x.1.recs = (s.rd (Reg.TMU_COUNT c)).toNat then
    { x.1 with closeT := some (t + 1) } else x.1
  let s := ((s.setTm c u).count48 (Reg.TMU_STAMPS_LO c)).addXs c x.2
  (s.holdRec c (stampRec c t (srcFlags src s.freeNow + 4 * b2n gap) hitn)).drawn

/-- A hit is missed (R243). -/
def State.missHit (s : State) (c : Nat) : State :=
  let s := if s.rdWide (Reg.TMU_MISS_LO c) 2 = 0 then s.irq (Reg.TMU_ISTAT c) 4 else s
  (s.count48 (Reg.TMU_MISS_LO c)).setTm c { s.tm c with gapNext := true }

/-- A hit lies in the open shutter: it is counted (R244), prescaled (R246), and stamped or missed; an A hit that
INTERVAL ignores is no miss (R261). A hit that INTERVAL ignores and that can be stamped is stamped and recorded, and the
next stamp keeps its distance from it; an ignored B that cannot be stamped counts as missed (log entry 104). -/
def State.hitInside (s : State) (c src t raw e : Nat) (isA isB : Bool) (path : Option Nat) : State :=
  let u := s.tm c
  let k := s.rdF (Reg.TMU_INP c) 31 16 + 1
  let s := if isA then
      (s.count48 (Reg.TMU_HITS_LO c)).setTm c { u with edge := u.edge + 1, presc := (u.presc + 1) % k }
    else s
  let a := isA && u.presc == 0
  if !a && !isB then s
  else
    let near := match u.lastStamped with
      | some l => decide (raw < l + 10 * 65536)
      | none => false
    let ignored := s.tmKind c == 3 && !isB && u.aOpen.isSome
    let missed := if ignored then s else s.missHit c
    match path with
    | none => missed
    | some p =>
      if near || decide (256 ≤ stampsIn u.hold) then missed
      else s.stampHit c src t raw p e a isB

/-- The ANALOG hits at the same instant that wait to take a capture path first (R298). -/
def State.analogFirst (s : State) (c e code : Nat) : Nat :=
  if s.analogOn c && decide (2 ≤ s.rdF (Reg.ACQ_STAT c) 2 0) then
    (s.pending.filter fun i =>
      match i with
      | .acqAnalogHit ch _ e' code' => ch.val == c && e' == e && code'.val == code
      | _ => false).length
  else 0

/-- `k` ANALOG hits take their paths. -/
def TmuUnit.analogTakes (u : TmuUnit) (e code : Nat) : Nat → TmuUnit
  | 0 => u
  | k + 1 =>
    match u.freePath e code with
    | some p => (u.take p e).analogTakes e code k
    | none => u

/-- The path that a hit of the TDC's own inputs takes: what ANALOG hits at the same instant leave (R242, R298). -/
def State.pathFor (s : State) (c e code : Nat) : Option Nat :=
  ((s.tm c).analogTakes e code (s.analogFirst c e code)).freePath e code

/-- A hit less than 312.5 ps (1.25 ticks) after the last one of its source is merged into it (R244). -/
def TmuUnit.merged (u : TmuUnit) (src raw : Nat) : Bool :=
  match kget (fun _ => none) u.lastHit src with
  | some l => decide (raw < l + 81920)
  | none => false

/-- A hit of source `src` with its stamp `t`, its time before the corrections and its path, as input A or B. -/
def State.hitAt (s : State) (c src e t raw : Nat) (isA isB : Bool) (path : Option Nat) : State :=
  let s := s.setTm c { s.tm c with lastHit := kset (fun _ => none) (s.tm c).lastHit src (some raw) }
  let s := match (s.tm c).ending with
    | some (x, _) => if x ≤ t then s.tmuSettle c else s.tmuAt c t
    | none => s.tmuAt c t
  if s.tmTakes c = true ∧ (s.tm c).openT.getD 0 ≤ t then
    s.hitInside c src t raw e isA isB path
  else s

/-- A hit of source `src`, sampled on tick edge `e` with a code. -/
def State.hit (s : State) (c src e code : Nat) : State :=
  let kind := s.tmKind c
  let isA := s.rdF (Reg.TMU_INP c) 2 0 == src && kind != 0
  let isB := s.rdF (Reg.TMU_INP c) 6 4 == src && (kind == 3 || kind == 4)
  let path := s.pathFor c e code
  let p := path.getD (s.tm c).path
  let raw := 65536 * e - s.binPos c p code
  if (!isA && !isB) || (s.tm c).merged src raw then s
  else s.hitAt c src e (s.stampOf c p e code) raw isA isB path

/-! ### Bin calibration (R247–R249) -/

/-- The module feeds source hits to channel `c`'s paths: no shutter is ARMED or OPEN or still takes stamps, TMU_CAL_CTL.EN
is 1, no ANALOG trigger uses the TDC (R247, R298), it is not the check TDC of a slot (R329), and the channel is not in
low power (R498). -/
def State.binCollect (s : State) (c : Nat) : Bool :=
  s.tmState c == 0 && (s.tm c).ending.isNone && decide (s.unit 1 c < 3) && bit (s.rd Reg.TMU_CAL_CTL) 0 &&
    !(s.analogOn c && decide (2 ≤ s.rdF (Reg.ACQ_STAT c) 2 0)) &&
    !(match s.cal.slot with | some x => x.check == some c | none => false)

/-- A source hit is counted by its code on the path it takes (R247). -/
def State.binHit (s : State) (c e code : Nat) : State :=
  match (s.tm c).freePath e code with
  | some p =>
    let u := (s.tm c).take p e
    let k := 128 * p + (code - 16)
    s.setTm c { u with codes := kset (fun _ => 0) u.codes k (kget (fun _ => 0) u.codes k + 1) }
  | none => s

/-- The counts of a path's codes so far. -/
def TmuUnit.codeCounts (u : TmuUnit) (p : Nat) : List Nat := (List.range 128).map fun i => kget (fun _ => 0) u.codes (128 * p + i)

/-! ### Commands -/

/-- TDC_HIT: the comparator or the internal source gives a hit, which the TDC samples on tick edge `e` with a code of
R242; between shutters a source hit counts for the bin tables (R247). -/
def doTdcHit (c src e code : Nat) (s : State) : State :=
  let open_ := s.tmState c != 0 || (s.tm c).ending.isSome
  s.whenDue (decide (e ≤ s.mt) && decide (16 ≤ code) && (open_ || (src == 6 && s.binCollect c))) fun s =>
    if open_ then s.hit c src e code else s.binHit c e code
/-- Meaning of TDC_HIT. -/
def execTdcHit (ch : Fin 128) (src : Fin 7) (edge : Nat) (code : Fin 144) (s : State) :
    Host.Outcome State Fault Refusal := .next (doTdcHit ch.val src.val edge code.val s)

/-- Units of the capture area that an ARM of the TDC would use (R283). -/
def State.tmUnits (s : State) (c : Nat) : Nat :=
  if s.tmCtl c 10 10 = 1 then
    if s.tmCtl c 11 11 = 0 then ((s.rd (Reg.TMU_RSIZE c)).toNat * 16 + 4095) / 4096 else 1
  else if s.tmCtl c 2 0 = 6 then 1
  else 0

/-- The acquisition of the channel is not IDLE. -/
def State.acqBusy (s : State) (c : Nat) : Bool := s.rdF (Reg.ACQ_STAT c) 2 0 != 0

/-- An ARM asks for an input that the crossbar does not give (R245). -/
def State.armNoRef (s : State) (c : Nat) : Bool :=
  let r := fun x => x == 4 || x == 5
  (s.xbarOf c).ref.isNone && (r (s.rdF (Reg.TMU_INP c) 2 0) || r (s.rdF (Reg.TMU_INP c) 6 4))

/-- The open time that is known at ARM. -/
def State.armOpen (s : State) (c : Nat) : Option Nat :=
  match s.tmCtl c 17 16 with
  | 0 => some (65536 * s.mt)
  | 1 => some (s.rdWide (Reg.TMU_OPEN c 0) 3 % 2 ^ 80)
  | _ => none

/-- BAD_CFG (R253–R255, R259, R276). A LEN of 0 and a TMU_CLOSE that is not later than a known open time count as such;
where a sync event gives the open time, a TMU_CLOSE before it closes the shutter as it opens (log entry 104). -/
def State.armBadCfg (s : State) (c : Nat) : Bool :=
  let mode := s.tmCtl c 2 0
  let cs := s.tmCtl c 19 18
  s.tmCtl c 17 16 == 3 || (s.tmCtl c 8 8 == 1 && cs != 0) || mode == 7 || (mode == 6 && s.tmCtl c 10 10 == 1) ||
    s.rdF (Reg.TMU_HWID c) 23 0 == 0 || (cs == 0 && mode != 5 && s.tmLen c == 0) ||
    (cs == 1 && (match s.armOpen c with
      | some o => decide (s.rdWide (Reg.TMU_CLOSE c 0) 3 % 2 ^ 80 ≤ o)
      | none => false))

/-- NO_ROUTE (R273, R284). -/
def State.armNoRoute (s : State) (c : Nat) : Bool :=
  let ring := s.tmCtl c 10 10 == 1
  let mode6 := s.tmCtl c 2 0 == 6
  ((ring || mode6) && (s.acqrOf c).capSize == 0) || (s.tmCtl c 12 12 == 1 && (s.acqrOf c).stampFlow.isNone) ||
    (s.acqBusy c && s.rdF (Reg.ACQ_AREA c) 15 0 == 0 && ((ring && s.tmCtl c 11 11 == 1) || (mode6 && !ring)))

/-- BAD_RING (R273, R284). -/
def State.armBadRing (s : State) (c : Nat) : Bool :=
  let n := (s.rd (Reg.TMU_RSIZE c)).toNat
  let base := s.rdWide (Reg.TMU_DR_BASE_LO c) 2
  s.tmCtl c 10 10 == 1 && (decide (n < 4) ||
    (if s.tmCtl c 11 11 = 0 then
      decide (4096 * (s.acqrOf c).capSize < n * 16) || (s.acqBusy c && decide (s.rdF (Reg.ACQ_AREA c) 15 0 < s.tmUnits c))
    else n % 4 != 0 || decide (base < segTop) || decide (s.dramSize < base + 16 * n)))

/-- The error with which an ARM is refused, 0 for none: the lowest code that applies (log entry 33). -/
def State.armError (s : State) (c : Nat) : Nat :=
  let late := s.tmCtl c 17 16 == 1 && decide (s.rdWide (Reg.TMU_OPEN c 0) 3 % 2 ^ 80 < 65536 * s.mt)
  let gate := s.tmCtl c 2 0 == 5 && s.tmCtl c 19 18 == 0 &&
    (decide (s.tmLen c < 4000) || decide (400000000000 < s.tmLen c))
  if s.armNoRef c then 1 else if late then 2 else if s.armBadCfg c then 3 else if gate then 4
  else if s.armNoRoute c then 5 else if s.armBadRing c then 6 else 0

/-- The counters at 0x0160–0x0194 and the bank are cleared, and the unit is ARMED (R267, R276). STALE is cleared, and the
results of a closed shutter that have not been latched are dropped (log entry 104). -/
def State.armTmu (s : State) (c : Nat) : State :=
  let s := (s.tmuSettle c).stampFlush c
  let o := s.armOpen c
  let s := forEach ((List.range 8).map fun i => Reg.TMU_HITS_LO c + 4 * i) (fun a s => s.wrN a 0) s
  let s := ((s.wrN (Reg.TMU_LOST1 c) (2 ^ 32 - 1)).wrN (Reg.TMU_HUNDER c) 0).wrN (Reg.TMU_HOVER c) 0
  let s := forEach ((List.range 45).map fun i => Reg.TMU_RSEQ c + 4 * i) (fun a s => s.wrN a 0) s
  let s := if s.tmCtl c 2 0 = 6 then s.sramWr (s.capAt c) (List.replicate 4096 0) else s
  let u := (s.tm c).fresh o (o.bind fun o => s.tmCloseFor c o)
  let s := s.setTm c { u with lostNote := false, done := none, hold := [] }
  let s := ((s.wrF (Reg.TMU_STAT c) 31 16 0).wrF (Reg.TMU_STAT c) 10 9 0).setTmState c 1
  s.calArmHook c

/-- TMU_ARM (R253, R273, R274). -/
def doTmuArm (dom c : Nat) (s : State) : State :=
  s.hostWrite dom (Reg.TMU_CMD c) fun s =>
    if s.tmState c ≠ 0 || (s.ch c).refl || s.modHeld || s.pllOff then s.noteReg dom (Reg.TMU_CMD c)
    else
      match s.armError c with
      | 0 => s.armTmu c
      | e => (s.wrN (Reg.TMU_ERR c) e).irq (Reg.TMU_ISTAT c) 2
/-- Meaning of TMU_ARM. -/
def execTmuArm (dom : Fin 16) (ch : Fin 128) (s : State) : Host.Outcome State Fault Refusal :=
  .next (doTmuArm dom.val ch.val s)

/-- TMU_STOP: closes any shutter at the tick it arrives (R254). -/
def doTmuStop (dom c : Nat) (s : State) : State :=
  s.hostWrite dom (Reg.TMU_CMD c) fun s => s.tmuEnd c 2
/-- Meaning of TMU_STOP. -/
def execTmuStop (dom : Fin 16) (ch : Fin 128) (s : State) : Host.Outcome State Fault Refusal :=
  .next (doTmuStop dom.val ch.val s)

/-- TMU_CMD_INVALID: an OP other than ARM and STOP is discarded with a NOTE fault (R276). -/
def doTmuCmdInvalid (dom c : Nat) (v : Word) (s : State) : State :=
  s.hostWrite dom (Reg.TMU_CMD c) fun s =>
    if fld v 2 0 = 1 ∨ fld v 2 0 = 2 then s else s.noteReg dom (Reg.TMU_CMD c)
/-- Meaning of TMU_CMD_INVALID. -/
def execTmuCmdInvalid (dom : Fin 16) (ch : Fin 128) (v : Word) (s : State) : Host.Outcome State Fault Refusal :=
  .next (doTmuCmdInvalid dom.val ch.val v s)

/-- TMU_RD_WRITE: the host's read index; one beyond TMU_WR, or more than the ring's size behind it, is
discarded (R270), and so is any while a DMA channel is paced by the ring (R407). -/
def doTmuRdWrite (dom c : Nat) (v : Word) (s : State) : State :=
  s.hostWrite dom (Reg.TMU_RD c) fun s =>
    let behind := ((s.rd (Reg.TMU_WR c)).toNat + 2 ^ 32 - v.toNat) % 2 ^ 32
    if s.pacedBy 1 c || decide ((s.rd (Reg.TMU_RSIZE c)).toNat < behind) then s.noteReg dom (Reg.TMU_RD c)
    else s.wr (Reg.TMU_RD c) v
/-- Meaning of TMU_RD_WRITE. -/
def execTmuRdWrite (dom : Fin 16) (ch : Fin 128) (v : Word) (s : State) : Host.Outcome State Fault Refusal :=
  .next (doTmuRdWrite dom.val ch.val v s)

/-- TMU_CONFIG_WRITE: a write to the configuration register at offset 0x0100 + 4·`r` (R274); while a
shutter is ARMED or OPEN it is discarded, but for TMU_RD. One to TMU_CTL, TMU_RSIZE or TMU_DR_BASE withdraws
the ring's request (R408). -/
def doTmuConfigWrite (dom c r : Nat) (v : Word) (s : State) : State :=
  let a := Reg.TMU_CTL c + 4 * r
  if r = 18 then doTmuRdWrite dom c v s
  else s.hostWrite dom a fun s =>
    if s.tmState c = 0 then
      let ring := a == Reg.TMU_CTL c || a == Reg.TMU_RSIZE c || a == Reg.TMU_DR_BASE_LO c || a == Reg.TMU_DR_BASE_HI c
      ((if ring then s.ringCut c else s).tmuSettle c |>.stampFlush c).wrRow a v
    else (s.wrF (Reg.TMU_STAT c) 9 9 1).noteReg dom a
/-- Meaning of TMU_CONFIG_WRITE. -/
def execTmuConfigWrite (dom : Fin 16) (ch : Fin 128) (r : Fin 20) (v : Word) (s : State) :
    Host.Outcome State Fault Refusal := .next (doTmuConfigWrite dom.val ch.val r.val v s)

/-- Key of a value latched for a domain (R6). -/
def latchKey (dom a : Nat) : Nat := 2 ^ 26 * dom + a

/-- Latch `k` registers from `a` for a domain. -/
def State.latchRegs (s : State) (dom : Nat) : Nat → Nat → State
  | _, 0 => s
  | a, k + 1 =>
    { s with latch := kset (fun _ => none) s.latch (latchKey dom a) (some (s.rd a)) }.latchRegs dom (a + 4) k

/-- TMU_RSEQ_READ: a read of TMU_RSEQ latches the bank, offsets 0x0200–0x02BC, for the domain (R258). -/
def doTmuRseqRead (dom c : Nat) (s : State) : State :=
  s.hostRead dom (Reg.TMU_RSEQ c) fun s => (s.latchRegs dom (Reg.TMU_RSEQ c) 48, [s.rd (Reg.TMU_RSEQ c)])
/-- Meaning of TMU_RSEQ_READ. -/
def execTmuRseqRead (dom : Fin 16) (ch : Fin 128) (s : State) : Host.Outcome State Fault Refusal :=
  .next (doTmuRseqRead dom.val ch.val s)

/-- An ARMED shutter's open time has come. -/
def State.tmuOpenDue (s : State) (c : Nat) : Bool :=
  s.tmState c == 1 && (match (s.tm c).openT with | some o => decide (o ≤ 65536 * s.mt) | none => false)

/-- An OPEN shutter's end with a cause has come. -/
def State.tmuEndDue (s : State) (c cause : Nat) : Bool :=
  s.tmState c == 2 && (match s.tmuEndAt c with
    | some (t, k) => decide (t ≤ 65536 * s.mt) && k == cause
    | none => false)

/-- TMU_SHUTTER_OPEN. -/
def doTmuShutterOpen (c : Nat) (s : State) : State := s.whenDue (s.tmuOpenDue c) fun s => s.tmuOpen c
/-- Meaning of TMU_SHUTTER_OPEN. -/
def execTmuShutterOpen (ch : Fin 128) (s : State) : Host.Outcome State Fault Refusal :=
  .next (doTmuShutterOpen ch.val s)

/-- TMU_SHUTTER_CLOSE. A shutter that another one follows takes its last stamps first (R255). -/
def doTmuShutterClose (c : Nat) (s : State) : State :=
  let t := (s.tm c).closeT.getD 0
  s.whenDue (s.tmuEndDue c 1 && (!s.tmReopens c 1 || s.stampsPast c t)) fun s =>
    if s.tmReopens c 1 then s.tmuClose c 1 t else s.tmuEnding c (t, 1)
/-- Meaning of TMU_SHUTTER_CLOSE. -/
def execTmuShutterClose (ch : Fin 128) (s : State) : Host.Outcome State Fault Refusal :=
  .next (doTmuShutterClose ch.val s)

/-- TMU_FREQ_LIMIT. -/
def doTmuFreqLimit (c : Nat) (s : State) : State :=
  s.whenDue (s.tmuEndDue c 4) fun s => s.tmuEnding c ((s.tm c).openT.getD 0 + freqLimit, 4)
/-- Meaning of TMU_FREQ_LIMIT. -/
def execTmuFreqLimit (ch : Fin 128) (s : State) : Host.Outcome State Fault Refusal :=
  .next (doTmuFreqLimit ch.val s)

/-- A shutter has ended, and no stamp of it can come any more. -/
def State.tmuSettled (s : State) (c : Nat) : Bool := (s.tm c).ending.any fun e => s.stampsPast c e.1

/-- TMU_BANK_LATCH. -/
def doTmuBankLatch (c : Nat) (s : State) : State :=
  s.whenDue ((s.tm c).done.isSome || s.tmuSettled c) fun s =>
    (if s.tmuSettled c then s.tmuSettle c else s).tmuLatch c
/-- Meaning of TMU_BANK_LATCH. -/
def execTmuBankLatch (ch : Fin 128) (s : State) : Host.Outcome State Fault Refusal :=
  .next (doTmuBankLatch ch.val s)

/-! ### Bin tables (R247–R249) -/

/-- The age of the older of a channel's two tables in ms, saturating; all ones before both are adopted. -/
def State.calAge (s : State) (c : Nat) : Nat :=
  match kget (fun _ => none) (s.tm c).adopt 0, kget (fun _ => none) (s.tm c).adopt 1 with
  | some a, some b => sat 32 (((s.mt : Int) - min a b).toNat / 4000000)
  | _, _ => 2 ^ 32 - 1

/-- The counts of a path's 128 codes give a table that is adopted: every bin's width lies between
0.25/128 and 1.75/128 tick (R248). -/
def binsOk (h : List Nat) : Bool := h.all fun x => decide (h.sum ≤ 512 * x) && decide (512 * x ≤ 7 * h.sum)

/-- P(c) for the codes in order (R247), rounded half up; `below` counts the hits of lower codes. -/
def binTable (total : Nat) : Nat → List Nat → List Nat
  | _, [] => []
  | below, h :: hs => ((65536 * (2 * below + h) + total) / (2 * total)) :: binTable total (below + h) hs

/-- Store a path's table in its registers, two positions a word. -/
def State.putBins (s : State) (a : Nat) : List Nat → State
  | p :: q :: r => (s.wrN a (q % 65536 * 65536 + p % 65536)).putBins (a + 4) r
  | _ => s

/-- TDC_BIN_TABLE_BUILD: path `p` has collected its hits: those of TDC_HIT commands, and as many more of each code as
`more` says (log entry 34). A table is adopted, or discarded with a NOTE fault (R248), and the counts begin again. -/
def doTdcBinTableBuild (c p : Nat) (more : List Nat) (s : State) : State :=
  let h := List.zipWith (· + ·) ((s.tm c).codeCounts p) more
  s.whenDue (s.binCollect c && decide (2 ^ 20 ≤ h.sum) && more.length == 128) fun s =>
    let u := s.tm c
    let s := s.setTm c { u with codes := u.codes.filter fun x => x.1 / 128 != p }
    if binsOk h then
      (s.putBins (if p = 0 then Reg.TMU_BIN0 c 0 else Reg.TMU_BIN1 c 0) (binTable h.sum 0 h)).setTm c
        { s.tm c with adopt := kset (fun _ => none) u.adopt p (some (s.mt : Int)) }
    else s.note (0x500 + c) p (Reg.TMU_CTL c)
/-- Meaning of TDC_BIN_TABLE_BUILD. -/
def execTdcBinTableBuild (ch : Fin 128) (path : Fin 2) (counts : List Nat) (s : State) :
    Host.Outcome State Fault Refusal := .next (doTdcBinTableBuild ch.val path.val counts s)

/-- TDC_CAL_STALE: TMU_CAL_AGE exceeds MAXAGE while a shutter is open (R249). -/
def doTdcCalStale (c : Nat) (s : State) : State :=
  s.whenDue (s.tmState c == 2 && decide (100 * s.rdF Reg.TMU_CAL_CTL 15 1 < s.calAge c)) fun s =>
    (s.wrF (Reg.TMU_STAT c) 10 10 1).irq (Reg.TMU_ISTAT c) 16
/-- Meaning of TDC_CAL_STALE. -/
def execTdcCalStale (ch : Fin 128) (s : State) : Host.Outcome State Fault Refusal := .next (doTdcCalStale ch.val s)

/-- STAMP_RECORD_MOVE: the channel whose turn it is has a record moved (R272). -/
def doStampRecordMove (c : Nat) (s : State) : State :=
  s.whenDue (!(s.tm c).hold.isEmpty && s.nextServed == some c) fun s => s.stampMove c
/-- Meaning of STAMP_RECORD_MOVE. -/
def execStampRecordMove (ch : Fin 128) (s : State) : Host.Outcome State Fault Refusal :=
  .next (doStampRecordMove ch.val s)

end Sys2Proof.Machine
end

