-- ==== Sys2Proof/Machine/Acq.lean ====
section
/-! DEFINITION. Parametric acquisition (R277–R306): conversions and stored samples, triggers and their
decision, frames, mask tests, the ends of a record set, and the commands of the ACQ block. -/

namespace Sys2Proof.Machine

open Sys2Proof

/-! ### Configuration -/

/-- Set ACQ_STAT.STATE. -/
def State.setAqState (s : State) (c st : Nat) : State := (s.workNow 2 c).wrF (Reg.ACQ_STAT c) 2 0 st
/-- A field of ACQ_CTL. -/
def State.aqCtl (s : State) (c hi lo : Nat) : Nat := s.rdF (Reg.ACQ_CTL c) hi lo
/-- A, the conversions of a sample. -/
def State.aqA (s : State) (c : Nat) : Nat := s.rdF (Reg.ACQ_AVG c) 15 0 + 1
/-- TC in ticks. -/
def State.aqTC (s : State) (c : Nat) : Nat := (s.rd (Reg.ACQ_TC c)).toNat
/-- The sample interval SI in ticks (R280). -/
def State.aqSI (s : State) (c : Nat) : Nat := s.aqA c * s.aqTC c
/-- LEN. -/
def State.aqLen (s : State) (c : Nat) : Nat := s.rdF (Reg.ACQ_LEN c) 20 0
/-- PRE. -/
def State.aqPre (s : State) (c : Nat) : Nat := s.rdF (Reg.ACQ_PRE c) 11 0
/-- Start tick of the record set. -/
def State.aqStart (s : State) (c : Nat) : Nat := (s.aq c).start.getD 0
/-- The sample instant t_j in ticks (R280). -/
def State.aqT (s : State) (c j : Nat) : Nat := s.aqStart c + j * s.aqSI c
/-- The configuration register of trigger `x`: 0 TA, 1 TB. -/
def trigReg (c x : Nat) : Nat := if x = 0 then Reg.ACQ_TA c else Reg.ACQ_TB c
/-- Trigger `x` is enabled with a source (R291). -/
def State.trigOn (s : State) (c x src : Nat) : Bool :=
  bit (s.rd (trigReg c x)) 31 && s.rdF (trigReg c x) 30 28 == src

/-- Applied PMU mode (R314). -/
def State.pmuMode (s : State) (c : Nat) : Nat := s.rdF (Reg.PEL_STAT c) 1 0
/-- Applied PMU range. -/
def State.pmuRange (s : State) (c : Nat) : Nat := s.rdF (Reg.PEL_STAT c) 6 4

/-- Units of the history ring (R283). -/
def State.histUnits (s : State) (c : Nat) : Nat := if s.aqPre c = 0 then 0 else 4
/-- Entries of the mask table. -/
def State.mskLen (s : State) (c : Nat) : Nat := s.rdF (Reg.ACQ_MSK_LEN c) 16 0
/-- Units of the mask copy (R283). -/
def State.maskUnits (s : State) (c : Nat) : Nat :=
  if s.aqCtl c 13 13 = 1 then (s.mskLen c * 16 + 4095) / 4096 else 0
/-- BAR4 offset of unit `u` of the acquisition area. -/
def State.aqUnitAt (s : State) (c u : Nat) : Nat := s.capAt c + 4096 * (s.rdF (Reg.ACQ_AREA c) 15 0 + u)

/-- Write bytes of frame `k` from offset `o` (R285). -/
def State.frameWr (s : State) (c k o : Nat) (bs : List Byte) : State :=
  let x := k * fstride (s.aqLen c) + o
  if s.aqCtl c 11 11 = 0 then s.sramWr (s.aqUnitAt c (s.histUnits c + s.maskUnits c) + x) bs
  else s.engWr { cls := 1, id := c } (s.rdWide (Reg.ACQ_DR_BASE_LO c) 2 + x) bs

/-- Place of frame `k`: in DRAM, and its address there or BAR4 offset (R285). -/
def State.frameAt (s : State) (c k : Nat) : Bool × Nat :=
  let x := k * fstride (s.aqLen c)
  if s.aqCtl c 11 11 = 0 then (false, s.aqUnitAt c (s.histUnits c + s.maskUnits c) + x)
  else (true, s.rdWide (Reg.ACQ_DR_BASE_LO c) 2 + x)

/-- A frame-store request of a paced DMA channel whose next frame is `k` is asserted (R407). -/
def State.frameReq (s : State) (c k : Nat) : Bool := decide (k < (s.rd (Reg.ACQ_FDONE c)).toNat)

/-- An ARM or a load withdraws the frame store's request (R408). -/
def State.frameCut (s : State) (c : Nat) : State :=
  s.paceCut 2 c (fun n _ => s.frameReq c (s.rd (Reg.DMA_PIDX n)).toNat)
    (fun n _ => let p := s.frameAt c (s.rd (Reg.DMA_PIDX n)).toNat; [(p.1, p.2, fstride (s.aqLen c))])

/-! ### The ends of frames and record sets (R286–R288, R303) -/

/-- Bytes 0x00–0x3B of a frame's header; the extremes of a frame of lost samples only are values the
manual does not state (log entry 5). -/
def State.frameHead (s : State) (c : Nat) (f : FrameSt) : List Byte :=
  let n := f.words.length
  let flags := b2n (decide (n < s.aqLen c) || f.trunc) + 2 * b2n (f.lcnt != 0) + 4 * b2n (f.vcnt != 0) +
    8 * b2n f.stopv + 16 * b2n f.clip + 32 * b2n f.preOvl
  let mn := match f.ext with | some (a, _) => ofInt 32 a | none => s.freeNow
  let mx := match f.ext with | some (_, b) => ofInt 32 b | none => s.freeNow / 2 ^ 32
  leBytes 4 f.idx ++ leBytes 2 c ++ leBytes 2 flags ++ leBytes 8 (f.ttime / 65536) ++ leBytes 2 f.ttime ++
    leBytes 1 f.cause ++ leBytes 1 f.tsub ++ leBytes 4 n ++ leBytes 8 (s.aqT c f.j0) ++ leBytes 4 (s.aqPre c) ++
    leBytes 4 f.vcnt ++ leBytes 4 (f.firstv.getD (2 ^ 32 - 1)) ++ leBytes 4 f.tign ++ leBytes 4 f.lcnt ++
    leBytes 4 mn ++ leBytes 4 mx

/-- A frame is complete: its header and padding are written, it is counted, and its header goes to
FRAME_FLOW (R285–R288). -/
def State.frameDone (s : State) (c : Nat) (f : FrameSt) : State :=
  let h := s.frameHead c f
  let h := h ++ leBytes 4 (crc32c (h ++ (f.words.map fun w => leBytes 4 w).flatten))
  let o := 64 + 4 * s.aqLen c
  let s := (s.drawn.frameWr c f.idx 0 h).frameWr c f.idx o (List.replicate (fstride (s.aqLen c) - o) 0)
  let s := s.wrN (Reg.ACQ_FDONE c) ((s.rd (Reg.ACQ_FDONE c)).toNat + 1)
  let s := (s.wrF (Reg.ACQ_STAT c) 31 16 (s.rd (Reg.ACQ_FDONE c)).toNat).irq (Reg.ACQ_ISTAT c) 1
  if s.aqCtl c 12 12 = 1 then
    match (s.acqrOf c).frameFlow with
    | some f => (s.takeIn f 3 none h).1
    | none => s
  else s

/-- The record set ends with a cause, and the unit is IDLE (R303); firings that wait for their decision are not
accepted (R296). -/
def State.setEnd (s : State) (c cause : Nat) : State :=
  let s := s.count (Reg.ACQ_TIGN c) (s.aq c).firings.length
  (((s.setAq c {}).wrF (Reg.ACQ_STAT c) 10 8 cause).setAqState c 0).irq (Reg.ACQ_ISTAT c) 2

/-- The acquisition of channel `c` ends with STOP, TIMEOUT, STRUCTURE, FAULT or RANGE: stored frames and
the frame in progress, cut short, are complete; a MONITOR ends without a record set, but not with FAULT, which ends
record sets only (R290, R303, R484). -/
def State.acqEnd (s : State) (c cause : Nat) : State :=
  if s.aqState c = 0 then (if s.aqMon c && cause != 6 then ((s.workNow 2 c).setAq c {}).wrF (Reg.ACQ_STAT c) 11 11 0 else s)
  else
    let u := s.aq c
    let s := u.complete.foldl (fun s f => s.frameDone c f) s
    let s := match u.frame with
      | some f => s.frameDone c { f with trunc := true }
      | none => s
    s.setEnd c cause

/-- The frame at the unit ends: its completion is due, and the re-arm instant of R296 is known while
further frames may follow. -/
def State.frameEnd (s : State) (c : Nat) (f : FrameSt) : State :=
  let u := s.aq c
  let last := f.j0 + f.words.length - 1
  let re := if u.ending.isSome || decide (s.rdF (Reg.ACQ_NFRAME c) 16 0 ≤ u.begun) then none
    else some (65536 * (s.aqT c (last + 1) + 1000))
  (s.setAq c { u with frame := none, complete := u.complete ++ [f], prevEnd := some last, rearm := re }).setAqState c 5

/-! ### Samples into frames, and masks (R299–R302) -/

/-- The limits that frame sample `n` is tested against: UPPER and LOWER (R300). -/
def maskFor : List (Int × Int × Nat) → Nat → Option (Int × Int)
  | [], _ => none
  | (u, l, run) :: r, n => if n < run then some (u, l) else maskFor r (n - run)

/-- A violating sample is counted (R301). -/
def State.countViol (s : State) (c : Nat) : State :=
  let s := if s.rd (Reg.ACQ_VIOL c) = 0 then s.irq (Reg.ACQ_ISTAT c) 4 else s
  s.count (Reg.ACQ_VIOL c) 1

/-- A lost sample is counted (R302). -/
def State.countLost (s : State) (c : Nat) : State :=
  let u := s.aq c
  let s := s.count (Reg.ACQ_LOSTS c) 1
  if u.lostNote then s
  else ((s.setAq c { u with lostNote := true }).irq (Reg.ACQ_ISTAT c) 8).note (0x600 + c)

/-- The smallest and the largest stored value of a frame's words, lost samples excluded (R299). -/
def extOf (ws : List Nat) : Option (Int × Int) :=
  (ws.filter (· != 2 ^ 31)).foldl (fun e w =>
    let v := sext 32 w
    match e with
    | some (a, b) => some (min a v, max b v)
    | none => some (v, v)) none

/-- The last sample of the frame in progress, which waits in capture memory, is lost (R301, R487). -/
def State.sampleLost (s : State) (c : Nat) : State :=
  match (s.aq c).frame with
  | none => s
  | some f =>
    if f.words = [] then s
    else
      let n := f.words.length - 1
      let ws := f.words.take n ++ [2 ^ 31]
      let s := (s.frameWr c f.idx (64 + 4 * n) (leBytes 4 (2 ^ 31))).countLost c
      s.setAq c { s.aq c with frame := some { f with words := ws, lcnt := f.lcnt + 1, ext := extOf ws } }

/-- The next sample of the frame in progress (R299–R302). -/
def State.frameSample (s : State) (c : Nat) (v : Int) (clip lost : Bool) : State :=
  match (s.aq c).frame with
  | none => s
  | some f =>
    let n := f.words.length
    let w := if lost then 2 ^ 31 else ofInt 32 v
    let s := s.frameWr c f.idx (64 + 4 * n) (leBytes 4 w)
    let s := if lost then s.countLost c else s
    let viol := match (if lost then none else maskFor (s.aq c).masks n) with
      | some (hi, lo) => decide (hi < v) || decide (v < lo)
      | none => false
    let s := if viol then s.countViol c else s
    let stop := s.aqCtl c 25 24
    let ext := if lost then f.ext else match f.ext with
      | some (a, b) => some (min a v, max b v)
      | none => some (v, v)
    let f := { f with words := f.words ++ [w], clip := f.clip || clip, ext := ext,
                      lcnt := f.lcnt + b2n lost, vcnt := f.vcnt + b2n viol,
                      firstv := if viol then some (f.firstv.getD n) else f.firstv,
                      stopv := f.stopv || (viol && stop != 0), trunc := f.trunc || (viol && stop == 2) }
    let u := s.aq c
    let s := s.setAq c { u with frame := some f, ending := if viol && stop != 0 then some 3 else u.ending }
    if n + 1 = s.aqLen c ∨ f.trunc then s.frameEnd c f else s

/-! ### Triggers (R291–R298) -/

/-- A firing that is not accepted counts, and counts towards an event hold-off (R296, R297). -/
def State.ignoreFiring (s : State) (c time : Nat) : State :=
  let u := s.aq c
  (s.setAq c { u with tign := sat 32 (u.tign + 1), holdLeft := u.holdLeft - 1,
                      holdEnd := if u.holdLeft = 1 then time else u.holdEnd }).count (Reg.ACQ_TIGN c) 1

/-- A firing is accepted (R296). -/
def State.accepts (s : State) (c time : Nat) : Bool :=
  let u := s.aq c
  let st := s.aqState c
  (st == 2 || st == 3 || st == 5) && u.holdLeft == 0 &&
    (match u.rearm with | some r => decide (max r u.holdEnd ≤ time) | none => false)

/-- The trigger sample of a time (R294). -/
def State.trigSampleOf (s : State) (c time : Nat) : Nat := (time - 65536 * s.aqStart c) / (65536 * s.aqSI c)

/-- The stored samples of a frame that begins are fed to it, oldest first. -/
def State.feedFrame (s : State) (c : Nat) (l : List (Int × Bool)) : State :=
  l.foldl (fun s x => s.frameSample c x.1 x.2 false) s

/-- A frame begins with the firings of its trigger sample, in time order (R295, R297, R299). -/
def State.frameBegin (s : State) (c : Nat) (fs : List Firing) : State :=
  let u := s.aq c
  let ta := fs.find? fun f => f.trig == 0
  let tb := fs.find? fun f => f.trig == 1
  let time := match ta, tb with | some f, _ => f.time | none, some f => f.time | _, _ => 0
  let j := s.trigSampleOf c time
  let j0 := j - s.aqPre c
  let hold := s.rdF (Reg.ACQ_HOLD c) 30 0
  let ev := bit (s.rd (Reg.ACQ_HOLD c)) 31
  let f : FrameSt :=
    { idx := u.begun, j0 := j0, ttime := time, cause := b2n ta.isSome + 2 * b2n tb.isSome + 4 * b2n ta.isNone,
      tsub := 256 * (time - 65536 * s.aqT c j) / (65536 * s.aqSI c), tign := u.tign,
      preOvl := match u.prevEnd with | some e => decide (j0 ≤ e) | none => false }
  let s := s.setAq c { u with frame := some f, begun := u.begun + 1, tign := 0, rearm := none,
                              holdLeft := if ev then hold else 0, holdEnd := if ev then 0 else time + 65536 * hold }
  (s.setAqState c 4).feedFrame c (u.hist.take (u.nextJ - j0)).reverse

/-- The firings of one trigger sample are resolved in time order (R294–R297): one that ends or counts for an event
hold-off, or found no capture path, is ignored; where any other of the rest is accepted the sample is, and a frame
begins with all of them (R295). -/
def State.resolve (s : State) (c : Nat) : List Firing → State
  | [] => s
  | f :: r =>
    let good := (f :: r).filter fun x => !x.noPath
    if !f.noPath && (s.aq c).holdLeft == 0 && good.any fun x => s.accepts c x.time then
      (r.filter fun x => x.noPath).foldl (fun s x => s.ignoreFiring c x.time) (s.frameBegin c good)
    else (s.ignoreFiring c f.time).resolve c r

/-- Insert a firing in time order, TA before TB at one time. -/
def insFiring (x : Firing) : List Firing → List Firing
  | [] => [x]
  | y :: ys => if x.time < y.time ∨ (x.time = y.time ∧ x.trig < y.trig) then x :: y :: ys else y :: insFiring x ys

/-- A trigger fires at a time: its decision is held (R294). -/
def State.fire (s : State) (c x time : Nat) (noPath : Bool := false) : State :=
  let u := s.aq c
  s.setAq c { u with firings := insFiring ⟨x, time, noPath⟩ u.firings }

/-- The first trigger sample with firings that is not decided. -/
def State.dueSample (s : State) (c : Nat) : Option Nat :=
  match (s.aq c).firings with
  | [] => none
  | f :: _ => some (s.trigSampleOf c f.time)

/-- The firings of the earliest trigger sample are decided. -/
def State.decideFirst (s : State) (c : Nat) : State :=
  match s.dueSample c with
  | none => s
  | some j =>
    let u := s.aq c
    let here := u.firings.filter fun f => s.trigSampleOf c f.time == j
    (s.setAq c { u with firings := u.firings.filter fun f => s.trigSampleOf c f.time != j }).resolve c here

/-- The trigger level of trigger `x`, and its hysteresis (R292). -/
def State.lvl (s : State) (c x : Nat) : Int × Int :=
  let l := s.rd (if x = 0 then Reg.ACQ_TA_LVL c else Reg.ACQ_TB_LVL c)
  let h := s.rdF (if x = 0 then Reg.ACQ_TA_HYS c else Reg.ACQ_TB_HYS c) 30 0
  (sext 32 l.toNat, h)

/-- The time of a LEVEL firing between `y` at sample `j` and `z` at the next one (R293). -/
def State.crossTime (s : State) (c j : Nat) (lvl y z : Int) : Nat :=
  let q := max 1 (256 * (lvl - y).natAbs / (z - y).natAbs)
  65536 * s.aqT c j + 256 * (q * s.aqSI c)

/-- The detectors of LEVEL trigger `x` meet the value `v` of the next sample; `y` is the one before. -/
def State.detectLevel (s : State) (c x : Nat) (y v : Int) : State :=
  let u := s.aq c
  let (l, h) := s.lvl c x
  let slope := s.rdF (trigReg c x) 27 26
  let r := kget (fun _ => false) u.armR x
  let f := kget (fun _ => false) u.armF x
  let fireR := slope != 1 && r && decide (l ≤ v)
  let fireF := slope != 0 && f && decide (v ≤ l)
  let s := s.setAq c { u with armR := kset (fun _ => false) u.armR x (!fireR && (r || decide (v < l - h))),
                              armF := kset (fun _ => false) u.armF x (!fireF && (f || decide (l + h < v))) }
  if fireR || fireF then s.fire c x (s.crossTime c (u.nextJ - 1) l y v) else s

/-! ### Samples (R279, R280) -/

/-- The stored value of a sum of conversions (R280). -/
def sampleOf (sum : Int) (a : Nat) : Int := (32768 * sum + a) / (2 * a)

/-- A stored sample joins the record set: history, detectors, frame. -/
def State.sample (s : State) (c : Nat) (v : Int) (clip lost : Bool) : State :=
  let u := s.aq c
  let y := match u.hist with | (y, _) :: _ => y | [] => v
  let s := if s.aqPre c = 0 then s else s.sramWr (s.aqUnitAt c 0 + u.nextJ % 4096 * 4) (leBytes 4 (ofInt 32 v))
  let s := if s.trigOn c 0 0 then s.detectLevel c 0 y v else s
  let s := if s.trigOn c 1 0 then s.detectLevel c 1 y v else s
  let s := s.frameSample c v clip (lost && s.aqCtl c 11 11 == 1)
  let u := s.aq c
  s.setAq c { u with nextJ := u.nextJ + 1, hist := (v, clip) :: u.hist.take (s.aqPre c + 16) }

/-- Conversion begins at the start tick (R289). -/
def State.acqBegin (s : State) (c : Nat) : State :=
  let u := s.aq c
  let t := s.aqT c (s.aqPre c)
  let s := s.setAq c { u with rearm := some (65536 * t), waitFrom := t }
  s.setAqState c (if s.aqPre c = 0 then 3 else 2)

/-- The start tick has come. -/
def State.acqStartDue (s : State) (c : Nat) : Bool :=
  s.aqState c == 1 && (match (s.aq c).start with | some t => decide (t ≤ s.mt) | none => false)

/-- A record set has begun by tick `t`. -/
def State.begunBy (s : State) (c t : Nat) : Bool :=
  decide (2 ≤ s.aqState c) || (match (s.aq c).start with | some x => decide (x ≤ t) | none => false)

/-- The enabled triggers among TA and TB that `p` picks fire at tick `t`: their decision is held where the unit has
begun by then, and they are ignored while it is ARMED (R296). -/
def State.fireAll (s : State) (c t : Nat) (p : Nat → Bool) : State :=
  let begun := s.begunBy c t
  if s.aqState c = 0 then s
  else forEach [0, 1] (fun x s =>
    if p x then (if begun then s.fire c x (65536 * t) else s.ignoreFiring c (65536 * t)) else s) s

/-- An event line of a kind (0 sync event, 1 XT line) reaches the unit of channel `c` at tick `t`
(R289, R291). -/
def State.acqEvent (s : State) (c kind line t : Nat) : State :=
  let first := s.aqState c == 1 && kind == 0 && s.aqCtl c 27 26 == 2 && s.aqCtl c 31 28 == line && (s.aq c).start.isNone
  let s := if first then s.setAq c { s.aq c with start := some t } else s
  let s := if s.acqStartDue c then s.acqBegin c else s
  s.fireAll c t fun x => s.trigOn c x 2 && s.rdF (trigReg c x) 24 24 == kind && s.rdF (trigReg c x) 23 20 == line

/-! ### ARM (R283–R289, R299, R300) -/

/-- The capture units the acquisition needs do not fit, or the TDC uses some of them (R283). -/
def State.areaBad (s : State) (c : Nat) : Bool :=
  let aofs := s.rdF (Reg.ACQ_AREA c) 15 0
  let fixed := s.histUnits c + s.maskUnits c
  let store := if s.aqCtl c 11 11 = 0 then
      (s.rdF (Reg.ACQ_NFRAME c) 16 0 * fstride (s.aqLen c) + 4095) / 4096
    else 4
  decide ((s.acqrOf c).capSize < aofs + fixed + store) || (s.tmState c != 0 && decide (aofs < s.tmUnits c))

/-- A trigger's configuration is refused (R306). -/
def State.trigBad (s : State) (c x : Nat) : Bool :=
  let a := trigReg c x
  decide (3 < s.rdF a 30 28) || s.rdF a 27 26 == 3 ||
    (s.rdF a 30 28 == 2 && s.rdF a 24 24 == 1 && decide (7 < s.rdF a 23 20))

/-- A source or conversion period that is refused with BAD_CFG (R277, R306). -/
def State.convBad (s : State) (c : Nat) : Bool := s.aqCtl c 1 0 == 3 || decide (s.aqTC c < 1000)

/-- BAD_CFG at an ARM. -/
def State.acqBadCfg (s : State) (c : Nat) : Bool :=
  let n := s.rdF (Reg.ACQ_NFRAME c) 16 0
  s.convBad c || s.aqCtl c 27 26 == 3 || s.aqCtl c 25 24 == 3 || decide (s.aqLen c < 16) ||
    decide (1048576 < s.aqLen c) || decide (s.aqLen c ≤ s.aqPre c) || n == 0 || decide (65536 < n) ||
    s.trigBad c 0 || s.trigBad c 1 || (s.aqCtl c 27 26 == 1 && s.rdF (Reg.ACQ_START c 0) 15 0 != 0)

/-- The tick of ACQ_START. -/
def State.startTick (s : State) (c : Nat) : Nat := s.rdWide (Reg.ACQ_START c 0) 3 / 65536 % 2 ^ 64

/-- DRAM address of the mask table. -/
def State.mskBase (s : State) (c : Nat) : Nat := s.rdWide (Reg.ACQ_MSK_BASE_LO c) 2

/-- The mask table that an ARM reads, where its length and place allow a read (R300). -/
def State.maskRead (s : State) (c : Nat) : State × List Byte :=
  let n := s.mskLen c
  if s.aqCtl c 13 13 = 1 ∧ 1 ≤ n ∧ n ≤ 65536 ∧ segTop ≤ s.mskBase c then
    s.dramGet { cls := 1, id := c } (s.mskBase c) (16 * n)
  else (s, [])

/-- Entry `i` of a mask table: UPPER, LOWER, RUN, and whether it is good (R300). -/
def mskEntry (table : List Byte) (i : Nat) : (Int × Int × Nat) × Bool :=
  let u := sext 32 (getLE table (16 * i) 4)
  let l := sext 32 (getLE table (16 * i + 4) 4)
  let r := getLE table (16 * i + 8) 4
  ((u, l, r), decide (l ≤ u) && decide (1 ≤ r) && decide (r ≤ 1048576) && getLE table (16 * i + 12) 4 == 0)

/-- BAD_MASK (R300). -/
def State.maskBad (s : State) (c : Nat) : Bool :=
  let n := s.mskLen c
  s.aqCtl c 13 13 == 1 && (n == 0 || decide (65536 < n) || decide (s.mskBase c < segTop) ||
    !((List.range n).all fun i => (mskEntry (s.maskRead c).2 i).2))

/-- BAD_DRAM (R285). -/
def State.acqDramBad (s : State) (c : Nat) : Bool :=
  s.aqCtl c 11 11 == 1 && (decide (s.rdWide (Reg.ACQ_DR_BASE_LO c) 2 < segTop) ||
    decide (4096 * (s.rd (Reg.ACQ_DR_SIZE c)).toNat < s.rdF (Reg.ACQ_NFRAME c) 16 0 * fstride (s.aqLen c)))

/-- The error with which an ARM is refused, 0 for none: the lowest code that applies (log entry 33). -/
def State.acqError (s : State) (c : Nat) : Nat :=
  let a := s.acqrOf c
  if a.capSize = 0 ∨ (s.aqCtl c 12 12 = 1 ∧ a.frameFlow = none) then 1
  else if s.areaBad c then 2
  else if s.acqBadCfg c then 3
  else if s.aqCtl c 27 26 = 1 ∧ s.startTick c < s.mt then 4
  else if s.maskBad c then 5
  else if s.acqDramBad c then 6
  else 0

/-- An ARM is accepted (R289, R300, R306). A MONITOR that runs ends there without a STOP (log entry 104). -/
def State.armAcq (s : State) (c : Nat) : State :=
  let table := ((s.frameCut c).maskRead c).2
  let s := ((s.frameCut c).maskRead c).1
  let masked := s.aqCtl c 13 13 == 1
  let st := match s.aqCtl c 27 26 with
    | 0 => some (s.mt + 1)
    | 1 => some (s.startTick c)
    | _ => none
  let u : AcqUnit :=
    { start := st, masks := if masked then (List.range (s.mskLen c)).map fun i => (mskEntry table i).1 else [] }
  let s := if masked then s.sramWr (s.aqUnitAt c (s.histUnits c)) table else s
  let s := (s.setAq c u).wrWide (Reg.ACQ_FDONE c) 4 0
  let a := Reg.ACQ_STAT c
  ((((s.wrF a 31 16 0).wrF a 11 11 0).wrF a 7 7 0).setAqState c 1).calDigHook c

/-- ARM and MONITOR are discarded with a NOTE fault while a record set runs or the PLL is down (R304, R499). -/
def State.acqCannot (s : State) (c : Nat) : Bool := s.aqState c != 0 || s.pllOff

/-- An ARM or MONITOR is refused with an error code (R306). -/
def State.acqRefuse (s : State) (c e : Nat) : State := (s.wrN (Reg.ACQ_ERR c) e).irq (Reg.ACQ_ISTAT c) 16

/-- ACQ_ARM: refused while a MOD-class fault is held too (R484). -/
def doAcqArm (dom c : Nat) (s : State) : State :=
  s.hostWrite dom (Reg.ACQ_CMD c) fun s =>
    if s.acqCannot c || s.modHeld then s.noteReg dom (Reg.ACQ_CMD c)
    else
      match s.acqError c with
      | 0 => s.armAcq c
      | e => (if 5 ≤ e then (s.maskRead c).1 else s).acqRefuse c e
/-- Meaning of ACQ_ARM. -/
def execAcqArm (dom : Fin 16) (ch : Fin 128) (s : State) : Host.Outcome State Fault Refusal :=
  .next (doAcqArm dom.val ch.val s)

/-- ACQ_MONITOR: conversions into ACQ_LAST from the next tick (R290). -/
def doAcqMonitor (dom c : Nat) (s : State) : State :=
  s.hostWrite dom (Reg.ACQ_CMD c) fun s =>
    if s.acqCannot c then s.noteReg dom (Reg.ACQ_CMD c)
    else if s.convBad c then s.acqRefuse c 3
    else ((s.setAq c { start := some (s.mt + 1) }).wrF (Reg.ACQ_STAT c) 11 11 1).calDigHook c
/-- Meaning of ACQ_MONITOR. -/
def execAcqMonitor (dom : Fin 16) (ch : Fin 128) (s : State) : Host.Outcome State Fault Refusal :=
  .next (doAcqMonitor dom.val ch.val s)

/-- ACQ_STOP (R290, R303). -/
def doAcqStop (dom c : Nat) (s : State) : State :=
  s.hostWrite dom (Reg.ACQ_CMD c) fun s => s.acqEnd c 2
/-- Meaning of ACQ_STOP. -/
def execAcqStop (dom : Fin 16) (ch : Fin 128) (s : State) : Host.Outcome State Fault Refusal :=
  .next (doAcqStop dom.val ch.val s)

/-- ACQ_SOFT: the enabled triggers with SRC 3 fire at the tick it reaches the unit (R291). -/
def doAcqSoft (dom c : Nat) (s : State) : State :=
  s.hostWrite dom (Reg.ACQ_CMD c) fun s =>
    let s := if s.acqStartDue c then s.acqBegin c else s
    s.fireAll c s.mt fun x => s.trigOn c x 3
/-- Meaning of ACQ_SOFT. -/
def execAcqSoft (dom : Fin 16) (ch : Fin 128) (s : State) : Host.Outcome State Fault Refusal :=
  .next (doAcqSoft dom.val ch.val s)

/-- ACQ_CMD_INVALID: an OP other than 1–4 is discarded with a NOTE fault (R306). -/
def doAcqCmdInvalid (dom c : Nat) (v : Word) (s : State) : State :=
  s.hostWrite dom (Reg.ACQ_CMD c) fun s =>
    if 1 ≤ fld v 2 0 ∧ fld v 2 0 ≤ 4 then s else s.noteReg dom (Reg.ACQ_CMD c)
/-- Meaning of ACQ_CMD_INVALID. -/
def execAcqCmdInvalid (dom : Fin 16) (ch : Fin 128) (v : Word) (s : State) : Host.Outcome State Fault Refusal :=
  .next (doAcqCmdInvalid dom.val ch.val v s)

/-- ACQ_CONFIG_WRITE: a write to the configuration register at offset 0x0100 + 4·`r`; while the state is
not IDLE it is discarded (R304). -/
def doAcqConfigWrite (dom c r : Nat) (v : Word) (s : State) : State :=
  let a := Reg.ACQ_CTL c + 4 * r
  s.hostWrite dom a fun s =>
    if s.aqState c = 0 then s.wrRow a v else (s.wrF (Reg.ACQ_STAT c) 7 7 1).noteReg dom a
/-- Meaning of ACQ_CONFIG_WRITE. -/
def execAcqConfigWrite (dom : Fin 16) (ch : Fin 128) (r : Fin 24) (v : Word) (s : State) :
    Host.Outcome State Fault Refusal := .next (doAcqConfigWrite dom.val ch.val r.val v s)

/-! ### Events -/

/-- ACQ_START_TICK. -/
def doAcqStartTick (c : Nat) (s : State) : State := s.whenDue (s.acqStartDue c) fun s => s.acqBegin c
/-- Meaning of ACQ_START_TICK. -/
def execAcqStartTick (ch : Fin 128) (s : State) : Host.Outcome State Fault Refusal :=
  .next (doAcqStartTick ch.val s)

/-- The unit converts: a record set past its start, or a MONITOR. -/
def State.converts (s : State) (c : Nat) : Bool := decide (2 ≤ s.aqState c) || (s.aqState c == 0 && s.aqMon c)

/-- Offset, in a channel record, of the gain and offset of the digitiser's range in use (R277, R344): the current range
in FV mode with SRC 0, the voltage range otherwise. -/
def State.digGainAt (s : State) (c : Nat) : Nat :=
  0x1EC + 8 * (if s.aqCtl c 1 0 = 0 ∧ s.pmuMode c = 1 then min 4 (s.pmuRange c) else 5)

/-- A code after the calibration gain and offset of channel and range (R278, R344): the product rounded to a
neighbouring code, for which the manual gives no rule, and the result limited to the codes there are, so that a sample is
a signed 32-bit word and never 0x8000_0000 (R280; log entry 99). -/
def State.digCorrect (s : State) (c : Nat) (code : Int) : Int :=
  let a := calRec c + s.digGainAt c
  let x := code * (s.sramN a 4 : Int)
  max (-131071) (min 131071
    (x / 2 ^ 24 + (if x % 2 ^ 24 = 0 then 0 else (s.freeNow % 2 : Nat)) + sext 32 (s.sramN (a + 4) 4)))

/-- A conversion code after the limits of R278, and whether it carries CLIP. -/
def clipCode (code : Int) (clip : Bool) : Int × Bool := if code < -131071 then (-131071, true) else (code, clip)

/-- ACQ_CONVERSION: the conversion whose launch tick has come gives a code, which the module limits and then corrects
(R278). -/
def doAcqConversion (c : Nat) (code : BitVec 18) (clip : Bool) (s : State) : State :=
  let u := s.aq c
  s.whenDue (s.converts c && decide (s.aqStart c + u.conv * s.aqTC c ≤ s.mt) && decide (u.nC < s.aqA c)) fun s =>
    let x := clipCode code.toInt clip
    (s.setAq c { u with conv := u.conv + 1, sumC := u.sumC + s.digCorrect c x.1, nC := u.nC + 1,
                        clipC := u.clipC || x.2 }).drawn
/-- Meaning of ACQ_CONVERSION. -/
def execAcqConversion (ch : Fin 128) (code : BitVec 18) (clip : Bool) (s : State) :
    Host.Outcome State Fault Refusal := .next (doAcqConversion ch.val code clip s)

/-- Decisions that R294 lets wait no longer are made before another sample is stored. -/
def State.lateDecisions (s : State) (c : Nat) : Nat → State
  | 0 => s
  | fuel + 1 =>
    match s.dueSample c with
    | some j => if j + 8 ≤ (s.aq c).nextJ then (s.decideFirst c).lateDecisions c fuel else s
    | none => s

/-- ACQ_SAMPLE_STORED: a sample is formed of its A conversions (R280); `lost` tells that it finds the
staging buffer full (R302). -/
def doAcqSampleStored (c : Nat) (lost : Bool) (s : State) : State :=
  s.whenDue (s.converts c && decide (s.aqA c ≤ (s.aq c).nC)) fun s =>
    let u := s.aq c
    let v := sampleOf u.sumC u.nC
    let s := s.setAq c { u with sumC := 0, nC := 0, clipC := false }
    let s := s.wrN (Reg.ACQ_LAST c) (ofInt 32 v)
    if s.aqState c = 0 then s else (s.lateDecisions c (u.firings.length + 1)).sample c v u.clipC lost
/-- Meaning of ACQ_SAMPLE_STORED. -/
def execAcqSampleStored (ch : Fin 128) (lost : Bool) (s : State) : Host.Outcome State Fault Refusal :=
  .next (doAcqSampleStored ch.val lost s)

/-- ACQ_PREFILL_END: t_PRE has come and PRE samples are stored. -/
def doAcqPrefillEnd (c : Nat) (s : State) : State :=
  s.whenDue (s.aqState c == 2 && decide (s.aqPre c ≤ (s.aq c).nextJ) && decide (s.aqT c (s.aqPre c) ≤ s.mt))
    fun s => s.setAqState c 3
/-- Meaning of ACQ_PREFILL_END. -/
def execAcqPrefillEnd (ch : Fin 128) (s : State) : Host.Outcome State Fault Refusal :=
  .next (doAcqPrefillEnd ch.val s)

/-- ACQ_ANALOG_HIT: the analog comparator of trigger `x` fires; the TDC samples the edge on tick edge `e`
with a code; one that finds no free path is ignored at its place in time order (R291, R297, R298). -/
def doAcqAnalogHit (c x e code : Nat) (s : State) : State :=
  s.whenDue (decide (2 ≤ s.aqState c) && s.trigOn c x 1 && decide (e ≤ s.mt) && decide (16 ≤ code)) fun s =>
    let u := s.tm c
    let gd := (s.rd (Reg.ACQ_GDLY c)).toNat
    match u.freePath e code with
    | some p => (s.setTm c (u.take p e)).fire c x (s.stampOf c p e code - gd)
    | none => s.fire c x (s.stampOf c u.path e code - gd) true
/-- Meaning of ACQ_ANALOG_HIT. -/
def execAcqAnalogHit (ch : Fin 128) (trig : Fin 2) (edge : Nat) (code : Fin 144) (s : State) :
    Host.Outcome State Fault Refusal := .next (doAcqAnalogHit ch.val trig.val edge code.val s)

/-- Every source could have reported sample `j` (R294): the next sample is stored, for LEVEL, and with an ANALOG trigger
the edges of crossings in it have been sampled, after the analog delay and the corrections of R250. -/
def State.allReported (s : State) (c j : Nat) : Bool :=
  decide (j + 2 ≤ (s.aq c).nextJ) &&
    (!s.analogOn c || s.stampsPast c (65536 * s.aqT c (j + 1) + (s.rd (Reg.ACQ_GDLY c)).toNat))

/-- ACQ_TRIGGER_DECISION: the firings of the earliest trigger sample are decided (R293, R294). -/
def doAcqTriggerDecision (c : Nat) (s : State) : State :=
  let due := match s.dueSample c with
    | some j => s.allReported c j
    | none => false
  s.whenDue (decide (2 ≤ s.aqState c) && due) fun s => s.decideFirst c
/-- Meaning of ACQ_TRIGGER_DECISION. -/
def execAcqTriggerDecision (ch : Fin 128) (s : State) : Host.Outcome State Fault Refusal :=
  .next (doAcqTriggerDecision ch.val s)

/-- ACQ_FRAME_COMPLETE: the oldest stored frame is complete; the set ends with its last frame, or with the
one that a violation ended it on (R286, R301, R303). -/
def doAcqFrameComplete (c : Nat) (s : State) : State :=
  match (s.aq c).complete with
  | [] => s
  | f :: r =>
    s.whenDue true fun s =>
      let s := (s.setAq c { s.aq c with complete := r }).frameDone c f
      if f.stopv && (s.aq c).ending.isSome then s.setEnd c 3
      else if f.idx + 1 = s.rdF (Reg.ACQ_NFRAME c) 16 0 then s.setEnd c 1
      else s
/-- Meaning of ACQ_FRAME_COMPLETE. -/
def execAcqFrameComplete (ch : Fin 128) (s : State) : Host.Outcome State Fault Refusal :=
  .next (doAcqFrameComplete ch.val s)

/-- The re-arm instant of R296 in 2^-16 tick, once known. -/
def State.rearmAt (s : State) (c : Nat) : Option Nat :=
  let u := s.aq c
  if u.holdLeft = 0 then u.rearm.map fun r => max r u.holdEnd else none

/-- ACQ_REARM: the re-arm instant is reached. -/
def doAcqRearm (c : Nat) (s : State) : State :=
  match s.rearmAt c with
  | none => s
  | some t =>
    s.whenDue (s.aqState c == 5 && decide (t ≤ 65536 * s.mt)) fun s =>
      (s.setAq c { s.aq c with waitFrom := (t + 65535) / 65536 }).setAqState c 3
/-- Meaning of ACQ_REARM. -/
def execAcqRearm (ch : Fin 128) (s : State) : Host.Outcome State Fault Refusal := .next (doAcqRearm ch.val s)

/-- ACQ_TIMEOUT: WAITING for ACQ_TMO µs without a firing that waits for its decision (R303). -/
def doAcqTimeout (c : Nat) (s : State) : State :=
  let tmo := (s.rd (Reg.ACQ_TMO c)).toNat
  s.whenDue (s.aqState c == 3 && tmo != 0 && decide ((s.aq c).waitFrom + 4000 * tmo ≤ s.mt) &&
    (s.aq c).firings.isEmpty) fun s => s.acqEnd c 4
/-- Meaning of ACQ_TIMEOUT. -/
def execAcqTimeout (ch : Fin 128) (s : State) : Host.Outcome State Fault Refusal := .next (doAcqTimeout ch.val s)

end Sys2Proof.Machine
end

