-- ==== Sys2Proof/Machine/PinLevels.lean ====
section
/-! DEFINITION. Pin levels at an apply point (R307–R317): the rules a setting must meet, the driver and PMU
as they act at the land, trips, and what a START does to a channel's pin; and the epoch markers that a
close places in flows (R361). -/

namespace Sys2Proof.Machine

open Sys2Proof

/-! ### The driver at the land (R149, R181, R313–R315) -/

/-- The channel has tripped. -/
def State.tripped (s : State) (c : Nat) : Bool := bit (s.rd (Reg.PEL_STAT c)) 31

/-- A PMU mode that owns the land (R315). -/
def ownsLand (mode : Nat) : Bool := mode == 1 || mode == 2

/-- The rails of the channel's tile are down by command (R499). -/
def State.railsDown (s : State) (c : Nat) : Bool := decide (3 ≤ s.unit 6 (c / 32))

/-- The applied setting of channel `c` as its driver, load and clamps act by it (R310, R312, R314). -/
def State.pinOf (s : State) (c : Nat) : PinSet :=
  let code := fun (a : Nat) => fld (s.apv a) 15 0
  let ctl := s.apv (Reg.PEL_DRV_CTL c)
  { low := code (Reg.PEL_VIL c), high := code (Reg.PEL_VIH c), term := code (Reg.PEL_VT c),
    load := if bit ctl 30 then some (code (Reg.PEL_IOL c), code (Reg.PEL_IOH c), code (Reg.PEL_VCOM c)) else none,
    clamp := if bit ctl 29 then some (code (Reg.PEL_VCL c), code (Reg.PEL_VCH c)) else none,
    follows := !ownsLand (s.pmuMode c) }

/-- The setting that channel `c`'s land shows: the applied one, but an older one until the boundary from which a newer
one acts (R18). -/
def State.pinNow (s : State) (c : Nat) : PinSet := (s.ch c).pin.getD (s.pinOf c)

/-- Nothing keeps channel `c`'s driver off the land: no trip, a channel in a site (R23), rails that are up, no GRAVE
fault held (R485), and no reflection measurement, which drives the land itself (R321). -/
def State.driverFree (s : State) (c : Nat) : Bool :=
  !s.tripped c && (s.siteOfCh c).isSome && !s.railsDown c && !s.graveHeld && !(s.ch c).refl

/-- Drive events act at the land: nothing keeps the driver off, and the PMU mode follows the pattern (R315). -/
def State.driverOn (s : State) (c : Nat) : Bool := s.driverFree c && (s.pinNow c).follows

/-- The present Module Time in 1/1024 tick. -/
def State.now1024 (s : State) : Nat := 1024 * s.mt

/-- What the land shows under a drive type and a setting (R310, R312): DZ connects the active load with LOAD_EN, any
other drive state disconnects it, and the clamps act in each. -/
def PinSet.land (p : PinSet) (typ : Nat) : LandSt :=
  { typ := typ, level := if typ = 1 then p.low else if typ = 2 then p.high else if typ = 4 then p.term else 0,
    load := if typ = 3 then p.load else none, clamp := p.clamp }

/-- What the land shows with driver and load off it (R23, R312–R315): the clamps still act. -/
def PinSet.off (p : PinSet) : LandSt := { clamp := p.clamp }

/-- A placed drive event of channel `c` reaches the land under its vector's setting, where the driver acts (R149,
R310). -/
def State.landDrive (s : State) (c : Nat) (e : DrvEv) : State :=
  let st := e.pin.land e.typ
  if s.driverOn c && e.pin.follows then
    (s.setCh c { s.ch c with load := st.load.isSome }).send (.drive c e.launch st)
  else s

/-- Driver and load of channel `c` take a drive state from a time in 1/1024 tick on, where the driver acts: after a
disconnection, or under a new setting. -/
def State.landSet (s : State) (c t typ : Nat) : State :=
  let st := (s.pinNow c).land typ
  if s.driverOn c then (s.setCh c { s.ch c with load := st.load.isSome }).send (.land c t st) else s

/-- The driver of channel `c` goes to high impedance and its load disconnects (R23, R313, R314). -/
def State.landOff (s : State) (c t : Nat) : State :=
  if s.driverOn c then (s.setCh c { s.ch c with load := false }).send (.land c t (s.pinNow c).off) else s

/-- The time of a launch at the land, in 1/1024 tick. -/
def Launch.time (l : Launch) : Nat := 1024 * l.coarse + 8 * l.tap + l.vern

/-- The setting of channel `c` becomes `p` from a time in 1/1024 tick on: the driver keeps its drive state under the new
levels, leaves the land, or joins it again (R315, R318); the clamps act either way (R312). -/
def State.pinTakes (s : State) (c t : Nat) (p : PinSet) : State :=
  let u := s.ch c
  let st := if s.driverFree c && p.follows then p.land u.drv else p.off
  if u.refl then s.setCh c { u with pin := some p }
  else (s.setCh c { u with pin := some p, load := st.load.isSome }).send (.land c t st)

/-- A queued event of channel `c` comes about (R149, R310). -/
def State.drvDo (s : State) (c : Nat) (e : DrvEv) : State :=
  if e.set then s.pinTakes c e.launch.time e.pin
  else (s.setCh c { s.ch c with drv := e.typ, lastRun := some e.time }).landDrive c e

/-- A queued event's launch tick has come. -/
def DrvEv.due (mt : Nat) (e : DrvEv) : Bool := decide (e.launch.coarse ≤ mt)

/-- The settings that the land of channel `c` shows are the applied ones again, once no newer one waits. -/
def State.pinSettled (s : State) (c : Nat) : State :=
  let u := s.ch c
  if u.drvQ.any (·.set) then s else s.setCh c { u with pin := none }

/-- The queued events of channel `c` whose launch tick Module Time has come to happen, in order (R149, R177). -/
def State.runDrives (s : State) (c : Nat) : State :=
  let u := s.ch c
  let now := u.drvQ.takeWhile (DrvEv.due s.mt)
  if now.isEmpty then s
  else (now.foldl (fun s e => s.drvDo c e) (s.setCh c { u with drvQ := u.drvQ.drop now.length })).pinSettled c

/-- The time in 1/1024 tick at which an apply point acts on channel `c`: the vector boundary that its sequencer
plays to, else now. -/
def State.applyAt (s : State) (c : Nat) : Nat :=
  match s.seqOfCh c with
  | some n => if s.seqPlays n then ((s.sq n).acc + 32) / 64 else s.now1024
  | none => s.now1024

/-! ### Trips (R313, R319) -/

/-- The sequencer that owns channel `c`, when it runs. -/
def State.runningOwner (s : State) (c : Nat) : Option Nat :=
  match s.seqOfCh c with
  | some n => if s.seqStopped n then none else some n
  | none => none

/-- Channel `c` trips: high impedance, TRIP, and a SITE-class fault for the sequencer that runs it or a
NOTE fault. -/
def State.pelTrip (s : State) (c : Nat) : State :=
  let s := s.landOff c s.now1024
  let s := (s.wrF (Reg.PEL_STAT c) 31 31 1).irq (Reg.PEL_ISTAT c) 8
  match s.runningOwner c with
  | some n => s.detect { src := 0x700 + c, cls := 2, seqNamed := some n }
  | none => s.note (0x700 + c)

/-! ### Settings (R308, R309) -/

/-- A signed 16-bit code. -/
def code16 (v : Word) : Int := sext 16 (fld v 15 0)

/-- The first rule of R309 that a setting breaks, 0 for none; `get` gives the setting's register values by
offset from PEL_DRV_CTL, `oldHs` the applied HS, `stopped` whether HS may change. -/
def pelBreach (get : Nat → Word) (oldHs stopped : Bool) : Nat :=
  let vih := code16 (get 4)
  let vil := code16 (get 8)
  let vt := code16 (get 0xC)
  let vcom := code16 (get 0x20)
  let vch := code16 (get 0x24)
  let vcl := code16 (get 0x28)
  let force := code16 (get 0x30)
  let clh := code16 (get 0x34)
  let cll := code16 (get 0x38)
  let hs := bit (get 0) 31
  let mode := fld (get 0x2C) 1 0
  let hsOk := fun (x : Int) => decide (-2000 ≤ x) && decide (x ≤ 8000)
  let inClamp := fun (x : Int) => decide (vcl ≤ x) && decide (x ≤ vch)
  if vih < vil then 2
  else if !(decide (vcl < vch) && decide (vcl ≤ vil) && inClamp vt && inClamp vcom && decide (vih ≤ vch)) then 3
  else if hs && !(decide (vih - vil ≤ 4800) && hsOk vil && hsOk vih && hsOk vt) then 4
  else if hs != oldHs && !stopped then 5
  else if mode = 1 ∧ !(inClamp force && decide (cll < 0) && decide (0 < clh)) then 6
  else if mode = 2 ∧ !(decide (cll < clh) && inClamp cll && inClamp clh) then 6
  else 0

/-- The per-channel PEL registers of access ST (R324). -/
def pelRegs (c : Nat) : List Nat := (List.range 15).map fun i => Reg.PEL_DRV_CTL c + 4 * i

/-- Forget the staged mark of a register. -/
def State.unstage (s : State) (a : Nat) : State := { s with staged := kset (fun _ => false) s.staged a false }

/-- The applied PMU mode and range become those of a setting (R315, R317): a digitiser that runs with SRC 0
ends its record set. A change of RANGE alone ends it in OFF and MV too, where the PMU does not use RANGE (log entry
101). -/
def State.pmuApply (s : State) (c mode range : Nat) : State :=
  let changed := s.pmuMode c ≠ mode ∨ s.pmuRange c ≠ range
  let s := if changed ∧ s.aqCtl c 1 0 = 0 ∧ s.aqState c ≠ 0 then s.acqEnd c 7 else s
  let a := Reg.PEL_STAT c
  let s := (s.wrF a 6 4 range).wrF a 1 0 mode
  if ownsLand mode then s else s.wrF a 30 30 0

/-- A new setting of channel `c` acts from its apply point on: at once where that is now, else queued as an event at
the vector boundary (R18, R318), which the land meets earlier by the channel's path, as the vector's drive events do
(R181; log entry 102). `old` is the setting before it. -/
def State.pinChange (s : State) (c : Nat) (old : PinSet) : State :=
  let t := s.applyAt c
  let u := s.ch c
  let x := t - s.pathOf c
  let e : DrvEv := { time := t, pin := s.pinOf c, set := true,
                     launch := { gen := c, coarse := x / 1024, tap := x % 1024 / 8, vern := x % 8 } }
  let q := u.drvQ.filter fun d => d.set || decide (d.time < t)
  let r := u.drvQ.filter fun d => !(d.set || decide (d.time < t))
  (s.setCh c { u with pin := some (u.pin.getD old), drvQ := q ++ e :: r }).runDrives c

/-- The setting of channel `c` takes effect, or is refused whole (R309). Of several rules that it breaks PEL_ERR
records the first of R309's table (log entry 101). -/
def State.pelApply (s : State) (c : Nat) : State :=
  let l := pelRegs c
  let old := s.pinOf c
  match pelBreach (fun o => s.rd (Reg.PEL_DRV_CTL c + o)) (bit (s.apv (Reg.PEL_DRV_CTL c)) 31) (s.chStopped c) with
  | 0 =>
    let s := forEach l (fun a s => (s.setApv a (s.rd a)).unstage a) s
    let s := s.wrF (Reg.PEL_STAT c) 29 29 (s.rdF (Reg.PEL_DRV_CTL c) 31 31)
    let s := s.pmuApply c (s.rdF (Reg.PEL_PMU_CTL c) 1 0) (s.rdF (Reg.PEL_PMU_CTL c) 6 4)
    s.pinChange c old
  | e =>
    let s := forEach l (fun a s => (s.wr a (s.apv a)).unstage a) s
    ((s.wrN (Reg.PEL_ERR c) (2 ^ 31 + 2 ^ 16 + e)).irq (Reg.PEL_ISTAT c) 1).note (0x700 + c) e

/-- What a START does to an owned channel's pin: the channel wakes (R497), a calibration slot is preempted
(R336), and PEL_CLAMP_CNT clears (R316). -/
def State.pinStart (s : State) (c : Nat) : State :=
  ((s.wakeNow 1 c 1).calStartHook c).wrN (Reg.PEL_CLAMP_CNT c) 0

/-! ### Epoch markers (R361) -/

/-- The channels whose stamp records go to flow `f`. -/
def State.stampChans (s : State) (f : Nat) : List Nat :=
  (List.range 128).filter fun c => (s.acqrOf c).stampFlow == some f

/-- The close of epoch `num` of SQn: each input flow of its graphs gets a marker, after the items that came
before; a fail-log flow gets it when every earlier record has entered. -/
def State.putMarkers (s : State) (n num : Nat) : State :=
  let s := forEach (s.inputFlows n false)
    (fun f s => (forEach (s.stampChans f) (fun c s => s.stampFlush c) s).putMarker f num) s
  if (s.inputFlows n true).isEmpty then s
  else
    let u := s.sq n
    s.setSq n { u with marks := u.marks ++ [(num, u.vcnt)] }

end Sys2Proof.Machine
end

