-- ==== Sys2Proof/Machine/Sync.lean ====
section
/-! DEFINITION. Sync events and external triggers (R95, R476–R479): their delivery inside the module, the
messages that carry them to peers, and pulses on XT lines. -/

namespace Sys2Proof.Machine

open Sys2Proof

/-- Block number of MTB. -/
def blkMTB : Nat := 0xF00

/-! ### Delivery -/

/-- A sync event (kind 0) or an XT line (kind 1) reaches every sequencer, TMU and acquisition at tick `t`
(R90, R253, R289, R291). -/
def State.syncEvent (s : State) (kind line t : Nat) : State :=
  let s := forEach (List.range 16) (fun n s => s.pendTrig n (2 ^ (if kind = 0 then 8 + line else line))) s
  forEach (List.range 128) (fun c s => (if kind = 0 then s.tmuSync c line t else s).acqEvent c kind line t) s

/-- A delivery that the manual places within 32 ns (128 ticks) after tick `t` (R95, R478). -/
def State.syncSoon (s : State) (kind line t : Nat) : State := (s.syncEvent kind line (t + s.freeNow % 129)).drawn

/-! ### Time lanes -/

/-- MTB_CTL.ROLE (R462). -/
def State.role (s : State) : Nat := s.rdF Reg.MTB_CTL 31 30

/-- Time lane `l` is used: its role and enable, its alignment, and a round trip within bounds (R462, R463). -/
def State.laneUp (s : State) (l : Nat) : Bool :=
  s.role != 0 && s.rdF Reg.MTB_CTL (24 + l) (24 + l) == 1 && bit (s.rd (Reg.LNK_TL_STAT (4 + l))) 31 &&
    !(s.tl l).rttBad

/-- Ticks that a message of `n` data bytes takes on the lane: 10 bits a symbol at 6.25 GBd, with the special symbol, the
CRC (R458) and the idle pair that the model sends after every message (R457, log entry 111). -/
def msgTicks (n : Nat) : Nat := ((1 + n + 4 + 2) * 32 + 4) / 5

/-- A message's bytes: data and CRC-32C (R458). -/
def msgBytes (data : List Byte) : List Byte := data ++ leBytes 4 (crc32c data)

/-- The byte of the special symbol K28.`y`. -/
def symK (y : Nat) : Nat := 32 * y + 28

/-- A message leaves lane `l` at tick `t` with its CRC, and the idle pair after it, in the code groups of the lane's
running disparity (R457, R458). -/
def State.timeSend (s : State) (l t sym : Nat) (data : List Byte) : State :=
  let u := s.tl l
  let x := codeGroups u.disp ((true, symK sym) :: (msgBytes data).map fun b => (false, b.toNat))
  let y := codeGroups x.1 [(true, symK 5), (false, 80)]
  ((s.setTl l { u with busy := t + msgTicks data.length, disp := y.1 }).send (.timeMsg l t sym (msgBytes data) x.2)).send
    (.idlePair l y.2)

/-- A message that finds 16 waiting is lost (R477). -/
def State.syncLost (s : State) : State :=
  let s := s.count Reg.MTB_SYNC_LOST 1
  if s.mtb.lostNote then s
  else (({ s with mtb := { s.mtb with lostNote := true } }).irq Reg.MTB_ISTAT 16).note blkMTB

/-- A SYNC or TRIG message is queued on time lane `l`; a queue of 16 is full (R477). While GRAVE is held none is
sent (R485). -/
def State.laneSend (s : State) (l sym : Nat) (data : List Byte) : State :=
  let u := s.tl l
  let waiting := u.begins.filter fun t => decide (s.mt < t)
  if s.graveHeld then s
  else if 16 ≤ waiting.length then s.syncLost
  else
    let b := max s.mt u.busy
    (s.setTl l { u with begins := waiting ++ [b] }).timeSend l b sym data

/-- Symbols of R458. -/
def symTIME : Nat := 0
def symSYNC : Nat := 2
def symECHO : Nat := 3
def symMIRROR : Nat := 4
def symTRIG : Nat := 6

/-- The bytes of a SYNC or TRIG message (R476). -/
def syncData (line te : Nat) : List Byte := leBytes 4 (te % 2 ^ 24 * 256 + line)

/-- A SYNC (kind 0) or TRIG (kind 1) message goes out on the lanes of a list. -/
def State.syncOut (s : State) (kind line te : Nat) (lanes : List Nat) : State :=
  forEach (lanes.filter fun l => s.laneUp l)
    (fun l s => s.laneSend l (if kind = 0 then symSYNC else symTRIG) (syncData line te)) s

/-- MTB_SYNC_LAT, which acts as at least 64 (R480). -/
def State.syncLat (s : State) : Nat := max 64 (s.rdF Reg.MTB_SYNC_LAT 20 0)

/-- Key of a kind and an event or line. -/
def syncKey (kind line : Nat) : Nat := kind * 16 + line

/-- Messages noted in the last 2^20 ticks (R477): key, Te and the tick of the note. -/
def recent (mt : Nat) (l : List (Nat × Nat × Nat)) : List (Nat × Nat × Nat) :=
  l.filter fun x => decide (mt ≤ x.2.2 + 2 ^ 20)

/-- A message is among those noted in the last 2^20 ticks. -/
def noted (mt kind line te : Nat) (l : List (Nat × Nat × Nat)) : Bool :=
  (recent mt l).any fun x => x.1 == syncKey kind line && x.2.1 == te

/-- The module's own message of a kind with Te: noted, and sent on every lane. -/
def State.ownMessage (s : State) (kind line te : Nat) : State :=
  let m := s.mtb
  { s with mtb := { m with own := recent s.mt m.own ++ [(syncKey kind line, te, s.mt)] } }.syncOut kind line te [0, 1]

/-- A delivery at Te is to come. -/
def State.deliverAt (s : State) (kind line te : Nat) : State :=
  { s with mtb := { s.mtb with deliver := s.mtb.deliver ++ [(kind, line, te)] } }

/-- SIG with PEER at a play point whose first tick at or after it is `t` (R476, R477). -/
def State.peerSync (s : State) (e t : Nat) : State :=
  let te := t + s.syncLat
  let s := s.ownMessage 0 e te
  if bit (s.rd Reg.MTB_CTL) 28 then s.deliverAt 0 e te else s

/-! ### XT outputs (R479) -/

/-- Pulse width of XT line `x`; 0 acts as 1. -/
def State.xtWidth (s : State) (x : Nat) : Nat := max 1 (s.rdF (Reg.MTB_XT_CFG x) 15 0)

/-- SIG of SQn with XT: the line goes high 64 ticks after tick `t`, until WIDTH ticks after that start. A start while the line
is high keeps it high; one after the end of the pulse before it makes a pulse of its own, and that end goes out first
(log entry 43). -/
def State.xtPulse (s : State) (n x t : Nat) : State :=
  if bit (s.rd (Reg.MTB_XT_CFG x)) 31 then
    let old := kget (fun _ => 0) s.mtb.xtEnd x
    let s := { s with mtb := { s.mtb with xtEnd := kset (fun _ => 0) s.mtb.xtEnd x (max old (t + 64 + s.xtWidth x)) } }
    if old = 0 then s.send (.xt x (t + 64) true)
    else if t + 64 ≤ old then s
    else (s.send (.xt x old false)).send (.xt x (t + 64) true)
  else s.detect { src := blkMTB, addr := Reg.MTB_XT_CFG x, rkind := 3, rid := n }

end Sys2Proof.Machine
end

