-- ==== Sys2Proof/Machine/Format.lean ====
section
/-! DEFINITION. The formatter (R144–R168) and event times (R176–R181): waveform entries in force, the
rules an entry must meet, the placement of one vector's events on one channel, and idle waveforms. -/

namespace Sys2Proof.Machine

open Sys2Proof

/-! ### Rules for an entry (R151, R164) -/

/-- A gap of at least 640/1024 tick between consecutive offsets. -/
def spaced : List Slot → Bool
  | x :: y :: r => decide (x.ofs + 640 ≤ y.ofs) && spaced (y :: r)
  | _ => true

/-- Compare-class events in offset order form windows and edge strobes only (R150). -/
def windowsOk : List Slot → Bool
  | [] => true
  | x :: r =>
    if x.typ = 8 then
      match r with
      | y :: z :: q => 5 ≤ y.typ && y.typ ≤ 7 && z.typ == 9 && windowsOk q
      | _ => false
    else if x.typ = 9 then false
    else windowsOk r

/-- A serial template meets R164. -/
def serialOk (l : List Slot) : Bool :=
  match l with
  | a :: b :: r =>
    (a.typ == 2 || a.typ == 0) && (b.typ == 6 || b.typ == 0) && r.all (fun x => x.typ == 0) &&
      !(a.typ == 0 && b.typ == 0) && l.all (fun x => x.resv == 0 && (x.typ != 0 || x.ofs == 0))
  | _ => false

/-- The first rule of R151 that an entry breaks, 0 if none; `serial` marks entry 0x0 of a serial set. -/
def entryError (e : List Byte) (serial : Bool) : Nat :=
  let l := slotsOf e
  let dr := sortSlots (l.filter fun x => isDrive x.typ)
  let cp := sortSlots (l.filter fun x => isCompare x.typ)
  if l.any fun x => decide (9 < x.typ) then 1
  else if l.any fun x => x.resv != 0 || (x.typ == 0 && x.ofs != 0) then 2
  else if decide (4 < dr.length) || decide (4 < cp.length) then 3
  else if !spaced dr || !spaced cp then 4
  else if !windowsOk cp then 5
  else if serial && !serialOk l then 6
  else 0

/-- A commit made at `w` is in effect for every vector that SQn starts now: 64 vectors and 1 µs have passed
(R160). -/
def SeqUnit.commitPassed (u : SeqUnit) (w : WftOld) : Bool :=
  decide (w.vcnt + 64 ≤ u.vcnt) && decide (65536 * (w.mt + 4000) ≤ u.acc)

/-- The bytes of the waveform entry that a vector of SQn uses (R160): those before the first commit
that neither the bounds nor a WFT_ENTRY_TAKES_EFFECT has put into effect, or the stored ones. -/
def State.entryInForce (s : State) (n c t k : Nat) : List Byte :=
  let a := wftAddr c t k
  match (kget (fun _ => []) s.wold a).find? fun w => !(s.sq n).commitPassed w with
  | some w => w.old
  | none => s.sramRd a 40

/-! ### Event times (R163, R176) -/

/-- An event to be placed: type and time in 1/1024 tick. -/
structure Ev where
  typ : Nat
  time : Nat
  deriving DecidableEq, Repr

/-- R176: the rounded time of an event. -/
def evTime (start ofs p u : Nat) : Nat := (4 * start + 256 * ofs + u * p + 128) / 256

/-- The drive events of a code, in time order (R148, R163). -/
def driveEvs (l : List Slot) (serial : Bool) (code start p : Nat) : List Ev :=
  if serial then
    match l with
    | a :: _ =>
      if a.typ = 2 then
        (List.range 4).map fun u => ⟨if code.testBit u then 2 else 1, evTime start a.ofs p u⟩
      else []
    | [] => []
  else (sortSlots (l.filter fun x => isDrive x.typ)).map fun x => ⟨x.typ, evTime start x.ofs p 0⟩

/-- Windows and strobes of sorted compare-class slots, as compares with their window close (R150). -/
def pairWindows (start p : Nat) : List Slot → List (Ev × Option Nat)
  | [] => []
  | x :: r =>
    if x.typ = 8 then
      match r with
      | y :: z :: q => (⟨y.typ, evTime start x.ofs p 0⟩, some (evTime start z.ofs p 0)) :: pairWindows start p q
      | _ => []
    else (⟨x.typ, evTime start x.ofs p 0⟩, none) :: pairWindows start p r

/-- The compares of a code, in time order (R150, R163, R197). -/
def compareEvs (l : List Slot) (serial : Bool) (code start p : Nat) : List (Ev × Option Nat) :=
  if serial then
    match l with
    | _ :: b :: _ =>
      if b.typ = 6 then
        (List.range 4).map fun u => (⟨if code.testBit u then 6 else 5, evTime start b.ofs p u⟩, none)
      else []
    | _ => []
  else pairWindows start p (sortSlots (l.filter fun x => isCompare x.typ))

/-! ### Placement (R153–R157) -/

/-- R153: at or beyond the start of the following vector plus 64 ticks. -/
def isLate (time next : Nat) : Bool := decide (next + 64 * 65536 ≤ 64 * time)

/-- R154: far enough from the last placed event of the class. -/
def farEnough (last : Option Nat) (time : Nat) : Bool :=
  match last with
  | none => true
  | some l => decide (l + 640 ≤ time)

/-- What placing a class's events of one vector gives: last placed time, placed drives, compares,
dropped for spacing, late. -/
structure Placed where
  last : Option Nat := none
  drv : List (Nat × Nat) := []
  cmp : List CmpEv := []
  coll : Nat := 0
  late : Nat := 0
  deriving DecidableEq, Repr

/-- Place one drive event. -/
def placeDrive (next : Nat) (a : Placed) (e : Ev) : Placed :=
  if isLate e.time next then { a with late := a.late + 1 }
  else if farEnough a.last e.time then { a with last := some e.time, drv := a.drv ++ [(e.time, e.typ)] }
  else { a with coll := a.coll + 1 }

/-- Place one compare: a strobe, or a window as a unit (R155). -/
def placeCompare (next : Nat) (a : Placed) (e : Ev × Option Nat) : Placed :=
  let drop := { time := e.1.time, exp := e.1.typ, close := e.2, dropped := true : CmpEv }
  if isLate e.1.time next then { a with late := a.late + 1, cmp := a.cmp ++ [drop] }
  else if !farEnough a.last e.1.time then { a with coll := a.coll + 1, cmp := a.cmp ++ [drop] }
  else
    match e.2 with
    | none => { a with last := some e.1.time, cmp := a.cmp ++ [{ drop with dropped := false }] }
    | some c =>
      if isLate c next then { a with late := a.late + 1, cmp := a.cmp ++ [drop] }
      else { a with last := some c, cmp := a.cmp ++ [{ drop with dropped := false }] }

/-- Count a channel's drops of one vector (R157): the counters, the first dropped vector, the interrupt
bits of the first drop of each kind and the NOTE fault of the first drop in the run. -/
def State.countDrops (s : State) (c vec coll late : Nat) : State :=
  let u := s.ch c
  let r := u.res
  let s := if r.coll = 0 ∧ coll ≠ 0 then s.irq (Reg.CHN_ISTAT c) 1 else s
  let s := if r.late = 0 ∧ late ≠ 0 then s.irq (Reg.CHN_ISTAT c) 2 else s
  let s := if r.coll = 0 ∧ r.late = 0 ∧ coll + late ≠ 0 then s.note (0x400 + c) else s
  s.setCh c { u with res := { r with coll := sat 32 (r.coll + coll), late := sat 32 (r.late + late),
                                     dropVec := if coll + late = 0 then r.dropVec
                                                else some (r.dropVec.getD vec) } }

/-! ### Drivers (R149, R166, R167, R181) -/

/-- The residuals of the generator that places channel `c`'s events (R181, R183): the channel's own, or the spare's
for the route to it (R344). -/
def State.residuals (s : State) (c : Nat) : Int × Int :=
  if s.spareStands c then
    let a := calSpareRec (c / 32) + 0x110 + 4 * (c % 32)
    (sext 16 (s.sramN a 2), sext 16 (s.sramN (a + 2) 2))
  else ((s.ch c).drvRes, (s.ch c).cmpRes)

/-- Launch time of a drive event at the land (R181). -/
def State.launchAt (s : State) (c t : Nat) : Nat := ((t : Int) - s.pathOf c + (s.residuals c).1).toNat

/-- Sample time of a compare-class event at the land (R181). -/
def State.sampleAt (s : State) (c t : Nat) : Nat := ((t : Int) + s.pathOf c + (s.residuals c).2).toNat

/-- The generator that places channel `c`'s events puts the `k`-th event of a class at time `x` at the land (R177,
R178). Of a class's two paths path 0 takes the first event after reset, and a START does not begin the turns anew (log
entry 101). -/
def State.placeAt (s : State) (c k x : Nat) : Launch :=
  let tap := x % 1024 / 8
  let (vern, taps) := if s.spareStands c then (calSpareRec (c / 32) + 0x8, calSpareRec (c / 32) + 0x10)
    else (calRec c + 0x20, calRec c + 0x40)
  { gen := if s.spareStands c then 128 + c / 32 else c, path := k % 2, coarse := x / 1024, tap := tap, vern := x % 8,
    tapPos := s.sramN (taps + 2 * tap) 2, trim := s.sramN (vern + x % 8) 1 }

/-- The launch of the `k`-th drive event of channel `c`, at time `t` at the pin (R177, R178, R181). -/
def State.launchOf (s : State) (c k t : Nat) : Launch := s.placeAt c k (s.launchAt c t)

/-- Drive events of channel `c` at pin times, placed from the `k`-th on, under the applied pin setting (R18). -/
def State.launches (s : State) (c : Nat) : Nat → List (Nat × Nat) → List DrvEv
  | _, [] => []
  | k, e :: l =>
    { time := e.1, typ := e.2, launch := s.launchOf c k e.1, pin := s.pinOf c } :: s.launches c (k + 1) l

/-- Compares of channel `c`, the placed ones from the `k`-th on: their times at the land and how the generator places
them (R177, R178, R181). A window takes a path for each event of its three slots. -/
def State.samples (s : State) (c : Nat) : Nat → List CmpEv → List CmpEv
  | _, [] => []
  | k, e :: l =>
    if e.dropped then e :: s.samples c k l
    else
      { e with land := s.sampleAt c e.time, landClose := e.close.map (s.sampleAt c),
               place := s.placeAt c k (s.sampleAt c e.time),
               placeClose := e.close.map fun t => s.placeAt c (k + 2) (s.sampleAt c t) } ::
      s.samples c (k + if e.close.isSome then 3 else 1) l

/-- Compare-class events that placed compares need: a window three (R150, R178). -/
def cmpCount (l : List CmpEv) : Nat :=
  l.foldl (fun k e => if e.dropped then k else k + if e.close.isSome then 3 else 1) 0

/-- Drive events of earlier vectors at or after boundary `b` (in 2^-16 tick) are discarded, and the paths they would
have taken are free for the events that follow (R167, R178). -/
def ChUnit.discard (u : ChUnit) (b : Nat) : ChUnit :=
  let q := u.drvQ.filter fun e => e.set || decide (e.time * 64 < b)
  { u with drvQ := q, nDrv := u.nDrv - (u.drvQ.length - q.length),
           lastDrv := q.foldl (fun l e => if e.set then l else some e.time) u.lastRun }

/-- The drive type of an idle LEVEL (R168): 0 off, 1 low, 2 high, 3 termination. -/
def levelType (l : Nat) : Nat := if l = 0 then 3 else if l = 1 then 1 else if l = 2 then 2 else 4

/-- Channel `c` takes its idle LEVEL at vector boundary `b` (in 2^-16 tick): drive events at or after `b`
are discarded, and one drive event is placed at `b`, or 640/1024 tick after the last one (R167). Without lock of the
timing PLL no edge is placed any more: no event that waits comes about, and the driver holds LEVEL from now on (R170). -/
def State.idleLevel (s : State) (c b : Nat) : State :=
  let typ := levelType (fld (s.apv (Reg.CHN_IDLE c)) 1 0)
  if s.pllLocked then
    let u := (s.ch c).discard b
    let t := match u.lastDrv with
      | some l => max (evTime b 0 0 0) (l + 640)
      | none => evTime b 0 0 0
    let e : DrvEv := { time := t, typ := typ, launch := s.launchOf c u.nDrv t, pin := s.pinOf c }
    (s.setCh c { u with drvQ := u.drvQ ++ [e], lastDrv := some t, idle := true, nDrv := u.nDrv + 1 }).runDrives c
  else
    (s.setCh c { (s.ch c).discard 0 with drv := typ, idle := true }).landSet c s.now1024 typ

/-- Channel `c` enters its idle waveform at vector boundary `b` while its sequencer runs (R166, R167):
with CODE_EN the drives of earlier vectors at or after `b` are discarded and CODE plays from the next
vector; else the driver takes LEVEL. -/
def State.idleEnter (s : State) (c b : Nat) : State :=
  if bit (s.apv (Reg.CHN_IDLE c)) 31 then s.setCh c { (s.ch c).discard b with idle := true } else s.idleLevel c b

/-! ### One vector on one channel (R152, R163, R166, R198) -/

/-- What the play front holds for a vector: number, start and period in 2^-16 tick, selections, and its
place in the run. -/
structure VecCtx where
  n : Nat
  vec : Nat
  start : Nat
  p : Nat
  tset : Nat
  mset : Nat
  inMatch : Option Nat
  segpos : Nat
  seg : Nat
  ldr : Bool
  lcs : KMap Nat
  deriving DecidableEq, Repr

/-- The comparator's applied low threshold lies above its high one (R194). -/
def State.crossed (s : State) (c : Nat) : Bool :=
  decide (code16 (s.apv (Reg.PEL_VOH c)) < code16 (s.apv (Reg.PEL_VOL c)))

/-- Channel `c` of site `site` plays `code` in a vector: its events are placed, and with `cmps` its
compares wait for their results; drops are counted. -/
def State.playCode (s : State) (v : VecCtx) (c site code : Nat) (cmps : Bool) : State :=
  let serial := bit (s.apv (Reg.CHN_SER c)) v.tset
  let l := slotsOf (s.entryInForce v.n c v.tset (if serial then 0 else code))
  let next := v.start + v.p
  let u := s.ch c
  let d := (driveEvs l serial code v.start v.p).foldl (placeDrive next) { last := u.lastDrv }
  let m := if cmps then
      (compareEvs l serial code v.start v.p).foldl (placeCompare next) { last := u.lastCmp }
    else { last := u.lastCmp }
  let cv : CmpVec :=
    { vec := v.vec, start := v.start, site := site, code := code, tset := v.tset,
      masked := bit (s.apv (Reg.CHN_MASK c)) v.mset, collFail := bit (s.rd (Reg.CHN_FMT_CTL c)) 0,
      inMatch := v.inMatch, segpos := v.segpos, seg := v.seg, ldr := v.ldr, lcs := v.lcs,
      flogCtl := s.apv (Reg.CHN_FLOG_CTL c), flogLim := (s.apv (Reg.CHN_FLOG_LIMIT c)).toNat,
      crossed := s.crossed c,
      evs := s.samples c u.nCmp m.cmp }
  let s := s.setCh c { u with lastDrv := d.last, lastCmp := m.last, drvQ := u.drvQ ++ s.launches c u.nDrv d.drv,
                              nDrv := u.nDrv + d.drv.length, nCmp := u.nCmp + cmpCount m.cmp,
                              cmpQ := if m.cmp.isEmpty then u.cmpQ else u.cmpQ ++ [cv] }
  (s.runDrives c).countDrops c v.vec (d.coll + m.coll) (d.late + m.late)

/-- One vector on owned channel `c`, `k`-th in the record: an active site's channel plays its code, another one its idle waveform (R118, R166). -/
def State.playChannel (s : State) (v : VecCtx) (rec : List Byte) (k c : Nat) : State :=
  match s.siteOfCh c with
  | none => s
  | some t =>
    if (siteRun (s.sq v.n).sites t).active then
      (s.setCh c { s.ch c with idle := false }).playCode v c t (codeAt rec k) true
    else if bit (s.apv (Reg.CHN_IDLE c)) 31 then
      s.playCode v c t (fld (s.apv (Reg.CHN_IDLE c)) 7 4) false
    else s

/-- A vector on the owned channels from the `k`-th on. -/
def State.playChannels (s : State) (v : VecCtx) (rec : List Byte) : Nat → List Nat → State
  | _, [] => s
  | k, c :: cs => (s.playChannel v rec k c).playChannels v rec (k + 1) cs

end Sys2Proof.Machine
end

