-- ==== Sys2Proof/Machine/Compare.lean ====
section
/-! DEFINITION. The compare path (R193–R215): the outcome of a vector's compares on a channel, the
channel's counters and first-fail registers, the site's fail state and the fail log; and the command
VECTOR_RESULT. -/

namespace Sys2Proof.Machine

open Sys2Proof

/-- The comparator state a compare of a type expects (R195): CL Low, CH High, CM Mid-band. -/
def expState (typ : Nat) : Nat := if typ = 5 then 1 else if typ = 6 then 2 else 0

/-- One compare tested against what the comparator showed. -/
structure Tested where
  fail : Bool
  state : Nat
  deriving DecidableEq, Repr

/-- A departure of `ps` inside a window is detected (R196): 100 ps or longer always, under 30 ps never, between them as
a free value decides (log entry 5). -/
def detects (draw ps : Nat) : Bool := decide (100 ≤ ps) || (decide (30 ≤ ps) && Config.freeValue draw % 2 == 1)

/-- The state at the first departure of a window that is detected (R196); `run` is the departure in progress: the state
it began with, and its length so far through any states but the expected one. -/
def firstDeparture (exp draw : Nat) (run : Option (Nat × Nat)) : Obs → Option Nat
  | [] => match run with
    | some (st, ps) => if detects draw ps then some st else none
    | none => none
  | (st, ps) :: r =>
    if st.val = exp then
      match run with
      | some (st, ps) => if detects draw ps then some st else firstDeparture exp (draw + 1) none r
      | none => firstDeparture exp draw none r
    else
      firstDeparture exp draw (match run with | some (q, l) => some (q, l + ps) | none => some (st.val, ps)) r

/-- Test one compare (R195, R196). -/
def testCompare (draw : Nat) (e : CmpEv) (o : Obs) : Tested :=
  if e.dropped then ⟨true, 0⟩
  else
    match e.close with
    | none =>
      let st := match o with | (x, _) :: _ => x.val | [] => 0
      ⟨st != expState e.exp, st⟩
    | some _ =>
      match firstDeparture (expState e.exp) draw none o with
      | some st => ⟨true, st⟩
      | none => ⟨false, expState e.exp⟩

/-- The compares of a vector that give a result (R156, R197): all, but for dropped ones where COLL_FAIL
is 0, each with its number and its test. -/
def testVector (draw : Nat) (v : CmpVec) (obs : List Obs) : List (Nat × CmpEv × Tested) :=
  (v.evs.zipIdx.map fun (e, i) => (i, e, testCompare (draw + 8 * i) e (obs.getD i []))).filter
    fun x => !x.2.1.dropped || v.collFail

/-- What a vector's result on a channel says (R201): compares counted, which failed, and the first
failing one. -/
structure Verdict where
  counted : Nat := 0
  masked : Nat := 0
  matchFail : Bool := false
  failed : Nat := 0
  obs : Nat := 0
  dropped : Bool := false
  window : Bool := false
  deriving DecidableEq, Repr

/-- R198: the tests in order. -/
def verdict (draw : Nat) (v : CmpVec) (obs : List Obs) : Verdict :=
  let l := testVector draw v obs
  let f := l.filter fun x => x.2.2.fail
  if v.inMatch.isSome then { matchFail := !v.masked && !f.isEmpty }
  else if v.masked then { masked := f.length }
  else
    { counted := l.length, failed := maskOf (f.map fun x => x.1),
      obs := match f with | x :: _ => x.2.2.state | [] => 0,
      dropped := match f with | x :: _ => x.2.1.dropped | [] => false,
      window := match f with | x :: _ => x.2.1.close.isSome | [] => false }

/-- INFO of R210 without FIRST. -/
def failInfo (c : Nat) (v : CmpVec) (d : Verdict) : Nat :=
  c * 2 ^ 25 + 2 ^ 19 * v.site + 2 ^ 15 * v.code + 2 ^ 10 * v.tset + 2 ^ 6 * d.failed + 2 ^ 4 * d.obs +
    b2n d.dropped * 8 + b2n d.window * 4

/-- A channel's results after one more vector (R202, R203). -/
def ChanRes.add (r : ChanRes) (c : Nat) (v : CmpVec) (d : Verdict) : ChanRes :=
  let r := { r with ccnt := sat 48 (r.ccnt + d.counted), mfcnt := sat 32 (r.mfcnt + d.masked) }
  if d.failed = 0 then r
  else
    let r := { r with fcnt := sat 48 (r.fcnt + 1) }
    match r.ffv with
    | some _ => r
    | none => { r with ffv := some v.vec, ffInfo := 2 ^ 31 + (failInfo c v d + 2) % 2 ^ 19,
                       ffSeg := b2n v.ldr * 2 ^ 31 + v.seg }

/-- A site's results after a vector with the result FAIL on one of its channels (R205). -/
def SiteRun.addFail (r : SiteRun) (vec : Nat) : SiteRun :=
  if r.failVecs.contains vec then r else { r with failVecs := r.failVecs ++ [vec] }

/-- Site results after one vector's result. -/
def addSite (m : KMap SiteRun) (v : CmpVec) (d : Verdict) : KMap SiteRun :=
  if d.failed = 0 then m else setSiteRun m v.site ((siteRun m v.site).addFail v.vec)

/-- Channel `c`'s results in a run's results. -/
def Res.chan (r : Res) (c : Nat) : ChanRes := kget (fun _ => {}) r.chans c
/-- Set channel `c`'s results. -/
def Res.setChan (r : Res) (c : Nat) (x : ChanRes) : Res := { r with chans := kset (fun _ => {}) r.chans c x }

/-- A held epoch that closed after the vector takes its result too (R221). -/
def Epoch.add (e : Epoch) (c : Nat) (v : CmpVec) (d : Verdict) : Epoch :=
  if v.vec < e.vcnt then
    { e with res := { (e.res.setChan c ((e.res.chan c).add c v d)) with sites := addSite e.res.sites v d } }
  else e

/-! ### The fail log (R209–R212) -/

/-- The 32 bytes of a fail-log record (R210). -/
def flogBytes (ctl : Word) (c : Nat) (v : CmpVec) (d : Verdict) (first : Bool) : List Byte :=
  leBytes 8 v.vec ++ leBytes 8 (v.start / 65536) ++ leBytes 4 v.segpos ++ leBytes 2 v.seg ++
    leBytes 2 (b2n v.ldr * 2 ^ 15 + fld ctl 13 0) ++
    leBytes 4 (kget (fun _ => 0) v.lcs (fld ctl 26 24) % 2 ^ 16 * 2 ^ 16 +
      kget (fun _ => 0) v.lcs (fld ctl 22 20) % 2 ^ 16) ++
    leBytes 4 (failInfo c v d + b2n first * 2)

/-- A record of channel `c` is lost (R212): counted in the run and in every held epoch that closed after
its vector; the first loss of the run records its reason and vector. -/
def State.flogLose (s : State) (n c vec reason : Nat) : State :=
  let u := s.ch c
  let r := u.res
  let lose := fun (x : ChanRes) => { x with flogLost := sat 48 (x.flogLost + 1) }
  let s := if r.lvec.isSome then s else (s.irq (Reg.CHN_CMP_ISTAT c) 4).note (0x400 + c)
  let r' := if r.lvec.isSome then r else { r with lreason := 2 ^ 31 + reason, lvec := some vec }
  let s := s.setCh c { u with res := lose r' }
  let q := s.sq n
  s.setSq n { q with epochs := q.epochs.map fun e =>
    if vec < e.vcnt then { e with res := e.res.setChan c (lose (e.res.chan c)) } else e }

/-- Losses of fail-log records are counted by their channels too (R212, R366): channel and vector stand in
the record (R210), and the channel's sequencer holds the epochs. -/
def State.flogLosses (s : State) (l : List (Nat × List Byte)) : State :=
  l.foldl (fun s x =>
    let c := getLE x.2 28 4 / 2 ^ 25
    match s.seqOfCh c with
    | some n => s.flogLose n c (getLE x.2 0 8) x.1
    | none => s) s

/-- Every compare of the owned channels' vectors before vector `v` has its result (R201). -/
def State.resultsBefore (s : State) (n v : Nat) : Bool :=
  (s.ownedChans n).all fun c => (s.ch c).cmpQ.all fun x => decide (v ≤ x.vec)

/-! ### Admission of fail-log records (R211, R361, R364) -/

/-- Record `a` enters before record `b`: vector order, then channel order (R211). -/
def CapRec.before (a b : CapRec) : Bool := decide (a.vec < b.vec) || (a.vec == b.vec && decide (a.ch < b.ch))

/-- The record of SQn that enters next. -/
def SeqUnit.nextRec (u : SeqUnit) : Option CapRec :=
  u.capq.foldl (fun a r => match a with | none => some r | some b => if r.before b then some r else some b) none

/-- A record may enter: no result of its vector or an earlier one is missing, and no marker is due before
it. -/
def State.recDue (s : State) (n : Nat) (r : CapRec) : Bool :=
  s.resultsBefore n (r.vec + 1) &&
    match (s.sq n).marks with
    | m :: _ => decide (r.vec < m.2)
    | [] => true

/-- Record `r` leaves SQn's CAP carve for its flow. -/
def State.admitRec (s : State) (n : Nat) (r : CapRec) : State :=
  let s := s.setSq n { s.sq n with capq := (s.sq n).capq.erase r }
  let x := s.takeIn r.flow 1 (some n) r.data
  x.1.flogLosses x.2

/-- Flow `f` is an input for fail-log records of SQn (R352). -/
def State.flogFlow (s : State) (n f : Nat) : Bool :=
  match s.graphOf f with
  | some g => (g.entry f).kind == 1 && (g.owner == none || g.owner == some n)
  | none => false

/-- The pool or the spill ring of flow `f` can take an item (R212, R364). -/
def State.flowRoom (s : State) (f : Nat) : Bool :=
  match s.graphOf f with
  | some g =>
    let u := s.fw f
    (itemsIn u.spill == 0 && s.hasCredit g f) || decide (itemsIn u.spill < (g.entry f).cap)
  | none => false

/-- The record that leaves a full CAP carve by the spill path of a record for flow `f` (R212): the next one to enter, where
that path can take records. -/
def State.capSpills (s : State) (n f : Nat) : Option CapRec :=
  match (s.sq n).nextRec with
  | some r => if s.flogFlow n f && s.flowRoom f && s.recDue n r then some r else none
  | none => none

/-- BAR4 offset of capture memory (R424). -/
def capBase : Nat := 0x1800000

/-- A fail-log record of channel `c` is made (R209–R211): counted, and it waits in SQn's CAP carve, whose
slots are filled in turn (log entry 13); a full carve makes room by the spill path, or loses it (R212, R366). The settings are those in force when the vector
started (R18). -/
def State.flogMake (s : State) (n c : Nat) (v : CmpVec) (d : Verdict) (first : Bool) : State :=
  let ctl := v.flogCtl
  let lim := v.flogLim
  let u := s.ch c
  if !bit ctl 31 || (lim != 0 && decide (lim ≤ u.res.flogCnt)) then s
  else
    let made := fun (x : ChanRes) => { x with flogCnt := sat 48 (x.flogCnt + 1) }
    let s := s.setCh c { u with res := made u.res }
    let q := s.sq n
    let s := s.setSq n { q with epochs := q.epochs.map fun e =>
      if v.vec < e.vcnt then { e with res := e.res.setChan c (made (e.res.chan c)) } else e }
    let slots := 128 * (s.carveOf n).capSize
    let f := fld ctl 13 0
    let bs := flogBytes ctl c v d first
    let put := fun (s : State) =>
      let q := s.sq n
      let s := s.sramWr (capBase + 4096 * (s.carveOf n).capBase + q.capN % slots * 32) bs
      s.setSq n { q with capq := q.capq ++ [⟨f, c, v.vec, bs⟩], capN := q.capN + 1 }
    if (s.sq n).capq.length < slots then put s
    else
      match (if slots = 0 then none else s.capSpills n f) with
      | some r => put (s.admitRec n r)
      | none => (if s.flogFlow n f then s.loseItem f 2 bs else s).flogLose n c v.vec 2

/-! ### VECTOR_RESULT (R201–R205) -/

/-- Saturation of a channel's 48-bit counters reaches CHN_CMP_STAT and CHN_CMP_ISTAT (R202). -/
def State.satBits (s : State) (c : Nat) : State :=
  let r := (s.ch c).res
  let m := (if r.fcnt = 2 ^ 48 - 1 then 2 ^ 31 else 0) + (if r.ccnt = 2 ^ 48 - 1 then 2 ^ 30 else 0)
  if m = 0 ∨ ((s.rd (Reg.CHN_CMP_STAT c)).toNat &&& m) = m then s
  else (s.setBits (Reg.CHN_CMP_STAT c) m).irq (Reg.CHN_CMP_ISTAT c) 2

/-- The result of vector `v` on channel `c` of SQn is complete. -/
def State.applyVerdict (s : State) (n c : Nat) (v : CmpVec) (d : Verdict) : State :=
  let u := s.ch c
  let first := u.res.ffv.isNone
  let q := s.sq n
  let cur := match v.inMatch, q.cur with
    | some k, some p => some (if d.matchFail && decide (p.first ≤ v.vec) then { p with mfails := p.mfails ++ [(k, v.site)] } else p)
    | _, x => x
  let s := s.setSq n { q with sites := addSite q.sites v d, epochs := q.epochs.map (·.add c v d), cur := cur }
  let s := s.setCh c { u with res := u.res.add c v d }
  let s := s.satBits c
  if d.failed = 0 then s
  else
    let s := if first then s.irq (Reg.CHN_CMP_ISTAT c) 1 else s
    s.flogMake n c v d first

/-- The comparator state that a channel can show (R193, R194): Both only with the low threshold above the high one, and
then never Mid-band. -/
def cmpState (crossed : Bool) (st : Fin 4) : Fin 4 :=
  if crossed && st == 0 then 3 else if !crossed && st == 3 then 0 else st

/-- Every compare of the vector has been sampled at the land, a window to its end (R181, R195). -/
def CmpVec.landed (v : CmpVec) (mt : Nat) : Bool :=
  v.evs.all fun e => e.dropped || decide (e.landClose.getD e.land ≤ 1024 * mt)

/-- VECTOR_RESULT: the oldest vector of channel `c` whose compares wait is tested, once they are sampled, with what the
comparator showed at its samples, under the thresholds in force for that vector (R18; `obs`, one per compare in time
order), and counts (R198–R205). -/
def doVectorResult (c : Nat) (obs : List Obs) (s : State) : State :=
  match (s.ch c).cmpQ, s.seqOfCh c with
  | v :: r, some n =>
    s.whenDue (v.landed s.mt) fun s =>
      let u := s.ch c
      let obs := obs.map fun o => o.map fun x => (cmpState v.crossed x.1, x.2)
      let d := verdict s.free v obs
      let s := s.setCh c { u with cmpQ := r }
      let s := { s with free := s.free + 64 }
      let s := match obs.getLast?.bind List.getLast? with
        | some (st, _) => s.wrF (Reg.CHN_CMP_STAT c) 1 0 st.val
        | none => s
      s.applyVerdict n c v d
  | _, _ => s

/-- Meaning of VECTOR_RESULT. -/
def execVectorResult (ch : Fin 128) (obs : List Obs) (s : State) : Host.Outcome State Fault Refusal :=
  .next (doVectorResult ch.val obs s)

end Sys2Proof.Machine
end

