-- ==== Sys2Proof/Machine/Nor.lean ====
section
/-! DEFINITION. The NOR flash (R513, R514): its one write operation at a time, the queue behind it, and what
an interruption leaves. -/

namespace Sys2Proof.Machine

open Sys2Proof

/-- The 64 kB sectors that `n` bytes from `a` lie in. -/
def sectorsOf (a n : Nat) : List Nat :=
  if n = 0 then [] else (List.range ((a + n - 1) / 65536 - a / 65536 + 1)).map (a / 65536 + ·)

/-- The flash with `n` bytes from `a` erased: nothing is listed there but what the factory wrote, now erased. -/
def norErased (m : KMap Byte) (a n : Nat) : KMap Byte :=
  factorySpans.foldl
    (fun m f => let lo := max a f.1; memWrite norFill m lo (List.replicate (min (a + n) (f.1 + f.2) - lo) 0xFF))
    (m.filter fun p => !(decide (a ≤ p.1) && decide (p.1 < a + n)))

/-- Erase `n` bytes of the flash from `a`, and count the erase of each sector. -/
def State.norErase (s : State) (a n : Nat) : State :=
  let s := { s with nor := norErased s.nor a n }
  forEach (sectorsOf a n) (fun k s =>
    let c := kget (fun _ => 0) s.erases k + 1
    let s := { s with erases := kset (fun _ => 0) s.erases k c }
    if (s.rd Reg.NVM_ERASE_MAX).toNat < c then s.wrN Reg.NVM_ERASE_MAX (sat 32 c) else s) s

/-- Steps of an operation: its erases, then its writes. -/
def NorOp.steps (op : NorOp) : Nat := op.erases.length + op.writes.length

/-- The first `k` steps of an operation. -/
def State.norDo (s : State) (op : NorOp) (k : Nat) : State :=
  (op.writes.take (k - op.erases.length)).foldl (fun s w => s.norWr w.1 w.2)
    ((op.erases.take k).foldl (fun s e => s.norErase e.1 e.2) s)

/-- NVM_STAT shows the operation at the head of the queue. -/
def State.norShow (s : State) : State :=
  match s.norq with
  | [] => s.wrF Reg.NVM_STAT 31 28 0
  | op :: _ => s.wrF Reg.NVM_STAT 31 28 (8 + op.user)

/-- A write operation takes the flash, or waits for those before it (R514). -/
def State.norPush (s : State) (op : NorOp) : State := { s with norq := s.norq ++ [op] }.norShow

/-- A block has an operation that runs or waits. -/
def State.norHas (s : State) (user : Nat) : Bool := s.norq.any fun op => op.user == user

/-- A NOR write is refused for PFW_N (R504, R524). -/
def State.norPfw (s : State) : State := s.countF Reg.NVM_STAT 15 0 1

/-- The steps of an operation that an interruption finds done at the least: a store has begun with an erase, which
leaves no valid trailer or set (R70, R346, R518). -/
def NorOp.atLeast (op : NorOp) : Nat := if 4 ≤ op.region ∧ 2 ≤ op.steps then 1 else 0

/-- Power, a reset or a GRAVE fault interrupts the flash: the running operation is done in part, never its
last step — how far is left open (log entry 5) — and those that waited never begin. -/
def State.norAbort (s : State) : State :=
  match s.norq with
  | [] => s
  | op :: _ =>
    { (s.drawn).norDo op (op.atLeast + s.freeNow % (op.steps - op.atLeast)) with norq := [] }.norShow

/-! ### Places in the flash (R513) -/

/-- Where the identity region holds GLB_MODULE, STI_BOOT and SUP_FW.BOOT: the model's places (log entry 14). -/
def norModule : Nat := 0x0
def norBoot : Nat := 0x10
def norFwBoot : Nat := 0x20
/-- The GRAVE record's region. -/
def norGrave : Nat := 0x20000
/-- Structure image slot `k`, and its trailer sector. -/
def norImage (k : Nat) : Nat := 0x200000 + 0x100000 * k
def norTrailer (k : Nat) : Nat := 0x30000 + 0x10000 * k
/-- Firmware slot: 0 A, 1 B. -/
def norFw (b : Nat) : Nat := 0xA00000 + 0x800000 * b

/-- A setting of the identity region is written: its 4 bytes. -/
def identityOp (user at_ v : Nat) : NorOp :=
  { user := user, region := 1, erases := [(at_, 4)], writes := [(at_, leBytes 4 v)], arg := v }

end Sys2Proof.Machine
end

