-- ==== Sys2Proof/Machine/Csh.lean ====
section
/-! DEFINITION. Epochs and the Contact Sheet (R221–R241): closing an epoch, its publication into a free
buffer, and the commands of the three buffers. -/

namespace Sys2Proof.Machine

open Sys2Proof

/-- The next epoch number, CSH_ENEXT. -/
def State.enext (s : State) : Nat := s.rdWide Reg.CSH_ENEXT_LO 2
/-- The reserve in force, CSH_ERES. -/
def State.eres (s : State) : Nat := s.rdWide Reg.CSH_ERES_LO 2

/-- One more epoch of SQn is never published (R226). -/
def State.skipOne (s : State) (n : Nat) : State :=
  (s.count (Reg.CSH_SKIPPED n) 1).irq (Reg.CSH_ISTAT n) 2

/-- The results of SQn's run as they stand (R223). -/
def State.resNow (s : State) (n : Nat) : Res :=
  { chans := (s.ownedChans n).foldl (fun m c => kset (fun _ => {}) m c (s.ch c).res) [],
    sites := (s.sq n).sites }

/-- Take the next epoch number (R227). A number that reaches the reserve stops publication until reset,
with a MOD fault (R228). -/
def State.takeNumber (s : State) : State :=
  let num := s.enext
  let s := s.wrWide Reg.CSH_ENEXT_LO 2 (num + 1)
  if s.eres ≤ num + 1 ∧ !s.epochStop then { s.modFault 0x900 0 with epochStop := true } else s

/-- Unpublished epochs that come after one that SQn closes at a moment, by number, ascending (R227): those that another
sequencer closes at a later moment, though its close was carried out before, or a higher one at the same moment. -/
def State.closedAfter (s : State) (n at_ : Nat) : List Nat :=
  (((List.range 16).filter (n ≠ ·)).flatMap fun m =>
    ((s.sq m).epochs.filter fun e => decide (at_ < e.at_) || (decide (n < m) && e.at_ == at_)).map
      fun e => e.num).insertionSort (· ≤ ·)

/-- The least number of a list above `x`, where `x` is in the list. -/
def nextIn (l : List Nat) (x : Nat) : Nat := if l.contains x then ((l.filter (x < ·)).min?).getD x else x

/-- A marker's epoch changes its number. -/
def Elem.renum (f : Nat → Nat) : Elem → Elem
  | .marker e => .marker (f e)
  | e => e

/-- Unpublished epochs change their numbers: in the sheets, with the markers and the EMIT copies made for them. -/
def State.renumber (s : State) (f : Nat → Nat) : State :=
  let s := forEach (List.range 16) (fun m s =>
    let u := s.sq m
    s.setSq m { u with epochs := u.epochs.map fun e => { e with num := f e.num },
                       marks := u.marks.map fun x => (f x.1, x.2) }) s
  { s with ane := { s.ane with
      flows := s.ane.flows.map fun x =>
        (x.1, { x.2 with pool := x.2.pool.map (Elem.renum f), spill := x.2.spill.map (Elem.renum f) }),
      emits := s.ane.emits.map fun x => (f x.1, x.2) } }

/-- The number of an epoch that SQn closes at a moment, given that `num` is the next: numbers follow the moments of the
closes, of sequencers that close at the same moment the lower one takes the lower number, and the others move up
(R227). -/
def State.giveNumber (s : State) (n at_ num : Nat) : State × Nat :=
  match s.closedAfter n at_ with
  | [] => (s, num)
  | a :: l => (s.renumber (nextIn (a :: l ++ [num])), a)

/-- Close SQn's current epoch at the boundary its play front stands at (R94, R221, R226–R228); `cause` is
0 while the run continues. The newest of 8 held epochs is discarded, and a marker enters every flow of
the sequencer's graphs (R361). -/
def State.closeEpoch (s : State) (n tag cause : Nat) : State :=
  let at_ := if s.seqPlays n then (s.sq n).acc else 65536 * s.mt
  let (s, num) := s.takeNumber.giveNumber n at_ s.enext
  let u := s.sq n
  let full := decide (8 ≤ u.epochs.length)
  let s := if full then s.skipOne n else s
  let held := if full then u.epochs.dropLast else u.epochs
  let e : Epoch :=
    { num := num, index := u.index + 1, tag := tag, cause := cause, vcnt := u.vcnt,
      mtClose := at_ / 65536, at_ := at_,
      mtStart := s.rdWide (Reg.SEQ_TSTART_LO n) 2, toBit := bit (s.rd (Reg.SEQ_STAT n)) 15,
      ldr := (s.rd (Reg.SEQ_LDR_CNT n)).toNat, ur := (s.rd (Reg.SEQ_UR_WARN n)).toNat,
      flagBits := s.rdF (Reg.SEQ_FLAGS n) 7 0, res := s.resNow n }
  (s.setSq n { u with epochs := held ++ [e], index := u.index + 1 }).putMarkers n num

/-- The closing epoch of a run that ends with `cause` (R222): the epoch an EPOCH closed at this same
boundary, or a separate one with tag 0. -/
def State.closeRun (s : State) (n cause : Nat) : State :=
  let u := s.sq n
  match u.epochs.getLast? with
  | some e =>
    if e.vcnt = u.vcnt ∧ e.cause = 0 then s.setSq n { u with epochs := u.epochs.dropLast ++ [{ e with cause := cause }] }
    else s.closeEpoch n 0 cause
  | none => s.closeEpoch n 0 cause

/-- A held epoch of SQn is complete (R224, R225): compares done, no earlier fail-log record waits, and its
marker has passed every flow of the sequencer's graphs. An epoch that closed where the play front
stands waits for the next vector or the end of the run (R222). -/
def State.epochComplete (s : State) (n : Nat) (e : Epoch) : Bool :=
  s.resultsBefore n e.vcnt && ((s.sq n).capq.all fun r => decide (e.vcnt ≤ r.vec)) &&
    s.markersPassed n e.num && (e.cause != 0 || decide (e.vcnt < (s.sq n).vcnt) || s.seqStopped n)

/-- BAR4 offset of buffer `b` of SQn (R230). -/
def State.bufOfs (s : State) (n b : Nat) : Nat :=
  0x2C00000 + 1024 * ((s.carveOf n).csBase + b * (s.carveOf n).csSize)

/-- `n` zero bytes. -/
def zeros (n : Nat) : List Byte := List.replicate n 0

/-- A 64-bit value that reads all ones where there is none. -/
def onesOr (o : Option Nat) : List Byte := leBytes 8 (o.getD (2 ^ 64 - 1))

/-- The site table entry of site `t` (R238). -/
def siteEntry (r : Res) (t : Nat) : List Byte :=
  let x := siteRun r.sites t
  let st := b2n x.enabled + b2n x.active * 2 + b2n x.failState * 4 + b2n x.dropVec.isSome * 8 +
    b2n x.byHost * 16 + b2n x.byMatch * 32
  leBytes 1 t ++ leBytes 1 st ++ zeros 6 ++ leBytes 8 (sat 48 x.failVecs.length) ++ onesOr x.firstFail ++
    onesOr x.dropVec

/-- The channel table entry of channel `c` (R239). -/
def chanEntry (s : State) (r : Res) (c : Nat) : List Byte :=
  let x := r.chan c
  leBytes 1 c ++ leBytes 1 ((s.siteOfCh c).getD 0) ++ zeros 2 ++ leBytes 4 x.ffInfo ++ leBytes 8 x.fcnt ++
    leBytes 8 x.ccnt ++ onesOr x.ffv ++ leBytes 8 x.flogCnt ++ leBytes 8 x.flogLost ++ leBytes 4 x.mfcnt ++
    leBytes 4 x.ffSeg ++ leBytes 4 x.coll ++ leBytes 4 x.late

/-- A 48-bit counter of a channel is saturated (R202, R215). -/
def ChanRes.satAny (x : ChanRes) : Bool := [x.fcnt, x.ccnt, x.flogCnt, x.flogLost].any (· == 2 ^ 48 - 1)

/-- The header FLAGS of an epoch (R237). -/
def epochFlags (e : Epoch) (r : Res) : Nat :=
  let any := fun (p : ChanRes → Bool) => b2n (r.chans.any fun x => p x.2)
  b2n (e.cause != 0) + any (fun x => decide (0 < x.flogLost)) * 2 +
    b2n (r.chans.any (fun x => x.2.satAny) || r.sites.any fun x => decide (2 ^ 48 - 1 ≤ x.2.failVecs.length)) * 4 + b2n (decide (0 < e.ldr)) * 8 + b2n e.toBit * 16

/-- A graph area of `len` bytes filled with zeros and the EMIT copies placed in it (R240). -/
def graphArea (len : Nat) (copies : List (Nat × List Byte)) : List Byte :=
  copies.foldl (fun a x => (a.take x.1 ++ x.2 ++ a.drop (x.1 + x.2.length)).take len) (zeros len)

/-- The bytes of the sites with a property, as a 64-bit mask. -/
def siteMask (r : Res) (p : SiteRun → Bool) : Nat :=
  maskOf ((List.range 64).filter fun t => p (siteRun r.sites t))

/-- The content of a buffer for an epoch of SQn (R237–R240). -/
def State.bufferBytes (s : State) (n : Nat) (e : Epoch) : List Byte :=
  let sites := s.ownedSites n
  let chans := s.ownedChans n
  let size := 1024 * (s.carveOf n).csSize
  let chanOfs := 256 + 32 * sites.length
  let graphOfs := chanOfs + 64 * chans.length
  let head := leBytes 4 0x5343524C ++ leBytes 4 size ++ leBytes 8 e.num ++ leBytes 4 e.index ++
    leBytes 4 e.tag ++ leBytes 1 n ++ leBytes 1 e.cause ++ leBytes 2 (epochFlags e e.res) ++
    leBytes 1 sites.length ++ zeros 1 ++ leBytes 2 chans.length ++ leBytes 8 e.vcnt ++ leBytes 8 e.mtClose ++
    leBytes 8 e.mtStart ++ leBytes 8 s.mt ++ leBytes 4 (s.rd (Reg.CSH_SKIPPED n)).toNat ++ leBytes 4 e.ldr ++
    leBytes 4 e.ur ++ leBytes 4 e.flagBits ++ leBytes 8 (siteMask e.res (·.active)) ++
    leBytes 8 (siteMask e.res (·.failState)) ++ leBytes 4 256 ++ leBytes 4 chanOfs ++ leBytes 4 graphOfs ++
    leBytes 4 (size - graphOfs) ++ zeros 140
  let body := (sites.map (siteEntry e.res)).flatten ++ (chans.map (chanEntry s e.res)).flatten ++
    graphArea (size - graphOfs) (s.emitsOf n e.num)
  head ++ leBytes 4 (crc32c (head ++ body)) ++ body

/-- The lowest-numbered FREE buffer (R231). -/
def Sheet.free (h : Sheet) : Nat :=
  ((List.range 3).find? fun b => h.held != some b && h.newest != some b).getD 0

/-- Write an epoch of SQn into the lowest FREE buffer, which becomes NEWEST (R225, R231). -/
def State.publish (s : State) (n : Nat) (e : Epoch) : State :=
  let u := s.sq n
  let b := u.sheet.free
  let s := s.sramWr (s.bufOfs n b) (s.bufferBytes n e)
  let h := { u.sheet with newest := some b, epochOf := kset (fun _ => 0) u.sheet.epochOf b e.num,
                          indexOf := kset (fun _ => 0) u.sheet.indexOf b e.index,
                          closingOf := kset (fun _ => false) u.sheet.closingOf b (e.cause != 0) }
  let s := s.setSq n { u with sheet := h, epochs := u.epochs.filter fun x => decide (e.num < x.num) }
  let past := fun (k : Nat) => u.epochs.any fun y => y.num == k && decide (y.num ≤ e.num)
  let s := { s with ane := { s.ane with emits := s.ane.emits.filter fun x => !past x.1 } }
  let s := (s.wrWide (Reg.CSH_NEPOCH_LO n) 2 e.num).wrN (Reg.CSH_NINDEX n) e.index
  s.irq (Reg.CSH_ISTAT n) (1 + if e.cause ≠ 0 then 4 else 0)

/-- The newest complete epoch of SQn that no older incomplete one precedes (R226). -/
def State.newestComplete (s : State) (n : Nat) : Option Epoch :=
  ((s.sq n).epochs.takeWhile (s.epochComplete n)).getLast?

/-- EPOCH_PUBLISH: the newest of SQn's complete epochs is published and the older ones are skipped
(R225, R226). -/
def doEpochPublish (n : Nat) (s : State) : State :=
  match s.newestComplete n with
  | none => s
  | some e =>
    s.whenDue (!s.epochStop) fun s =>
      let older := ((s.sq n).epochs.filter fun x => decide (x.num < e.num)).length
      (forEach (List.range older) (fun _ s => s.skipOne n) s).publish n e

/-- Meaning of EPOCH_PUBLISH. -/
def execEpochPublish (n : Fin 16) (s : State) : Host.Outcome State Fault Refusal := .next (doEpochPublish n.val s)

/-! ### The epoch reserve (R228, R229) -/

/-- The reserve that copy `k` holds, if its CRC is right. -/
def State.reserveCopy (s : State) (k : Nat) : Option Nat :=
  let bs := s.norRd (reserveOfs k) 12
  if getLE bs 8 4 = crc32c (bs.take 8) then some (getLE bs 0 8) else none

/-- The copy a new reserve goes into: the other one than the valid copy with the larger R (R228). -/
def State.reserveOther (s : State) : Nat :=
  match s.reserveCopy 0, s.reserveCopy 1 with
  | some a, some b => if b ≤ a then 1 else 0
  | some _, none => 1
  | _, _ => 0

/-- The write of reserve `r` into copy `k`, its CRC last (R228). -/
def reserveOp (k r : Nat) : NorOp :=
  { user := 4, region := 2, erases := [(reserveOfs k, 0x8000)],
    writes := [(reserveOfs k, leBytes 8 r), (reserveOfs k + 8, leBytes 4 (crc32c (leBytes 8 r)))], arg := r }

/-- EPOCH_RESERVE_EXTEND: the next number is within 2^31 of the reserve; the supervisor extends it by
2^32 (R228), unless PFW_N is asserted (R504): then the write is refused and counted. The new reserve is
in force when the flash has it. -/
def doEpochReserveExtend (s : State) : State :=
  s.whenDue (decide (s.eres ≤ s.enext + 2 ^ 31) && !s.norHas 4) fun s =>
    if s.pfw then s.norPfw
    else if s.graveHeld then s
    else s.norPush (reserveOp s.reserveOther (s.eres + 2 ^ 32))

/-- Meaning of EPOCH_RESERVE_EXTEND. -/
def execEpochReserveExtend (s : State) : Host.Outcome State Fault Refusal := .next (doEpochReserveExtend s)

/-! ### Acquire and release (R232, R233) -/

/-- The word a read of CSH_ACQ returns for buffer `b` of SQn's sheet `h` (R241). -/
def acqWord (h : Sheet) (b : Nat) (rep : Bool) : Nat :=
  let e := kget (fun _ => 0) h.epochOf b
  2 ^ 31 + b2n (h.lastAcq != some e) * 2 ^ 30 + b2n (kget (fun _ => false) h.closingOf b) * 2 ^ 29 +
    b2n rep * 2 ^ 28 + 2 ^ 24 * b + kget (fun _ => 0) h.indexOf b % 2 ^ 24

/-- CSH_ACQUIRE: a read of CSH[n]_ACQ by the owner of the sheet or D0 acquires a buffer; another domain's
read is denied (R232). -/
def doCshAcquire (dom n : Nat) (s : State) : State :=
  s.hostRead dom (Reg.CSH_ACQ n) fun s =>
    let u := s.sq n
    let h := u.sheet
    match h.held, h.newest with
    | some b, _ => (s.setSq n { u with sheet := { h with lastAcq := some (kget (fun _ => 0) h.epochOf b) } },
                    [word (acqWord h b true)])
    | none, some b =>
      let e := kget (fun _ => 0) h.epochOf b
      ((s.setSq n { u with sheet := { h with held := some b, heldBy := dom, lastAcq := some e } }).wrWide
        (Reg.CSH_AEPOCH_LO n) 2 e, [word (acqWord h b false)])
    | none, none => (s, [0])

/-- Meaning of CSH_ACQUIRE. -/
def execCshAcquire (dom n : Fin 16) (s : State) : Host.Outcome State Fault Refusal :=
  .next (doCshAcquire dom.val n.val s)

/-- Release SQn's HELD buffer: it becomes FREE, or NEWEST where it still holds the newest epoch (R233). -/
def State.releaseHeld (s : State) (n : Nat) : State :=
  let u := s.sq n
  (s.setSq n { u with sheet := { u.sheet with held := none } }).wrWide (Reg.CSH_AEPOCH_LO n) 2 0

/-- A release that names buffer `b` at register `a`: one that is not HELD changes nothing and records a
NOTE fault (R233). -/
def State.releaseBuf (s : State) (dom n b a : Nat) : State :=
  if (s.sq n).sheet.held = some b then s.releaseHeld n else s.noteReg dom a

/-- CSH_RELEASE: a write to CSH[n]_REL (R233). -/
def doCshRelease (dom n : Nat) (v : Word) (s : State) : State :=
  s.hostWrite dom (Reg.CSH_REL n) fun s => s.releaseBuf dom n (fld v 1 0) (Reg.CSH_REL n)

/-- Meaning of CSH_RELEASE. -/
def execCshRelease (dom n : Fin 16) (v : Word) (s : State) : Host.Outcome State Fault Refusal :=
  .next (doCshRelease dom.val n.val v s)

/-- CSH_FORCED_RELEASE: D0's write to CSH[n]_FREL (R233); another domain's write is denied (R241). -/
def doCshForcedRelease (dom n : Nat) (v : Word) (s : State) : State :=
  s.hostWrite dom (Reg.CSH_FREL n) fun s => s.releaseBuf dom n (fld v 1 0) (Reg.CSH_FREL n)

/-- Meaning of CSH_FORCED_RELEASE. -/
def execCshForcedRelease (dom n : Fin 16) (v : Word) (s : State) : Host.Outcome State Fault Refusal :=
  .next (doCshForcedRelease dom.val n.val v s)

end Sys2Proof.Machine
end

