-- ==== Sys2Proof/Machine/Apply.lean ====
section
/-! DEFINITION. Staged registers and apply points (R216–R220), with what an apply point checks and does:
period pairs (R174), serial templates (R164), pin settings (R309), spool rings (R131), segments kept
ready for jump vectors (R104, R126) and idle levels (R167). -/

namespace Sys2Proof.Machine

open Sys2Proof

/-! ### Jump vectors (R104) -/

/-- Find the segments to keep ready for enabled jump vector `k` of SQn (R104), and read their descriptors (R123). -/
def State.keepFor (s : State) (n k : Nat) : State :=
  let u := s.sq n
  let jv := s.apv (Reg.SEQ_JVEC n k)
  let segs := if bit jv 31 then
      ((s.firstPlays n (jumpProg jv u.prog.pc u.prog)).map (s.foundSeg n)).flatten
    else []
  forEach segs (fun e s => s.takeCopy n e) ((s.setSq n { u with kept := kset (fun _ => []) u.kept k segs }).pruneCopies n)

/-- The descriptor of the leader that SEQ_LEADER names is read (R123). -/
def State.leaderCopy (s : State) (n : Nat) : State :=
  let l := s.apv (Reg.SEQ_LEADER n)
  let s := s.pruneCopies n
  if bit l 31 then s.takeCopy n (fld l 15 0) else s

/-! ### Staged registers (R216) -/

/-- The sequencer that the staged register at `a` belongs to; none for a channel in no site. -/
def State.stagedOwner (s : State) (a : Nat) : Option Nat :=
  if a < 0x400000 then some ((a - 0x200000) / 0x10000)
  else if a < 0x600000 then some ((a - 0x400000) / 0x1000)
  else s.seqOfCh (a % 0x100000 / 0x1000 % 128)

/-- The registers with a staged write that belong to SQn. -/
def State.stagedOf (s : State) (n : Nat) : List Nat :=
  (s.staged.map Prod.fst).filter fun a => s.stagedOwner a == some n

/-- CHN_SER of channel `c` at an apply point (R164): a newly set bit whose set's entry 0x0 breaks the
template rules keeps its old value, is recorded and raises a NOTE fault. -/
def State.serApply (s : State) (c : Nat) : State :=
  let a := Reg.CHN_SER c
  let new := s.rd a
  let old := s.apv a
  let bad := (List.range 32).filter fun t =>
    bit new t && !bit old t && !serialOk (slotsOf (s.sramRd (wftAddr c t 0) 40))
  let keep := new &&& ~~~ (word (maskOf bad))
  let s := (s.setApv a keep).wr a keep
  forEach bad (fun t s =>
    ((s.wrN (Reg.CHN_WFT_STAT c) (2 ^ 13 + 2 ^ 8 * t + 6)).irq (Reg.CHN_ISTAT c) 4).note (0x400 + c) 6) s

/-- A staged register outside the groups of their own takes effect: SEQ, TMG and CHN registers. -/
def State.applyOne (s : State) (a : Nat) : State :=
  if 0x600000 ≤ a ∧ a < 0x680000 ∧ a % 0x1000 = 8 then (s.serApply ((a - 0x600000) / 0x1000)).unstage a
  else (s.setApv a (s.rd a)).unstage a

/-- The period pairs staged for SQn take effect (R174). -/
def State.applyPeriods (s : State) (n : Nat) : State :=
  forEach (List.range 16) (fun e s =>
    match kget (fun _ => none) s.perStg (16 * n + e) with
    | none => s
    | some (lo, hi) =>
      let s := (s.setApv (Reg.TMG_PER_LO n e) (word lo)).setApv (Reg.TMG_PER_HI n e) (word hi)
      { s with perStg := kset (fun _ => none) s.perStg (16 * n + e) none }) s

/-- The ring that SQn's applied SPL registers name (R130). -/
def State.ringOf (s : State) (n : Nat) : Nat × Nat :=
  (s.apv (Reg.SEQ_SPL_BASE n) |>.toNat, s.apv (Reg.SEQ_SPL_LEN n) |>.toNat)

/-- SQn's spool takes its applied ring (R131): SEQ_SPL_RD takes the base, entries of the ring left that were seen
ready and not started become inactive, and their copies go (R123); what a queued SPOOL has read of the new ring stands. -/
def State.takeRing (s : State) (n : Nat) : State :=
  let r := s.ringOf n
  let u := s.sq n
  let got := u.ringPend && u.nring == r
  ((s.setSq n { u with ringBase := r.1, ringLen := r.2, ready := if got then u.nready else [],
                       readyAt := if got then u.nreadyAt else [], warned := u.warned && u.ringPend,
                       ringPend := false, nring := (0, 0), nready := [], nreadyAt := [] }).pruneCopies n).wrN
    (Reg.SEQ_SPL_RD n) (r.1 % 65536)

/-- A SPOOL instruction plays: its entry, or an underrun leader repeat (R131). -/
def SeqUnit.spooling (u : SeqUnit) : Bool :=
  u.resume.isSome || (match u.cur with | some c => c.item.kind == .spool | none => false)

/-- A ring change applied while no SPOOL plays takes effect at once; one applied while a SPOOL plays waits for its end,
and what was read for an earlier one that waits is discarded (R131). -/
def State.ringChange (s : State) (n : Nat) : State :=
  if (s.sq n).spooling then
    (s.setSq n { s.sq n with ringPend := true, nring := (0, 0), nready := [], nreadyAt := [] }).pruneCopies n
  else s.takeRing n

/-- A ring change that waits takes effect once no SPOOL plays any more (R131). -/
def State.ringFollows (s : State) (n : Nat) : State :=
  if (s.sq n).ringPend && !(s.sq n).spooling then s.takeRing n else s

/-- The registers of an address list that lie in a block range, by channel number. -/
def chansIn (base top : Nat) (l : List Nat) : List Nat :=
  ((l.filter fun a => decide (base ≤ a ∧ a < top)).map fun a => (a - base) / 0x1000).dedup

/-- The apply point in 2^-16 tick: the vector boundary of a sequencer that plays, else the present tick. -/
def State.applyTime (s : State) (n : Nat) : Nat := if s.seqPlays n then (s.sq n).acc else 65536 * s.mt

/-- A CHN_IDLE change acts at the apply point on a channel that is idle (R167). Outside play the driver holds LEVEL
whatever CODE_EN is: CODE plays in vectors (R166). -/
def State.idleLevelNow (s : State) (c : Nat) : State :=
  match s.seqOfCh c with
  | some n =>
    if s.seqPlays n then s.idleEnter c (s.applyTime n)
    else s.idleLevel c (if s.seqStopped n then 65536 * s.mt else max (65536 * s.mt) (s.sq n).acc)
  | none => s

/-- Every completed staged write of SQn takes effect together (R218). -/
def State.applyStaged (s : State) (n : Nat) : State :=
  let l := s.stagedOf n
  let pel := chansIn 0xC00000 0xD00000 l
  let idle := (l.filter fun a => decide (0x600000 ≤ a ∧ a < 0x680000) && a % 0x1000 == 0xC).map
    fun a => (a - 0x600000) / 0x1000
  let jvs := (List.range 4).filter fun k => l.contains (Reg.SEQ_JVEC n k)
  let ring := s.ringOf n
  let s := s.applyPeriods n
  let s := forEach (l.filter fun a => !(0xC00000 ≤ a && a < 0xD00000) && !(0x400000 ≤ a && a < 0x600000))
    (fun a s => s.applyOne a) s
  let s := forEach pel (fun c s => s.pelApply c) s
  let s := if s.ringOf n == ring then s else s.ringChange n
  let s := if s.seqRuns n then
      (let s := forEach jvs (fun k s => s.keepFor n k) s
       if l.contains (Reg.SEQ_LEADER n) then s.leaderCopy n else s)
    else s
  forEach (idle.filter fun c => (s.ch c).idle) (fun c s => s.idleLevelNow c) s

/-- GLB_STG_HOLD holds SQn's staged writes at segment ends (R220). -/
def State.stgHold (s : State) (n : Nat) : Bool := bit (s.rd Reg.GLB_STG_HOLD) n
/-- Clear SQn's hold bit (R220). -/
def State.stgRelease (s : State) (n : Nat) : State := s.wrF Reg.GLB_STG_HOLD n n 0

/-- A write of `v` to the staged register at `a` (R5, R216): it stays staged, or takes effect at once for
a channel in no site. -/
def State.stageWrite (s : State) (a : Nat) (v : Word) : State :=
  let s := { s.wr a v with staged := kset (fun _ => false) s.staged a true }
  match s.stagedOwner a with
  | some _ => s
  | none =>
    if 0xC00000 ≤ a ∧ a < 0xD00000 then s.pelApply ((a - 0xC00000) / 0x1000) else s.applyOne a

/-! ### Drop-out (R106–R108) -/

/-- Site `t` of SQn drops out at the boundary the play front stands at: its channels enter their idle
waveforms, and it is active no more. -/
def State.dropSite (s : State) (n t : Nat) (byHost : Bool) : State :=
  let u := s.sq n
  let r := siteRun u.sites t
  if !r.active then s
  else
    let r' := { r with active := false, byHost := byHost, dropVec := some u.vcnt }
    let s := s.setSq n { u with sites := setSiteRun u.sites t r' }
    let s := s.irq (Reg.SEQ_ISTAT n) 32
    forEach ((s.ownedChans n).filter fun c => s.siteOfCh c == some t) (fun c s => s.idleEnter c (s.applyTime n)) s

/-- The requested drops of SQn act at an apply point (R107). -/
def State.hostDrops (s : State) (n : Nat) : State :=
  let m := (s.sq n).dropReq
  let s := s.setSq n { s.sq n with dropReq := 0 }
  forEach (bitsOf 64 m) (fun t s => s.dropSite n t true) s

end Sys2Proof.Machine
end

