-- ==== Sys2Proof/Machine/PlayFront.lean ====
section
/-! DEFINITION. The play front of a sequencer (R73–R143): ends of runs, point actions, spools and
underruns, jump requests, and what comes about at a segment end. -/

namespace Sys2Proof.Machine

open Sys2Proof

/-- Stop causes of R113. -/
def causeHALT : Nat := 1
def causeHOST : Nat := 2
def causeUNDERRUN : Nat := 3
def causeFAULT : Nat := 4
def causeSTRUCTURE : Nat := 5
def causeALLDROPPED : Nat := 6

/-! ### The end of a run (R113, R132) -/

/-- Word 3 of spool entry `e` of SQn is written back (R132). -/
def State.spoolWriteBack (s : State) (n e : Nat) (cut : Bool) : State :=
  let a := segEntry n e + 12
  let q : DramReq := { cls := 5, id := n, rkind := 3 }
  let g := s.dramGet q a 4
  g.1.dramPut { q with typ := 1 } 0 a (leBytes 4 (leNat g.2 % 2 ^ 29 + 2 ^ 30 + b2n cut * 2 ^ 29))

/-- The spool entry at the play front, if it is one, is written back. -/
def State.writeBackCur (s : State) (n : Nat) : State :=
  match (s.sq n).cur with
  | some c => if c.item.kind == .spool then s.spoolWriteBack n c.seg (decide (c.pos < c.desc.nvec)) else s
  | none => s

/-- The repeats of a MATCH that began: all before the one at the play front, and that one once a vector of it has
played (R93). -/
def CurPlay.begun (c : CurPlay) : Nat := if c.pos = 0 then c.rep - 1 else c.rep

/-- The play front lets its play go; SEQ_MATCH records how many repeats of a MATCH began (R93). -/
def State.clearCur (s : State) (n : Nat) : State :=
  let s := match (s.sq n).cur with
    | some c => if c.item.kind == PlayKind.matching then s.wrN (Reg.SEQ_MATCH n) c.begun else s
    | none => s
  s.setSq n { s.sq n with cur := none }

/-- The edge FIFO of channel `c` holds the entries of a list of vectors, and CHN_FIFO.FILL shows how many (R30). -/
def State.setFifo (s : State) (c : Nat) (l : List Nat) : State :=
  (s.setCh c { s.ch c with fifo := l }).wrF (Reg.CHN_FIFO c) 6 0 l.length

/-- Play of SQn ends at the boundary its play front stands at, with a stop cause (R113): the closing
epoch closes, the pins go to their idle levels, the fronts rest, and the state is STOPPING. -/
def State.endRun (s : State) (n cause : Nat) : State :=
  let plays := s.seqPlays n
  let s := s.writeBackCur n
  let s := s.closeRun n cause
  let b := (s.sq n).acc
  let s := if plays then forEach (s.ownedChans n) (fun c s => (s.idleLevel c b).setFifo c []) s else s
  let s := s.clearCur n
  let s := s.setSq n { s.sq n with queue := [], resume := none, decodeHalt := true, stopReq := false, ready := [],
                                   readyAt := [], nready := [], nreadyAt := [], kept := [], copies := [],
                                   prefetch := [], syncGroup := none, syncReached := false }
  let s := s.ringFollows n
  let a := Reg.SEQ_STAT n
  ((s.wrF a 14 12 0).wrF a 10 8 cause).wrF a 2 0 4

/-- The sequencer itself raises a SITE-class fault (R113, R114): code and address recorded, the fault
reported, and the run ends with cause FAULT. -/
def State.selfFault (s : State) (n code pc : Nat) : State :=
  let s := (s.wrN (Reg.SEQ_FCODE n) code).wrN (Reg.SEQ_FPC n) (pc % 2 ^ 20)
  let s := s.detect { src := 0x200 + n, cls := 2, code := code, seqNamed := some n, selfRaised := true }
  s.endRun n causeFAULT

/-- The play at the play front plays another repeat, or another spool entry, after the one that has ended. -/
def State.goesOn (s : State) (n : Nat) (c : CurPlay) : Bool :=
  match c.item.kind with
  | .waitt => !c.wsat && !(c.item.reps ≠ 0 && c.rep == c.item.reps)
  | .matching => !(c.item.reps ≠ 0 && c.rep == c.item.reps)
  | .spool => !((c.item.reps ≠ 0 && decide (c.item.reps ≤ (s.sq n).spoolN)) || (c.item.reps == 0 && c.desc.endMark))
  | .urLeader => true
  | _ => decide (c.rep ≤ c.item.reps)

/-! ### Actions at a play point (R75) -/

/-- Do a point action at the play front's boundary. -/
def State.pointDo (s : State) (n : Nat) : PointOp → State
  | .sett k => s.wrF (Reg.SEQ_SEL n) 4 0 k
  | .setm k => s.wrF (Reg.SEQ_SEL n) 11 8 k
  | .setp k => s.wrF (Reg.SEQ_SEL n) 19 16 k
  | .flag c m => s.wrN (Reg.SEQ_FLAGS n) (((s.rdF (Reg.SEQ_FLAGS n) 7 0) &&& (255 - c)) ||| m)
  | .sig a =>
    let e := bits a 3 0
    let t := ((s.sq n).acc + 65535) / 65536
    let s := if bits a 8 8 = 1 then s.syncSoon 0 e t else s
    let s := if bits a 9 9 = 1 then s.peerSync e t else s
    if bits a 10 10 = 1 then s.xtPulse n (bits a 13 11) t else s
  | .epoch tag => s.closeEpoch n tag 0
  | .halt => s.endRun n causeHALT

/-! ### Repeats and spools (R83–R85, R130–R140) -/

/-- A segment repeat begins at the play front: what the registers show of it. -/
def State.beginRepeat (s : State) (n : Nat) (c : CurPlay) : State :=
  let ur := c.item.kind == .urLeader
  let s := s.setSq n { s.sq n with cur := some c, lastPc := c.item.pc }
  let s := s.wrN (Reg.SEQ_SEG n) (b2n c.desc.loc * 2 ^ 31 + b2n ur * 2 ^ 30 + c.seg)
  let s := s.wrN (Reg.SEQ_PC n) c.item.pc
  let a := Reg.SEQ_STAT n
  ((s.wrF a 14 14 (b2n (c.item.kind == .matching))).wrF a 13 13 (b2n ur)).wrF a 2 0
    (if c.item.kind == .waitt then 3 else 2)

/-- Nothing is at the play front. -/
def State.frontIdle (s : State) (n : Nat) : State :=
  let s := s.clearCur n
  let a := Reg.SEQ_STAT n
  (s.wrF a 14 13 0).wrF a 2 0 2

/-- The ring entry after `e` in SQn's ring in use (R130). -/
def SeqUnit.ringNext (u : SeqUnit) (e : Nat) : Nat :=
  let i := (e + 65536 - u.ringBase % 65536) % 65536
  (u.ringBase + (i + 1) % u.ringLen) % 65536

/-- The first of the ring entries seen ready was seen in time for boundary `b`: during priming, or 1,024 vectors before
(R136, R138). -/
def readyFor (seen : List Nat × KMap Nat) (b : Nat) : Bool :=
  match seen.1 with
  | [] => false
  | e :: _ =>
    let at_ := kget (fun _ => 0) seen.2 e
    decide (at_ = 0 ∨ at_ + 1024 ≤ b)

/-- The spool entry due is ready for the boundary the play front stands at (R136, R138). -/
def SeqUnit.spoolReady (u : SeqUnit) : Bool := readyFor (u.ready, u.readyAt) u.vcnt

/-- An underrun warning (R136): counted once for the entry due. -/
def State.urWarn (s : State) (n : Nat) : State :=
  let u := s.sq n
  if u.warned then s
  else ((s.setSq n { u with warned := true }).count (Reg.SEQ_UR_WARN n) 1).irq (Reg.SEQ_ISTAT n) 2

/-- An underrun leader repeat begins (R140, R141); `first` in this underrun. -/
def State.leaderRepeat (s : State) (n : Nat) (p : PlayItem) (first : Bool) : State :=
  let l := s.apv (Reg.SEQ_LEADER n)
  if !bit l 31 then s.selfFault n 0x08 p.pc
  else
    match s.entryDesc n (fld l 15 0) with
    | (s, none) => s.selfFault n 0x09 p.pc
    | (s, some d) =>
      if !d.loc then s.selfFault n 0x08 p.pc
      else
        let s := s.count (Reg.SEQ_LDR_CNT n) 1
        let s := if first then s.irq (Reg.SEQ_ISTAT n) 4 else s
        let s := s.setSq n { s.sq n with resume := some p }
        s.beginRepeat n { item := { p with kind := .urLeader }, first := (s.sq n).vcnt, seg := fld l 15 0, desc := d }

/-- The spool entry due starts at the boundary, or the underrun policy applies (R136, R139, R140). Its READY mark is
spent: a ring that waits sees it anew after the write-back (R134). -/
def State.spoolNext (s : State) (n : Nat) (p : PlayItem) (first : Bool) : State :=
  let u := s.sq n
  if u.spoolReady then
    let e := s.rdF (Reg.SEQ_SPL_RD n) 15 0
    match s.entryDesc n e with
    | (s, none) => s.selfFault n 0x09 p.pc
    | (s, some d) =>
      if d.loc then s.selfFault n 0x08 p.pc
      else
        let s := s.wrN (Reg.SEQ_SPL_RD n) (u.ringNext e)
        let s := s.setSq n { u with ready := u.ready.drop 1, readyAt := kset (fun _ => 0) u.readyAt e 0,
                                    nready := u.nready.takeWhile (· != e), warned := false, resume := none,
                                    spoolN := u.spoolN + 1 }
        let s := s.pruneCopies n
        s.beginRepeat n { item := p, first := (s.sq n).vcnt, seg := e, desc := d }
  else
    let s := s.urWarn n
    if bit (s.apv (Reg.SEQ_CTL n)) 0 then s.leaderRepeat n p first else s.endRun n causeUNDERRUN

/-- A queued play reaches the play front. -/
def State.beginPlay (s : State) (n : Nat) (p : PlayItem) : State :=
  match p.kind with
  | .spool =>
    if (s.sq n).ringLen = 0 then s.selfFault n 0x0E p.pc
    else (s.setSq n { s.sq n with spoolN := 0 }).spoolNext n p true
  | .waitt =>
    let s := if p.clr then s.consumeTrig n (s.trigSet n p.tset) else s
    s.beginRepeat n { item := p, first := (s.sq n).vcnt, seg := p.seg, desc := p.desc }
  | _ => s.beginRepeat n { item := p, first := (s.sq n).vcnt, seg := p.seg, desc := p.desc }

/-- The play front runs through queued point actions until a play is at it, the queue is empty or the run
ends; at most `fuel` entries. -/
def State.frontRun (s : State) (n : Nat) : Nat → State
  | 0 => s
  | fuel + 1 =>
    let u := s.sq n
    if u.cur.isSome || !s.seqPlays n then s
    else
      match u.queue with
      | [] => s
      | .point op _ :: q => ((s.setSq n { u with queue := q }).pointDo n op).frontRun n fuel
      | .play p :: q => (s.setSq n { u with queue := q }).beginPlay n p

/-- Run the play front through the whole queue. -/
def State.front (s : State) (n : Nat) : State := s.frontRun n ((s.sq n).queue.length + 1)

/-! ### Jump requests (R103–R105) -/

/-- The jump vectors whose requests have been sampled and are enabled, lowest first. -/
def State.jumpsDue (s : State) (n : Nat) : List Nat :=
  let p := s.rdF (Reg.SEQ_JPEND n) 3 0
  let j := (s.sq n).jreq
  (List.range 4).filter fun k => p.testBit k && !j.testBit k && bit (s.apv (Reg.SEQ_JVEC n k)) 31

/-- Requests of vectors that are not enabled are discarded (R105). -/
def State.jumpsDiscard (s : State) (n : Nat) : State :=
  forEach (List.range 4) (fun k s =>
    if bit (s.apv (Reg.SEQ_JVEC n k)) 31 then s else s.wrF (Reg.SEQ_JPEND n) k k 0) s

/-- The jump request of vector `k` takes effect at the segment end (R104, R143): the rest of the work is
abandoned, and decode continues at TARGET with the program state of the play that ends. A CALL vector that finds 16
addresses on the stack faults at the play instruction that the jump abandons (log entry 90). -/
def State.takeJump (s : State) (n k : Nat) (c : CurPlay) : State :=
  let s := s.wrF (Reg.SEQ_JPEND n) k k 0
  let jv := s.apv (Reg.SEQ_JVEC n k)
  let p := c.item.prog
  if bit jv 30 && decide (16 ≤ p.stack.length) then s.selfFault n 0x05 c.item.pc
  else
    let s := s.frontIdle n
    let u := s.sq n
    let s := s.setSq n { u with queue := [], resume := none, decodeHalt := false, sincePlay := 0,
                                branch := false, jtaken := true, warned := false, prefetch := [],
                                prog := jumpProg jv p.pc p }
    (s.pruneCopies n).ringFollows n

/-! ### Segment ends (R142) -/

/-- L of R93: repeats a MATCH of `nv` vectors plays on after the first that passes. -/
def matchLag (nv : Nat) : Nat := (384 + nv - 1) / nv

/-- How a MATCH stands at the end of its repeat (R93): it ends without TO, ends with TO, or goes on. -/
def matchEnds (c : CurPlay) : Option Bool :=
  let l := matchLag c.desc.nvec
  if (List.range (c.rep - l)).any fun i => !c.mfails.any fun f => f.1 == i + 1 then some false
  else if c.item.reps ≠ 0 ∧ c.rep = c.item.reps then some true
  else none

/-- How a WAITT stands at the end of its repeat (R91): it has found its trigger, times out, or goes on. -/
def waittEnds (c : CurPlay) : Option Bool :=
  if c.wsat then some false
  else if c.item.reps ≠ 0 ∧ c.rep = c.item.reps then some true
  else none

/-- The instruction at the play front is done; the play front goes on. -/
def State.playDone (s : State) (n : Nat) : State := ((s.frontIdle n).ringFollows n).front n

/-- Set the TO bit. -/
def State.setTO (s : State) (n : Nat) (b : Bool) : State := s.wrF (Reg.SEQ_STAT n) 15 15 (b2n b)

/-- Active sites of SQn that drop out automatically at the boundary the play front stands at (R106). -/
def State.dropDue (s : State) (n : Nat) : List Nat :=
  let u := s.sq n
  (s.activeSites n).filter fun t =>
    bit (s.apv (if t < 32 then Reg.SEQ_DROPEN_LO n else Reg.SEQ_DROPEN_HI n)) (t % 32) &&
      (siteRun u.sites t).failAt u.vcnt

/-- The sites that a MATCH timeout sets the fail state of (R93). -/
def matchFailSites (c : CurPlay) (active : List Nat) : List Nat :=
  let l := matchLag c.desc.nvec
  if c.item.reps ≤ l then active
  else active.filter fun t => c.mfails.any fun f => f.1 == c.item.reps - l && f.2 == t

/-- A MATCH ends (R93, R208). -/
def State.matchFinish (s : State) (n : Nat) (c : CurPlay) (tmo : Bool) : State :=
  let s := s.setTO n tmo
  if !tmo then s
  else
    let s := s.irq (Reg.SEQ_ISTAT n) 8
    let ts := matchFailSites c (s.activeSites n)
    let u := s.sq n
    let s := s.setSq n { u with
      sites := forEach ts (fun t m => setSiteRun m t { siteRun m t with byMatch := true }) u.sites }
    forEach (s.dropDue n) (fun t s => s.dropSite n t false) s

/-- No site of SQn remains active and KEEP_EMPTY is 0 (R108). -/
def State.allDropped (s : State) (n : Nat) : Bool :=
  (s.activeSites n).isEmpty && !bit (s.rd (Reg.SEQ_CTL n)) 1

/-- What the instruction at the play front does at the end of a repeat when nothing of R142 comes first. -/
def State.continuePlay (s : State) (n : Nat) (c : CurPlay) : State :=
  let again := s.beginRepeat n { c with pos := 0, rep := c.rep + 1, wsat := false }
  match c.item.kind with
  | .waitt =>
    match waittEnds c with
    | some true => ((s.setTO n true).irq (Reg.SEQ_ISTAT n) 16).playDone n
    | some false => (s.setTO n false).playDone n
    | none => again
  | .matching =>
    match matchEnds c with
    | some tmo =>
      let s := s.matchFinish n c tmo
      if s.allDropped n then s.endRun n causeALLDROPPED else s.playDone n
    | none => again
  | .spool =>
    let p := c.item
    if (p.reps ≠ 0 ∧ p.reps ≤ (s.sq n).spoolN) ∨ (p.reps = 0 ∧ c.desc.endMark) then s.playDone n
    else s.spoolNext n p true
  | .urLeader =>
    match (s.sq n).resume with
    | some p => s.spoolNext n p false
    | none => s.playDone n
  | _ => if c.rep ≤ c.item.reps then again else s.playDone n

/-- The end of the segment repeat at SQn's play front (R142): drop requests and staged writes take effect,
then the first of STOP, no active site, a jump request and the continuation. -/
def State.segmentEnd (s : State) (n : Nat) (c : CurPlay) : State :=
  let s := s.writeBackCur n
  let s := s.hostDrops n
  let s := if s.stgHold n then s else s.applyStaged n
  let s := s.jumpsDiscard n
  if (s.sq n).stopReq then (s.clearCur n).endRun n causeHOST
  else if s.allDropped n then (s.clearCur n).endRun n causeALLDROPPED
  else
    match s.jumpsDue n with
    | k :: _ => s.takeJump n k c
    | [] => s.continuePlay n c

/-- The play front of SQn stands at the end of a repeat, with every drop-out and result due there done
(R106, R206). -/
def State.atSegmentEnd (s : State) (n : Nat) : Option CurPlay :=
  match (s.sq n).cur with
  | some c =>
    if s.seqPlays n && decide (c.desc.nvec ≤ c.pos) && (s.dropDue n).isEmpty &&
        s.resultsBefore n ((s.sq n).vcnt - 383) then some c else none
  | none => none

/-- SEGMENT_END: the end of a repeat that is no WAITT timeout and no end of a MATCH. -/
def doSegmentEnd (n : Nat) (s : State) : State :=
  match s.atSegmentEnd n with
  | some c =>
    s.whenDue (!(c.item.kind == .waitt && waittEnds c == some true) &&
      !(c.item.kind == .matching && (matchEnds c).isSome)) fun s => s.segmentEnd n c
  | none => s

/-- Meaning of SEGMENT_END. -/
def execSegmentEnd (n : Fin 16) (s : State) : Host.Outcome State Fault Refusal := .next (doSegmentEnd n.val s)

/-- WAITT_TIMEOUT: the last repeat of a WAITT ends without the trigger (R91). -/
def doWaittTimeout (n : Nat) (s : State) : State :=
  match s.atSegmentEnd n with
  | some c => s.whenDue (c.item.kind == .waitt && waittEnds c == some true) fun s => s.segmentEnd n c
  | none => s

/-- Meaning of WAITT_TIMEOUT. -/
def execWaittTimeout (n : Fin 16) (s : State) : Host.Outcome State Fault Refusal :=
  .next (doWaittTimeout n.val s)

/-- MATCH_END: a MATCH ends at the end of its repeat k + L, or of repeat B (R93). -/
def doMatchEnd (n : Nat) (s : State) : State :=
  match s.atSegmentEnd n with
  | some c => s.whenDue (c.item.kind == .matching && (matchEnds c).isSome) fun s => s.segmentEnd n c
  | none => s

/-- Meaning of MATCH_END. -/
def execMatchEnd (n : Fin 16) (s : State) : Host.Outcome State Fault Refusal := .next (doMatchEnd n.val s)

/-! ### Spool polling and check points (R134–R138) -/

/-- The decode front stands at a Late-class or Trigger-class instruction of which a path comes to a SPOOL, whose
first segment the module prefetches (R101). -/
def State.spoolAhead (s : State) (n : Nat) : Bool :=
  let u := s.sq n
  let i := s.fetchSeq n u.prog.pc
  !u.decodeHalt && s.pcInRange n u.prog.pc && opTakesCond i.op && condClass i.cond != .program &&
    (s.findBoth n (u.budget - 1) i u.prog).any fun f => match f with | .play _ j => j.op == 0x12 | _ => false

/-- SQn's decode front has queued a SPOOL or comes to one by a branch (R101, R134). -/
def State.spoolWaits (s : State) (n : Nat) : Bool :=
  ((s.sq n).queue.any fun q => match q with | .play p => p.kind == .spool | _ => false) || s.spoolAhead n

/-- A SPOOL plays on the ring it began with, and a ring change applied since waits for its end (R131). -/
def State.ringWaits (s : State) (n : Nat) : Bool := (s.sq n).spooling && (s.sq n).ringPend

/-- The ring entry after `e` in a ring (R130). -/
def ringAfter (r : Nat × Nat) (e : Nat) : Nat :=
  let i := (e + 65536 - r.1 % 65536) % 65536
  (r.1 + (i + 1) % r.2) % 65536

/-- The next ring entry not yet seen ready (R134). -/
def State.nextUnseen (s : State) (n : Nat) : Nat :=
  let u := s.sq n
  match u.ready.getLast? with
  | some e => u.ringNext e
  | none => s.rdF (Reg.SEQ_SPL_RD n) 15 0

/-- The spool entry that plays. -/
def SeqUnit.spoolSeg (u : SeqUnit) : Option Nat :=
  match u.cur with
  | some c => if c.item.kind == .spool then some c.seg else none
  | none => none

/-- The entries of the ring in use that are seen ready or play: the entry that plays is not read again before its
play has ended and it is written back (R132, R134). -/
def SeqUnit.ringTaken (u : SeqUnit) : Nat := u.ready.length + b2n u.spoolSeg.isSome

/-- The descriptor of the next entry of the ring in use is read. -/
def State.pollsRing (s : State) (n : Nat) : Bool :=
  ((s.sq n).spooling || (s.spoolWaits n && !s.ringWaits n)) && decide ((s.sq n).ringTaken < (s.sq n).ringLen)

/-- What is seen ready of a ring that waits. -/
def State.nextSeen (s : State) (n : Nat) : List Nat := if (s.sq n).nring = s.ringOf n then (s.sq n).nready else []


/-- The next entry not yet seen ready of the ring that waits. -/
def State.nextOfNew (s : State) (n : Nat) : Nat :=
  match (s.nextSeen n).getLast? with
  | some e => ringAfter (s.ringOf n) e
  | none => (s.ringOf n).1 % 65536

/-- The descriptor of the next entry of the ring that waits is read, for a SPOOL queued (R131); an entry that plays only
after its write-back (R132). -/
def State.pollsNext (s : State) (n : Nat) : Bool :=
  s.ringWaits n && s.spoolWaits n && decide ((s.nextSeen n).length < (s.ringOf n).2) &&
    (s.sq n).spoolSeg != some (s.nextOfNew n)

/-- What is seen ready, with the vector counts, of the ring that the next entry comes from: the ring in use for the
SPOOL that plays (`same`), and the ring that waits, if any, for one behind it (R131). -/
def State.seenNext (s : State) (n : Nat) (same : Bool) : List Nat × KMap Nat :=
  let u := s.sq n
  if s.ringWaits n && !same then (s.nextSeen n, u.nreadyAt) else (u.ready, u.readyAt)

/-- The descriptor of an entry whose READY mark is seen: the copy it plays from already, or what the table holds
(R123). -/
def State.seenDesc (s : State) (n e : Nat) : Option Desc := ((s.sq n).copyOf e).getD (s.readDesc n e)

/-- The READY mark of entry `e` in what a table read returned makes the entry active, and its descriptor is kept
(R123, R126, R134). -/
def markSeen (n e : Nat) (r : State × Bool) : State :=
  let u := r.1.sq n
  if !r.2 && r.1.readyMark n e then
    r.1.setSq n { u with ready := u.ready ++ [e], readyAt := kset (fun _ => 0) u.readyAt e u.vcnt,
                         copies := kset (fun _ => none) u.copies e (some (r.1.seenDesc n e)) }
  else r.1

/-- The same of the ring that waits. -/
def markNext (n e : Nat) (r : State × Bool) : State :=
  let u := r.1.sq n
  let l := r.1.nextSeen n
  if !r.2 && r.1.readyMark n e then
    r.1.setSq n { u with nring := r.1.ringOf n, nready := l ++ [e],
                         nreadyAt := kset (fun _ => 0) (if u.nring = r.1.ringOf n then u.nreadyAt else []) e u.vcnt,
                         copies := kset (fun _ => none) u.copies e (some (r.1.seenDesc n e)) }
  else r.1

/-- A read of the descriptor of entry `e` by the decode front of SQn. -/
def State.pollEntry (s : State) (n e : Nat) : State × Bool :=
  s.dramAsk { cls := 5, id := n, rkind := 3 } 0 (segEntry n e) 16

/-- SPOOL_READY_POLL: the module reads the descriptor of the next spool entry not yet seen ready, of the ring in use
and of one that waits; a READY mark makes the entry active (R126, R131, R134). -/
def doSpoolReadyPoll (n : Nat) (s : State) : State :=
  s.whenDue (s.seqRuns n && (s.pollsRing n || s.pollsNext n)) fun s =>
    let s := if s.pollsRing n then markSeen n (s.nextUnseen n) (s.pollEntry n (s.nextUnseen n)) else s
    if s.pollsNext n then markNext n (s.nextOfNew n) (s.pollEntry n (s.nextOfNew n)) else s

/-- Meaning of SPOOL_READY_POLL. -/
def execSpoolReadyPoll (n : Fin 16) (s : State) : Host.Outcome State Fault Refusal :=
  .next (doSpoolReadyPoll n.val s)

/-- How far the queue fixes what plays. -/
inductive QueueEnd where
  /-- It comes to a SPOOL. -/
  | spool
  /-- It ends. -/
  | ends
  /-- It comes to a WAITT or a MATCH, whose end is open. -/
  | isOpen
  deriving DecidableEq, Repr

/-- Vectors until the queue reaches a SPOOL, its end, or a play whose end is open (R136, R137). -/
def queueVectors : List QItem → Nat × QueueEnd
  | [] => (0, .ends)
  | .point .. :: q => queueVectors q
  | .play p :: q =>
    match p.kind with
    | .spool => (0, .spool)
    | .waitt => (0, .isOpen)
    | .matching => (0, .isOpen)
    | _ => let r := queueVectors q; (r.1 + (p.reps + 1) * p.desc.nvec, r.2)

/-- A MATCH at its commit point or later is known to end with its present repeat (R93, R137). -/
def State.matchEndKnown (s : State) (n : Nat) (c : CurPlay) : Bool :=
  (c.item.reps ≠ 0 && c.rep == c.item.reps) ||
    (decide (c.desc.nvec < c.pos + 64) && (matchEnds c).isSome &&
      s.resultsBefore n ((s.sq n).vcnt - c.pos - (matchLag c.desc.nvec - 1) * c.desc.nvec))

/-- The play at the play front is known to end with its present repeat. -/
def State.endKnown (s : State) (n : Nat) (c : CurPlay) : Bool :=
  if c.item.kind == .matching then s.matchEndKnown n c else !s.goesOn n c

/-- The Trigger-class instruction at the decode front is decided by the sample of the commit point of the segment that
plays, and its path comes to a SPOOL (R82, R137). -/
def State.trigToSpool (s : State) (n : Nat) : Bool :=
  let u := s.sq n
  let i := s.fetchSeq n u.prog.pc
  let sampled := match u.cur with
    | some c => decide (c.desc.nvec < c.pos + 64) && s.endKnown n c
    | none => true
  !u.decodeHalt && s.pcInRange n u.prog.pc && opTakesCond i.op && condClass i.cond == .trigger && u.plays == 0 && sampled &&
    (let sat := trigAny (s.trigNow n) (s.trigSet n (i.b % 8))
     match (s.findBoth n (u.budget - 1) i u.prog).getD (if (i.cond == 0xE) == sat then 0 else 1) .halt with
     | .play _ j => j.op == 0x12
     | _ => false)

/-- Vectors from the end of the play at the play front to the next spool entry due, where they are fixed. -/
def State.vectorsAhead (s : State) (n : Nat) : Option Nat :=
  match queueVectors (s.sq n).queue with
  | (k, .spool) => some k
  | (k, .ends) => if s.trigToSpool n then some k else none
  | (_, .isOpen) => none

/-- The vector boundary at which SQn's next spool entry is due, where it is fixed (R136, R137). Leader repeats
raise no further warning (R140). -/
def State.spoolDue (s : State) (n : Nat) : Option Nat :=
  let u := s.sq n
  match u.cur with
  | none => (s.vectorsAhead n).map (· + u.vcnt)
  | some c =>
    let at_ := u.vcnt + (c.desc.nvec - c.pos)
    let after := (s.vectorsAhead n).map (· + at_)
    match c.item.kind with
    | .urLeader => none
    | .spool => if s.goesOn n c then some at_ else after
    | .waitt => if s.goesOn n c then none else after
    | .matching => if s.matchEndKnown n c then after else none
    | _ => after.map (· + (c.item.reps + 1 - c.rep) * c.desc.nvec)

/-- The SPOOL at the play front goes on with another entry. -/
def State.spoolGoesOn (s : State) (n : Nat) : Bool :=
  match (s.sq n).cur with
  | some c => c.item.kind == .spool && s.goesOn n c
  | none => false

/-- A check point is reached, 1,024 vectors before a spool boundary or where a later boundary has become fixed, with
an entry not seen ready by the check point (R136–R138). -/
def State.checkDue (s : State) (n : Nat) : Bool :=
  s.seqPlays n && !(s.sq n).warned &&
    match s.spoolDue n with
    | some b => decide (b ≤ (s.sq n).vcnt + 1024) && !readyFor (s.seenNext n (s.spoolGoesOn n)) b
    | none => false

/-- SPOOL_CHECK_POINT: an underrun warning is raised (R136–R138). -/
def doSpoolCheckPoint (n : Nat) (s : State) : State := s.whenDue (s.checkDue n) fun s => s.urWarn n

/-- Meaning of SPOOL_CHECK_POINT. -/
def execSpoolCheckPoint (n : Fin 16) (s : State) : Host.Outcome State Fault Refusal :=
  .next (doSpoolCheckPoint n.val s)

/-! ### Drop-out, vectors, pace faults -/

/-- The play front stands at a granule boundary (R102). -/
def State.atGranule (s : State) (n : Nat) : Bool :=
  match (s.sq n).cur with
  | some c => c.pos % 64 == 0
  | none => true

/-- SITE_DROPOUT: the failing sites due drop out at a granule boundary (R106). -/
def doSiteDropout (n : Nat) (s : State) : State :=
  s.whenDue (s.seqPlays n && s.atGranule n && !(s.dropDue n).isEmpty) fun s =>
    forEach (s.dropDue n) (fun t s => s.dropSite n t false) s

/-- Meaning of SITE_DROPOUT. -/
def execSiteDropout (n : Fin 16) (s : State) : Host.Outcome State Fault Refusal :=
  .next (doSiteDropout n.val s)

/-- Trigger-sourced jump requests are raised at a granule-boundary sample (R104). Of two vectors whose sets share a
pending bit the lower takes it (log entry 90). -/
def State.sampleJumps (s : State) (n : Nat) : State :=
  forEach (List.range 4) (fun k s =>
    let jv := s.apv (Reg.SEQ_JVEC n k)
    let m := s.trigSet n (fld jv 28 26)
    if bit jv 31 && bit jv 29 && trigAny (s.tpend n) m then
      (s.wrF (Reg.SEQ_JPEND n) k k 1).consumeTrig n m
    else s) s

/-- The sample at a granule boundary (R90, R91, R103): jump triggers first, then host requests, then the
trigger of a WAITT. A later TRIG sees the sample as it was before the WAITT took its bits (log entry 88). -/
def State.granuleSample (s : State) (n : Nat) (c : CurPlay) : State :=
  let s := s.sampleJumps n
  let pend := s.tpend n
  let u := s.sq n
  let s := s.setSq n { u with jreq := 0, trigSample := some pend }
  let m := s.trigSet n c.item.tset
  if c.item.kind == .waitt && !c.wsat && (if c.item.all then trigAll pend m else trigAny pend m) then
    (s.setSq n { s.sq n with cur := some { c with wsat := true } }).consumeTrig n m
  else s

/-! ### What follows the repeat at the play front (R114, R186, R542) -/

/-- The first play or HALT of a queue: none where it has neither, `some none` for a HALT. -/
def queueFirst : List QItem → Option (Option PlayItem)
  | [] => none
  | .play p :: _ => some (some p)
  | .point .halt _ :: _ => some none
  | .point .. :: q => queueFirst q

/-- The value of a Late-class or Trigger-class condition now (R82, R99). -/
def State.condNow (s : State) (n : Nat) (i : SInstr) : Bool :=
  if condClass i.cond = .late then s.condLate n i.cond i.b
  else (i.cond == 0xE) == trigAny (s.trigNow n) (s.trigSet n (i.b % 8))

/-- The first play instruction that SQn's program comes to. A Late-class or Trigger-class instruction on the way is
decided where `dec` says so, and ends the search else. -/
def State.followPath (s : State) (dec : Bool) (n fuel : Nat) (p : Prog) : Option (Nat × SInstr) :=
  match s.findPlay n fuel p with
  | .play pc i => some (pc, i)
  | .branch i q left =>
    match (if dec then (s.findBoth n left i q).getD (if s.condNow n i then 0 else 1) .halt else .halt) with
    | .play pc j => some (pc, j)
    | _ => none
  | _ => none

/-- The play instruction that comes next in the queue or at the decode front; none where the run ends first, at a HALT
or at a SPOOL that `spools` says has neither an entry nor a leader to play. -/
def State.queueNext (s : State) (dec : Bool) (n : Nat) (spools : Bool) : Option Nat :=
  let u := s.sq n
  match queueFirst u.queue with
  | some none => none
  | some (some p) => if p.kind == .spool && !spools then none else some p.pc
  | none =>
    if u.decodeHalt then none
    else
      match s.followPath dec n u.budget u.prog with
      | some (pc, i) => if i.op == 0x12 && !spools then none else some pc
      | none => none

/-- SEQ_CTL.UR_POL as it acts at the end of the repeat that plays: a staged write takes effect there first (R217). -/
def State.urPolNext (s : State) (n : Nat) : Bool :=
  bit (if s.stgHold n then s.apv (Reg.SEQ_CTL n) else s.rd (Reg.SEQ_CTL n)) 0

/-- A SPOOL that begins or goes on at boundary `b` plays: its entry due, or the leader. -/
def State.spoolsAt (s : State) (n b : Nat) (same : Bool) : Bool := readyFor (s.seenNext n same) b || s.urPolNext n

/-- No site is active after the drop requests of the next segment end, and KEEP_EMPTY is 0 (R107, R108). -/
def State.emptyNext (s : State) (n : Nat) : Bool :=
  ((s.activeSites n).filter fun t => !(s.sq n).dropReq.testBit t).isEmpty && !bit (s.rd (Reg.SEQ_CTL n)) 1

/-- The play at the play front ends with its present repeat; none where that is not decided yet. The end of a WAITT or
of a MATCH is a decision of its class (log entry 87). -/
def State.endsNow (s : State) (dec : Bool) (n : Nat) (c : CurPlay) : Option Bool :=
  match c.item.kind with
  | .matching =>
    if dec then some (matchEnds c).isSome
    else if s.matchEndKnown n c then some true
    else if s.resultsBefore n ((s.sq n).vcnt - c.pos - (matchLag c.desc.nvec - 1) * c.desc.nvec) then some false
    else none
  | _ => some (!s.goesOn n c)

/-- A MATCH that ends leaves no active site, and the run ends (R93, R108). -/
def State.matchEmpties (s : State) (n : Nat) (c : CurPlay) : Bool :=
  c.item.kind == .matching && ((matchEnds c).any fun tmo => (s.matchFinish n c tmo).allDropped n)

/-- The play instruction that plays the vector after the repeat at SQn's play front, as R142 orders what comes about
there; none where the run ends, or where, without `dec`, a decision not yet taken comes first. -/
def State.afterRepeat (s : State) (dec : Bool) (n : Nat) (c : CurPlay) : Option Nat :=
  let b := (s.sq n).vcnt + (c.desc.nvec - c.pos)
  if (s.sq n).stopReq || s.emptyNext n then none
  else
    match s.jumpsDue n with
    | k :: _ =>
      let jv := s.apv (Reg.SEQ_JVEC n k)
      let p := c.item.prog
      if bit jv 30 && decide (16 ≤ p.stack.length) then none
      else (s.followPath dec n runawayLimit (jumpProg jv p.pc p)).map Prod.fst
    | [] =>
      match s.endsNow dec n c with
      | none => none
      | some true => if s.matchEmpties n c then none else s.queueNext dec n (s.spoolsAt n b false)
      | some false =>
        if (c.item.kind == .spool || c.item.kind == .urLeader) && !s.spoolsAt n b true then none else some c.item.pc

/-- The play instruction that plays, or was to play, SQn's next vector (R114, R186); none where no vector follows. -/
def State.nextPlay (s : State) (n : Nat) : Option Nat :=
  match (s.sq n).cur with
  | some c => if c.pos < c.desc.nvec then some c.item.pc else s.afterRepeat true n c
  | none => s.queueNext true n (s.spoolsAt n (s.sq n).vcnt false)

/-- SQn stops as for a pace fault at its next vector, with channel `c` the lowest dry one and the fault
record given (R186, R391). -/
def State.paceStop (s : State) (n c : Nat) (r : FaultRec) : State :=
  let u := s.sq n
  let s := (s.wrN (Reg.TMG_PFLT n) (2 ^ 31 + c)).wrWide (Reg.TMG_PFLT_VEC_LO n) 2 u.vcnt
  let s := (s.setSq n { u with pflt := true }).irq Reg.TMG_ISTAT 1
  let pc := (s.nextPlay n).getD u.lastPc
  let s := (s.wrN (Reg.SEQ_FCODE n) 0x0D).wrN (Reg.SEQ_FPC n) (pc % 2 ^ 20)
  let s := s.detect { r with cls := 2, seqNamed := some n, selfRaised := true }
  s.endRun n causeFAULT

/-! ### The edge FIFOs (R30, R184, R185, R542) -/

/-- Of the next 64 vectors, those that cannot be in an edge FIFO yet (R542). -/
def State.fifoCredits (s : State) (n : Nat) (c : CurPlay) : Nat :=
  let left := c.desc.nvec - c.pos
  if 64 ≤ left then 0 else if (s.afterRepeat false n c).isSome then 0 else 64 - left

/-- The arming instant of SQn's next vector on channel `c` (R185), as a number that orders instants: in 2^-16 tick, but
for the part that is the same for every channel. -/
def State.armAt (s : State) (n c : Nat) : Nat := (s.sq n).acc + 2 ^ 32 - 64 * s.pathOf c

/-- The arming instant of SQn's next vector on channel `c` has come: 16 + 4 ticks and the path before its start at the
pin (R185). -/
def State.armed (s : State) (n c : Nat) : Bool := decide ((s.sq n).acc ≤ 65536 * (s.mt + 20) + 64 * s.pathOf c)

/-- A record (fill, arming instant, channel) takes the place of another as the lowest (R542). -/
def fillBefore (a b : Nat × Nat × Nat) : Bool :=
  decide (a.1 < b.1) || (a.1 == b.1 && (decide (a.2.1 < b.2.1) || (a.2.1 == b.2.1 && decide (a.2.2 < b.2.2))))

/-- The fill of channel `c`'s edge FIFO at the arming instant of the next vector: the entries present, and the record
of R542 with the vectors that cannot be there yet. -/
def State.recordFill (s : State) (n c credits : Nat) : State :=
  let fill := min 64 ((s.ch c).fifo.length + credits)
  let s := if fill < s.rdF (Reg.CHN_FIFO c) 22 16 then s.wrF (Reg.CHN_FIFO c) 22 16 fill else s
  let key := (fill, s.armAt n c, c)
  if (s.sq n).fifoMin.all (fillBefore key) then
    (s.setSq n { s.sq n with fifoMin := some key }).wrN (Reg.TMG_FIFO_MIN n) (65536 * c + fill)
  else s

/-- The entries that an edge FIFO takes in when the self-timed pipeline has made those of `k` more vectors: a full one
holds the pipeline back (R184), and the vectors that cannot be there yet leave no entry. -/
def fifoTake (vcnt k credits : Nat) (l : List Nat) : List Nat :=
  l ++ (List.range (min k (64 - credits - l.length))).map (vcnt + l.length + ·)

/-- The self-timed pipeline delivers entries to the edge FIFOs of channels: as many as the list says, and for a channel
beyond the list as many as fit. Their fills at the arming instant are recorded. -/
def State.fifoFills (s : State) (n credits : Nat) : List Nat → List Nat → State
  | [], _ => s
  | c :: cs, news =>
    ((s.setFifo c (fifoTake (s.sq n).vcnt (news.headD 64) credits (s.ch c).fifo)).recordFill n c credits).fifoFills n
      credits cs news.tail

/-- The lowest channel of SQn whose edge FIFO has no entry for the next vector at or after its arming instant (R185). -/
def State.dryChan (s : State) (n : Nat) : Option Nat :=
  (s.ownedChans n).find? fun c => (s.ch c).fifo.isEmpty && s.armed n c

/-! ### The switch of a calibration slot at vector b (R331) -/

/-- The slot in progress on a channel of SQn, where it stands before a switch. -/
def State.switchSlot (s : State) (n : Nat) : Option CalSlot :=
  s.cal.slot.filter fun x =>
    (s.rdF Reg.CAL_STAT 23 20 == 3 || s.rdF Reg.CAL_STAT 23 20 == 7) && decide (x.target < 128) && s.seqOfCh x.target == some n

/-- SQn stands at vector b, where the switch comes first. -/
def State.switchDue (s : State) (n : Nat) : Bool :=
  match s.switchSlot n with
  | some x => x.vecB.any fun b => decide (b ≤ (s.sq n).vcnt)
  | none => false

/-- The next vector of SQn leaves the FIFO of a slot's channel at least 1 µs after the check has passed: the entry that
takes its place is vector b's. -/
def State.fixVecB (s : State) (n : Nat) : State :=
  match s.switchSlot n with
  | some x =>
    if x.vecB.isNone ∧ 65536 * (x.passAt + 4000) ≤ (s.sq n).acc then
      s.setSlot (some { x with vecB := some ((s.sq n).vcnt + s.rdF (Reg.CHN_FIFO x.target) 6 0) })
    else s
  | none => s

/-! ### Vectors -/

/-- The pattern prefetch of vector `v` of a segment in DRAM: its lines are checked (R391). -/
def State.askVector (s : State) (n : Nat) (d : Desc) (v : Nat) : State × Bool :=
  if d.loc then (s, false)
  else s.dramAsk { cls := 0, id := n, rkind := 3 } 0 (d.addr + v * s.recW n) (s.recW n)

/-- The fault record of a vector whose line is lost: the DRAM channel and the line (R391). -/
def State.lostRecord (s : State) (n : Nat) (d : Desc) (v : Nat) : FaultRec :=
  let a := d.addr + v * s.recW n
  let l := ((linesOf a (s.recW n)).find? fun l => s.lineBad l == 3).getD (a / 64)
  { src := 0xB00 + l % 8, chk := 3, code := 0x0D, addr := 64 * l, rkind := 3, access := 0, rid := n, retried := true }

/-- The entry of the vector that starts leaves channel `c`'s edge FIFO (R30). -/
def State.fifoPop (s : State) (c : Nat) : State := s.setFifo c ((s.ch c).fifo.drop 1)

/-- VECTOR_FORMAT: the play front of SQn starts the next vector (R152, R172), once its arming instants have come (R185):
at a granule boundary the triggers and requests are sampled, every owned channel's events are placed, and the accumulator
takes the period in force. `news` are the entries that the self-timed pipeline has delivered since the vector before, by
owned channel in ascending order (log entry 9). A FIFO that is dry raises the pace fault (R33). -/
def doVectorFormat (n : Nat) (news : List Nat) (s : State) : State :=
  match (s.sq n).cur with
  | none => s
  | some c =>
    let gran := c.pos % 64 == 0
    s.whenDue (s.seqPlays n && decide (c.pos < c.desc.nvec) && !s.checkDue n && !s.switchDue n && s.pllLocked &&
        ((s.ownedChans n).all fun k => s.armed n k) &&
        (!gran || ((s.dropDue n).isEmpty && s.resultsBefore n ((s.sq n).vcnt - 383)))) fun s =>
      let (s, lost) := s.askVector n c.desc c.pos
      if lost then
        s.paceStop n ((s.ownedChans n).headD 0) (s.lostRecord n c.desc c.pos)
      else
      let s := s.fifoFills n (s.fifoCredits n c) (s.ownedChans n) news
      match s.dryChan n with
      | some k => s.paceStop n k { src := 0x200 + n, code := 0x0D }
      | none =>
      let s := forEach (s.ownedChans n) (fun c s => s.fifoPop c) (s.fixVecB n)
      let s := if gran then s.granuleSample n c else s
      let u := s.sq n
      let sel := s.rd (Reg.SEQ_SEL n)
      let p := s.period n (fld sel 19 16)
      let v : VecCtx :=
        { n := n, vec := u.vcnt, start := u.acc, p := p, tset := fld sel 4 0, mset := fld sel 11 8,
          inMatch := if c.item.kind == .matching then some c.rep else none, segpos := c.pos, seg := c.seg,
          ldr := c.item.kind == .urLeader, lcs := c.item.prog.lc }
      let s := s.playChannels v (s.vecRecord n c.desc c.pos) 0 (s.ownedChans n)
      let u := s.sq n
      let s := s.setSq n { u with acc := u.acc + p, vcnt := u.vcnt + 1,
                                  cur := u.cur.map fun c => { c with pos := c.pos + 1 } }
      (s.wrWide (Reg.SEQ_VCNT_LO n) 2 (v.vec + 1)).wrWide (Reg.TMG_ACC0 n) 3 v.start

/-- Meaning of VECTOR_FORMAT. -/
def execVectorFormat (n : Fin 16) (news : List Nat) (s : State) : Host.Outcome State Fault Refusal :=
  .next (doVectorFormat n.val news s)

/-- PACE_FAULT: a vector follows, and its entry is absent at its arming instant on channel `c`, the lowest dry one
(R185, R186). -/
def doPaceFault (n c : Nat) (s : State) : State :=
  s.whenDue (s.seqPlays n && s.dryChan n == some c && (s.nextPlay n).isSome) fun s =>
    let credits := match (s.sq n).cur with | some k => s.fifoCredits n k | none => 0
    (s.recordFill n c credits).paceStop n c { src := 0x200 + n, code := 0x0D }

/-- Meaning of PACE_FAULT. -/
def execPaceFault (n : Fin 16) (ch : Fin 128) (s : State) : Host.Outcome State Fault Refusal :=
  .next (doPaceFault n.val ch.val s)

end Sys2Proof.Machine
end

