-- ==== Sys2Proof/Machine/SeqFront.lean ====
section
/-! DEFINITION. The decode front of a sequencer (R73–R101): one meaning per sequence instruction, each
the instruction at the decode front's address. An instruction row takes effect where the word that
stands there has its opcode (log entry 4). -/

namespace Sys2Proof.Machine

open Sys2Proof

/-! ### The decode front -/

/-- Change SQn's program state and count the instruction towards R77. -/
def State.advance (s : State) (n : Nat) (p : Prog) : State :=
  let u := s.sq n
  s.setSq n { u with prog := p, sincePlay := u.sincePlay + 1 }

/-- SQn's decode front has work and room. -/
def State.decodeDue (s : State) (n : Nat) : Bool :=
  (s.seqState n == 1 || s.seqPlays n) && !(s.sq n).decodeHalt && decide ((s.sq n).plays < 16)

/-- The instruction at SQn's decode front, if its opcode is `op`, is decoded: it faults where it is out
of range or wrong as it stands, and `k` acts else. The 4,096th instruction without a play is RUNAWAY's. -/
def State.decodeOp (s : State) (n op : Nat) (k : SInstr → State → State) : State :=
  s.whenDue (s.decodeDue n) fun s =>
    let u := s.sq n
    if !s.pcInRange n u.prog.pc then s.selfFault n 0x04 u.prog.pc
    else
      let i := s.fetchSeq n u.prog.pc
      if i.op != op then s
      else if s.staticFault n i != 0 then s.selfFault n (s.staticFault n i) u.prog.pc
      else if !isPlayOp op && decide (runawayLimit ≤ u.sincePlay + 1) then s
      else k i s

/-- An instruction that changes the program state, and nothing else, in program order. -/
def State.stepProg (s : State) (n : Nat) (i : SInstr) (c : Bool) : State :=
  let u := s.sq n
  match progStep i c u.prog with
  | .next p => s.advance n p
  | .fault code => s.selfFault n code u.prog.pc

/-- An instruction with an action at its play point (R75): queued for the play front. -/
def State.queuePoint (s : State) (n : Nat) (i : SInstr) (op : PointOp) : State :=
  let u := s.sq n
  let s := s.setSq n { u with queue := u.queue ++ [.point op u.prog.pc] }
  (s.stepProg n i false).front n

/-! ### Conditional instructions (R80–R82, R99, R101) -/

/-- The play front has reached the decode front: nothing is queued, nothing plays, and every result and
drop-out that the decision sees is in. -/
def State.atDecision (s : State) (n : Nat) : Bool :=
  let u := s.sq n
  u.plays == 0 && u.cur.isNone && s.resultsBefore n (u.vcnt - 383) && (!s.seqPlays n || (s.dropDue n).isEmpty)

/-- A second Late-class or Trigger-class instruction on a path, before a play (R101). -/
def branchOf : List Found → Option Nat
  | [] => none
  | .branch _ p _ :: _ => some p.pc
  | _ :: l => branchOf l

/-- A play instruction of a kind that a jump vector may not reach first (R104). -/
def wrongPlay : List Found → Option Nat
  | [] => none
  | .play pc i :: l => if jumpPlayOp i.op then wrongPlay l else some pc
  | _ :: l => wrongPlay l

/-- The entry prefetched for the path of a Late-class or Trigger-class instruction that is taken (R101, R126). -/
def State.takenSegs (s : State) (n : Nat) (i : SInstr) (c : Bool) : List Nat :=
  match progStep i c (s.sq n).prog with
  | .next q => s.pathSeg n (s.findPlay n ((s.sq n).budget - 1) q)
  | .fault _ => []

/-- HALT with a true condition ends the run at its play point (R97); the others act on the program
state. -/
def State.condTaken (s : State) (n : Nat) (i : SInstr) (c : Bool) : State :=
  if i.op = 0x01 ∧ c then
    let u := s.sq n
    (s.setSq n { u with queue := u.queue ++ [.point .halt u.prog.pc], decodeHalt := true }).front n
  else s.stepProg n i c

/-- The value of a Trigger-class condition, and the state with the set's pending bits consumed when it
is satisfied (R82). -/
def State.condTrigger (s : State) (n : Nat) (i : SInstr) : Bool × State :=
  let m := s.trigSet n (i.b % 8)
  (s.condNow n i, if trigAny (s.trigNow n) m then s.consumeTrig n m else s)

/-- A Late-class or Trigger-class instruction: R101 is checked on both paths when the decode front
reaches it, the first segments of both are prefetched, and it is decided at its play point (R82, R99); in a jump taken, R104's kinds are checked. -/
def State.condBranch (s : State) (n : Nat) (i : SInstr) : State :=
  let u := s.sq n
  let both := s.findBoth n (u.budget - 1) i u.prog
  if u.branch then s.selfFault n 0x0A u.prog.pc
  else
    match branchOf both with
    | some pc => s.selfFault n 0x0A pc
    | none =>
      let s := forEach (s.branchSegs n) (fun e s => s.takeCopy n e) s
      if !s.atDecision n then s
      else
        match (if u.jtaken then wrongPlay both else none) with
        | some pc => s.selfFault n 0x0B pc
        | none =>
          let d := if condClass i.cond = .late then (s.condLate n i.cond i.b, s) else s.condTrigger n i
          let s := d.2.setSq n { d.2.sq n with branch := true, prefetch := d.2.takenSegs n i d.1 }
          s.condTaken n i d.1

/-- HALT, JCC, CALL or RTN with its condition. -/
def State.condOp (s : State) (n : Nat) (i : SInstr) : State :=
  if condClass i.cond = .program then s.condTaken n i (condProgram i.cond i.b (s.sq n).prog)
  else s.condBranch n i

/-! ### Play instructions (R83–R85, R91, R92, R104) -/

/-- Queue a play and go on with the next instruction. -/
def State.queuePlay (s : State) (n : Nat) (p : PlayItem) : State :=
  let u := s.sq n
  let prog := u.prog.succ
  let s := s.setSq n { u with queue := u.queue ++ [.play { p with pc := u.prog.pc, prog := prog }], prog := prog,
                              sincePlay := 0, branch := false, jtaken := false, prefetch := [] }
  (s.pruneCopies n).front n

/-- A play instruction after a jump is of a permitted kind (R104), or BAD_TARGET. -/
def State.targetOk (s : State) (n : Nat) (i : SInstr) (k : State → State) : State :=
  let u := s.sq n
  if u.jtaken && !jumpPlayOp i.op then s.selfFault n 0x0B u.prog.pc else k s

/-- Queue a play of segment-table entry `seg`, which must be valid (R122) and of the kind given (R83,
R84, R91, R92). A fault is found when the decode front reads the descriptor (log entry 91). -/
def State.queueSeg (s : State) (n seg : Nat) (loc : Bool) (p : PlayItem) : State :=
  match s.entryDesc n seg with
  | (s, none) => s.selfFault n 0x09 (s.sq n).prog.pc
  | (s, some d) =>
    if d.loc != loc then s.selfFault n 0x08 (s.sq n).prog.pc
    else s.queuePlay n { p with seg := seg, desc := d }

/-! ### The instructions -/

/-- NOP (R97). -/
def doNop (n : Nat) (s : State) : State := s.decodeOp n 0x00 fun i s => s.stepProg n i false
/-- Meaning of NOP. -/
def execNop (n : Fin 16) (s : State) : Host.Outcome State Fault Refusal := .next (doNop n.val s)

/-- HALT (R80, R97). -/
def doHalt (n : Nat) (s : State) : State := s.decodeOp n 0x01 fun i s => s.condOp n i
/-- Meaning of HALT. -/
def execHalt (n : Fin 16) (s : State) : Host.Outcome State Fault Refusal := .next (doHalt n.val s)

/-- JMP (R87). -/
def doJmp (n : Nat) (s : State) : State := s.decodeOp n 0x02 fun i s => s.stepProg n i true
/-- Meaning of JMP. -/
def execJmp (n : Fin 16) (s : State) : Host.Outcome State Fault Refusal := .next (doJmp n.val s)

/-- JCC (R80, R87). -/
def doJcc (n : Nat) (s : State) : State := s.decodeOp n 0x03 fun i s => s.condOp n i
/-- Meaning of JCC. -/
def execJcc (n : Fin 16) (s : State) : Host.Outcome State Fault Refusal := .next (doJcc n.val s)

/-- CALL (R80, R87). -/
def doCall (n : Nat) (s : State) : State := s.decodeOp n 0x04 fun i s => s.condOp n i
/-- Meaning of CALL. -/
def execCall (n : Fin 16) (s : State) : Host.Outcome State Fault Refusal := .next (doCall n.val s)

/-- RTN (R80, R87). -/
def doRtn (n : Nat) (s : State) : State := s.decodeOp n 0x05 fun i s => s.condOp n i
/-- Meaning of RTN. -/
def execRtn (n : Fin 16) (s : State) : Host.Outcome State Fault Refusal := .next (doRtn n.val s)

/-- LOOP (R88). -/
def doLoop (n : Nat) (s : State) : State := s.decodeOp n 0x06 fun i s => s.stepProg n i false
/-- Meaning of LOOP. -/
def execLoop (n : Fin 16) (s : State) : Host.Outcome State Fault Refusal := .next (doLoop n.val s)

/-- ENDL (R88). -/
def doEndl (n : Nat) (s : State) : State := s.decodeOp n 0x07 fun i s => s.stepProg n i false
/-- Meaning of ENDL. -/
def execEndl (n : Fin 16) (s : State) : Host.Outcome State Fault Refusal := .next (doEndl n.val s)

/-- SETT (R86). -/
def doSett (n : Nat) (s : State) : State :=
  s.decodeOp n 0x08 fun i s => s.queuePoint n i (.sett (bits i.a 4 0))
/-- Meaning of SETT. -/
def execSett (n : Fin 16) (s : State) : Host.Outcome State Fault Refusal := .next (doSett n.val s)

/-- SETM (R86). -/
def doSetm (n : Nat) (s : State) : State :=
  s.decodeOp n 0x09 fun i s => s.queuePoint n i (.setm (bits i.a 3 0))
/-- Meaning of SETM. -/
def execSetm (n : Fin 16) (s : State) : Host.Outcome State Fault Refusal := .next (doSetm n.val s)

/-- SETP (R86). -/
def doSetp (n : Nat) (s : State) : State :=
  s.decodeOp n 0x0A fun i s => s.queuePoint n i (.setp (bits i.a 3 0))
/-- Meaning of SETP. -/
def execSetp (n : Fin 16) (s : State) : Host.Outcome State Fault Refusal := .next (doSetp n.val s)

/-- FLAG (R96): the flags change in program order for conditions, and at the play point in SEQ_FLAGS. -/
def doFlag (n : Nat) (s : State) : State :=
  s.decodeOp n 0x0B fun i s => s.queuePoint n i (.flag (bits i.a 15 8) (bits i.a 7 0))
/-- Meaning of FLAG. -/
def execFlag (n : Fin 16) (s : State) : Host.Outcome State Fault Refusal := .next (doFlag n.val s)

/-- SIG (R95). -/
def doSig (n : Nat) (s : State) : State := s.decodeOp n 0x0C fun i s => s.queuePoint n i (.sig i.a)
/-- Meaning of SIG. -/
def execSig (n : Fin 16) (s : State) : Host.Outcome State Fault Refusal := .next (doSig n.val s)

/-- EPOCH (R94). -/
def doEpoch (n : Nat) (s : State) : State := s.decodeOp n 0x0D fun i s => s.queuePoint n i (.epoch i.b)
/-- Meaning of EPOCH. -/
def execEpoch (n : Fin 16) (s : State) : Host.Outcome State Fault Refusal := .next (doEpoch n.val s)

/-- WAITT (R91). -/
def doWaitt (n : Nat) (s : State) : State :=
  s.decodeOp n 0x0E fun i s => s.targetOk n i fun s =>
    s.queueSeg n (bits i.a 15 0) true
      { kind := .waitt, reps := bits i.b 23 0, tset := bits i.b 31 29, all := bits i.b 28 28 == 1,
        clr := bits i.b 27 27 == 1 }
/-- Meaning of WAITT. -/
def execWaitt (n : Fin 16) (s : State) : Host.Outcome State Fault Refusal := .next (doWaitt n.val s)

/-- PLAY (R83). -/
def doPlay (n : Nat) (s : State) : State :=
  s.decodeOp n 0x10 fun i s => s.targetOk n i fun s =>
    s.queueSeg n (bits i.a 15 0) false { kind := .play, reps := i.b }
/-- Meaning of PLAY. -/
def execPlay (n : Fin 16) (s : State) : Host.Outcome State Fault Refusal := .next (doPlay n.val s)

/-- PLAYL (R83). -/
def doPlayl (n : Nat) (s : State) : State :=
  s.decodeOp n 0x11 fun i s => s.targetOk n i fun s =>
    s.queueSeg n (bits i.a 15 0) true { kind := .playl, reps := i.b }
/-- Meaning of PLAYL. -/
def execPlayl (n : Fin 16) (s : State) : Host.Outcome State Fault Refusal := .next (doPlayl n.val s)

/-- SPOOL (R85). -/
def doSpool (n : Nat) (s : State) : State :=
  s.decodeOp n 0x12 fun i s => s.targetOk n i fun s =>
    if (s.ringOf n).2 = 0 then s.selfFault n 0x0E (s.sq n).prog.pc
    else s.queuePlay n { kind := .spool, reps := i.b }
/-- Meaning of SPOOL. -/
def execSpool (n : Fin 16) (s : State) : Host.Outcome State Fault Refusal := .next (doSpool n.val s)

/-- LEADER (R84). -/
def doLeader (n : Nat) (s : State) : State :=
  s.decodeOp n 0x13 fun i s => s.targetOk n i fun s =>
    let l := s.apv (Reg.SEQ_LEADER n)
    if bit l 31 then s.queueSeg n (fld l 15 0) true { kind := .leader, reps := i.b }
    else s.selfFault n 0x08 (s.sq n).prog.pc
/-- Meaning of LEADER. -/
def execLeader (n : Fin 16) (s : State) : Host.Outcome State Fault Refusal := .next (doLeader n.val s)

/-- MATCH (R92). -/
def doMatch (n : Nat) (s : State) : State :=
  s.decodeOp n 0x14 fun i s => s.targetOk n i fun s =>
    s.queueSeg n (bits i.a 15 0) true { kind := .matching, reps := i.b }
/-- Meaning of MATCH. -/
def execMatchSeg (n : Fin 16) (s : State) : Host.Outcome State Fault Refusal := .next (doMatch n.val s)

/-- ILLEGAL_OP: an opcode that R79 does not define. -/
def doIllegalOp (n : Nat) (s : State) : State :=
  s.whenDue (s.decodeDue n && s.pcInRange n (s.sq n).prog.pc &&
      !opDefined (s.fetchSeq n (s.sq n).prog.pc).op) fun s => s.selfFault n 0x01 (s.sq n).prog.pc
/-- Meaning of ILLEGAL_OP. -/
def execIllegalOp (n : Fin 16) (s : State) : Host.Outcome State Fault Refusal := .next (doIllegalOp n.val s)

/-- RUNAWAY: the 4,096th consecutive instruction that is no play (R77). -/
def doRunaway (n : Nat) (s : State) : State :=
  let u := s.sq n
  let i := s.fetchSeq n u.prog.pc
  s.whenDue (s.decodeDue n && decide (runawayLimit ≤ u.sincePlay + 1) && s.pcInRange n u.prog.pc &&
      !isPlayOp i.op && s.staticFault n i == 0) fun s => s.selfFault n 0x0C u.prog.pc
/-- Meaning of RUNAWAY. -/
def execRunaway (n : Fin 16) (s : State) : Host.Outcome State Fault Refusal := .next (doRunaway n.val s)

end Sys2Proof.Machine
end

