-- ==== Sys2Proof/Machine/SeqCmd.lean ====
section
/-! DEFINITION. Run control of a sequencer (R98, R109–R113, R217–R220): the host's run commands, the
start of play, explicit apply commands, host triggers, jump and drop requests, and the end of STOPPING. -/

namespace Sys2Proof.Machine

open Sys2Proof

/-! ### START (R98, R110, R111) -/

/-- What SQn publishes fits its buffers (R236). -/
def State.sheetFits (s : State) (n : Nat) : Bool :=
  decide (256 + 32 * (s.ownedSites n).length + 64 * (s.ownedChans n).length ≤ 1024 * (s.carveOf n).csSize)

/-- SQn is in the stopped set of a structure load past its stop step (R66). -/
def State.inStoppedSet (s : State) (n : Nat) : Bool :=
  match s.sti with
  | some o => decide (1 ≤ o.phase) && o.stopped.testBit n
  | none => false

/-- Conditions on which a START of SQn is accepted (R25, R66, R110, R236, R320, R484, R499); and no edge is placed
without lock of the timing PLL (R170; log entry 102). -/
def State.startOk (s : State) (n : Nat) : Bool :=
  s.seqStopped n && !(s.ownedSites n).isEmpty && !s.inStoppedSet n && s.sheetFits n &&
    !((s.ownedChans n).any fun c => (s.ch c).refl) && !s.modHeld && !s.pllOff && s.pllLocked

/-- The owned sites that SQn's SEQ_SITEEN enables. -/
def State.enabledSites (s : State) (n : Nat) : List Nat :=
  (s.ownedSites n).filter fun t => bit (s.rd (if t < 32 then Reg.SEQ_SITEEN_LO n else Reg.SEQ_SITEEN_HI n)) (t % 32)

/-- The results and records of a channel are cleared at START (R157, R202, R203, R215, R316, R542), a
commit made before it is in effect (R160), and its path acts from now on (R182). -/
def State.clearChan (s : State) (c : Nat) : State :=
  let u := s.ch c
  let s := s.setCh c { u with res := {}, cmpQ := [], lastCmp := none, path := s.rdF (Reg.CHN_DSK_PATH c) 15 0 }
  let s := (s.clrBits (Reg.CHN_CMP_STAT c) (2 ^ 31 + 2 ^ 30)).wrN (Reg.CHN_FIFO c) 0x400000
  let lo := wftAddr c 0 0
  { s with wold := s.wold.filter fun x => !(lo ≤ x.1 && x.1 < lo + 0x5000) }

/-- The residuals that channel `c`'s registers hold act in the run that starts (R181, R330), once a calibration slot that
the START preempts has restored them (R336). -/
def State.latchRes (s : State) (c : Nat) : State :=
  s.setCh c { s.ch c with drvRes := s.rdS16 (Reg.CHN_DSK_DRV c), cmpRes := s.rdS16 (Reg.CHN_DSK_CMP c) }

/-- The state a START sets before the first instruction executes (R98). -/
def State.startState (s : State) (n : Nat) : State :=
  let pc := s.rdF (Reg.SEQ_PC_START n) 19 0
  let en := s.enabledSites n
  let u := s.sq n
  let s := s.setSq n
    { prog := { pc := pc },
      sites := (s.ownedSites n).foldl (fun m t =>
        setSiteRun m t { enabled := en.contains t, active := en.contains t }) [],
      sheet := { u.sheet with lastAcq := none }, capq := u.capq, capN := u.capN, dropReq := u.dropReq }
  let s := (s.wrN (Reg.SEQ_FLAGS n) 0).wrN (Reg.SEQ_SEL n) 0
  let s := (s.wrN (Reg.SEQ_JPEND n) 0).wrWide (Reg.SEQ_VCNT_LO n) 2 0
  let s := (s.wrN (Reg.SEQ_LDR_CNT n) 0).wrN (Reg.SEQ_UR_WARN n) 0
  let s := s.wrF (Reg.SEQ_STAT n) 15 12 0
  if bit (s.rd (Reg.SEQ_CTL n)) 2 then s.wrN (Reg.SEQ_TPEND n) 0 else s

/-- A START of SQn that is accepted: a pace fault of the last run stands, an older one is cleared (R191); the monitors
of SQn report anew (R188); (R98, R107, R110, R123, R217, R220). -/
def State.startRun (s : State) (n : Nat) (sync : Bool) : State :=
  let last := (s.sq n).pflt
  let s := s.startState n
  let s := (s.wrF Reg.FLT_SITE n n 0).wrN (Reg.CSH_SKIPPED n) 0
  let s := s.wrN (Reg.TMG_FIFO_MIN n) 0x40
  let s := if last then s else (s.wrN (Reg.TMG_PFLT n) 0).wrWide (Reg.TMG_PFLT_VEC_LO n) 2 0
  let s := { s with pace := kset (fun _ => 0xFFFF) (kset (fun _ => 0xFFFF) s.pace n 0xFFFF) (16 + n) 0xFFFF }
  let s := forEach (s.ownedChans n) (fun c s => s.clearChan c) s
  let s := ((s.applyStaged n).stgRelease n).hostDrops n
  let s := s.takeRing n
  let s := (s.wrF (Reg.SEQ_STAT n) 2 0 1).wrF (Reg.SEQ_STAT n) 12 12 (b2n sync)
  let s := forEach (List.range 4) (fun k s => s.keepFor n k) (s.leaderCopy n)
  let s := s.clearGraphs n
  forEach (s.ownedChans n) (fun c s => s.latchRes c) (forEach (s.ownedChans n) (fun c s => s.pinStart c) s)

/-- A START command: accepted, or discarded with a NOTE fault (R110). -/
def State.startCmd (s : State) (dom n : Nat) (sync : Bool) : State :=
  s.hostWrite dom (Reg.SEQ_CMD n) fun s =>
    if s.startOk n then s.startRun n sync else s.noteReg dom (Reg.SEQ_CMD n)

/-- SEQ_START. -/
def doSeqStart (dom n : Nat) (s : State) : State := s.startCmd dom n false
/-- Meaning of SEQ_START. -/
def execSeqStart (dom n : Fin 16) (s : State) : Host.Outcome State Fault Refusal :=
  .next (doSeqStart dom.val n.val s)

/-- SEQ_START_SYNC. -/
def doSeqStartSync (dom n : Nat) (s : State) : State := s.startCmd dom n true
/-- Meaning of SEQ_START_SYNC. -/
def execSeqStartSync (dom n : Fin 16) (s : State) : Host.Outcome State Fault Refusal :=
  .next (doSeqStartSync dom.val n.val s)

/-! ### STOP and other commands (R112, R115) -/

/-- SEQ_STOP: acts at the next apply point; without effect in STOPPING and STOPPED (R112). -/
def doSeqStop (dom n : Nat) (s : State) : State :=
  s.hostWrite dom (Reg.SEQ_CMD n) fun s =>
    if s.seqRuns n then s.setSq n { s.sq n with stopReq := true } else s
/-- Meaning of SEQ_STOP. -/
def execSeqStop (dom n : Fin 16) (s : State) : Host.Outcome State Fault Refusal :=
  .next (doSeqStop dom.val n.val s)

/-- SEQ_CMD_INVALID: an OP other than START and STOP is discarded with a NOTE fault (R115). -/
def doSeqCmdInvalid (dom n : Nat) (v : Word) (s : State) : State :=
  s.hostWrite dom (Reg.SEQ_CMD n) fun s =>
    if fld v 2 0 = 1 ∨ fld v 2 0 = 2 then s else s.noteReg dom (Reg.SEQ_CMD n)
/-- Meaning of SEQ_CMD_INVALID. -/
def execSeqCmdInvalid (dom n : Fin 16) (v : Word) (s : State) : Host.Outcome State Fault Refusal :=
  .next (doSeqCmdInvalid dom.val n.val v s)

/-! ### The start of play (R110, R111) -/

/-- SQn is primed: its first play, or the HALT it meets before any, is decoded. -/
def State.primed (s : State) (n : Nat) : Bool :=
  let u := s.sq n
  s.seqState n == 1 && (u.plays != 0 || u.decodeHalt)

/-- Play of SQn begins on the present Module Time tick, with every edge FIFO full, or empty where the run has no vector
(R184). -/
def State.playStart (s : State) (n : Nat) : State :=
  let s := s.setSq n { s.sq n with acc := 65536 * s.mt, syncGroup := none, syncReached := false }
  let s := (s.wrWide (Reg.SEQ_TSTART_LO n) 2 s.mt).wrWide (Reg.TMG_ACC0 n) 3 (65536 * s.mt)
  let fifo := if (s.queueNext false n (s.spoolsAt n 0 false)).isSome then List.range 64 else []
  let s := forEach (s.ownedChans n) (fun c s => s.setFifo c fifo) s
  ((s.wrF (Reg.SEQ_STAT n) 12 12 0).setSeqState n 2).front n

/-- SQn was started with SYNC and waits, primed or not, for an apply command (R111). The bit holds from the START;
SYNC_PEND reads it once the sequencer is primed. -/
def State.syncPend (s : State) (n : Nat) : Bool := bit (s.rd (Reg.SEQ_STAT n)) 12

/-- PLAY_BEGIN. -/
def doPlayBegin (n : Nat) (s : State) : State :=
  s.whenDue (s.primed n && !s.syncPend n && s.pllLocked) fun s => s.playStart n
/-- Meaning of PLAY_BEGIN. -/
def execPlayBegin (n : Fin 16) (s : State) : Host.Outcome State Fault Refusal := .next (doPlayBegin n.val s)

/-- The sequencers that wait for GLB_APPLY write `g`. -/
def State.syncMembers (s : State) (g : Nat) : List Nat :=
  (List.range 16).filter fun n => s.seqState n == 1 && s.syncPend n && (s.sq n).syncGroup == some g

/-- The lowest apply command that has reached all it named, all of them primed. -/
def State.syncReady (s : State) : Option Nat :=
  (((List.range 16).filterMap fun n => (s.sq n).syncGroup).filter fun g =>
    let l := s.syncMembers g
    !l.isEmpty && l.all fun n => (s.sq n).syncReached && s.primed n).min?

/-- SYNC_START_BEGIN: the sequencers that wait for one GLB_APPLY write begin on the same tick (R111). -/
def doSyncStartBegin (s : State) : State :=
  match s.syncReady with
  | none => s
  | some g => s.whenDue s.pllLocked fun s => forEach (s.syncMembers g) (fun n s => s.playStart n) s
/-- Meaning of SYNC_START_BEGIN. -/
def execSyncStartBegin (s : State) : Host.Outcome State Fault Refusal := .next (doSyncStartBegin s)

/-! ### Explicit apply commands (R112, R217, R219) -/

/-- The command is on its way to SQn; a sequencer that waits with SYNC set joins it. -/
def State.applyTo (s : State) (n g : Nat) : State :=
  let u := s.sq n
  let grp := if s.seqState n = 1 ∧ s.syncPend n ∧ u.syncGroup = none then some g else u.syncGroup
  s.setSq n { u with applyReq := true, syncGroup := grp }

/-- GLB_APPLY: an explicit apply command for the sequencers that the domain owns among those named
(R219). -/
def doGlbApply (dom : Nat) (v : Word) (s : State) : State :=
  s.hostWrite dom Reg.GLB_APPLY fun s =>
    let g := s.applies + 1
    let s := { s with applies := g }
    forEach ((bitsOf 16 v.toNat).filter fun n => s.owns dom 1 n) (fun n s => s.applyTo n g) s
/-- Meaning of GLB_APPLY. -/
def execGlbApply (dom : Fin 16) (v : Word) (s : State) : Host.Outcome State Fault Refusal :=
  .next (doGlbApply dom.val v s)

/-- What an explicit apply command does when it reaches SQn: its staged writes take effect, then drop
requests and a STOP (R107, R112, R217). -/
def State.applyReached (s : State) (n : Nat) : State :=
  let s := s.setSq n { s.sq n with applyReq := false }
  let s := s.stgRelease n
  if s.seqPlays n then
    let s := (s.hostDrops n).applyStaged n
    if (s.sq n).stopReq then s.endRun n causeHOST else s
  else
    let s := (s.hostDrops n).applyStaged n
    if s.seqState n = 1 then
      if (s.sq n).stopReq then s.endRun n causeHOST else s.setSq n { s.sq n with syncReached := true }
    else s

/-- EXPLICIT_APPLY: an explicit apply command takes effect at SQn's next vector boundary, or when it
reaches a sequencer that does not play. -/
def doExplicitApply (n : Nat) (s : State) : State :=
  s.whenDue (s.sq n).applyReq fun s => s.applyReached n
/-- Meaning of EXPLICIT_APPLY. -/
def execExplicitApply (n : Fin 16) (s : State) : Host.Outcome State Fault Refusal :=
  .next (doExplicitApply n.val s)

/-! ### Triggers and requests (R90, R103, R105, R107) -/

/-- SEQ_HTRIG: bit 0 sets the host trigger's pending bit (R90). -/
def doSeqHtrig (dom n : Nat) (v : Word) (s : State) : State :=
  s.hostWrite dom (Reg.SEQ_HTRIG n) fun s => if bit v 0 then s.pendTrig n (2 ^ 24) else s
/-- Meaning of SEQ_HTRIG. -/
def execSeqHtrig (dom n : Fin 16) (v : Word) (s : State) : Host.Outcome State Fault Refusal :=
  .next (doSeqHtrig dom.val n.val v s)

/-- SEQ_JREQ: host jump requests; one for a vector that is not enabled is discarded (R103, R105). A request that is
pending already stays as it was sampled. -/
def doSeqJreq (dom n : Nat) (v : Word) (s : State) : State :=
  s.hostWrite dom (Reg.SEQ_JREQ n) fun s =>
    let m := maskOf ((bitsOf 4 v.toNat).filter fun k => bit (s.apv (Reg.SEQ_JVEC n k)) 31)
    let new := m &&& (15 - s.rdF (Reg.SEQ_JPEND n) 3 0)
    let s := s.setBits (Reg.SEQ_JPEND n) m
    s.setSq n { s.sq n with jreq := (s.sq n).jreq ||| new }
/-- Meaning of SEQ_JREQ. -/
def execSeqJreq (dom n : Fin 16) (v : Word) (s : State) : Host.Outcome State Fault Refusal :=
  .next (doSeqJreq dom.val n.val v s)

/-- SEQ_DROPREQ: host drop requests for owned sites, taken at the sequencer's next apply point, which outside a run is
an explicit apply command or a START (R107, R217, log entry 89). -/
def doSeqDropreq (dom n : Nat) (hi : Bool) (v : Word) (s : State) : State :=
  s.hostWrite dom (if hi then Reg.SEQ_DROPREQ_HI n else Reg.SEQ_DROPREQ_LO n) fun s =>
    let m := maskOf ((bitsOf 32 v.toNat).map fun t => if hi then t + 32 else t)
    let m := m &&& maskOf (s.ownedSites n)
    s.setSq n { s.sq n with dropReq := (s.sq n).dropReq ||| m }
/-- Meaning of SEQ_DROPREQ. -/
def execSeqDropreq (dom n : Fin 16) (hi : Bool) (v : Word) (s : State) : Host.Outcome State Fault Refusal :=
  .next (doSeqDropreq dom.val n.val hi v s)

/-! ### The end of STOPPING (R113) -/

/-- Held epochs that will never be published are skipped (R226). -/
def State.skipHeld (s : State) (n : Nat) : State :=
  let u := s.sq n
  let s := forEach (List.range u.epochs.length) (fun _ s => s.skipOne n) s
  s.setSq n { s.sq n with epochs := [] }

/-- SQn is STOPPED, and its channels have been at work until now (R497). -/
def State.seqRests (s : State) (n : Nat) : State :=
  (forEach (s.ownedChans n) (fun c s => s.workNow 1 c) s).setSeqState n 0

/-- RUN_END_COMPLETE: compares and the closing epoch are done, and the state is STOPPED. Where R228 has
stopped publication, the epochs that are held are skipped (log entry 15). -/
def doRunEndComplete (n : Nat) (s : State) : State :=
  s.whenDue (s.seqState n == 4 && ((s.sq n).epochs.isEmpty || s.epochStop) &&
      s.resultsBefore n ((s.sq n).vcnt + 1)) fun s =>
    let s := ((s.skipHeld n).seqRests n).irq (Reg.SEQ_ISTAT n) 1
    forEach (s.ownedChans n) (fun c s => s.calStopHook c) s
/-- Meaning of RUN_END_COMPLETE. -/
def execRunEndComplete (n : Fin 16) (s : State) : Host.Outcome State Fault Refusal :=
  .next (doRunEndComplete n.val s)

end Sys2Proof.Machine
end

