-- ==== Sys2Proof/Machine/Ane.lean ====
section
/-! DEFINITION. The analysis engines (R351–R372): admission from the CAP carves, the return from spill,
operations, markers and COMPRESS timeouts, and the commands and windows of the block. -/

namespace Sys2Proof.Machine

open Sys2Proof

/-! ### Admission of fail-log records (R211, R361, R364) -/

/-- The oldest waiting marker of SQn may enter its fail-log flows: every earlier record has. -/
def State.markDue (s : State) (n : Nat) (m : Nat × Nat) : Bool :=
  s.resultsBefore n m.2 && (s.sq n).capq.all fun r => decide (m.2 ≤ r.vec)

/-- ANE_ITEM_ADMIT: the next record of SQn's CAP carve reaches its flow, or the next epoch marker enters
the fail-log flows (R211, R361, R364). -/
def doAneItemAdmit (n : Nat) (s : State) : State :=
  let u := s.sq n
  match u.nextRec, u.marks with
  | some r, marks =>
    if s.recDue n r then
      s.whenDue true fun s => s.admitRec n r
    else
      match marks with
      | m :: ms =>
        s.whenDue (s.markDue n m) fun s =>
          forEach ((s.setSq n { u with marks := ms }).inputFlows n true) (fun f s => s.putMarker f m.1)
            (s.setSq n { u with marks := ms })
      | [] => s
  | none, m :: ms =>
    s.whenDue (s.markDue n m) fun s =>
      forEach ((s.setSq n { u with marks := ms }).inputFlows n true) (fun f s => s.putMarker f m.1)
        (s.setSq n { u with marks := ms })
  | none, [] => s
/-- Meaning of ANE_ITEM_ADMIT. -/
def execAneItemAdmit (n : Fin 16) (s : State) : Host.Outcome State Fault Refusal := .next (doAneItemAdmit n.val s)

/-- ANE_SPILL_RETURN: the head of flow `f`'s spill ring returns to the pool as a credit frees; markers pass
through in order; an item whose line is lost is lost with reason 2 (R361, R364, R367, R391). -/
def doAneSpillReturn (f : Nat) (s : State) : State :=
  match s.graphOf f with
  | none => s
  | some g =>
    let u := s.fw f
    let x := g.entry f
    match u.spill with
    | .marker e :: rest =>
      s.whenDue true fun s => (s.setFw f { u with spill := rest, pool := u.pool ++ [.marker e] }).schedule g
    | .item d o :: rest =>
      let a := x.spillBase + u.spHead % x.cap * 64
      s.whenDue (s.hasCredit g f && !s.dramHeld a d.length) fun s =>
        let (s, lost) := s.dramAsk { cls := 1, id := f, rkind := 4 } 0 a d.length
        let d := s.dramBytes a d.length
        let left := itemsIn rest
        let s := s.setFw f { s.fw f with spill := rest, spHead := (u.spHead + 1) % x.cap,
                                         s75 := u.s75 && decide (x.cap ≤ 2 * left) }
        if lost then
          let s := s.loseItem f 2 d
          (if x.kind = 1 then s.flogLosses [(2, d)] else s).schedule g
        else (s.poolPush f (.item d o)).schedule g
    | [] => s
/-- Meaning of ANE_SPILL_RETURN. -/
def execAneSpillReturn (f : Fin 16384) (s : State) : Host.Outcome State Fault Refusal :=
  .next (doAneSpillReturn f.val s)

/-! ### Operations (R359, R360, R368–R371) -/

/-- One output item enters every output flow of a node at one moment (R359), and is copied to peers. -/
def State.putOut (s : State) (outs : List Nat) (data : List Byte) : State :=
  let s := s.nextOrder
  let o := s.ane.order
  forEach outs (fun f s => (s.poolPush f (.item data o)).countAdmit f data) s

/-- The tick (plus 1) of the last item of the open COMPRESS run of the node whose state stands at `a`. -/
def State.runAt (s : State) (a : Nat) : Nat := kget (fun _ => 0) s.ane.runAt a
/-- Set it; 0 for no open run. -/
def State.setRunAt (s : State) (a t : Nat) : State :=
  { s with ane := { s.ane with runAt := kset (fun _ => 0) s.ane.runAt a t } }

/-- The first flow of engine `e`'s list is taken from it. -/
def State.unready (s : State) (e f : Nat) : State :=
  let x := s.eng e
  ((s.workNow 3 e).setEng e { x with ready := x.ready.erase f }).setFw f { s.fw f with ready := none }

/-- One item of flow `f` is served by engine `e` through node `i` of `g` (R356, R360, R370). -/
def State.serve (s : State) (e f : Nat) (g : Graph) (i : Nat) (n : GNode) : State :=
  match s.pickInput n.ins with
  | none => s
  | some (k, data) =>
    let u := s.fw f
    let ns := (s.mt - u.since) / 4
    let s := s.setFw f { u with done := sat 48 (u.done + 1), waitMax := sat 32 (max u.waitMax ns),
                                waitSum := (u.waitSum + ns) % 2 ^ 64, affine := some e }
    let s := s.setFw k (s.fw k).popItem
    let s := (s.workNow 3 e).setEng e { s.eng e with ops := sat 48 ((s.eng e).ops + 1) }
    let a := g.nodeAt i
    let (s, out) := s.nodeRun a n data
    let s := if n.op = 4 then s.setRunAt a (s.mt + 1) else s
    out.foldl (fun s d => s.putOut n.outs d) s

/-- Engine `e` goes OFFLINE; its list is placed again in order, the flow in service first, and a graph that is left without
an engine is noted (R371). -/
def State.engineOff (s : State) (e : Nat) : State :=
  let x := s.eng e
  let s := s.setEng e { x with ready := [], offline := true }
  let s := (s.irq Reg.ANE_ISTAT 16).detect { src := 0xA00 + e, chk := 2, rkind := 6, rid := e, retried := true }
  let s := x.ready.foldl (fun s f =>
    let s := s.setFw f { s.fw f with ready := none }
    match s.graphOf f with
    | some g => s.placeFlow g f
    | none => s) s
  s.str.graphs.foldl (fun s g => s.noteNoEngine g) s

/-- The plane byte of a BITMAP operation waits for DRAM (R388, R390). -/
def State.bitmapHeld (s : State) (n : GNode) : Bool :=
  n.op == 3 && match s.pickInput n.ins with
    | some (_, data) => s.dramHeld (bitmapAt n data) 1
    | none => false

/-- ANE_OPERATION: engine `e` serves the head of its ready list; `fail` counts the tries of the operation
that fail their check: 1 is logged as CORR, 2 puts the engine OFFLINE (R370, R371). -/
def doAneOperation (e fail : Nat) (s : State) : State :=
  let x := s.eng e
  match x.ready with
  | [] => s
  | f :: _ =>
    s.whenDue (!x.offline && s.unit 3 e == 0) fun s =>
      match s.graphOf f with
      | none => s.unready e f
      | some g =>
        match g.consumer f with
        | none => s.unready e f
        | some (i, n) =>
          if !s.nodeReady g n then s.unready e f
          else if s.bitmapHeld n then s
          else if 2 ≤ fail then s.engineOff e
          else
            let s := if fail = 1 then
                s.detect { src := 0xA00 + e, cls := 1, chk := 2, rkind := 6, rid := e, retried := true }
              else s
            ((s.unready e f).serve e f g i n).schedule g
/-- Meaning of ANE_OPERATION. -/
def execAneOperation (e : Fin 32) (fail : Fin 3) (s : State) : Host.Outcome State Fault Refusal :=
  .next (doAneOperation e.val fail.val s)

/-! ### Markers and COMPRESS runs (R359, R361) -/

/-- The open run of a COMPRESS node, as the item it becomes. -/
def State.openRun (s : State) (g : Graph) (i : Nat) (n : GNode) : Option (List Byte) :=
  let run := s.sramRd (g.nodeAt i + 8) 16
  if n.op = 4 ∧ getLE run 4 4 ≠ 0 then some run else none

/-- The open run of a COMPRESS node is emitted. -/
def State.emitRun (s : State) (g : Graph) (i : Nat) (n : GNode) : State :=
  match s.openRun g i n with
  | none => s
  | some run => ((s.sramWr (g.nodeAt i + 8) (zeros 16)).setRunAt (g.nodeAt i) 0).putOut n.outs run

/-- The epoch whose marker stands at the head of every input of a node. -/
def State.markerAt (s : State) (n : GNode) : Option Nat :=
  match n.ins with
  | [] => none
  | f :: _ =>
    match (s.fw f).pool with
    | .marker e :: _ =>
      if n.ins.all fun k => match (s.fw k).pool with | .marker d :: _ => d == e | _ => false then some e else none
    | _ => none

/-- The copies of every EMIT of node `i`, for an epoch that is still held (R361). -/
def State.emitCopies (s : State) (g : Graph) (i epoch : Nat) : State :=
  let held := match g.owner with
    | some n => (s.sq n).epochs.any fun x => x.num == epoch
    | none => false
  if !held then s
  else
    (g.nodes.filter fun m => m.op == 9 && getLE m.params 0 2 == i).foldl (fun s m =>
      let bs := s.sramRd (g.nodeAt i + getLE m.params 4 4) (getLE m.params 8 4)
      { s with ane := { s.ane with emits := s.ane.emits ++ [(epoch, getLE m.params 12 4, bs)] } }) s

/-- Node `i` of `g` passes the marker it holds on every input. -/
def State.passMarker (s : State) (g : Graph) (i : Nat) (n : GNode) (epoch : Nat) : State :=
  let s := s.emitRun g i n
  let s := forEach n.ins (fun f s => s.setFw f { s.fw f with pool := (s.fw f).pool.drop 1 }) s
  let s := forEach n.outs (fun f s => s.setFw f { s.fw f with pool := (s.fw f).pool ++ [.marker epoch] }) s
  (s.emitCopies g i epoch).schedule g

/-- ANE_MARKER_PASS: node `i` of graph `id` holds an epoch's marker on every input and passes it on; an
open COMPRESS run goes first, and waits for a credit (R359, R361). -/
def doAneMarkerPass (id i : Nat) (s : State) : State :=
  match s.graphNum id with
  | none => s
  | some g =>
    match g.nodes[i]? with
    | none => s
    | some n =>
      match s.markerAt n with
      | none => s
      | some e => s.whenDue ((s.openRun g i n).isNone || s.outsFree g n) fun s => s.passMarker g i n e
/-- Meaning of ANE_MARKER_PASS. -/
def execAneMarkerPass (g : Fin 256) (node : Fin 1024) (s : State) : Host.Outcome State Fault Refusal :=
  .next (doAneMarkerPass g.val node.val s)

/-- ANE_COMPRESS_TIMEOUT: 10 µs have passed since the last item of an open run (R359). -/
def doAneCompressTimeout (id i : Nat) (s : State) : State :=
  match s.graphNum id with
  | none => s
  | some g =>
    match g.nodes[i]? with
    | none => s
    | some n =>
      let t := s.runAt (g.nodeAt i)
      s.whenDue ((s.openRun g i n).isSome && t != 0 && decide (t + 40000 ≤ s.mt + 1) && s.outsFree g n) fun s =>
        (s.emitRun g i n).schedule g
/-- Meaning of ANE_COMPRESS_TIMEOUT. -/
def execAneCompressTimeout (g : Fin 256) (node : Fin 1024) (s : State) : Host.Outcome State Fault Refusal :=
  .next (doAneCompressTimeout g.val node.val s)

/-! ### Commands (R372) -/

/-- A command of the block is refused: CMD_ERR and a NOTE fault. -/
def State.aneRefuse (s : State) (dom : Nat) : State := (s.irq Reg.ANE_ISTAT 8).noteReg dom Reg.ANE_CMD

/-- A command that names a graph acts where the graph is loaded and its sequencer, if it has one, is
STOPPED (R372); it is refused elsewhere. -/
def State.graphCmd (s : State) (dom id : Nat) (k : Graph → State → State) : State :=
  s.hostWrite dom Reg.ANE_CMD fun s =>
    match s.graphNum id with
    | none => s.aneRefuse dom
    | some g =>
      match g.owner with
      | some n => if s.seqStopped n then k g s else s.aneRefuse dom
      | none => k g s

/-- CLR_GRAPH clears the state of the graph's nodes (R360). -/
def doClrGraph (dom id : Nat) (s : State) : State :=
  s.graphCmd dom id fun g s =>
    forEach (List.range g.nodes.length) (fun i s => s.setRunAt (g.nodeAt i) 0) (s.clearNodes g)
/-- Meaning of CLR_GRAPH. -/
def execClrGraph (dom : Fin 16) (g : Fin 256) (s : State) : Host.Outcome State Fault Refusal :=
  .next (doClrGraph dom.val g.val s)

/-- CLRMAP begins to clear the planes of a graph's BITMAP nodes; while one runs, another is refused. -/
def doClrmap (dom id : Nat) (s : State) : State :=
  s.graphCmd dom id fun g s =>
    if s.ane.clearing.isSome then s.aneRefuse dom
    else
      let s := (s.wrF Reg.ANE_STAT 31 31 1).wrF Reg.ANE_STAT 30 23 id
      { s with ane := { s.ane with clearing := some g.id } }
/-- Meaning of CLRMAP. -/
def execClrmap (dom : Fin 16) (g : Fin 256) (s : State) : Host.Outcome State Fault Refusal :=
  .next (doClrmap dom.val g.val s)

/-- `n` bytes of DRAM from `a` are written with 0: their entries leave memory (R390's fill), and their lines
get fresh check bits. -/
def State.dramZero (s : State) (a n : Nat) : State :=
  let inside := fun (x : Nat) => decide (a ≤ x) && decide (x < a + n)
  { s with dram := s.dram.filter fun p => !inside p.1,
           drc := { s.drc with bad := s.drc.bad.filter fun p => !inside (64 * p.1) } }

/-- The lines from `a` on, within `k` bytes, that hold active data of SQn, or that bytes are kept for (R128). -/
def State.keptLines (s : State) (n a k : Nat) : List Nat :=
  (((s.activeDescs n).flatMap fun d =>
      if d.loc then [] else
        let lo := max a d.addr
        linesOf lo (min (a + k) (d.addr + d.nvec * s.recW n) - lo)) ++
    ((s.sq n).bursts.map Prod.fst).filter fun l => decide (a < 64 * l + 64) && decide (64 * l < a + k)).dedup

/-- The planes of a BITMAP node are cleared (R358); a burst of active data that has begun there plays the old bytes or
the new ones, as after any write (R128). -/
def State.clearPlanes (s : State) (n : GNode) : State :=
  if n.op = 3 then
    let a := getLE n.params 0 8
    let k := getLE n.params 10 1 * 2 ^ (getLE n.params 8 1 + getLE n.params 9 1 - 3)
    (forEach (List.range 16) (fun n s => forEach (s.keptLines n a k) (State.keepLine n) s) s).dramZero a k
  else s

/-- ANE_CLRMAP_DONE. -/
def doAneClrmapDone (s : State) : State :=
  match s.ane.clearing with
  | none => s
  | some id =>
    s.whenDue true fun s =>
      let s := { s with ane := { s.ane with clearing := none } }
      let s := ((s.wrF Reg.ANE_STAT 31 31 0).wrF Reg.ANE_STAT 30 23 0).irq Reg.ANE_ISTAT 4
      match s.graphNum id with
      | some g => (g.nodes.foldl (fun s n => s.clearPlanes n) s).schedule g
      | none => s
/-- Meaning of ANE_CLRMAP_DONE. -/
def execAneClrmapDone (s : State) : Host.Outcome State Fault Refusal := .next (doAneClrmapDone s)

/-- PEAK_CLR clears SPMAX, WAIT_MAX, RDYMAX and POOL.LOW (R372): each begins again from the present
figure. -/
def doAnePeakClr (dom : Nat) (s : State) : State :=
  s.hostWrite dom Reg.ANE_CMD fun s =>
    let s := forEach (s.ane.flows.map Prod.fst)
      (fun f s => s.setFw f { s.fw f with spmax := itemsIn (s.fw f).spill, waitMax := 0 }) s
    let s := forEach (List.range 32) (fun e s => s.setEng e { s.eng e with rdyMax := (s.eng e).ready.length }) s
    s.wrF Reg.ANE_POOL 31 16 s.poolFree
/-- Meaning of ANE_PEAK_CLR. -/
def execAnePeakClr (dom : Fin 16) (s : State) : Host.Outcome State Fault Refusal := .next (doAnePeakClr dom.val s)

/-- ANE_CMD_INVALID: an OP outside 1–3 is discarded with a NOTE fault. -/
def doAneCmdInvalid (dom : Nat) (v : Word) (s : State) : State :=
  s.hostWrite dom Reg.ANE_CMD fun s =>
    if fld v 3 0 = 0 ∨ 4 ≤ fld v 3 0 then s.noteReg dom Reg.ANE_CMD else s
/-- Meaning of ANE_CMD_INVALID. -/
def execAneCmdInvalid (dom : Fin 16) (v : Word) (s : State) : Host.Outcome State Fault Refusal :=
  .next (doAneCmdInvalid dom.val v s)

/-! ### Windows (R372) -/

/-- A domain's own select register: each domain has one (R372), kept beside its latched values. -/
def State.domSel (s : State) (dom a : Nat) : Word := (kget (fun _ => none) s.latch (latchKey dom a)).getD 0
/-- Set a domain's select register. -/
def State.setDomSel (s : State) (dom a : Nat) (v : Word) : State :=
  { s with latch := kset (fun _ => none) s.latch (latchKey dom a) (if v = 0 then none else some v) }

/-- Number of node `i` of `g`: nodes count by graph number, then by index (R372). -/
def State.nodeNumber (s : State) (g : Graph) (i : Nat) : Nat :=
  ((s.str.graphs.filter fun h => decide (h.id < g.id)).map fun h => h.nodes.length).sum + i

/-- ANE_F_STAT of flow `f`. A node that has passed a marker is held only until its EMIT copies are made (R361): pass and
copies are one step, and so is an operation, so a read finds neither HELD nor an item in service (log entry 105). -/
def State.flowStat (s : State) (f : Nat) : Word :=
  match s.graphOf f with
  | none => 0
  | some g =>
    let u := s.fw f
    let node := match g.consumer f with | some (i, _) => s.nodeNumber g i | none => 0
    word (2 ^ 31 + b2n u.ready.isSome * 2 ^ 28 + u.affine.getD 0 * 2 ^ 23 + 2 ^ 15 * g.id +
      (g.entry f).kind * 2 ^ 10 + node % 1024)

/-- The window of flow `f` at 0x0034–0x0088, in order (R372). -/
def State.aneWindow (s : State) (f : Nat) : List Word :=
  let u := s.fw f
  let two := fun (n : Nat) => [wordOf n 0, wordOf n 1]
  [s.flowStat f, word (min u.qmax 65535 * 65536 + itemsIn u.pool), word (itemsIn u.spill), word u.spmax] ++
    two u.admitted ++ two u.spilled ++ two u.lost ++
    [word (b2n (u.lreason != 0) * 2 ^ 31 + u.lreason)] ++ two u.lmt ++
    (List.range 4).map (fun i => word (getLE u.litem (4 * i) 4)) ++ two u.done ++ [word u.waitMax] ++ two u.waitSum

/-- Latch words for a domain from BAR0 address `a` on. -/
def State.latchWords (s : State) (dom : Nat) : Nat → List Word → State
  | _, [] => s
  | a, w :: ws =>
    { s with latch := kset (fun _ => none) s.latch (latchKey dom a) (some w) }.latchWords dom (a + 4) ws

/-- ANE_F_STAT_READ: the window of the domain's selected flow is latched for it; a flow outside its ranges
is a denied read (R372). -/
def doAneFStatRead (dom : Nat) (s : State) : State :=
  s.hostRead dom Reg.ANE_F_STAT fun s =>
    let f := fld (s.domSel dom Reg.ANE_FSEL) 13 0
    if s.flowMay dom f then (s.latchWords dom Reg.ANE_F_STAT (s.aneWindow f), [s.flowStat f])
    else (s.deny 0 dom 0 false Reg.ANE_F_STAT, [word 0xFFFFFFFF])
/-- Meaning of ANE_F_STAT_READ. -/
def execAneFStatRead (dom : Fin 16) (s : State) : Host.Outcome State Fault Refusal :=
  .next (doAneFStatRead dom.val s)

end Sys2Proof.Machine
end

