-- ==== Sys2Proof/Machine/Msix.lean ====
section
/-! DEFINITION. MSI-X (R428, R429): the groups of the vectors, their summaries, and what is noted of each. -/

namespace Sys2Proof.Machine

open Sys2Proof

/-- Status and enable registers of the channels of a tile (R428). -/
def tilePairs (c : Nat) : List (Nat × Nat) :=
  [(Reg.CHN_ISTAT c, Reg.CHN_IEN c), (Reg.CHN_CMP_ISTAT c, Reg.CHN_CMP_IEN c), (Reg.TMU_ISTAT c, Reg.TMU_IEN c),
   (Reg.ACQ_ISTAT c, Reg.ACQ_IEN c), (Reg.PEL_ISTAT c, Reg.PEL_IEN c)]

/-- The registers of vectors 37–47, which belong to the physical function (R428). -/
def pfPairs (vec : Nat) : List (Nat × Nat) :=
  match vec with
  | 37 => [(Reg.STI_ISTAT, Reg.STI_IEN)]
  | 38 => [(Reg.TMG_ISTAT, Reg.TMG_IEN)]
  | 39 => [(Reg.CAL_ISTAT, Reg.CAL_IEN)]
  | 40 => [(Reg.ANE_ISTAT, Reg.ANE_IEN)]
  | 41 => [(Reg.DRC_ISTAT, Reg.DRC_IEN)]
  | 42 => (List.range 6).map fun p => (Reg.LNK_ISTAT p, Reg.LNK_IEN p)
  | 43 => [(Reg.MTB_ISTAT, Reg.MTB_IEN)]
  | 44 => [(Reg.FLT_ISTAT, Reg.FLT_IEN)]
  | 45 => [(Reg.PWR_ISTAT, Reg.PWR_IEN)]
  | 46 => [(Reg.SUP_ISTAT, Reg.SUP_IEN)]
  | 47 => [(Reg.HIF_ISTAT, Reg.HIF_IEN)]
  | _ => []

/-- The status and enable registers of the group of vector `vec` in function `fn`: the resources its domain
owns (R428). -/
def State.groupOf (s : State) (fn vec : Nat) : List (Nat × Nat) :=
  if vec < 16 then
    (if s.ptOwner 1 vec = fn then [(Reg.SEQ_ISTAT vec, Reg.SEQ_IEN vec)] else []) ++
      (if s.ptOwner 4 vec = fn then [(Reg.CSH_ISTAT vec, Reg.CSH_IEN vec)] else [])
  else if vec < 32 then
    if s.ptOwner 3 (vec - 16) = fn then [(Reg.DMA_ISTAT (vec - 16), Reg.DMA_IEN (vec - 16))] else []
  else if vec < 36 then
    ((List.range 32).map (32 * (vec - 32) + ·)).flatMap fun c => if s.ptOwner 2 c = fn then tilePairs c else []
  else if fn = 0 then pfPairs vec
  else []

/-- The summary of a vector: a status bit of its group is set and enabled (R429). -/
def State.summary (s : State) (fn vec : Nat) : Bool :=
  (s.groupOf fn vec).any fun p => (s.rd p.1 &&& s.rd p.2) != 0

/-- Key of a vector of a function. -/
def vecKey (fn vec : Nat) : Nat := fn * 64 + vec

/-- The summary of a vector was 1 when it was last looked at. -/
def State.vecOn (s : State) (k : Nat) : Bool := kget (fun _ => false) s.msixOn k
/-- Note the summary of a vector. -/
def State.setVecOn (s : State) (k : Nat) (b : Bool) : State :=
  { s with msixOn := kset (fun _ => false) s.msixOn k b }

/-- A W1C write to a register of a group completed: a summary that it leaves at 1 sends again (R429). -/
def State.vecAgain (s : State) (a : Nat) : State :=
  let hits := fun k => (s.groupOf (k / 64) (k % 64)).any fun p => p.1 == a
  { s with msixOn := s.msixOn.filter fun x => !hits x.1 }

/-- Summaries that have fallen to 0 are noted; what a masked vector held pending for one of them is gone with it (R429; log
entry 109). -/
def State.vecFall (s : State) : State :=
  let on := fun (x : Nat × Bool) => s.summary (x.1 / 64) (x.1 % 64)
  { s with msixOn := s.msixOn.filter on, msixPend := s.msixPend.filter on }

end Sys2Proof.Machine
end

