-- ==== Sys2Proof/Machine/Wft.lean ====
section
/-! DEFINITION. Writes to the waveform tables (R158–R161): entry buffers, commits, and the vectors from
which a commit is in effect. -/

namespace Sys2Proof.Machine

open Sys2Proof

/-- The channel, timing set and code of the entry at BAR4 offset `a` (R145). -/
def wftEntry (a : Nat) : Nat × Nat × Nat :=
  let o := a - 0x2400000
  (o / 0x5000, o % 0x5000 / 640, o % 640 / 40)

/-- A refused commit or an abandoned buffer of the entry at `a` (R159): recorded with its code, and with its requester
(R541): D0–D15 are 0–15, DC0–DC15 are 16–31. -/
def State.wftRefuse (s : State) (req a err : Nat) : State :=
  let (c, t, k) := wftEntry a
  ((s.wrN (Reg.CHN_WFT_STAT c) (256 * t + k * 16 + err)).irq (Reg.CHN_ISTAT c) 4).detect
    { src := 0x400 + c, code := err, addr := a, rkind := if req < 16 then 1 else 2, access := 1, rid := req % 16 }

/-- The buffer of requester `req`: D0–D15 are 0–15, DC0–DC15 are 16–31. -/
def State.wftBuf (s : State) (req : Nat) : Option EntryBuf := kget (fun _ => none) s.wbuf req
/-- Set the buffer of a requester. -/
def State.setWftBuf (s : State) (req : Nat) (b : Option EntryBuf) : State :=
  { s with wbuf := kset (fun _ => none) s.wbuf req b }

/-- A buffer that is open for another entry is abandoned (R159). -/
def State.wftAbandon (s : State) (req a : Nat) : State :=
  match s.wftBuf req with
  | some b => if b.entry = a then s else (s.setWftBuf req none).wftRefuse req b.entry 7
  | none => s

/-- The words a requester's buffer holds for the entry at `a`. -/
def State.wftHeld (s : State) (req : Nat) : KMap (Option Word) :=
  match s.wftBuf req with
  | some b => b.words
  | none => []

/-- A write to word `w` (0–8) of the entry at `a` is held in the requester's buffer. -/
def State.wftHold (s : State) (req a w : Nat) (v : Word) : State :=
  let s := s.wftAbandon req a
  s.setWftBuf req (some ⟨a, kset (fun _ => none) (s.wftHeld req) w (some v)⟩)

/-- The bytes an entry would have: held words in place of stored ones, and `v` as word 9. -/
def State.wftBytes (s : State) (req a : Nat) (v : Word) : List Byte :=
  let h := s.wftHeld req
  (List.range 10).flatMap fun i =>
    if i = 9 then leBytes 4 v.toNat
    else match kget (fun _ => none) h i with
      | some x => leBytes 4 x.toNat
      | none => s.sramRd (a + 4 * i) 4

/-- Store an entry; during a run the old bytes stay in force until the commit takes effect (R160). -/
def State.wftStore (s : State) (a : Nat) (bs : List Byte) : State :=
  let old := s.sramRd a 40
  let s := match s.seqOfCh (wftEntry a).1 with
    | some n =>
      if s.seqStopped n then s
      else { s with wold := kset (fun _ => []) s.wold a
                              (kget (fun _ => []) s.wold a ++ [({ old := old, mt := s.mt, vcnt := (s.sq n).vcnt } : WftOld)]) }
    | none => s
  s.sramWr a bs

/-- A write of word 9 commits the entry at `a` (R159). -/
def State.wftCommit (s : State) (req a : Nat) (v : Word) : State :=
  let s := s.wftAbandon req a
  let bs := s.wftBytes req a v
  let s := s.setWftBuf req none
  let (c, t, k) := wftEntry a
  match entryError bs (k == 0 && bit (s.apv (Reg.CHN_SER c)) t) with
  | 0 => s.wftStore a bs
  | e => s.wftRefuse req a e

/-- A 32-bit write at BAR4 offset `o` of the tables by a requester. -/
def State.wftWrite (s : State) (req o : Nat) (v : Word) : State :=
  let w := (o - 0x2400000) % 40 / 4
  let a := o - 4 * w
  if w = 9 then s.wftCommit req a v else s.wftHold req a w v

/-- A host write through BAR4 at offset `o` that depends on a resource and a power unit: GRAVE, then
protection, then Safe mode and dormancy (R434–R436, R485, R512, log entry 6). -/
def State.bar4Write (s : State) (dom o : Nat) (may : Bool) (unit : Option (Nat × Nat)) (blk : Nat)
    (k : State → State) : State :=
  if !s.hostOn dom || s.graveHeld then s
  else if !may then s.deny 2 dom 0 true o
  else if s.safeMode then s.dormantAt dom o blk true
  else match s.reach unit (bit (s.rd Reg.HIF_WOA) (blk / 256)) with
    | .awake t => k t
    | .away late => s.dormantAt dom o blk true late

/-- A host write to the waveform tables of channel `c` (R158). -/
def State.wftHost (s : State) (dom c o : Nat) (k : State → State) : State :=
  s.bar4Write dom o (s.owns dom 2 c) (some (1, c)) (0x400 + c) k

/-- WFT_WORD_WRITE: words 0–8. -/
def doWftWordWrite (dom c t k w : Nat) (v : Word) (s : State) : State :=
  s.wftHost dom c (wftAddr c t k + 4 * w) fun s => s.wftHold dom (wftAddr c t k) w v
/-- Meaning of WFT_WORD_WRITE. -/
def execWftWordWrite (dom : Fin 16) (ch : Fin 128) (tset : Fin 32) (code : Fin 16) (w : Fin 9) (v : Word)
    (s : State) : Host.Outcome State Fault Refusal :=
  .next (doWftWordWrite dom.val ch.val tset.val code.val w.val v s)

/-- WFT_COMMIT: word 9. -/
def doWftCommit (dom c t k : Nat) (v : Word) (s : State) : State :=
  s.wftHost dom c (wftAddr c t k + 36) fun s => s.wftCommit dom (wftAddr c t k) v
/-- Meaning of WFT_COMMIT. -/
def execWftCommit (dom : Fin 16) (ch : Fin 128) (tset : Fin 32) (code : Fin 16) (v : Word) (s : State) :
    Host.Outcome State Fault Refusal := .next (doWftCommit dom.val ch.val tset.val code.val v s)

/-- A commit of the entry at `a` is listed. The module may put it into effect at any vector, and has put it
into effect when both bounds have passed (R160). -/
def State.wftDue (s : State) (a : Nat) : Bool := !(kget (fun _ => []) s.wold a).isEmpty

/-- WFT_ENTRY_TAKES_EFFECT: from the next vector on, none uses the entry from before the oldest commit. -/
def doWftEntryTakesEffect (c t k : Nat) (s : State) : State :=
  let a := wftAddr c t k
  s.whenDue (s.wftDue a) fun s =>
    { s with wold := kset (fun _ => []) s.wold a ((kget (fun _ => []) s.wold a).drop 1) }
/-- Meaning of WFT_ENTRY_TAKES_EFFECT. -/
def execWftEntryTakesEffect (ch : Fin 128) (tset : Fin 32) (code : Fin 16) (s : State) :
    Host.Outcome State Fault Refusal := .next (doWftEntryTakesEffect ch.val tset.val code.val s)

end Sys2Proof.Machine
end

