-- ==== Sys2Proof/Machine/Bar.lean ====
section
/-! DEFINITION. BAR2 and BAR4 (R423, R424), what may be written while a sequencer plays (R74, R116, R126,
R127), and the protection table's entry buffer and checks (R430–R432). -/

namespace Sys2Proof.Machine

open Sys2Proof

/-! ### What is closed while a sequencer plays (R127) -/

/-- The byte at DRAM address `a` lies in a descriptor of an active entry. -/
def State.descActive (s : State) (a : Nat) : Bool :=
  decide (a < segTop) && (s.activeEntries (a / 0x100000)).contains (a % 0x100000 / 16)

/-- The byte at BAR4 offset `o` is data of an active local entry of SQn. -/
def State.localActive (s : State) (n o : Nat) : Bool :=
  (s.activeLocals n).any fun d =>
    let lo := vbBase + 4096 * (s.carveOf n).vblBase + d.addr
    decide (lo ≤ o) && decide (o < lo + d.nvec * s.recW n)

/-- Domain `dom` may access the DRAM byte at `a` now: the segment tables follow the sequencer entries
(R116, R431) and the descriptors of active entries are closed (R127). -/
def State.byteMay (s : State) (dom : Nat) (wr : Bool) (a : Nat) : Bool :=
  if a < segTop then !wr || (s.owns dom 1 (a / 0x100000) && !s.descActive a) else s.dramMay dom wr a

/-! ### BAR2 (R423) -/

/-- DRAM address of BAR2 offset `o` in the function of domain `dom` (R423). -/
def State.bar2Addr (s : State) (dom o : Nat) : Nat := 2 ^ 30 * (s.rd (Reg.HIF_W2BASE dom)).toNat + o

/-- The stretches of enabled bytes of a write, with their addresses. -/
def enabledRuns (a : Nat) : List (Option Byte) → List (Nat × List Byte)
  | [] => []
  | none :: l => enabledRuns (a + 1) l
  | some b :: l =>
    match enabledRuns (a + 1) l with
    | (a', bs) :: r => if a' = a + 1 then (a, b :: bs) :: r else (a, [b]) :: (a', bs) :: r
    | [] => [(a, [b])]

/-- A write request with byte enables: a write request for each run of enabled bytes (R381, R423). -/
def State.dramPutRuns (s : State) (q : DramReq) (dom : Nat) (runs : List (Nat × List Byte)) : State :=
  runs.foldl (fun s r => s.dramPut q dom r.1 r.2) s

/-- `n` bytes as words, low byte first; past the last byte there are ones. -/
def toWords (bs : List Byte) : List Word :=
  (List.range ((bs.length + 3) / 4)).map fun i =>
    let w := (bs.drop (4 * i)).take 4
    word (leNat (w ++ List.replicate (4 - w.length) 0xFF))

/-- The same word in every word of a completion of `n` bytes (R434, R435). -/
def fillWords (n : Nat) (w : Word) : List Word := List.replicate ((n + 3) / 4) w

/-- A BAR2 request of a domain. -/
def bar2Req (dom : Nat) (wr : Bool) : DramReq := { cls := 2, id := dom, typ := b2n wr, rkind := 1 }

/-- A read of `n` bytes at DRAM address `a` is answered; a line that is lost poisons the completion (R391). -/
def State.dramAnswer (s : State) (q : DramReq) (dom a n : Nat) : State :=
  let r := s.dramAsk q dom a n
  let g := r.1.dramGive a n
  { g.1.answer (toWords g.2) with rpoison := r.2 }

/-- A read of `n` bytes of BAR2 at offset `o`: GRAVE, then protection, then Safe mode, then DRAM (R423,
R434, R485, R512). -/
def State.bar2Read (s : State) (dom o n : Nat) : State :=
  let a := s.bar2Addr dom o
  if !s.hostOn dom || s.graveHeld then s.answer (fillWords n 0xFFFFFFFF)
  else if !(List.range n).all fun i => s.byteMay dom false (a + i) then
    (s.deny 1 dom 0 false o).answer (fillWords n 0xFFFFFFFF)
  else if s.safeMode then
    (s.dormantAt dom o (0xB00 + a / 64 % 8) false).answer (fillWords n (word (0xFFFF0B00 + a / 64 % 8)))
  else if s.dramHeld a n then s.dramWaits (.read (bar2Req dom false) dom a n)
  else s.dramAnswer (bar2Req dom false) dom a n

/-- A write of BAR2 at offset `o`. -/
def State.bar2Write (s : State) (dom o : Nat) (bs : List (Option Byte)) : State :=
  let a := s.bar2Addr dom o
  let runs := enabledRuns a bs
  if !s.hostOn dom || s.graveHeld then s
  else if !runs.all fun r => (List.range r.2.length).all fun i => s.byteMay dom true (r.1 + i) then s.deny 1 dom 0 true o
  else if s.safeMode then s.dormantAt dom o (0xB00 + a / 64 % 8) true
  else if runs.isEmpty then s
  else (s.keepOld a bs.length).dramPutRuns (bar2Req dom true) dom runs

/-- BAR2_ACCESS; a write that arrives poisoned is discarded (R417). -/
def doBar2Access (dom o : Nat) (acc : MemAcc) (poison : Bool) (s : State) : State :=
  match acc with
  | .read n => s.bar2Read dom o n
  | .write bs => if poison then s.poisoned dom o else s.bar2Write dom o bs
/-- Meaning of BAR2_ACCESS. -/
def execBar2Access (dom : Fin 16) (off : BitVec 36) (acc : Bar2Acc) (s : State) :
    Host.Outcome State Fault Refusal := .next (doBar2Access dom.val off.toNat acc.acc acc.poison s)

/-! ### BAR4 (R424) -/

/-- The sequencer one of whose carves, given by base and size in 4 kB units, holds region offset `x`. -/
def State.carveHit (s : State) (base size : Carve → Nat) (x : Nat) : Option Nat :=
  (List.range 16).find? fun n =>
    let c := s.carveOf n
    decide (4096 * base c ≤ x) && decide (x < 4096 * (base c + size c))

/-- The channel whose acquisition area holds offset `x` of capture memory (R50). -/
def State.capHit (s : State) (x : Nat) : Option Nat :=
  (List.range 128).find? fun c =>
    let q := s.acqrOf c
    decide (4096 * q.capBase ≤ x) && decide (x < 4096 * (q.capBase + q.capSize))

/-- The sequencer whose Contact Sheet buffers hold offset `x` of their area (R230). -/
def State.sheetHit (s : State) (x : Nat) : Option Nat :=
  (List.range 16).find? fun n =>
    let c := s.carveOf n
    decide (1024 * c.csBase ≤ x) && decide (x < 1024 * (c.csBase + 3 * c.csSize))

/-- The graph whose node state holds offset `x` of the graph-state area (R51). -/
def State.graphHit (s : State) (x : Nat) : Option Graph :=
  s.str.graphs.find? fun g => decide (g.base ≤ x) && decide (x < g.base + (g.nodes.map fun n => 64 * n.units).sum)

/-- Offsets of BAR4 that hold nothing (R424). -/
def bar4Reserved (o : Nat) : Bool := decide (0x3000000 ≤ o)

/-- Domain `dom` may write the word at BAR4 offset `o` (R74, R127, R158, R424, R425). -/
def State.bar4MayWrite (s : State) (dom o : Nat) : Bool :=
  if o < 0x800000 then
    match s.carveHit Carve.sqsBase Carve.sqsSize o with
    | some n => s.owns dom 1 n && s.seqStopped n
    | none => false
  else if o < 0x1800000 then
    match s.carveHit Carve.vblBase Carve.vblSize (o - vbBase) with
    | some n => s.owns dom 1 n && !s.localActive n o
    | none => (s.carveHit Carve.vbpBase Carve.vbpSize (o - vbBase)).isNone && dom == 0
  else if o < 0x2400000 then dom == 0
  else if o < 0x2680000 then s.owns dom 2 (wftEntry o).1
  else false

/-- Domain `dom` may read the word at BAR4 offset `o` (R234, R424). -/
def State.bar4MayRead (s : State) (dom o : Nat) : Bool :=
  dom == 0 ||
    (if o < 0x1800000 then true
     else if o < 0x2400000 then
       match s.carveHit Carve.capBase Carve.capSize (o - 0x1800000), s.capHit (o - 0x1800000) with
       | some n, _ => s.owns dom 1 n
       | none, some c => s.owns dom 2 c
       | none, none => false
     else if o < 0x2680000 then s.owns dom 2 (wftEntry o).1
     else if 0x2C00000 ≤ o ∧ o < 0x2D00000 then
       match s.sheetHit (o - 0x2C00000) with
       | some n => s.owns dom 4 n
       | none => false
     else if 0x2F00000 ≤ o ∧ o < 0x3000000 then
       match (s.graphHit (o - 0x2F00000)).bind (·.owner) with
       | some n => s.owns dom 1 n
       | none => false
     else false)

/-- The power unit a BAR4 range depends on (R497, R502). -/
def bar4Unit (o : Nat) : Option (Nat × Nat) :=
  if 0x2400000 ≤ o ∧ o < 0x2680000 then some (1, (wftEntry o).1) else none

/-- The block that answers for a BAR4 range that is away (R435; log entry 6). -/
def bar4Block (o : Nat) : Nat :=
  if o < 0x1800000 then 0x200 else if o < 0x2400000 then 0x600
  else if o < 0x2680000 then 0x400 + (wftEntry o).1 else if o < 0x2B00000 then 0xA00
  else if o < 0x2C00000 then 0x800 else if o < 0x2D00000 then 0x900 else 0xA00

/-- An access that R4 does not allow: a NOTE fault with the address and the requester. -/
def State.r4Note (s : State) (dom src a : Nat) (wr : Bool) : State :=
  s.detect { src := src, addr := a, rkind := 1, access := b2n wr, rid := dom }

/-- A host write of the word at BAR4 offset `o`. -/
def State.bar4Put (s : State) (dom o : Nat) (v : Word) : State :=
  if o % 4 ≠ 0 ∨ bar4Reserved o then (if s.hostOn dom && !s.graveHeld then s.r4Note dom blkHIF o true else s)
  else s.bar4Write dom o (s.bar4MayWrite dom o) (bar4Unit o) (bar4Block o) fun s =>
    if 0x2400000 ≤ o ∧ o < 0x2680000 then s.wftWrite dom o v else s.sramWr o (leBytes 4 v.toNat)

/-- The scheduler state and the flow contexts (R352, R424): the manual says what they hold (queue pointers, credits,
counters, which change as the engines work) and not how, so a word read there is an open value (log entry 105). -/
def bar4Open (o : Nat) : Bool := decide (0x2680000 ≤ o) && decide (o < 0x2B00000)

/-- The word that stands at BAR4 offset `o`. -/
def State.bar4Word (s : State) (o : Nat) : State × Word :=
  if bar4Open o then (s.drawn, word s.freeNow) else (s, s.sramW o)

/-- A host read of the word at BAR4 offset `o`. -/
def State.bar4Get (s : State) (dom o : Nat) : State :=
  let ones := [word 0xFFFFFFFF]
  let blk := bar4Block o
  let away := fun (late : Bool) => (s.dormantAt dom o blk false late).answer [word (0xFFFF0000 + blk)]
  if !s.hostOn dom || s.graveHeld then s.answer ones
  else if o % 4 ≠ 0 ∨ bar4Reserved o then (s.r4Note dom blkHIF o false).answer ones
  else if !s.bar4MayRead dom o then (s.deny 2 dom 0 false o).answer ones
  else if s.safeMode then away false
  else match s.reach (bar4Unit o) (bit (s.rd Reg.HIF_WOA) (blk / 256)) with
    | .awake t => (t.bar4Word o).1.answer [(t.bar4Word o).2]
    | .away late => away late

/-- BAR4_ACCESS: one 32-bit word; a write that arrives poisoned is discarded (R417). -/
def doBar4Access (dom o : Nat) (wr : Option Word) (poison : Bool) (s : State) : State :=
  match wr with
  | some v => if poison then s.poisoned dom o else s.bar4Put dom o v
  | none => s.bar4Get dom o
/-- Meaning of BAR4_ACCESS. -/
def execBar4Access (dom : Fin 16) (off : BitVec 26) (wr : Option HostWord) (s : State) :
    Host.Outcome State Fault Refusal :=
  .next (doBar4Access dom.val off.toNat (wr.map (·.val)) (wr.any (·.poison)) s)

/-! ### The protection table's entry buffer (R432) -/

/-- KIND of slot `i` (R430). -/
def slotKind (i : Nat) : Nat :=
  if i < 16 then 1 else if i < 144 then 2 else if i < 160 then 3 else if i < 176 then 4 else if i < 240 then 5 else 6
/-- INDEX of slot `i` (R430). -/
def slotIndex (i : Nat) : Nat := i - slotBase (slotKind i)

/-- A protection entry as its four words. -/
abbrev PtEntry := Nat × Nat × Nat × Nat

/-- Stored entry `i`. -/
def State.ptEntry (s : State) (i : Nat) : PtEntry :=
  ((s.rd (ptAddr i 0)).toNat, (s.rd (ptAddr i 1)).toNat, (s.rd (ptAddr i 2)).toNat, (s.rd (ptAddr i 3)).toNat)

/-- The words of entry `i` are stored. -/
def State.putPt (s : State) (i : Nat) (e : PtEntry) : State :=
  (((s.wrN (ptAddr i 0) e.1).wrN (ptAddr i 1) e.2.1).wrN (ptAddr i 2) e.2.2.1).wrN (ptAddr i 3) e.2.2.2

/-- Store entry `i`. A resource that changes its owner signals in the new owner's function from the next change of the
summary on (R429). -/
def State.setPt (s : State) (i : Nat) (e : PtEntry) : State :=
  let t := s.putPt i e
  let (k, x) := (slotKind i, slotIndex i)
  if 5 ≤ k ∨ t.ptOwner k x = s.ptOwner k x then t
  else
    let vec := if k = 2 then 32 + x / 32 else if k = 3 then 16 + x else x
    let fn := t.ptOwner k x
    let t := t.vecFall
    if t.summary fn vec && !s.summary fn vec then t.setVecOn (vecKey fn vec) true else t

/-- Reserved bits of an entry of a kind are set (R430): READ_ALL belongs to kind 6 alone. -/
def ptReserved (kind : Nat) (e : PtEntry) : Bool :=
  bits e.1 29 28 != 0 || bits e.1 19 9 != 0 || (kind != 6 && bits e.1 30 30 != 0) || e.2.2.2 != 0 ||
    (if kind = 5 then decide (2 ^ 14 ≤ e.2.1) || decide (2 ^ 15 ≤ e.2.2.1)
     else if kind = 6 then decide (2 ^ 22 ≤ e.2.1) || decide (2 ^ 23 ≤ e.2.2.1)
     else e.2.1 != 0 || e.2.2.1 != 0)

/-- Values of an entry lie in range (R431). -/
def ptInRange (kind : Nat) (e : PtEntry) : Bool :=
  if kind < 5 then true
  else if bits e.1 31 31 = 0 then e.2.1 == 0 && e.2.2.1 == 0
  else decide (1 ≤ e.2.2.1) && decide (e.2.1 + e.2.2.1 ≤ if kind = 5 then 16384 else 4194304)

/-- The code with which an entry is refused for slot `i` on its own account: 0 none, 1 KIND or INDEX, 3
reserved bits, 4 range (R432). -/
def ptCheck (i : Nat) (e : PtEntry) : Nat :=
  if bits e.1 23 20 != slotKind i || bits e.1 8 0 != slotIndex i then 1
  else if ptReserved (slotKind i) e then 3
  else if !ptInRange (slotKind i) e then 4
  else 0

/-- Two valid entries of kind 5 or 6 share a flow or a byte (R431). -/
def ptMeet (e f : PtEntry) : Bool :=
  bits e.1 31 31 == 1 && bits f.1 31 31 == 1 && decide (e.2.1 < f.2.1 + f.2.2.1) && decide (f.2.1 < e.2.1 + e.2.2.1)

/-- Entry `e` in slot `i` overlaps a stored entry of its kind (R431). -/
def State.ptOverlap (s : State) (i : Nat) (e : PtEntry) : Bool :=
  decide (5 ≤ slotKind i) && (List.range 64).any fun k =>
    let j := slotBase (slotKind i) + k
    j != i && ptMeet e (s.ptEntry j)

/-- A refused entry or abandoned words of slot `i`, which D0 alone writes (R432, R541). -/
def State.ptRefuse (s : State) (i code : Nat) : State :=
  ((s.wrN Reg.HIF_PT_ERR (2 ^ 31 + 2 ^ 16 * i + code)).irq Reg.HIF_ISTAT 4).detect
    { src := blkHIF, code := code, addr := ptAddr i 0, rkind := 1, access := 1 }

/-- Words held for another slot are abandoned. -/
def State.ptAbandon (s : State) (i : Nat) : State :=
  match s.ptbuf with
  | some b => if b.entry = i then s else { s.ptRefuse b.entry 5 with ptbuf := none }
  | none => s

/-- The words held for the open slot. -/
def State.ptHeld (s : State) : KMap (Option Word) := match s.ptbuf with | some b => b.words | none => []

/-- Word `w` of slot `i`: held in the entry buffer (R432). -/
def State.ptHold (s : State) (i w : Nat) (v : Word) : State :=
  let s := s.ptAbandon i
  { s with ptbuf := some ⟨i, kset (fun _ => none) s.ptHeld w (some v)⟩ }

/-- The entry that a commit of slot `i` with word 0 `v` would make (R432). -/
def State.ptMade (s : State) (i : Nat) (v : Word) : PtEntry :=
  let w := fun k => ((kget (fun _ => none) s.ptHeld k).getD (s.rd (ptAddr i k))).toNat
  (v.toNat, w 1, w 2, w 3)

/-- A commit of slot `i` (R432). -/
def State.ptCommit (s : State) (i : Nat) (v : Word) : State :=
  let s := s.ptAbandon i
  let e := s.ptMade i v
  let s := { s with ptbuf := none }
  if ptCheck i e ≠ 0 then s.ptRefuse i (ptCheck i e)
  else if s.ptOverlap i e then s.ptRefuse i 2
  else s.setPt i e

/-- HIF_PT_WORD_WRITE: words 1–3. -/
def doHifPtWordWrite (dom i w : Nat) (v : Word) (s : State) : State :=
  s.hostWrite dom (ptAddr i w) fun s => s.ptHold i w v
/-- Meaning of HIF_PT_WORD_WRITE: operand `w` 0–2 is word 1–3. -/
def execHifPtWordWrite (dom : Fin 16) (slot : Fin 304) (w : Fin 3) (v : Word) (s : State) :
    Host.Outcome State Fault Refusal := .next (doHifPtWordWrite dom.val slot.val (w.val + 1) v s)

/-- HIF_PT_COMMIT: word 0. -/
def doHifPtCommit (dom i : Nat) (v : Word) (s : State) : State :=
  s.hostWrite dom (ptAddr i 0) fun s => s.ptCommit i v
/-- Meaning of HIF_PT_COMMIT. -/
def execHifPtCommit (dom : Fin 16) (slot : Fin 304) (v : Word) (s : State) : Host.Outcome State Fault Refusal :=
  .next (doHifPtCommit dom.val slot.val v s)

end Sys2Proof.Machine
end

