-- ==== Sys2Proof/Machine/Cal.lean ====
section
/-! DEFINITION. Calibration in service (R327–R350): the rotation and its slots, the check of results, stored
sets and the commands of the block. -/

namespace Sys2Proof.Machine

open Sys2Proof

/-! ### Checking a result (R333) -/

/-- A number lies within `d` of another. -/
def near (d : Int) (a b : Int) : Bool := decide (a - b ≤ d) && decide (b - a ≤ d)

/-- The signed 16-bit number at offset `o`. -/
def s16 (bs : List Byte) (o : Nat) : Int := sext 16 (getLE bs o 2)

/-- The tap positions from offset `o`. -/
def tapsAt (bs : List Byte) (o : Nat) : List Nat := (List.range 128).map fun i => getLE bs (o + 2 * i) 2

/-- A list of numbers rises by steps within bounds. -/
def stepsIn (lo hi : Nat) : List Nat → Bool
  | a :: b :: l => decide (a + lo ≤ b) && decide (b ≤ a + hi) && stepsIn lo hi (b :: l)
  | _ => true

/-- Bounds of a generator's taps and vernier trims against F (R333). -/
def genNear (r f : List Byte) (vern taps : Nat) : Bool :=
  ((List.range 128).all fun i => near 1024 (getLE r (taps + 2 * i) 2) (getLE f (taps + 2 * i) 2)) &&
    (List.range 8).all fun i => near 2 (getLE r (vern + i) 1) (getLE f (vern + i) 1)

/-- Trim codes that lie so far apart span less than one tap, 512 × 2^-16 tick (R177, R333): what one code is worth is open
(log entry 50). -/
def spanOk (codes : Nat) : Bool := decide (Config.trimUnit.val * codes < 512)

/-- Taps strictly increase in steps of 256 to 768, and the vernier steps strictly increase and span less than one
tap (R333). -/
def genMono (r : List Byte) (vern taps : Nat) : Bool :=
  stepsIn 256 768 (tapsAt r taps) && stepsIn 1 255 ((List.range 8).map fun i => getLE r (vern + i) 1) &&
    spanOk (getLE r (vern + 7) 1 - getLE r vern 1)

/-- A gain within 1 % of F's, and its offset within 64 codes (R333). -/
def gainNear (r f : List Byte) (o : Nat) : Bool :=
  let g : Int := getLE r o 4
  let h : Int := getLE f o 4
  decide (100 * (g - h) ≤ h) && decide (100 * (h - g) ≤ h) &&
    near 64 (sext 32 (getLE r (o + 4) 4)) (sext 32 (getLE f (o + 4) 4))

/-- Offsets in a channel record of the DAC and PMU gains, and of the digitiser gains (R344). -/
def dacGains : List Nat := (List.range 11).map (fun i => 0x140 + 12 * i) ++ (List.range 5).map fun i => 0x1C4 + 8 * i
def digGains : List Nat := (List.range 6).map fun i => 0x1EC + 8 * i

/-- A channel record's bounds against F's. -/
def chanNear (r f : List Byte) : Bool :=
  near 256 (s16 r 4) (s16 f 4) && near 256 (s16 r 6) (s16 f 6) && genNear r f 0x20 0x40 &&
    (dacGains ++ digGains).all fun o => gainNear r f o

/-- A channel record's monotonic rules. -/
def chanMono (r : List Byte) : Bool := genMono r 0x20 0x40 && dacGains.all fun o => decide (getLE r o 4 ≠ 0)

/-- A spare record's bounds and monotonic rules. -/
def spareNear (r f : List Byte) : Bool :=
  genNear r f 0x8 0x10 && (List.range 64).all fun i => near 256 (s16 r (0x110 + 2 * i)) (s16 f (0x110 + 2 * i))
def spareMono (r : List Byte) : Bool := genMono r 0x8 0x10

/-- Reason of the first rule that fails: 0 none, 1 BOUND, 2 MONOTONIC (R333). -/
def firstRule (bound mono : Bool) : Nat := if !bound then 1 else if !mono then 2 else 0

/-- Offset in a set, and length, of the record of a target: a channel, or 128 + tile. -/
def recOfs (target : Nat) : Nat := if target < 128 then 64 + 640 * target else 64 + 640 * 128 + 512 * (target - 128)
def recLen (target : Nat) : Nat := if target < 128 then 640 else 512

/-- F's record of a target. -/
def State.factoryRec (s : State) (target : Nat) : List Byte := s.norRd (norCal 0 + recOfs target) (recLen target)
/-- The working set's record of a target. -/
def State.workRec (s : State) (target : Nat) : List Byte := s.sramRd (calBase + recOfs target) (recLen target)

/-- The record of a target is within bounds of F, and monotonic. -/
def recNear (target : Nat) (r f : List Byte) : Bool := if target < 128 then chanNear r f else spareNear r f
def recMono (target : Nat) (r : List Byte) : Bool := if target < 128 then chanMono r else spareMono r

/-- A whole set, given by its records, against F (R333). -/
def State.setRule (s : State) (rec : Nat → List Byte) : Nat :=
  firstRule ((List.range 132).all fun t => recNear t (rec t) (s.factoryRec t)) ((List.range 132).all fun t => recMono t (rec t))

/-! ### Sets (R343, R345, R347) -/

/-- The bytes of a set's records in the working set. -/
def State.workBody (s : State) : List Byte := s.sramRd (calBase + 64) 83968

/-- A whole set (R343): header, records and trailer. -/
def State.setBytes (s : State) (seqno reason : Nat) (body : List Byte) : List Byte :=
  let temp := ((List.range 4).map fun t => leBytes 2 (s.rdF (Reg.PEL_TEMP t) 15 0)).flatten
  let head := leBytes 4 0x4143524C ++ leBytes 2 0x0100 ++ leBytes 2 0x00B1 ++ leBytes 4 seqno ++ leBytes 4 84048 ++
    leBytes 1 1 ++ leBytes 1 reason ++ zeros 6 ++ leBytes 8 s.mt ++ temp ++ zeros 20
  let all := head ++ leBytes 4 (crc32c head) ++ body
  all ++ leBytes 4 (crc32c all) ++ leBytes 4 seqno ++ zeros 8

/-- The set in region `b` is whole: header, check words and both copies of SEQNO (R347). -/
def State.setWhole (s : State) (b : Nat) : Bool :=
  let a := norCal b
  let h := s.norRd a 64
  getLE h 0 4 == 0x4143524C && getLE h 4 2 == 0x0100 && getLE h 6 2 == 0x00B1 && getLE h 0xC 4 == 84048 &&
    getLE h 0x3C 4 == crc32c (h.take 0x3C) &&
    leNat (s.norRd (a + 84032) 4) == crc32c (s.norRd a 84032) && leNat (s.norRd (a + 84036) 4) == getLE h 8 4

/-- R333 on the set in region `b`. -/
def State.bankRule (s : State) (b : Nat) : Nat := s.setRule fun t => s.norRd (norCal b + recOfs t) (recLen t)

/-- The set in region `b` is valid (R347). -/
def State.setValid (s : State) (b : Nat) : Bool := s.setWhole b && s.bankRule b == 0

/-- SEQNO of the set in region `b`; 0 if it is not valid. -/
def State.bankSeq (s : State) (b : Nat) : Nat := if s.setValid b then leNat (s.norRd (norCal b + 8) 4) else 0

/-- The sets' check words are checked (R347): an injection may make them fail, once or for good (R492). -/
def State.setCheck (s : State) : State × Bool :=
  let i := s.injTake 0x800 3
  (if i.2 then i.1.detect { src := 0x800, chk := 3, retried := true, inj := true } else i.1, i.2)

/-- The bank a store goes into and the SEQNO it gets (R345), where the sets' check words fail if `bad`. -/
def State.storeTarget (s : State) (bad : Bool) : Nat × Nat :=
  let a := s.setValid 1 && !bad
  let b := s.setValid 2 && !bad
  let na := s.bankSeq 1
  let nb := s.bankSeq 2
  (if !a then 1 else if !b then 2 else if na ≤ nb then 1 else 2, if a || b then max na nb + 1 else 1)

/-- A result or a set is rejected (R333, R349). -/
def State.calReject (s : State) (target kind reason : Nat) (body : List Byte) : State :=
  let s := s.wrN Reg.CAL_REJ (2 ^ 31 + 2 ^ 16 * target + kind * 16 + reason)
  let s := (s.count Reg.CAL_REJ_CNT 1).irq Reg.CAL_ISTAT 8
  { s with cal := { s.cal with reject := some (reason, body) } }

/-- A store is refused or fails with a code of CAL_STORE_ERR. -/
def State.storeErr (s : State) (code : Nat) : State := (s.wrN Reg.CAL_STORE_ERR code).irq Reg.CAL_ISTAT 32

/-- A set goes to region `b`: erase, header, records and the trailer's SEQNO, then CHECK (R345). -/
def State.setStore (s : State) (b seqno reason : Nat) (body : List Byte) : State :=
  let bs := s.setBytes seqno reason body
  let a := norCal b
  let s := { s with cal := { s.cal with storing := some b, stored := none } }
  (s.wrF Reg.CAL_STAT 31 31 1).norPush
    { user := 2, region := 4, erases := [(a, 0x40000)],
      writes := [(a, bs.take 84032), (a + 84036, bs.drop 84036), (a + 84032, (bs.drop 84032).take 4)], arg := seqno }

/-- The supervisor core is being switched: new stores are refused with BUSY (R519). -/
def State.supSwitch (s : State) : Bool := decide (2 ≤ s.sup.op)

/-- What stops any store from beginning: none, or a code of CAL_STORE_ERR (R345, R346, R519). -/
def State.storeBar (s : State) : Nat :=
  if s.cal.storing.isSome || s.supSwitch then 2 else if s.pfw then 1 else 0

/-- A store of the working set begins, or is refused with its code (R345, R346, R349). -/
def State.calStore (s : State) (bar : Nat) : State :=
  if bar ≠ 0 then (if bar = 1 then s.norPfw else s).storeErr bar
  else
    match s.setRule s.workRec with
    | 0 =>
      let i := s.setCheck
      i.1.setStore (i.1.storeTarget i.2).1 (i.1.storeTarget i.2).2 0 i.1.workBody
    | r => (s.calReject 0xFF 1 r s.workBody).storeErr 3

/-- CAL_STORE: refused with a NOTE fault while a MOD-class fault is held (R484), or with BUSY. -/
def doCalStore (dom : Nat) (s : State) : State :=
  s.hostWrite dom Reg.CAL_CMD fun s =>
    if s.modHeld then s.noteReg dom Reg.CAL_CMD
    else
      let bar := s.storeBar
      (if bar = 2 then s.noteReg dom Reg.CAL_CMD 2 else s).calStore bar
/-- Meaning of CAL_STORE. -/
def execCalStore (dom : Fin 16) (s : State) : Host.Outcome State Fault Refusal := .next (doCalStore dom.val s)

/-- SAVE_REJ: the latest rejected candidate goes to the reject slot, under the rules of a store (R349);
without a candidate it is discarded with a NOTE fault. -/
def doSaveRej (dom : Nat) (s : State) : State :=
  s.hostWrite dom Reg.CAL_CMD fun s =>
    if s.modHeld then s.noteReg dom Reg.CAL_CMD
    else
      match s.storeBar, s.cal.reject with
      | 0, some (r, body) =>
        let i := s.setCheck
        i.1.setStore 3 (i.1.storeTarget i.2).2 r body
      | 0, none => s.noteReg dom Reg.CAL_CMD
      | 2, _ => (s.noteReg dom Reg.CAL_CMD 2).storeErr 2
      | b, _ => s.norPfw.storeErr b
/-- Meaning of SAVE_REJ. -/
def execSaveRej (dom : Fin 16) (s : State) : Host.Outcome State Fault Refusal := .next (doSaveRej dom.val s)

/-- CAL_STORE_DONE: the flash has ended the store (R345, R514). -/
def doCalStoreDone (s : State) : State :=
  match s.cal.storing, s.cal.stored with
  | some b, some code =>
    s.whenDue true fun s =>
      let s := { s with cal := { s.cal with storing := none, stored := none } }
      let s := s.wrF Reg.CAL_STAT 31 31 0
      let s := if b = 1 then s.wrN Reg.CAL_SEQ_A (s.bankSeq 1) else if b = 2 then s.wrN Reg.CAL_SEQ_B (s.bankSeq 2) else s
      if code ≠ 0 then s.storeErr code
      else if b < 3 then { s with cal := { s.cal with lastStore := s.mt } }.irq Reg.CAL_ISTAT 16
      else s
  | _, _ => s
/-- Meaning of CAL_STORE_DONE. -/
def execCalStoreDone (s : State) : Host.Outcome State Fault Refusal := .next (doCalStoreDone s)

/-! ### The rotation (R327–R331) -/

/-- The next target: the channels in order, those to be offered again, the spares (R327, R328). -/
def Cal.target (c : Cal) : Nat :=
  if c.next < 128 then c.next
  else match c.again with
    | t :: _ => t
    | [] => c.next

/-- The target is offered for the first time in this rotation. -/
def Cal.firstTurn (c : Cal) : Bool := decide (c.next < 128) || c.again.isEmpty

/-- The rotation moves past its target. -/
def Cal.passed (c : Cal) : Cal := if c.firstTurn then { c with next := c.next + 1 } else { c with again := c.again.drop 1 }

/-- A rotation is complete (R327, R345): counted, with its duration, and the automatic store, which does not begin while a
MOD-class or GRAVE-class fault is held (R484, R485). -/
def State.rotationEnd (s : State) : State :=
  let s := s.countF Reg.CAL_ROT 31 16 1
  let s := (s.wrF Reg.CAL_ROT 15 0 (sat 16 (((s.mt : Int) - s.cal.rotStart).toNat / 4000000))).irq Reg.CAL_ISTAT 1
  let ctl := s.rd Reg.CAL_CTL
  let auto := bit ctl 1 && !s.cal.skipped && decide (s.cal.lastStore + 240000000000 * fld ctl 15 8 ≤ (s.mt : Int))
  let s := { s with cal := { s.cal with next := 0, failed := [], skipped := false, rotStart := s.mt } }
  if auto && !s.modHeld && !s.graveHeld then s.calStore s.storeBar else s

/-- The rotation ends after SEG3. -/
def State.rotateCheck (s : State) : State := if 132 ≤ s.cal.next ∧ s.cal.again = [] then s.rotationEnd else s

/-- The tile takes no part in the rotation: its spare is assigned for good, a structure load runs on it, or
its rails are down (R22, R62, R499). -/
def State.tileOut (s : State) (t : Nat) : Bool :=
  bit (s.rd Reg.CAL_TILE) (8 * t) || bit (s.rd Reg.CAL_TILE) (8 * t + 1) || s.unit 6 t != 0

/-- The spare of a tile may stand in (R328, R337). -/
def State.spareOk (s : State) (t : Nat) : Bool :=
  !bit (s.rd Reg.CAL_TILE) (8 * t + 2) && !bit (s.rd Reg.CAL_TILE) (8 * t + 3) && !s.cal.spareDue.testBit t

/-- A target that takes no slot at its turn (R328). -/
def State.slotSkipped (s : State) (x : Nat) : Bool :=
  s.tileOut (tileOf x) ||
    (if x < 128 then !s.chStopped x && !((s.xbarOf x).spareOk && s.spareOk (x / 32))
     else bit (s.rd Reg.CAL_TILE) (8 * (x - 128) + 3))

/-- A target is skipped: a channel is marked EXCLUDED and offered once more (R328). -/
def State.slotSkip (s : State) (x : Nat) : State :=
  let first := s.cal.firstTurn
  let s := if x < 128 then s.wrF (Reg.CAL_CH_STAT x) 29 29 1 else s
  let c := s.cal.passed
  { s with cal := { c with again := if first && decide (x < 128) then c.again ++ [x] else c.again,
                           skipped := c.skipped || (!first && decide (x < 128)) } }.rotateCheck

/-- A slot begins on a target (R329, R330). -/
def State.slotBegin (s : State) (x : Nat) : State :=
  let s := if x < 128 then (s.wrF (Reg.CAL_CH_STAT x) 29 29 0).wakeNow 1 x 1 else s
  let subst := decide (x < 128) && !s.chStopped x
  let dig := decide (x < 128) && s.rdF (Reg.ACQ_STAT x) 2 0 == 0
  let s := if x < 128 then s.wrF (Reg.CAL_CH_STAT x) 30 30 (b2n !dig) else s
  let check := s.checkTdc (tileOf x)
  let slot : CalSlot :=
    { target := x, subst := subst, check := check, digSkip := !dig,
      prev := (s.rdF (Reg.CHN_DSK_DRV x) 15 0, s.rdF (Reg.CHN_DSK_CMP x) 15 0) }
  let s := (s.wrF Reg.CAL_STAT 30 30 1).wrF Reg.CAL_STAT 7 0 x
  if check.isNone then (s.setSlot (some { slot with result := some 5 })).calPhase 8
  else (s.setSlot (some slot)).calPhase (if subst then 1 else 4)

/-- CAL_SLOT_START: the next target of the rotation takes its turn (R327, R328). -/
def doCalSlotStart (s : State) : State :=
  s.whenDue (bit (s.rd Reg.CAL_CTL) 0 && s.cal.slot.isNone && !s.modHeld && bit (s.rd Reg.PWR_STAT) 31 && !s.supSwitch) fun s =>
    let x := s.cal.target
    if s.slotSkipped x then s.slotSkip x else s.slotBegin x
/-- Meaning of CAL_SLOT_START. -/
def execCalSlotStart (s : State) : Host.Outcome State Fault Refusal := .next (doCalSlotStart s)

/-- The check of R332: counts equal, mean within `mean` fs, no difference beyond 15 ps; with fewer than 16
pairs only the counts. -/
def pairsPass (o : CalObs) (mean : Int) : Bool :=
  o.nA == o.nB && (decide (o.pairs < 16) ||
    (decide (o.sumFs ≤ mean * o.pairs) && decide (-(mean * o.pairs) ≤ o.sumFs) && decide (o.maxFs ≤ 15000) &&
      decide (-15000 ≤ o.maxFs)))

/-- Put bytes in place of those at offset `o` of a list. -/
def putAt (bs : List Byte) (o : Nat) (new : List Byte) : List Byte := bs.take o ++ new ++ bs.drop (o + new.length)

/-- The record with the values a slot has formed (R330, R339). -/
def newRec (x : CalSlot) (old bs : List Byte) : List Byte :=
  if x.target < 128 then
    let r := putAt (putAt (putAt old 4 (bs.take 4)) 0x20 ((bs.drop 4).take 8)) 0x40 ((bs.drop 12).take 256)
    if x.digSkip then r else putAt r 0x1EC ((bs.drop 268).take 48)
  else putAt (putAt (putAt old 8 (bs.take 8)) 0x10 ((bs.drop 8).take 256)) 0x110 ((bs.drop 264).take 128)

/-- The results of the slot in progress are rejected (R333): the candidate is kept, and the slot goes on at
phase `p`. -/
def State.slotReject (s : State) (x : CalSlot) (reason p : Nat) (r : List Byte) : State :=
  let body := putAt s.workBody (recOfs x.target - 64) r
  let tgt := if x.target < 128 then x.target else 0x80 + (x.target - 128)
  ((s.calReject tgt 0 reason body).setSlot (some { x with result := some reason, passAt := s.mt, vecB := none })).calPhase p

/-- The CRC-32C kept with the working set follows its bytes (R348). -/
def State.calSeal (s : State) : State := { s with cal := { s.cal with crc := crc32c (s.sramRd calBase 84048) } }

/-- The working set takes the record of a target, and its calibration age begins again (R330). -/
def State.slotAccept (s : State) (target : Nat) (r : List Byte) : State :=
  let s := (s.sramWr (calBase + recOfs target) r).calSeal
  if target < 128 then s.calAgeNew target else s

/-- The digitiser's new values take effect at once (R339). -/
def State.digAccept (s : State) (x : CalSlot) (r : List Byte) : State :=
  if 128 ≤ x.target ∨ x.digSkip = true then s
  else
    let s := (s.sramWr (calBase + recOfs x.target + 0x1EC) ((r.drop 0x1EC).take 48)).calSeal
    { s with cal := { s.cal with digFrom := kset (fun _ => none) s.cal.digFrom x.target (some (s.mt : Int)) } }

/-- Compute ends: the new values are checked and, if they pass, loaded (R330, R333). Those of a direct slot stand in the
working set from the slot's end, as a START before it drops them (R336, log entry 93). -/
def State.slotCompute (s : State) (x : CalSlot) (bs : List Byte) : State :=
  let r := newRec x (s.workRec x.target) bs
  match firstRule (recNear x.target r (s.factoryRec x.target)) (recMono x.target r) with
  | 0 =>
    let s := s.digAccept x r
    let s := if x.target < 128 then s.dskLoad x.target r else s
    if x.subst then (s.setSlot (some { x with vals := r })).calPhase 6
    else (s.setSlot (some { x with vals := r, verified := true, result := some 0 })).calPhase 8
  | e => s.slotReject x e (if x.subst then 7 else 8) r

/-- The phase of the slot in progress. -/
def State.slotPhase (s : State) : Nat := s.rdF Reg.CAL_STAT 23 20

/-- CAL_PHASE_END: the phase in progress ends with what it measured (R330–R333). -/
def doCalPhaseEnd (o : CalObs) (s : State) : State :=
  match s.cal.slot with
  | none => s
  | some x =>
    s.whenDue true fun s =>
      match s.slotPhase with
      | 1 => s.calPhase 2
      | 2 => if pairsPass o 3000 then (s.setSlot (some { x with passAt := s.mt, vecB := none })).calPhase 3 else (s.setSlot (some { x with result := some 4 })).calPhase 8
      | 4 => s.calPhase 5
      | 5 => s.slotCompute x o.bytes
      | 6 =>
        if pairsPass o 1500 then
          ((s.sramWr (calBase + recOfs x.target) x.vals).calSeal.setSlot
            (some { x with verified := true, result := some 0, passAt := s.mt, vecB := none })).calPhase 7
        else s.slotReject x 3 7 x.vals
      | _ => s
/-- Meaning of CAL_PHASE_END. -/
def execCalPhaseEnd (o : CalObs) (s : State) : Host.Outcome State Fault Refusal := .next (doCalPhaseEnd o s)

/-- Vector b is where the owner's play front stands; where no vector is played, the 1 µs after the check are over
(R331). -/
def State.switchReady (s : State) (x : CalSlot) : Bool :=
  match s.seqOfCh x.target with
  | some n => if s.seqPlays n then x.vecB.any fun b => decide (b ≤ (s.sq n).vcnt) else decide (x.passAt + 4000 ≤ s.mt)
  | none => decide (x.passAt + 4000 ≤ s.mt)

/-- CAL_SWITCH_POINT: at vector b the spare takes over, or hands back (R330, R331). Events of vectors before b have been
placed already, by the other generator. -/
def doCalSwitchPoint (s : State) : State :=
  match s.cal.slot with
  | none => s
  | some x =>
    s.whenDue ((s.slotPhase == 3 || s.slotPhase == 7) && s.switchReady x) fun s =>
      if s.slotPhase = 3 then
        let s := (s.wrF (Reg.CHN_EDGE_STAT x.target) 29 29 1).wrF (Reg.CAL_CH_STAT x.target) 31 31 1
        (s.setSlot (some { x with spareIn := true })).calPhase 4
      else
        ((s.spareOut x).setSlot (some { x with spareIn := false })).calPhase 8
/-- Meaning of CAL_SWITCH_POINT. -/
def execCalSwitchPoint (s : State) : Host.Outcome State Fault Refusal := .next (doCalSwitchPoint s)

/-! ### The end of a slot (R334, R337) -/

/-- The result of a failed slot: it is retried once in the rotation; a second failure is noted (R337). -/
def State.slotFailed (s : State) (target result : Nat) : State :=
  if kget (fun _ => 0) s.cal.failed target = 0 then
    { s with cal := { s.cal with failed := kset (fun _ => 0) s.cal.failed target (result + 1),
                                 again := s.cal.again ++ [target] } }
  else s.detect { src := 0x800 + target % 128, chk := 3, code := result, addr := target, retried := true }

/-- SHADOW failures in succession on a tile; the third channel marks its spare suspect (R337). -/
def State.shadowTrack (s : State) (x : CalSlot) (result : Nat) : State :=
  let t := tileOf x.target
  let l := kget (fun _ => []) s.cal.shadowFails t
  let put := fun (s : State) (l : List Nat) => { s with cal := { s.cal with shadowFails := kset (fun _ => []) s.cal.shadowFails t l } }
  if !x.subst || decide (5 ≤ result ∧ result ≤ 7) then s
  else if result ≠ 4 then put s []
  else
    let l := if l.contains x.target then l else l ++ [x.target]
    if 3 ≤ l.length then
      (((put s []).wrF Reg.CAL_TILE (8 * t + 2) (8 * t + 2) 1).irq Reg.CAL_ISTAT 2).note 0x800 4 t
    else put s l

/-- CAL_SLOT_END: the slot's result is recorded and the rotation moves on (R334, R337). -/
def doCalSlotEnd (s : State) : State :=
  match s.cal.slot with
  | none => s
  | some x =>
    s.whenDue (s.slotPhase == 8) fun s =>
      let r := x.result.getD 0
      let first := s.cal.firstTurn
      let s := if x.verified && !x.subst then s.slotAccept x.target x.vals else s
      let s := if x.target < 128 then s.wrF (Reg.CAL_CH_STAT x.target) 3 0 r else s
      let s := ((s.wrF Reg.CAL_STAT 30 30 0).calPhase 0).wrF Reg.CAL_STAT 7 0 0xFF
      let s := (s.slotRests x).shadowTrack x r
      let was := kget (fun _ => 0) s.cal.failed x.target
      let s := { s with cal := s.cal.passed }
      let s : State :=
        if r = 0 then
          let s := if x.target < 128 then s else { s with cal := { s.cal with spareDue := s.cal.spareDue &&& (15 ^^^ 2 ^ (x.target - 128)) } }
          if was ≠ 0 then s.detect { src := 0x800 + x.target % 128, cls := 1, chk := 3, code := was - 1, retried := true } else s
        else if 5 ≤ r ∧ r ≤ 7 then
          if first && decide (x.target < 128) then { s with cal := { s.cal with again := s.cal.again ++ [x.target] } } else s
        else s.slotFailed x.target r
      s.rotateCheck
/-- Meaning of CAL_SLOT_END. -/
def execCalSlotEnd (s : State) : Host.Outcome State Fault Refusal := .next (doCalSlotEnd s)

/-! ### Temperature, age and the other commands -/

/-- CAL_TEMP_CORRECTION: the die of tile `t` has changed by 0.5 °C since the last correction: the TDC offsets
of its channels are corrected (R325, R340). -/
def doCalTempCorrection (t : Nat) (s : State) : State :=
  let now := s.rdF (Reg.PEL_TEMP t) 15 0
  let d := sext 16 now - sext 16 (kget (fun _ => 0) s.cal.temps t)
  s.whenDue (decide (4 ≤ d) || decide (d ≤ -4)) fun s =>
    let s := { s with cal := { s.cal with temps := kset (fun _ => 0) s.cal.temps t now } }
    forEach ((List.range 32).map (32 * t + ·)) (fun c s => (s.wrN (Reg.TMU_ZERO c) (s.zeroAt c)).drawn) s
/-- Meaning of CAL_TEMP_CORRECTION. -/
def execCalTempCorrection (t : Fin 4) (s : State) : Host.Outcome State Fault Refusal :=
  .next (doCalTempCorrection t.val s)

/-- CAL_CH_AGE of channel `c` in ms. -/
def State.calChAge (s : State) (c : Nat) : Nat :=
  match kget (fun _ => none) s.cal.ageFrom c with
  | some t => sat 32 (((s.mt : Int) - t).toNat / 4000000)
  | none => 0xFFFFFFFF

/-- CAL_CH_DIGAGE of channel `c` in s. -/
def State.calDigAge (s : State) (c : Nat) : Nat :=
  match kget (fun _ => none) s.cal.digFrom c with
  | some t => sat 32 (((s.mt : Int) - t).toNat / 4000000000)
  | none => 0xFFFFFFFF

/-- CAL_AGE_LIMIT: CAL_CH_AGE of a channel passes 10,000 ms (R341), once for each time its age began. -/
def doCalAgeLimit (c : Nat) (s : State) : State :=
  s.whenDue ((kget (fun _ => none) s.cal.ageFrom c).isSome && !kget (fun _ => false) s.cal.aged c &&
      decide (10000 < s.calChAge c)) fun s =>
    { s with cal := { s.cal with aged := kset (fun _ => false) s.cal.aged c true } }.irq Reg.CAL_ISTAT 4
/-- Meaning of CAL_AGE_LIMIT. -/
def execCalAgeLimit (ch : Fin 128) (s : State) : Host.Outcome State Fault Refusal := .next (doCalAgeLimit ch.val s)

/-- CLR_SUSPECT clears every suspect mark; a spare so cleared must pass its own slot first (R337). -/
def doClrSuspect (dom : Nat) (s : State) : State :=
  s.hostWrite dom Reg.CAL_CMD fun s =>
    forEach (List.range 4) (fun t s =>
      if bit (s.rd Reg.CAL_TILE) (8 * t + 2) then
        let s := s.wrF Reg.CAL_TILE (8 * t + 2) (8 * t + 2) 0
        { s with cal := { s.cal with spareDue := s.cal.spareDue ||| 2 ^ t } }
      else s) s
/-- Meaning of CLR_SUSPECT. -/
def execClrSuspect (dom : Fin 16) (s : State) : Host.Outcome State Fault Refusal := .next (doClrSuspect dom.val s)

/-- CAL_CMD_INVALID: OP 0 is discarded with a NOTE fault (R350). -/
def doCalCmdInvalid (dom : Nat) (v : Word) (s : State) : State :=
  s.hostWrite dom Reg.CAL_CMD fun s => if fld v 1 0 = 0 then s.noteReg dom Reg.CAL_CMD else s
/-- Meaning of CAL_CMD_INVALID. -/
def execCalCmdInvalid (dom : Fin 16) (v : Word) (s : State) : Host.Outcome State Fault Refusal :=
  .next (doCalCmdInvalid dom.val v s)

/-! ### Load at a start (R347, R348) -/

/-- Temperature-compensated values are formed at the present die temperatures, from which the next change counts
(R340). -/
def State.calTemps (s : State) : State :=
  let now := (List.range 4).foldl (fun m t => kset (fun _ => 0) m t (s.rdF (Reg.PEL_TEMP t) 15 0)) s.cal.temps
  { s with cal := { s.cal with temps := now } }

/-- A set of region `b` becomes the working set, and every channel takes its values. -/
def State.calLoad (s : State) (b seqno source : Nat) : State :=
  let s := s.sramWr calBase (s.norRd (norCal b) 84048)
  let s := (s.calSeal.wrN Reg.CAL_SEQ seqno).wrF Reg.CAL_STAT 29 28 source
  let s := s.calTemps
  forEach (List.range 128) (fun c s => s.calLoadChan c) s

/-- A bank that fails only R333 is recorded (R347). -/
def State.loadReject (s : State) (b : Nat) : State :=
  if s.setWhole b && s.bankRule b != 0 then
    ((s.wrN Reg.CAL_REJ (2 ^ 31 + 0xFF * 2 ^ 16 + 2 * 16 + s.bankRule b)).count Reg.CAL_REJ_CNT 1).irq Reg.CAL_ISTAT 8
  else s

/-- The calibration load of a cold start (R347); none where F itself is not valid. -/
def State.calColdLoad (s : State) : Option State :=
  let bad := s.setCheck.2
  let s := s.setCheck.1
  let a := s.setValid 1 && !bad
  let b := s.setValid 2 && !bad
  let na := s.bankSeq 1
  let nb := s.bankSeq 2
  let s := ((s.loadReject 1).loadReject 2)
  let s := (s.wrN Reg.CAL_SEQ_A na).wrN Reg.CAL_SEQ_B nb
  if a && (!b || decide (nb ≤ na)) then some (s.calLoad 1 na 1)
  else if b then some (s.calLoad 2 nb 2)
  else if s.setValid 0 && !bad then some ((s.calLoad 0 0 3).note 0x800)
  else none

end Sys2Proof.Machine
end

