-- ==== Sys2Proof/Machine/Dma.lean ====
section
/-! DEFINITION. Descriptor DMA (R396–R413): spaces and their checks, the descriptor's checks, pieces and
paced bursts, completion, and the commands of a channel. -/

namespace Sys2Proof.Machine

open Sys2Proof

/-! ### Channel state -/

/-- DMA_STAT.STATE: 0 IDLE, 1 RUN, 2 WAIT_OWN, 3 WAIT_PACE, 4 PAUSED, 5 HALTED. -/
def State.dmaState (s : State) (n : Nat) : Nat := s.rdF (Reg.DMA_STAT n) 2 0
/-- Set DMA_STAT.STATE. The DMA's pace monitor reports 0xFFFF once no channel runs (R187). -/
def State.setDmaState (s : State) (n st : Nat) : State :=
  let s := s.wrF (Reg.DMA_STAT n) 2 0 st
  if (List.range 16).any fun k => s.dmaState k != 0 && s.dmaState k != 5 then s
  else { s with pace := kset (fun _ => 0xFFFF) s.pace 0x42 0xFFFF }
/-- DMA_CTL.DSPACE: the descriptors lie in module DRAM (1) or host memory (0). -/
def State.descSpace (s : State) (n : Nat) : Nat := s.rdF (Reg.DMA_CTL n) 5 4
/-- DMA_CUR. -/
def State.dmaCur (s : State) (n : Nat) : Nat := s.rdWide (Reg.DMA_CUR_LO n) 2
/-- The domain that DCn's accesses are checked as (R397). -/
def State.dmaDom (s : State) (n : Nat) : Nat := s.ptOwner 3 n

/-! ### The descriptor in service (R399) -/

/-- CTL. -/
def DmaUnit.ctl (u : DmaUnit) : Nat := u.dword 0
/-- LEN. -/
def DmaUnit.len (u : DmaUnit) : Nat := u.dword 1
/-- A 64-bit field at word `i`. -/
def DmaUnit.wide (u : DmaUnit) (i : Nat) : Nat := u.dword i + 2 ^ 32 * u.dword (i + 1)
/-- SRC. -/
def DmaUnit.src (u : DmaUnit) : Nat := u.wide 2
/-- DST. -/
def DmaUnit.dst (u : DmaUnit) : Nat := u.wide 4
/-- NEXT. -/
def DmaUnit.next (u : DmaUnit) : Nat := u.wide 6
/-- SSPACE. -/
def DmaUnit.sspace (u : DmaUnit) : Nat := bits u.ctl 23 22
/-- DSPACE. -/
def DmaUnit.dspace (u : DmaUnit) : Nat := bits u.ctl 21 20
/-- NEXT.END. -/
def DmaUnit.isEnd (u : DmaUnit) : Bool := bits u.next 0 0 == 1

/-- The 16 words of 64 descriptor bytes. -/
def descWords (bs : List Byte) : List Word := (List.range 16).map fun i => word (getLE bs (4 * i) 4)

/-- An address fits its space (R396). -/
def addrFits (space a : Nat) : Bool :=
  a % 4 == 0 && (if space = 1 then decide (a < 2 ^ 42) else if space = 2 then decide (a < 2 ^ 26) else true)

/-- Bytes of a space that the source may not pass (R401). -/
def spaceEnd (space : Nat) : Nat := if space = 1 then 2 ^ 42 else if space = 2 then 2 ^ 26 else 2 ^ 65

/-- Source and destination overlap (R405). -/
def DmaUnit.overlaps (u : DmaUnit) : Bool :=
  u.paceKind == 0 && u.sspace == u.dspace && decide (u.src < u.dst + u.len) && decide (u.dst < u.src + u.len)

/-- The copy runs in descending order (R405). -/
def DmaUnit.descends (u : DmaUnit) : Bool := u.overlaps && decide (u.src < u.dst)

/-- The destination meets the waveform tables (R405). -/
def DmaUnit.intoTables (u : DmaUnit) : Bool :=
  u.dspace == 2 && decide (u.dst < 0x2680000) && decide (0x2400000 < u.dst + u.len)

/-- Burst size of the descriptor in bytes: BURST × 64, or FSTRIDE of the frame store (R407). -/
def State.burstSize (s : State) (u : DmaUnit) : Nat :=
  if u.paceKind = 1 then 64 * u.paceBurst else fstride (s.aqLen u.paceCh)

/-- The PACE fields break R407. -/
def State.paceBad (s : State) (u : DmaUnit) : Bool :=
  let p := u.dword 8
  if bits p 31 31 = 0 then p != 0
  else u.paceKind == 0 || u.paceKind == 3 || bits p 28 23 != 0 || bits p 15 13 != 0 || u.sspace != 0 || u.src != 0 ||
    (if u.paceKind = 1 then u.paceBurst == 0 || decide (4096 < u.paceBurst) else u.paceBurst != 0) ||
    u.len % s.burstSize u != 0

/-- A descriptor that is not one (R401, R405). -/
def State.descBad (s : State) (n : Nat) (u : DmaUnit) : Bool :=
  bits u.ctl 26 24 != 0 || bits u.ctl 19 0 != 0 || bits u.ctl 29 28 == 3 || u.sspace == 3 || u.dspace == 3 ||
    u.dword 10 != 0 || u.dword 11 != 0 || bits u.next 5 1 != 0 ||
    (!u.isEnd && s.descSpace n == 1 && decide (2 ^ 42 ≤ u.next)) ||
    u.len % 4 != 0 || u.len == 0 || decide (0x40000000 < u.len) || !addrFits u.sspace u.src || !addrFits u.dspace u.dst ||
    decide (spaceEnd u.sspace < u.src + u.len) || s.paceBad u ||
    (u.descends && bits u.ctl 27 27 == 1 && u.intoTables)

/-- A DRAM range of the descriptor passes the installed capacity (R377, R401). -/
def State.descRange (s : State) (u : DmaUnit) : Bool :=
  (u.paceKind == 0 && u.sspace == 1 && decide (s.dramSize < u.src + u.len)) ||
    (u.dspace == 1 && decide (s.dramSize < u.dst + u.len))

/-- The code with which a descriptor ends before any byte moves; none where it may move (R401, R405). -/
def State.descCheck (s : State) (n : Nat) (u : DmaUnit) : Option Nat :=
  if s.descBad n u then some 0x10
  else if s.descRange u then some 0x13
  else if u.overlaps && bits u.ctl 27 27 == 0 then some 0x11
  else none

/-! ### Accesses of a channel (R397) -/

/-- A request of DCn to DRAM. -/
def dmaReq (n : Nat) (wr : Bool) : DramReq := { cls := 2, id := n, typ := b2n wr, rkind := 2 }

/-- A denied access of DCn at address `a` of its space. -/
def State.dmaDeny (s : State) (n a : Nat) (wr : Bool) : State := s.deny 3 (s.dmaDom n) n wr a

/-- An SRAM word at BAR4 offset `o` is served to DCn, or its block is away (R435). -/
def State.dmaServe (s : State) (n o : Nat) (wr : Bool) : State × Bool :=
  match s.reach (bar4Unit o) (bit (s.rd Reg.HIF_WOA) (bar4Block o / 256)) with
  | .awake t => (t, true)
  | .away late => (s.dormantAt (s.dmaDom n) o (bar4Block o) wr late, false)

/-- The word offsets of an SRAM range. -/
def wordsOf (o k : Nat) : List Nat := (List.range (k / 4)).map fun i => o + 4 * i

/-- A NOTE fault for an SRAM range that reaches into a reserved one (R4, R424). -/
def State.dmaReserved (s : State) (n o : Nat) (wr : Bool) (ws : List Nat) : State :=
  if ws.any bar4Reserved then s.detect { src := blkHIF, addr := o, rkind := 2, access := b2n wr, rid := n } else s

/-- A host-memory read of `k` bytes by DCn (R404): the code, and the bytes. Poisoned data fail it without a retry (R403).
While the link is down it fails, and so does its retry (R417). -/
def State.dmaHostRead (s : State) (n a k : Nat) (h : HostRead) : State × Nat × List Byte :=
  let got := fun (s : State) =>
    if h.poison then (s.setDc n { s.dc n with badData := true }, 0x15, []) else (s, 0, h.data.take k)
  match if bit (s.rd Reg.HIF_LINK) 0 then h.fails else 2 with
  | 0 => got s
  | 1 =>
    let s := s.setDc n { s.dc n with retried := true }
    got (s.detect { src := 0xC00 + n, cls := 1, chk := 3, addr := a, rkind := 2, rid := n, retried := true })
  | _ => (s, 0x15, [])

/-- A read of `k` bytes at address `a` of a space by DCn: the code (0 OK), and the bytes. -/
def State.dmaRead (s : State) (n space a k : Nat) (h : HostRead) : State × Nat × List Byte :=
  let dom := s.dmaDom n
  if space = 0 then s.dmaHostRead n a k h
  else if space = 1 then
    if !(List.range k).all fun i => s.byteMay dom false (a + i) then (s.dmaDeny n a false, 0x12, [])
    else
      let r := s.dramAsk (dmaReq n false) dom a k
      if r.2 then (r.1, 0x14, []) else (r.1, 0, r.1.dramBytes a k)
  else
    let ws := wordsOf a k
    if !ws.all fun o => bar4Reserved o || s.bar4MayRead dom o then (s.dmaDeny n a false, 0x12, [])
    else
      let s := s.dmaReserved n a false ws
      let r := ws.foldl (fun x o =>
        if bar4Reserved o then (x.1, x.2 ++ leBytes 4 0xFFFFFFFF)
        else
          let y := x.1.dmaServe n o false
          if y.2 then ((y.1.bar4Word o).1, x.2 ++ leBytes 4 (y.1.bar4Word o).2.toNat)
          else (y.1, x.2 ++ leBytes 4 (0xFFFF0000 + bar4Block o))) (s, [])
      (r.1, 0, r.2)

/-- A write of bytes at address `a` of a space by DCn: the code (0 OK). A host-memory write carries the requester ID of
the function that serves the owner domain (R397), and goes nowhere while the link is down (R417). Waveform tables
take it as 32-bit writes in ascending order (R158). -/
def State.dmaWrite (s : State) (n space a : Nat) (bs : List Byte) : State × Nat :=
  let dom := s.dmaDom n
  if space = 0 then (if bit (s.rd Reg.HIF_LINK) 0 then s.send (.hostWrite dom a bs) else s, 0)
  else if space = 1 then
    if !(List.range bs.length).all fun i => s.byteMay dom true (a + i) then (s.dmaDeny n a true, 0x12)
    else ((s.keepOld a bs.length).dramPut (dmaReq n true) dom a bs, 0)
  else
    let ws := wordsOf a bs.length
    if !ws.all fun o => bar4Reserved o || s.bar4MayWrite dom o then (s.dmaDeny n a true, 0x12)
    else
      let s := s.dmaReserved n a true ws
      (ws.foldl (fun s o =>
        if bar4Reserved o then s
        else
          let y := s.dmaServe n o true
          let b := (bs.drop (o - a)).take 4
          if !y.2 then y.1
          else if 0x2400000 ≤ o ∧ o < 0x2680000 then y.1.wftWrite (16 + n) o (word (leNat b))
          else y.1.sramWr o b) s, 0)

/-! ### Ends (R402–R406) -/

/-- The NOTE fault of an error of DCn: what failed was tried again, but for poisoned data and for a check that no injection
keeps failing (R404, R487, R488, R492). -/
def State.dmaFault (s : State) (n code : Nat) : State :=
  let inj := code == 0x10 && s.injArmed (0xC00 + n) 3
  s.detect
    { src := 0xC00 + n, chk := 3, code := code, addr := s.dmaCur n, rkind := 2, rid := n,
      retried := code == 0x14 || (code == 0x15 && !(s.dc n).badData) || inj, inj := inj }

/-- The first error since START, and its NOTE fault (R406, R487). -/
def State.dmaError (s : State) (n code : Nat) : State :=
  let cur := s.dmaCur n
  let s := if bit (s.rd (Reg.DMA_ERR n)) 31 then s else
    (s.wrN (Reg.DMA_ERR n) (2 ^ 31 + code)).wrWide (Reg.DMA_ERR_ADDR_LO n) 2 cur
  (s.irq (Reg.DMA_ISTAT n) 16).dmaFault n code

/-- A descriptor that cannot be read: nothing can be written back, and the channel halts (R403, R406). -/
def State.dmaLost (s : State) (n code : Nat) : State :=
  let s := s.dmaError n code
  (s.setDc n {}).setDmaState n 5

/-- The channel is IDLE, with its interrupt (R406, R410). -/
def State.dmaIdle (s : State) (n : Nat) : State :=
  ((s.setDc n {}).setDmaState n 0).irq (Reg.DMA_ISTAT n) 1

/-- DCn fetches its next descriptor: at once, or after a pause (R412). -/
def State.dmaGoOn (s : State) (n next : Nat) : State :=
  let p := (s.dc n).paused
  let s := (s.setDc n { paused := p, resume := (s.dc n).resume }).wrWide (Reg.DMA_CUR_LO n) 2 (next / 64 * 64)
  s.setDmaState n (if p.isSome then 4 else 1)

/-- The read-back of the last 4 B written, an access as any other (R397, R402, R404): the code it gives. `x` is what a host
read meets: its failed attempts, or 3 for poisoned data. -/
def State.dmaReadBack (s : State) (n space a x : Nat) : State × Nat :=
  let r := s.dmaRead n space a 4 { fails := if x = 3 then 0 else x, poison := x == 3 }
  (r.1, r.2.1)

/-- A host-memory failure of a read-back of a descriptor that has an error code already leaves its NOTE fault alone
(R404); those of the other spaces have left theirs. -/
def State.backFault (s : State) (n code back : Nat) : State :=
  if 0x10 ≤ code ∧ back = 0x15 then s.dmaFault n back else s

/-- The `k` bytes at `a` of a space are DRAM that cannot be served now (R388, R390). -/
def State.dmaHeld (s : State) (space a k : Nat) : Bool := space == 1 && s.dramHeld a k

/-- STATUS, DONE_LEN and MT, then CTL with OWN = 0, are written to the descriptor (R402). -/
def State.dmaHandBack (s : State) (n code done : Nat) : State × Nat :=
  let u := s.dc n
  let a := s.dmaCur n
  let sp := s.descSpace n
  let r := s.dmaWrite n sp (a + 0x30) (leBytes 4 (b2n u.retried * 256 + code) ++ leBytes 4 done ++ leBytes 8 s.mt)
  if r.2 ≠ 0 then r else r.1.dmaWrite n sp a (leBytes 4 (u.ctl % 2 ^ 31))

/-- The interrupt status a descriptor calls for (R406). -/
def State.dmaIrqs (s : State) (n : Nat) (u : DmaUnit) : State :=
  let ctl := s.rd (Reg.DMA_CTL n)
  let mark := bits u.ctl 29 28
  s.irq (Reg.DMA_ISTAT n) (bits u.ctl 30 30 * 2 + b2n (mark == 1 && bit ctl 0) * 4 + b2n (mark == 2 && bit ctl 1) * 8)

/-- DMA_DESC_COMPLETE: read-backs, the descriptor handed back, interrupts, and what follows (R402–R406).
`rb` and `wb` are what the read-backs of the data and of the descriptor meet in host memory. -/
def doDmaDescComplete (n rb wb : Nat) (s : State) : State :=
  let u := s.dc n
  match u.desc, u.code with
  | some _, some code =>
    let back := u.wrote.getD 0
    s.whenDue ((s.dmaState n == 1 || s.dmaState n == 3) && !(u.wrote.isSome && s.dmaHeld u.dspace back 4) &&
        !s.dmaHeld (s.descSpace n) (s.dmaCur n) 64) fun s =>
      let r := if u.wrote.isNone then (s, 0) else s.dmaReadBack n u.dspace back rb
      let r := (r.1.backFault n code r.2, r.2)
      let bad := decide (r.2 ≠ 0) && decide (code < 0x10)
      let code := if bad then r.2 else code
      let done := if bad then r.1.freeNow % (u.moved / 4 + 1) * 4 else u.moved
      let h := (if bad then r.1.drawn else r.1).dmaHandBack n code done
      let b := if h.2 ≠ 0 then h else h.1.dmaReadBack n (h.1.descSpace n) (h.1.dmaCur n) wb
      let b := (b.1.backFault n code b.2, b.2)
      let code := if code < 0x10 ∧ b.2 ≠ 0 then b.2 else code
      let s := (b.1.wrF (Reg.DMA_STAT n) 15 8 code).wrN (Reg.DMA_DONE_CNT n) ((b.1.rd (Reg.DMA_DONE_CNT n)).toNat + 1)
      let s := s.dmaIrqs n u
      let s := if 0x10 ≤ code then s.dmaError n code else s
      if u.stopReq then s.dmaIdle n
      else if 0x10 ≤ code ∧ !bit (s.rd (Reg.DMA_CTL n)) 2 then (s.setDc n {}).setDmaState n 5
      else if u.isEnd then s.dmaIdle n
      else s.dmaGoOn n u.next
  | _, _ => s
/-- Meaning of DMA_DESC_COMPLETE. -/
def execDmaDescComplete (n : Fin 16) (rb wb : Fin 4) (s : State) : Host.Outcome State Fault Refusal :=
  .next (doDmaDescComplete n.val rb.val wb.val s)

/-! ### Fetching (R400, R401, R410, R411) -/

/-- A source request of the descriptor in service is asserted (R407). -/
def State.paceAsked (s : State) (n : Nat) (u : DmaUnit) : Bool :=
  if u.paceKind = 1 then s.ringReq u.paceCh u.paceBurst
  else s.frameReq u.paceCh (s.rd (Reg.DMA_PIDX n)).toNat

/-- A descriptor with OWN = 1 is in service (R401, R407, R411); its check may meet an injection (R492). -/
def State.dmaTake (s : State) (n : Nat) (ws : List Word) (again : Bool) : State :=
  let i := s.injTake (0xC00 + n) 3
  let s := i.1
  let u := { s.dc n with desc := some ws, moved := 0, wrote := none, code := none, resume := false }
  let code := if again && bits (u.dword 8) 31 31 == 1 then some 4 else if i.2 then some 0x10 else s.descCheck n u
  let u := { u with code := code, stride := s.burstSize u }
  (s.setDc n u).setDmaState n (if u.paceKind ≠ 0 ∧ code.isNone ∧ !s.paceAsked n u then 3 else 1)

/-- A descriptor with OWN = 0 was read: the channel waits, or goes on along NEXT after a warm start
(R410, R411). -/
def State.dmaNotGiven (s : State) (n : Nat) (ws : List Word) : State :=
  let u := s.dc n
  if u.resume then
    let d : DmaUnit := { u with desc := some ws }
    if d.isEnd then s.dmaIdle n else s.dmaGoOn n d.next
  else ((s.setDc n { u with readAt := s.mt }).setDmaState n 2).irq (Reg.DMA_ISTAT n) 32

/-- DMA_DESC_FETCH: DCn reads the descriptor at DMA_CUR whole. -/
def doDmaDescFetch (n : Nat) (h : HostRead) (s : State) : State :=
  let host := s.descSpace n == 0
  s.whenDue (s.dmaState n == 1 && (s.dc n).desc.isNone && (!host || decide (2 ≤ h.fails) || decide (h.data.length = 64)) &&
      !s.dmaHeld (if host then 0 else 1) (s.dmaCur n) 64) fun s =>
      let r := s.dmaRead n (if host then 0 else 1) (s.dmaCur n) 64 h
      if r.2.1 ≠ 0 then r.1.dmaLost n r.2.1
      else
        let ws := descWords r.2.2
        if bit (ws.getD 0 0) 31 then r.1.dmaTake n ws (s.dc n).resume else r.1.dmaNotGiven n ws
/-- Meaning of DMA_DESC_FETCH: `h` is what host memory answers where the descriptor lies there. -/
def execDmaDescFetch (n : Fin 16) (h : HostRead) (s : State) : Host.Outcome State Fault Refusal :=
  .next (doDmaDescFetch n.val h s)

/-- DMA_POLL: in WAIT_OWN, every POLL µs, the descriptor is read again (R410). -/
def doDmaPoll (n : Nat) (s : State) : State :=
  let p := s.rdF (Reg.DMA_CTL n) 15 8
  s.whenDue (s.dmaState n == 2 && p != 0 && decide ((s.dc n).readAt + 4000 * p ≤ s.mt)) fun s => s.setDmaState n 1
/-- Meaning of DMA_POLL. -/
def execDmaPoll (n : Fin 16) (s : State) : Host.Outcome State Fault Refusal := .next (doDmaPoll n.val s)

/-- DMA_RESUME: after a warm start, a channel marked to resume goes on from DMA_CUR once its function has Bus
Master Enable set (R411); no channel runs while a MOD fault is held (R484). -/
def doDmaResume (n : Nat) (s : State) : State :=
  s.whenDue ((s.dc n).resume && s.dmaState n == 0 && !s.pwr.starting && !s.modHeld) fun s =>
    if s.descSpace n = 1 ∧ !bit (s.rd Reg.DRC_STAT) 28 then
      let s := (s.wrN (Reg.DMA_ERR n) (2 ^ 31 + 0x10)).wrWide (Reg.DMA_ERR_ADDR_LO n) 2 (s.dmaCur n)
      ((s.setDc n {}).setDmaState n 5).irq (Reg.DMA_ISTAT n) 16
    else s.setDmaState n 1
/-- Meaning of DMA_RESUME. -/
def execDmaResume (n : Fin 16) (s : State) : Host.Outcome State Fault Refusal := .next (doDmaResume n.val s)

/-! ### Moving (R398, R403, R405, R407–R409) -/

/-- `k` valid bytes have arrived, and the last 4 B written stand at `last`: counted by the descriptor and the channel. -/
def State.dmaMoved (s : State) (n k last : Nat) (code : Option Nat) : State :=
  let u := s.dc n
  let s := s.setDc n { u with moved := u.moved + k, wrote := some last, code := code, cut := none }
  s.wrWide (Reg.DMA_BYTES_LO n) 2 (sat 48 (s.rdWide (Reg.DMA_BYTES_LO n) 2 + k))

/-- The descriptor in service ends with an error code before this piece. -/
def State.dmaEnds (s : State) (n code : Nat) : State := (s.setDc n { s.dc n with code := some code }).setDmaState n 1

/-- Bytes of the next piece, and its offset in the ranges (R398, R405). -/
def DmaUnit.piece (u : DmaUnit) : Nat × Nat :=
  let k := min 4096 (u.len - u.moved)
  (k, if u.descends then u.len - u.moved - k else u.moved)

/-- DMA_PIECE: one piece of an unpaced descriptor is read and then written. -/
def doDmaPiece (n : Nat) (h : HostRead) (s : State) : State :=
  let u := s.dc n
  let p := u.piece
  s.whenDue (s.dmaState n == 1 && u.desc.isSome && u.code.isNone && u.paceKind == 0 &&
      (u.sspace != 0 || decide (2 ≤ h.fails) || decide (h.data.length = p.1)) && !s.dmaHeld u.sspace (u.src + p.2) p.1)
      fun s =>
    let r := s.dmaRead n u.sspace (u.src + p.2) p.1 h
    if r.2.1 ≠ 0 then r.1.dmaEnds n r.2.1
    else
      let w := r.1.dmaWrite n u.dspace (u.dst + p.2) r.2.2
      if w.2 ≠ 0 then w.1.dmaEnds n w.2
      else
        let last := u.dst + p.2 + if u.descends then 0 else p.1 - 4
        w.1.dmaMoved n p.1 last (if u.moved + p.1 = u.len then some 0 else none)
/-- Meaning of DMA_PIECE: `h` is what host memory answers where the source lies there. -/
def execDmaPiece (n : Fin 16) (h : HostRead) (s : State) : Host.Outcome State Fault Refusal :=
  .next (doDmaPiece n.val h s)

/-- DCn reads a list of ranges of SRAM or DRAM (true), in order. -/
def State.dmaGather (s : State) (n : Nat) (l : List (Bool × Nat × Nat)) : State × Nat × List Byte :=
  l.foldl (fun x p =>
    if x.2.1 ≠ 0 then x
    else
      let r := x.1.dmaRead n (if p.1 then 1 else 2) p.2.1 p.2.2 {}
      (r.1, r.2.1, x.2.2 ++ r.2.2)) (s, 0, [])

/-- Some range of a list is DRAM that cannot be served now (R388, R390). -/
def State.placesHeld (s : State) (l : List (Bool × Nat × Nat)) : Bool := l.any fun p => p.1 && s.dramHeld p.2.1 p.2.2

/-- The first `k` bytes of a list of ranges. -/
def cutPlaces (k : Nat) : List (Bool × Nat × Nat) → List (Bool × Nat × Nat)
  | [] => []
  | p :: l => if k = 0 then [] else (p.1, p.2.1, min k p.2.2) :: cutPlaces (k - p.2.2) l

/-- The ranges of a burst: `k` records of a ring, or a frame (R407). -/
def State.burstPlaces (s : State) (n k : Nat) : List (Bool × Nat × Nat) :=
  let u := s.dc n
  let c := u.paceCh
  if u.paceKind = 1 then s.ringPlaces c k
  else let p := s.frameAt c (s.rd (Reg.DMA_PIDX n)).toNat; [(p.1, p.2, fstride (s.aqLen c))]

/-- The source position moves on (R407). -/
def State.burstTaken (s : State) (n k : Nat) : State :=
  let u := s.dc n
  if u.paceKind = 1 then s.wrN (Reg.TMU_RD u.paceCh) ((s.rd (Reg.TMU_RD u.paceCh)).toNat + k)
  else s.wrN (Reg.DMA_PIDX n) ((s.rd (Reg.DMA_PIDX n)).toNat + 1)

/-- One burst of `k` records or a frame is read, and written with zeros to its end; `last` is the code with
which the descriptor ends after it (R407–R409). -/
def State.burst (s : State) (n k : Nat) (last : Option Nat) : State :=
  let u := s.dc n
  let r := s.dmaGather n (s.burstPlaces n k)
  if r.2.1 ≠ 0 then r.1.dmaEnds n r.2.1
  else
    let s := r.1.burstTaken n k
    let got := r.2.2
    let w := s.dmaWrite n u.dspace (u.dst + u.moved) (got ++ List.replicate (u.stride - got.length) 0)
    if w.2 ≠ 0 then w.1.dmaEnds n w.2
    else
      let s := w.1.dmaMoved n got.length (u.dst + u.moved + u.stride - 4)
        (if last.isSome then last else if u.len ≤ u.moved + got.length then some 0 else none)
      s.setDmaState n (if (s.dc n).code.isNone && !s.paceAsked n u then 3 else 1)

/-- DMA_PACED_BURST: a burst whose request is asserted moves; after a FLUSH, the records that are left
(R407, R409). -/
def doDmaPacedBurst (n : Nat) (s : State) : State :=
  let u := s.dc n
  let k := if s.paceAsked n u then 4 * u.paceBurst else s.ringHeld u.paceCh
  s.whenDue ((s.dmaState n == 1 || s.dmaState n == 3) && u.desc.isSome && u.code.isNone && u.paceKind != 0 &&
      u.paused.isNone && u.cut.isNone && (s.paceAsked n u || u.flushReq) && !s.placesHeld (s.burstPlaces n k)) fun s =>
    if s.paceAsked n u then s.burst n (4 * u.paceBurst) none
    else if s.ringHeld u.paceCh = 0 then s.dmaEnds n 2
    else s.burst n (s.ringHeld u.paceCh) (some 2)
/-- Meaning of DMA_PACED_BURST. -/
def execDmaPacedBurst (n : Fin 16) (s : State) : Host.Outcome State Fault Refusal := .next (doDmaPacedBurst n.val s)

/-- DMA_PACE_WITHDRAW: the request was withdrawn in a burst that had read `valid` bytes, each an access as any other
(R391, R397, R408). -/
def doDmaPaceWithdraw (n valid : Nat) (s : State) : State :=
  let u := s.dc n
  match u.cut with
  | none => s
  | some (places, bytes) =>
    let l := cutPlaces valid places
    s.whenDue ((s.dmaState n == 1 || s.dmaState n == 3) && u.code.isNone && decide (valid ≤ bytes.length) &&
        !s.placesHeld l) fun s =>
      let s := if u.paceKind = 2 then s.wrN (Reg.DMA_PIDX n) 0 else s
      let r := s.dmaGather n l
      if r.2.1 ≠ 0 then r.1.dmaEnds n r.2.1
      else
        let w := r.1.dmaWrite n u.dspace (u.dst + u.moved) (bytes.take valid ++ List.replicate (u.stride - valid) 0)
        if w.2 ≠ 0 then w.1.dmaEnds n w.2
        else (w.1.dmaMoved n valid (u.dst + u.moved + u.stride - 4) (some 1)).setDmaState n 1
/-- Meaning of DMA_PACE_WITHDRAW. -/
def execDmaPaceWithdraw (n : Fin 16) (valid : BitVec 32) (s : State) : Host.Outcome State Fault Refusal :=
  .next (doDmaPaceWithdraw n.val valid.toNat s)

/-! ### Commands (R410) -/

/-- DMA_START (R410, R484). -/
def doDmaStart (dom n : Nat) (s : State) : State :=
  s.hostWrite dom (Reg.DMA_CMD n) fun s =>
    if s.modHeld || !(s.dmaState n == 0 || s.dmaState n == 5) || decide (2 ≤ s.descSpace n) then s.noteReg dom (Reg.DMA_CMD n)
    else
      let s := (s.setDc n {}).wrWide (Reg.DMA_CUR_LO n) 2 (s.rdWide (Reg.DMA_HEAD_LO n) 2)
      let s := ((s.wrN (Reg.DMA_PIDX n) 0).wrWide (Reg.DMA_BYTES_LO n) 2 0).wrN (Reg.DMA_DONE_CNT n) 0
      let s := (s.wrN (Reg.DMA_ERR n) 0).wrWide (Reg.DMA_ERR_ADDR_LO n) 2 0
      s.setDmaState n 1
/-- Meaning of DMA_START. -/
def execDmaStart (dom n : Fin 16) (s : State) : Host.Outcome State Fault Refusal := .next (doDmaStart dom.val n.val s)

/-- STOP (R410): a descriptor in service completes with ABORTED; a channel that has none is IDLE at once. -/
def State.dmaStopNow (s : State) (n : Nat) : State :=
  let u := s.dc n
  if u.desc.isSome && (s.dmaState n == 1 || s.dmaState n == 3 || s.dmaState n == 4) then
    let s := s.setDc n { u with stopReq := true, code := some (u.code.getD 3) }
    if s.dmaState n = 3 then s.setDmaState n 1 else s
  else s.dmaIdle n

/-- DMA_STOP. -/
def doDmaStop (dom n : Nat) (s : State) : State := s.hostWrite dom (Reg.DMA_CMD n) fun s => s.dmaStopNow n
/-- Meaning of DMA_STOP. -/
def execDmaStop (dom n : Fin 16) (s : State) : Host.Outcome State Fault Refusal := .next (doDmaStop dom.val n.val s)

/-- DOORBELL (R410). -/
def doDoorbell (dom n : Nat) (s : State) : State :=
  s.hostWrite dom (Reg.DMA_CMD n) fun s => if s.dmaState n = 2 then s.setDmaState n 1 else s
/-- Meaning of DOORBELL. -/
def execDoorbell (dom n : Fin 16) (s : State) : Host.Outcome State Fault Refusal := .next (doDoorbell dom.val n.val s)

/-- FLUSH (R409): a paced descriptor of KIND 1 in service takes what is left and ends; else a NOTE fault. -/
def doFlush (dom n : Nat) (s : State) : State :=
  s.hostWrite dom (Reg.DMA_CMD n) fun s =>
    let u := s.dc n
    if u.paceKind = 1 ∧ u.code.isNone then s.setDc n { u with flushReq := true } else s.noteReg dom (Reg.DMA_CMD n)
/-- Meaning of FLUSH. -/
def execFlush (dom n : Fin 16) (s : State) : Host.Outcome State Fault Refusal := .next (doFlush dom.val n.val s)

/-- DMA_CMD_INVALID: an undefined OP is discarded with a NOTE fault (R414). -/
def doDmaCmdInvalid (dom n : Nat) (v : Word) (s : State) : State :=
  s.hostWrite dom (Reg.DMA_CMD n) fun s =>
    if 1 ≤ fld v 2 0 ∧ fld v 2 0 ≤ 4 then s else s.noteReg dom (Reg.DMA_CMD n)
/-- Meaning of DMA_CMD_INVALID. -/
def execDmaCmdInvalid (dom n : Fin 16) (v : Word) (s : State) : Host.Outcome State Fault Refusal :=
  .next (doDmaCmdInvalid dom.val n.val v s)

/-! ### Pauses of a whole structure load (R412) -/

/-- The channel pauses where it stands; an unpaced descriptor in service completes first, and so does a burst whose request
is withdrawn, with its descriptor (R408). -/
def State.dmaPause (s : State) (n : Nat) : State :=
  let st := s.dmaState n
  if st = 0 ∨ st = 5 then s
  else
    let s := s.setDc n { s.dc n with paused := some (if (s.dc n).cut.isSome then 1 else st) }
    let u := s.dc n
    if u.cut.isSome || (st == 1 && u.desc.isSome && (u.paceKind == 0 || u.code.isSome)) then s else s.setDmaState n 4

/-- The load has ended: the channel goes on as before. -/
def State.dmaUnpause (s : State) (n : Nat) : State :=
  let u := s.dc n
  match u.paused with
  | none => s
  | some st =>
    let s := s.setDc n { u with paused := none }
    if s.dmaState n = 4 then s.setDmaState n st else s

end Sys2Proof.Machine
end

