-- ==== Sys2Proof/Machine/Drc.lean ====
section
/-! DEFINITION. The pattern memory controller (R373–R395): requests, refresh, temperature, self-refresh and
power-down, scrub, clearing, the speed change and injection. -/

namespace Sys2Proof.Machine

open Sys2Proof

/-- Every sequencer is STOPPED. -/
def State.allStopped (s : State) : Bool := (List.range 16).all s.seqStopped

/-- The DRAM has been trained since the last start (R387). -/
def State.dramUp (s : State) : Bool := decide (0 < s.dramSize)

/-- What the device shows at a request for line `l`: 0 what the line holds, 1 an error that the second read
no longer shows, 2 a correctable and 3 an uncorrectable error that it shows again (R391). -/
def State.devShows (s : State) (q : DramReq) (l err : Nat) : State :=
  match err with
  | 1 => if s.lineBad l = 0 then s.eccTransient q l else s
  | 2 => if s.lineBad l = 0 then s.setBad l 1 else s
  | 3 => if s.lineBad l = 3 then s else s.setBad l 2
  | _ => s

/-- RKIND of a request class: a sequencer, a flow, a DMA channel, a port, or internal (R489). -/
def classKind (cls : Nat) : Nat :=
  match cls with
  | 0 | 5 => 3
  | 1 => 4
  | 2 => 2
  | 3 => 5
  | _ => 7

/-- A request of DRAM_REQUEST is served (R377–R381, R384, R391). The bytes a write stores belong to the command that
issues it: the line keeps its bytes, and its poison pattern where it holds one. -/
def State.reqServe (s : State) (q : DramReq) (l err lat : Nat) : State :=
  if q.typ = 1 then
    let t := s.dramPutNow q 0 (64 * l) (s.dramRd (64 * l) 64) false
    if s.lineBad l = 3 ∧ t.lineBad l = 0 then t.setBad l 3 else t
  else
    let d := l % 8
    let away := decide (s.dramSize < 64 * l + 64) || s.lineDown l
    let s := if away then s else s.devShows q l err
    let s := (s.dramAsk q 0 (64 * l) 64).1
    if q.cls = 0 ∧ !away ∧ (s.rd (Reg.DRC_PF_LAT d)).toNat < lat then s.wrN (Reg.DRC_PF_LAT d) lat else s

/-! ### Requests that wait (R379, R381, R388, R390) -/

/-- The class of a waiting request; a segment-table read is taken for pattern prefetch (log entry 106). -/
def DramWait.cls (w : DramWait) : Nat :=
  let c := match w with | .req q _ _ _ => q.cls | .read q _ _ _ => q.cls | .write q _ _ _ _ => q.cls
  if c = 5 then 0 else c

/-- The lines of a waiting request. -/
def DramWait.lines (w : DramWait) : List Nat :=
  match w with
  | .req _ l _ _ => [l]
  | .read _ _ a n => linesOf a n
  | .write _ _ a bs _ => linesOf a bs.length

/-- The subchannel of a waiting request, by its first line (R376). -/
def DramWait.sub (w : DramWait) : Nat := w.lines.headD 0 % 16

/-- A waiting request can be served now. -/
def State.waitOpen (s : State) (w : DramWait) : Bool :=
  match w with
  | .req _ l _ _ => !s.dramHeld (64 * l) 64
  | .read _ _ a n => !s.dramHeld a n
  | .write _ _ a bs _ => !s.dramHeld a bs.length

/-- The requests of a list that may go first: those that can be served, and that no earlier one shares a line with (R381);
each with its place. -/
def State.mayGo (s : State) : List DramWait → List DramWait → Nat → List (Nat × DramWait)
  | _, [], _ => []
  | before, w :: l, i =>
    let rest := s.mayGo (w :: before) l (i + 1)
    if s.waitOpen w && before.all fun b => b.lines.all fun x => !w.lines.contains x then (i, w) :: rest else rest

/-- The weight of a class (R379). -/
def classWeight (cls : Nat) : Nat :=
  match cls with
  | 1 => 256
  | 2 => 315
  | 3 => 540
  | _ => 1

/-- Request `x` goes before request `y` (R379): pattern prefetch before all others, the others by the share of their weight
that their class has had of its subchannel. `had` counts the requests served, by subchannel and class. -/
def goesBefore (had : KMap Nat) (x y : DramWait) : Bool :=
  let share := fun (w : DramWait) => (kget (fun _ => 0) had (8 * w.sub + w.cls) + 1, classWeight w.cls)
  if y.cls = 0 then false
  else x.cls == 0 || decide ((share x).1 * (share y).2 < (share y).1 * (share x).2)

/-- The waiting request that is served next, with its place. -/
def State.nextWait (s : State) (had : KMap Nat) : Option (Nat × DramWait) :=
  (s.mayGo [] s.drc.waiting 0).foldl (fun b x =>
    match b with
    | none => some x
    | some y => if goesBefore had x.2 y.2 then some x else some y) none

/-- A waiting request is served. -/
def State.waitServe (s : State) (w : DramWait) : State :=
  match w with
  | .req q l err lat => s.reqServe q l err lat
  | .read q dom a n => s.dramAnswer q dom a n
  | .write q dom a bs poison => s.dramPutNow q dom a bs poison

/-- At most `k` waiting requests are served. -/
def State.serveWaits (s : State) (had : KMap Nat) : Nat → State
  | 0 => s
  | k + 1 =>
    match s.nextWait had with
    | none => s
    | some (i, w) =>
      let key := 8 * w.sub + w.cls
      let t := { s with drc := { s.drc with waiting := s.drc.waiting.eraseIdx i } }
      (t.waitServe w).serveWaits (kset (fun _ => 0) had key (kget (fun _ => 0) had key + 1)) k

/-- What waited is served, as far as it can be now. -/
def State.waitsServed (s : State) : State := s.serveWaits [] s.drc.waiting.length

/-! ### Clearing (R390) -/

/-- Clearing has reached line `l`: in ascending order, the lines below it are cleared too. -/
def State.clearTo (s : State) (l : Nat) : State :=
  let k := max s.drc.clr (l + 1)
  let s := { s with drc := { s.drc with clr := k } }
  (s.wrN Reg.DRC_CLR (64 * k / 2 ^ 30)).waitsServed

/-- DRAM_REQUEST: one read or write of a line in its class (R377–R381, R384, R391), or it waits (R388, R390). While
clearing runs, a write of class 4 is its progress. -/
def doDramRequest (cls id : Nat) (wr : Bool) (l err lat : Nat) (s : State) : State :=
  s.whenDue s.dramUp fun s =>
    let q : DramReq := { cls := cls, id := id, typ := b2n wr, rkind := classKind cls }
    if cls = 4 ∧ wr = true ∧ bit (s.rd Reg.DRC_STAT) 30 = true then
      if 64 * l + 64 ≤ s.dramSize then s.clearTo l else s
    else if s.dramHeld (64 * l) 64 then s.dramWaits (.req q l err lat)
    else s.reqServe q l err lat
/-- Meaning of DRAM_REQUEST. -/
def execDramRequest (cls : Fin 6) (id : Fin 64) (wr : Bool) (line : BitVec 36) (err : Fin 4) (ns : Word)
    (s : State) : Host.Outcome State Fault Refusal :=
  .next (doDramRequest cls.val id.val wr line.toNat err.val ns.toNat s)

/-- Logical ranks of each subchannel of the installed population (R376). -/
def State.logicalRanks (s : State) : Nat :=
  (1 + s.rdF Reg.DRC_CFG 26 26) * (1 + s.rdF Reg.DRC_CFG 27 27) * 2 ^ s.rdF Reg.DRC_CFG 29 28

/-- DRAM_REFRESH: a same-bank refresh of a logical rank of a subchannel of channel `d` is issued `ns` after it fell due;
its last one has ended (R382). -/
def doDramRefresh (d sub rank ns : Nat) (s : State) : State :=
  let k := 32 * (2 * d + sub) + rank
  s.whenDue (s.dramUp && decide (s.unit 4 d < 3) && !bit (s.rd Reg.DRC_STAT) 29 && decide (rank < s.logicalRanks) &&
      decide (kget (fun _ => 0) s.drc.refBusy k ≤ s.mt)) fun s =>
    let i := kget (fun _ => 0) s.drc.refIdx k
    let s := { s with drc := { s.drc with refIdx := kset (fun _ => 0) s.drc.refIdx k ((i + 1) % 4),
                                          refBusy := kset (fun _ => 0) s.drc.refBusy k (s.mt + 4 * s.drc.tRFCsb) } }
    if (s.rd (Reg.DRC_REF_MAX d)).toNat < ns then s.wrN (Reg.DRC_REF_MAX d) ns else s
/-- Meaning of DRAM_REFRESH. -/
def execDramRefresh (rank : DramRank) (ns : Word) (s : State) : Host.Outcome State Fault Refusal :=
  .next (doDramRefresh rank.channel.val rank.sub.val rank.rank.val ns.toNat s)

/-- DRAM_TEMP_POLL: the hottest sensor of channel `d` reads `t` in 0.125 °C (R383). -/
def doDramTempPoll (d : Nat) (t : BitVec 16) (s : State) : State :=
  s.whenDue s.dramUp fun s =>
    let deg := sext 16 t.toNat
    let s := (s.wrN (Reg.DRC_CH_TEMP d) t.toNat).wrF (Reg.DRC_CH_STAT d) 28 28 (b2n (decide (680 < deg)))
    let hot := decide (760 < deg)
    let was := kget (fun _ => false) s.drc.hot95 d
    let s := { s with drc := { s.drc with hot95 := kset (fun _ => false) s.drc.hot95 d hot } }
    if hot && !was then (s.irq (Reg.DRC_CH_ISTAT d) 4).note (0xB00 + d) else s
/-- Meaning of DRAM_TEMP_POLL. -/
def execDramTempPoll (d : Fin 8) (t : BitVec 16) (s : State) : Host.Outcome State Fault Refusal :=
  .next (doDramTempPoll d.val t s)

/-- DRAM_SELF_REFRESH_ENTRY: a channel that had no request for DRC_SR_IDLE, which acts as at least 10 µs, begins to
enter (R385, R395, R500). -/
def doDramSelfRefreshEntry (d : Nat) (s : State) : State :=
  s.whenDue (s.dramUp && s.allStopped && s.unit 4 d == 0 && s.rdF (Reg.DRC_CH_STAT d) 31 29 == 0 &&
      s.idleFor 4 d (max 10 (s.rdF Reg.DRC_SR_IDLE 15 0))) fun s =>
    s.enterUnit 4 d
/-- Meaning of DRAM_SELF_REFRESH_ENTRY. -/
def execDramSelfRefreshEntry (d : Fin 8) (s : State) : Host.Outcome State Fault Refusal :=
  .next (doDramSelfRefreshEntry d.val s)

/-- The scrub moves to its next line: gigabytes and passes (R393). -/
def State.scrubNext (s : State) : State :=
  let l := s.drc.scrubLine + 1
  let done := decide (s.dramSize ≤ 64 * l)
  let clean := if done then [] else s.drc.clean.filter fun x => decide (l ≤ x)
  let l := if done then 0 else l
  let s := { s with drc := { s.drc with scrubLine := l, clean := clean } }
  let s := s.wrF Reg.DRC_SCRUB_POS 12 0 (64 * l / 2 ^ 30)
  if done then (s.countF Reg.DRC_SCRUB_POS 31 16 1).irq Reg.DRC_ISTAT 1 else s

/-- DRAM_SCRUB: patrol scrub reads its next line, which wakes its channel, and corrects it (R385, R391, R393); it passes
over a line that the pass has found clean. At a line whose channel is put down, or that waits, it waits, so that its pass
reads every line (log entry 106). -/
def doDramScrub (err : Nat) (s : State) : State :=
  let l := s.drc.scrubLine
  s.whenDue (s.dramUp && bit (s.rd Reg.DRC_SCRUB) 31 && !s.dramHeld (64 * l) 64 && !s.lineDown l) fun s =>
    let q : DramReq := { cls := 4, typ := 3 }
    let s := if s.drc.clean.contains l then s else (((s.dramWake (64 * l) 64).devShows q l err).eccLine q l).1
    s.scrubNext
/-- Meaning of DRAM_SCRUB. -/
def execDramScrub (err : Fin 4) (s : State) : Host.Outcome State Fault Refusal := .next (doDramScrub err.val s)

/-- DRAM_CLEAR_DONE: the clearing is complete, and what waited for it is served (R390). -/
def doDramClearDone (s : State) : State :=
  s.whenDue (bit (s.rd Reg.DRC_STAT) 30) fun s =>
    let s := (s.wrF Reg.DRC_STAT 30 30 0).wrF Reg.DRC_STAT 31 31 1
    ((s.wrN Reg.DRC_CLR (s.rdF Reg.DRC_CFG 12 0)).irq Reg.DRC_ISTAT 16).waitsServed
/-- Meaning of DRAM_CLEAR_DONE. -/
def execDramClearDone (s : State) : Host.Outcome State Fault Refusal := .next (doDramClearDone s)

/-! ### Commands (R386, R395) -/

/-- PWRDN: refused while a sequencer is not STOPPED, or a masked channel is waking (R386, R502); a channel
in self-refresh is powered down where it stands, any other begins to enter. -/
def doPwrdn (dom mask : Nat) (s : State) : State :=
  s.hostWrite dom Reg.DRC_CMD fun s =>
    if !s.allStopped || (bitsOf 8 mask).any (fun d => s.unit 4 d == 4) then s.noteReg dom Reg.DRC_CMD
    else
      forEach (bitsOf 8 mask) (fun d s =>
        if kget (fun _ => false) s.drc.pdown d then s
        else
          let s := { s with drc := { s.drc with pdown := kset (fun _ => false) s.drc.pdown d true } }
          if s.unit 4 d = 3 then s.setUnit 4 d 3 else if s.unit 4 d = 0 then s.enterUnit 4 d else s) s
/-- Meaning of PWRDN. -/
def execPwrdn (dom : Fin 16) (mask : BitVec 8) (s : State) : Host.Outcome State Fault Refusal :=
  .next (doPwrdn dom.val mask.toNat s)

/-- PWRUP: brings back the masked channels that PWRDN put down, or are on their way (R386, R501). -/
def doPwrup (dom mask : Nat) (s : State) : State :=
  s.hostWrite dom Reg.DRC_CMD fun s =>
    forEach (bitsOf 8 mask) (fun d s => if kget (fun _ => false) s.drc.pdown d || s.unit 4 d == 0 then s.cmdWake 4 d else s) s
/-- Meaning of PWRUP. -/
def execPwrup (dom : Fin 16) (mask : BitVec 8) (s : State) : Host.Outcome State Fault Refusal :=
  .next (doPwrup dom.val mask.toNat s)

/-- PEAK_CLR clears REF_MAX and PF_LAT of every channel (R395). -/
def doDrcPeakClr (dom : Nat) (s : State) : State :=
  s.hostWrite dom Reg.DRC_CMD fun s =>
    forEach (List.range 8) (fun d s => (s.wrN (Reg.DRC_REF_MAX d) 0).wrN (Reg.DRC_PF_LAT d) 0) s
/-- Meaning of DRC_PEAK_CLR. -/
def execDrcPeakClr (dom : Fin 16) (s : State) : Host.Outcome State Fault Refusal := .next (doDrcPeakClr dom.val s)

/-- DRC_CMD_INVALID: an OP outside 1–3 is discarded with a NOTE fault (R395). -/
def doDrcCmdInvalid (dom : Nat) (v : Word) (s : State) : State :=
  s.hostWrite dom Reg.DRC_CMD fun s =>
    if fld v 3 0 = 0 ∨ 4 ≤ fld v 3 0 then s.noteReg dom Reg.DRC_CMD else s
/-- Meaning of DRC_CMD_INVALID. -/
def execDrcCmdInvalid (dom : Fin 16) (v : Word) (s : State) : Host.Outcome State Fault Refusal :=
  .next (doDrcCmdInvalid dom.val v s)

/-! ### Speed and injection (R388, R394) -/

/-- The training step and channel states while training or a speed change runs (R388, R395). -/
def State.setTraining (s : State) (on : Bool) (step : Nat) : State :=
  let s := (s.wrF Reg.DRC_STAT 29 29 (b2n on)).wrF Reg.DRC_STAT 27 24 step
  forEach (List.range 8) (fun d s => s.wrF (Reg.DRC_CH_STAT d) 31 29
    (if on then 3 else if s.unit 4 d = 3 then 1 + b2n (kget (fun _ => false) s.drc.pdown d) else 0)) s

/-- Channels that no command has put down. -/
def State.chansUp (s : State) : List Nat := (List.range 8).filter fun d => !kget (fun _ => false) s.drc.pdown d

/-- Every channel is in self-refresh, but for those put down by command. -/
def State.selfRefreshAll (s : State) : State := forEach s.chansUp (fun d s => s.setUnit 4 d 3) s

/-- Every channel exits self-refresh, but for those put down by command. -/
def State.selfRefreshExit (s : State) : State := forEach s.chansUp (fun d s => s.setUnit 4 d 0) s

/-- A write of DRC_SPEED.REQ: 3 is discarded; while training runs it waits for the step in progress to end (R388; log
entry 66); outside it is accepted while every sequencer is STOPPED: requests wait from now on, and the channels change
their clock in self-refresh and train again from step 3. -/
def State.speedWrite (s : State) (dom req : Nat) : State :=
  if req = 3 then s.noteReg dom Reg.DRC_SPEED
  else if bit (s.rd Reg.DRC_STAT) 29 then
    let s := s.wrF Reg.DRC_SPEED 1 0 req
    { s with drc := { s.drc with newReq := some req } }
  else if !s.allStopped then s.noteReg dom Reg.DRC_SPEED
  else
    let s := (s.wrF Reg.DRC_SPEED 1 0 req).selfRefreshAll.setTraining true 3
    { s with drc := { s.drc with speed := some req, closed := true } }

/-- DRC_SPEED_WRITE. -/
def doDrcSpeedWrite (dom : Nat) (v : Word) (s : State) : State :=
  s.hostWrite dom Reg.DRC_SPEED fun s => s.speedWrite dom (fld v 1 0)
/-- Meaning of DRC_SPEED_WRITE. -/
def execDrcSpeedWrite (dom : Fin 16) (v : Word) (s : State) : Host.Outcome State Fault Refusal :=
  .next (doDrcSpeedWrite dom.val v s)

/-- DRC_SPEED_DONE: the highest grade that the DIMMs and REQ allow is in use, and what waited is served (R374, R388); a
REQ that has arrived meanwhile has the training begin again at step 3. -/
def doDrcSpeedDone (s : State) : State :=
  match s.drc.speed with
  | none => s
  | some req =>
    s.whenDue true fun s =>
      match s.drc.newReq with
      | some new => { s.setTraining true 3 with drc := { s.drc with speed := some new, newReq := none } }
      | none =>
        let s := (s.selfRefreshExit.setTraining false 0).wrF Reg.DRC_SPEED 17 16 (min req s.drc.spdMax)
        (({ s with drc := { s.drc with speed := none, closed := false } }).irq Reg.DRC_ISTAT 32).waitsServed
/-- Meaning of DRC_SPEED_DONE. -/
def execDrcSpeedDone (s : State) : Host.Outcome State Fault Refusal := .next (doDrcSpeedDone s)

/-- DRC_INJ_WRITE: the next write on the channel stores inverted check bits (R394). -/
def doDrcInjWrite (dom d : Nat) (v : Word) (s : State) : State :=
  s.hostWrite dom (Reg.DRC_INJ d) fun s => s.wrRow (Reg.DRC_INJ d) v
/-- Meaning of DRC_INJ_WRITE. -/
def execDrcInjWrite (dom : Fin 16) (d : Fin 8) (v : Word) (s : State) : Host.Outcome State Fault Refusal :=
  .next (doDrcInjWrite dom.val d.val v s)

end Sys2Proof.Machine
end

