-- ==== Sys2Proof/Machine/Crypto.lean ====
section
/-! DEFINITION. The signature check of images (R55): SHA-384, and ECDSA over P-384, as the standards that R55
names define them. The public keys in the fuses are state, open where
nothing is known of them (Config.keyPoint). -/

namespace Sys2Proof.Machine

open Sys2Proof

/-! ### SHA-384 -/

/-- Round constants 0–19. -/
def shaA : List (BitVec 64) :=
  [0x428A2F98D728AE22, 0x7137449123EF65CD, 0xB5C0FBCFEC4D3B2F, 0xE9B5DBA58189DBBC,
   0x3956C25BF348B538, 0x59F111F1B605D019, 0x923F82A4AF194F9B, 0xAB1C5ED5DA6D8118,
   0xD807AA98A3030242, 0x12835B0145706FBE, 0x243185BE4EE4B28C, 0x550C7DC3D5FFB4E2,
   0x72BE5D74F27B896F, 0x80DEB1FE3B1696B1, 0x9BDC06A725C71235, 0xC19BF174CF692694,
   0xE49B69C19EF14AD2, 0xEFBE4786384F25E3, 0x0FC19DC68B8CD5B5, 0x240CA1CC77AC9C65]

/-- Round constants 20–39. -/
def shaB : List (BitVec 64) :=
  [0x2DE92C6F592B0275, 0x4A7484AA6EA6E483, 0x5CB0A9DCBD41FBD4, 0x76F988DA831153B5,
   0x983E5152EE66DFAB, 0xA831C66D2DB43210, 0xB00327C898FB213F, 0xBF597FC7BEEF0EE4,
   0xC6E00BF33DA88FC2, 0xD5A79147930AA725, 0x06CA6351E003826F, 0x142929670A0E6E70,
   0x27B70A8546D22FFC, 0x2E1B21385C26C926, 0x4D2C6DFC5AC42AED, 0x53380D139D95B3DF,
   0x650A73548BAF63DE, 0x766A0ABB3C77B2A8, 0x81C2C92E47EDAEE6, 0x92722C851482353B]

/-- Round constants 40–59. -/
def shaC : List (BitVec 64) :=
  [0xA2BFE8A14CF10364, 0xA81A664BBC423001, 0xC24B8B70D0F89791, 0xC76C51A30654BE30,
   0xD192E819D6EF5218, 0xD69906245565A910, 0xF40E35855771202A, 0x106AA07032BBD1B8,
   0x19A4C116B8D2D0C8, 0x1E376C085141AB53, 0x2748774CDF8EEB99, 0x34B0BCB5E19B48A8,
   0x391C0CB3C5C95A63, 0x4ED8AA4AE3418ACB, 0x5B9CCA4F7763E373, 0x682E6FF3D6B2B8A3,
   0x748F82EE5DEFB2FC, 0x78A5636F43172F60, 0x84C87814A1F0AB72, 0x8CC702081A6439EC]

/-- Round constants 60–79. -/
def shaD : List (BitVec 64) :=
  [0x90BEFFFA23631E28, 0xA4506CEBDE82BDE9, 0xBEF9A3F7B2C67915, 0xC67178F2E372532B,
   0xCA273ECEEA26619C, 0xD186B8C721C0C207, 0xEADA7DD6CDE0EB1E, 0xF57D4F7FEE6ED178,
   0x06F067AA72176FBA, 0x0A637DC5A2C898A6, 0x113F9804BEF90DAE, 0x1B710B35131C471B,
   0x28DB77F523047D84, 0x32CAAB7B40C72493, 0x3C9EBE0A15C9BEBC, 0x431D67C49C100D4C,
   0x4CC5D4BECB3E42B6, 0x597F299CFC657E2A, 0x5FCB6FAB3AD6FAEC, 0x6C44198C4A475817]

/-- The initial hash value of SHA-384. -/
def shaStart : List (BitVec 64) :=
  [0xCBBB9D5DC1059ED8, 0x629A292A367CD507, 0x9159015A3070DD17, 0x152FECD8F70E5939,
   0x67332667FFC00B31, 0x8EB44A8768581511, 0xDB0C2E0D64F98FA7, 0x47B5481DBEFA4FA4]

/-- The round constants. -/
def shaK : List (BitVec 64) := shaA ++ shaB ++ shaC ++ shaD

/-- A number of big-endian bytes. -/
def beNat (bs : List Byte) : Nat := bs.foldl (fun a b => a * 256 + b.toNat) 0

/-- The `k` big-endian bytes of a number. -/
def beBytes (k n : Nat) : List Byte := (leBytes k n).reverse

/-- The message with its padding: a 1 bit, zeros, and the length in bits. -/
def shaPad (m : List Byte) : List Byte :=
  m ++ [0x80] ++ List.replicate ((239 - m.length % 128) % 128) 0 ++ beBytes 16 (8 * m.length)

/-- The message schedule's next `n` words, newest first. -/
def shaSchedule : Nat → List (BitVec 64) → List (BitVec 64)
  | 0, w => w
  | n + 1, w =>
    let a := w.getD 14 0
    let b := w.getD 1 0
    let s0 := a.rotateRight 1 ^^^ a.rotateRight 8 ^^^ (a >>> 7)
    let s1 := b.rotateRight 19 ^^^ b.rotateRight 61 ^^^ (b >>> 6)
    shaSchedule n ((s1 + w.getD 6 0 + s0 + w.getD 15 0) :: w)

/-- One round on the eight working words. -/
def shaRound (v : List (BitVec 64)) (kw : BitVec 64 × BitVec 64) : List (BitVec 64) :=
  match v with
  | [a, b, c, d, e, f, g, h] =>
    let s1 := e.rotateRight 14 ^^^ e.rotateRight 18 ^^^ e.rotateRight 41
    let t1 := h + s1 + ((e &&& f) ^^^ (~~~e &&& g)) + kw.1 + kw.2
    let s0 := a.rotateRight 28 ^^^ a.rotateRight 34 ^^^ a.rotateRight 39
    let t2 := s0 + ((a &&& b) ^^^ (a &&& c) ^^^ (b &&& c))
    [t1 + t2, a, b, c, d + t1, e, f, g]
  | v => v

/-- One block of 128 bytes. -/
def shaBlock (h : List (BitVec 64)) (m : List Byte) : List (BitVec 64) :=
  let w := (List.range 16).map fun i => BitVec.ofNat 64 (beNat ((m.drop (8 * i)).take 8))
  let ws := (shaSchedule 64 w.reverse).reverse
  List.zipWith (· + ·) h ((shaK.zip ws).foldl shaRound h)

/-- Blocks one after another; `n` bounds their number. -/
def shaBlocks : Nat → List (BitVec 64) → List Byte → List (BitVec 64)
  | 0, h, _ => h
  | n + 1, h, m => if m.isEmpty then h else shaBlocks n (shaBlock h (m.take 128)) (m.drop 128)

/-- The SHA-384 digest of a message: 48 bytes. -/
def sha384 (m : List Byte) : List Byte :=
  let p := shaPad m
  ((shaBlocks (p.length / 128) shaStart p).take 6).flatMap fun x => beBytes 8 x.toNat

/-! ### ECDSA over P-384 -/

/-- The field prime. -/
def ecP : Nat := 2 ^ 384 - 2 ^ 128 - 2 ^ 96 + 2 ^ 32 - 1
/-- The order of the base point. -/
def ecN : Nat := 0xFFFFFFFFFFFFFFFFFFFFFFFFFFFFFFFFFFFFFFFFFFFFFFFFC7634D81F4372DDF581A0DB248B0A77AECEC196ACCC52973
/-- The base point. -/
def ecG : Nat × Nat :=
  (0xAA87CA22BE8B05378EB1C71EF320AD746E1D3B628BA79B9859F741E082542A385502F25DBF55296C3A545E3872760AB7,
   0x3617DE4A96262C6F5D9E98BF9292DC29F8F41DBD289A147CE9DA3113B5F0B8C00A60B1CE1D7E819D7A431D7C90EA0E5F)

/-- `b ^ e` modulo `m`, over the low `k` bits of `e`. -/
def powMod (m : Nat) : Nat → Nat → Nat → Nat
  | 0, _, _ => 1
  | k + 1, b, e =>
    let r := powMod m k (b * b % m) (e / 2)
    if e % 2 = 1 then r * b % m else r

/-- The inverse modulo a prime. -/
def invMod (m a : Nat) : Nat := powMod m 384 (a % m) (m - 2)

/-- The point on a line of slope `l` through two points. -/
def ecChord (l : Nat) (a b : Nat × Nat) : Nat × Nat :=
  let x := (l * l + 2 * ecP - a.1 - b.1) % ecP
  (x, (l * (a.1 + ecP - x) + ecP - a.2) % ecP)

/-- The sum of two points; none is the point at infinity. -/
def ecAdd : Option (Nat × Nat) → Option (Nat × Nat) → Option (Nat × Nat)
  | none, b => b
  | a, none => a
  | some a, some b =>
    if a.1 = b.1 then
      if (a.2 + b.2) % ecP = 0 then none
      else some (ecChord ((3 * a.1 * a.1 + ecP - 3) % ecP * invMod ecP (2 * a.2) % ecP) a b)
    else some (ecChord ((b.2 + ecP - a.2) % ecP * invMod ecP (b.1 + ecP - a.1) % ecP) a b)

/-- A multiple of a point, over the low `k` bits of the factor. -/
def ecMul : Nat → Nat → Option (Nat × Nat) → Option (Nat × Nat)
  | 0, _, _ => none
  | k + 1, n, a =>
    let r := ecMul k (n / 2) (ecAdd a a)
    if n % 2 = 1 then ecAdd r a else r

/-- The signature (r, s) of a digest verifies under a public key. -/
def ecVerify (key : Nat × Nat) (digest : List Byte) (r s : Nat) : Bool :=
  if r = 0 ∨ ecN ≤ r ∨ s = 0 ∨ ecN ≤ s then false
  else
    let w := invMod ecN s
    let u1 := beNat digest * w % ecN
    let u2 := r * w % ecN
    match ecAdd (ecMul 384 u1 (some ecG)) (ecMul 384 u2 (some key)) with
    | none => false
    | some q => q.1 % ecN == r

/-! ### The signature block (R55, R56) -/

/-- The public key in slot `k` (R56). -/
def State.keyOf (s : State) (k : Nat) : Nat × Nat := kget Config.keyPoint s.keys k

/-- Check of the 128-byte signature block `sig` over `msg` with key states `keys` (STI_KEYS) and the keys of the
slots: none where it is good, or the failing step (false: format or key slot, true: the signature) and the offset in
the block of its first wrong byte. -/
def sigCheck (keys : Word) (key : Nat → Nat × Nat) (msg sig : List Byte) : Option (Bool × Nat) :=
  let want := fun i => if i < 4 then some ((0x4753524C / 2 ^ (8 * i)) % 256) else if (5 ≤ i && i < 8) || 0x68 ≤ i then some 0 else none
  let wrong := fun i => match want i with
    | some v => getLE sig i 1 != v
    | none => i == 4 && decide (3 < getLE sig 4 1)
  match (List.range 128).find? wrong with
  | some i => some (false, i)
  | none =>
    let k := getLE sig 4 1
    if !bit keys k || bit keys (4 + k) then some (false, 4)
    else if ecVerify (key k) (sha384 msg) (beNat ((sig.drop 8).take 48)) (beNat ((sig.drop 0x38).take 48)) then none
    else some (true, 8)

end Sys2Proof.Machine
end

