-- ==== Sys2Proof/Machine/Img.lean ====
section
/-! DEFINITION. Structure images (R39–R61): the sections of an image, the structure it gives, and the
checks of R58 in their order, each with its reason code and the offset of the failing item. -/

namespace Sys2Proof.Machine

open Sys2Proof

/-- A rejection: reason code, section type code, byte offset of the failing item (R58). -/
structure Rej where
  reason : Nat
  sec : Nat := 0
  ofs : Nat := 0
  deriving DecidableEq, Repr

/-! ### Header and directory (R42–R45) -/

/-- An image's KIND: 1 whole, 2 tile. -/
def imgKind (b : List Byte) : Nat := getLE b 8 1
/-- TILE. -/
def imgTile (b : List Byte) : Nat := getLE b 9 1
/-- LENGTH. -/
def imgLen (b : List Byte) : Nat := getLE b 0xC 4
/-- SECTIONS. -/
def imgCount (b : List Byte) : Nat := getLE b 0xA 2

/-- LENGTH is one of R42, and holds a header and a signature block. -/
def imgLenOk (b : List Byte) : Bool := imgLen b % 16 == 0 && decide (imgLen b ≤ 1048576) && decide (192 ≤ imgLen b)

/-- One directory entry (R44), with its own place. -/
structure ImgSec where
  at_ : Nat
  typ : Nat
  resv : Nat
  ofs : Nat
  len : Nat
  crc : Nat
  deriving DecidableEq, Repr

/-- The directory. -/
def imgDir (b : List Byte) : List ImgSec :=
  (List.range (imgCount b)).map fun i =>
    let a := 0x40 + 16 * i
    ⟨a, getLE b a 2, getLE b (a + 2) 2, getLE b (a + 4) 4, getLE b (a + 8) 4, getLE b (a + 12) 4⟩

/-- Step 1 of R58; `op` is 1 LOAD_WHOLE, 2 LOAD_TILE with tile `t`, and 0 where KIND is the image's own. BASE_GEN of
a whole image is not tested (log entry 59). -/
def headReject (b : List Byte) (op t : Nat) : Option Rej :=
  let k := imgKind b
  let own := if k = 1 then imgTile b == 0xFF else decide (imgTile b ≤ 3)
  if getLE b 0 4 ≠ 0x4953524C then some ⟨1, 0, 0⟩
  else if getLE b 5 1 ≠ 1 then some ⟨2, 0, 4⟩
  else if getLE b 6 2 ≠ 0xB1 then some ⟨3, 0, 6⟩
  else if (k ≠ 1 ∧ k ≠ 2) ∨ (op ≠ 0 ∧ k ≠ op) then some ⟨4, 0, 8⟩
  else if !own || (op == 2 && imgTile b != t) then some ⟨4, 0, 9⟩
  else if !imgLenOk b then some ⟨5, 0, 0xC⟩
  else none

/-- Two byte ranges share a byte. -/
def rangesMeet (a n b m : Nat) : Bool := decide (0 < n) && decide (0 < m) && decide (a < b + m) && decide (b < a + n)

/-- Directory entry `e` after the entries `before` it is wrong (R42, R44, R45). -/
def dirBad (b : List Byte) (before : List ImgSec) (e : ImgSec) : Bool :=
  e.resv != 0 || e.typ == 0 || decide (8 < e.typ) || (imgKind b == 2 && e.typ == 7) || before.any (·.typ == e.typ) ||
    e.ofs % 16 != 0 || decide (e.ofs < 0x40 + 16 * imgCount b) || decide (imgLen b < e.ofs + e.len + 128) ||
    before.any fun x => rangesMeet x.ofs x.len e.ofs e.len

/-- The first wrong entry of the directory. -/
def dirFirst (b : List Byte) (before : List ImgSec) : List ImgSec → Option Rej
  | [] => none
  | e :: l => if dirBad b before e then some ⟨7, e.typ % 256, e.at_⟩ else dirFirst b (before ++ [e]) l

/-- The sections an image of a kind must hold (R45). -/
def imgMust (kind : Nat) : List Nat := if kind = 1 then [1, 2, 3, 7, 8] else [1, 2, 3]

/-- Step 3 of R58. -/
def dirReject (b : List Byte) : Option Rej :=
  match dirFirst b [] (imgDir b) with
  | some r => some r
  | none => ((imgMust (imgKind b)).find? fun t => !(imgDir b).any (·.typ == t)).map fun t => ⟨7, t, 0x40⟩

/-- Step 4 of R58: section CRCs; the failing item is the section, not its directory entry (log entry 59). -/
def crcReject (b : List Byte) : Option Rej :=
  ((imgDir b).find? fun e => crc32c ((b.drop e.ofs).take e.len) != e.crc).map fun e => ⟨8, e.typ, e.ofs⟩

/-- Step 5 of R58: the signature. -/
def signReject (keys : Word) (key : Nat → Nat × Nat) (b : List Byte) : Option Rej :=
  let n := imgLen b - 128
  match sigCheck keys key (b.take n) ((b.drop n).take 128) with
  | none => none
  | some (false, i) => some ⟨9, 0, n + i⟩
  | some (true, i) => some ⟨0xA, 0, n + i⟩

/-! ### Sections (R46–R53) -/

/-- The channels an image's per-channel sections hold: first and number. -/
def imgChans (b : List Byte) : Nat × Nat := if imgKind b = 1 then (0, 128) else (32 * imgTile b, 32)

/-- A section has the length its format gives (R46–R52); one that has not fails with its own code. -/
def secLenOk (b : List Byte) (e : ImgSec) : Bool :=
  let k := (imgChans b).2
  match e.typ with
  | 1 => e.len == 4 * k
  | 2 => e.len == 256
  | 3 => e.len == 512
  | 4 => e.len == 4 * k
  | 5 => e.len == 16 * k
  | 7 => e.len == 16
  | 8 => e.len % 16 == 0
  | _ => true

/-- The section of a type, where it has the length its format gives. -/
def imgSec (b : List Byte) (t : Nat) : Option ImgSec := (imgDir b).find? fun e => e.typ == t && secLenOk b e

/-- Word `i` of a section. -/
def secWord (b : List Byte) (e : ImgSec) (i : Nat) : Nat := getLE b (e.ofs + 4 * i) 4

/-- Set an entry for each channel of an image from its section. -/
def perChan {α : Type} [DecidableEq α] (d : α) (b : List Byte) (_e : ImgSec) (f : Nat → Nat → α) (m : KMap α) : KMap α :=
  let c := imgChans b
  (List.range c.2).foldl (fun m i => kset (fun _ => d) m (c.1 + i) (f (c.1 + i) i)) m

/-- SITE of entry `i` (R46). -/
def siteEntryOf (b : List Byte) (e : ImgSec) (i : Nat) : Option Nat :=
  let w := secWord b e i
  if bits w 31 31 = 1 then some (bits w 21 16) else none

/-- XBAR of entry `i` for channel `c` (R49). -/
def xbarEntryOf (b : List Byte) (e : ImgSec) (c i : Nat) : Xbar :=
  let w := secWord b e i
  { spareOk := bits w 31 31 == 1, ref := if bits w 30 30 = 1 then some (c / 32 * 32 + bits w 28 24) else none }

/-- ACQR of entry `i` (R50). -/
def acqrEntryOf (b : List Byte) (e : ImgSec) (i : Nat) : Acqr :=
  let w := fun k => secWord b e (4 * i + k)
  let flow := fun v => if bits v 31 31 = 1 then some (bits v 13 0) else none
  { capBase := bits (w 0) 15 0, capSize := bits (w 0) 31 16, stampFlow := flow (w 1), frameFlow := flow (w 2) }

/-- CARV of entry `n` (R48). -/
def carveEntryOf (b : List Byte) (e : ImgSec) (n : Nat) : Carve :=
  let h := fun k => getLE b (e.ofs + 32 * n + 2 * k) 2
  ⟨h 0, h 1, h 2, h 3, h 4, h 5, h 6, h 7, h 8, h 9⟩

/-- OWNR of entry `t` (R47). -/
def ownerEntryOf (b : List Byte) (e : ImgSec) (t : Nat) : Option Nat :=
  let w := secWord b e t
  if bits w 31 31 = 1 then some (bits w 3 0) else none

/-! ### Graph records (R51, R353–R363) -/

/-- The graph records of a section as (offset in the image, bytes), at most `fuel`; false where the last one
does not fit. -/
def graphRecs (b : List Byte) (o end_ : Nat) : Nat → List (Nat × List Byte) × Bool
  | 0 => ([], decide (end_ ≤ o))
  | fuel + 1 =>
    if end_ ≤ o then ([], true)
    else
      let n := (12 + getLE b (o + 8) 4 + 15) / 16 * 16
      if end_ < o + n then ([(o, (b.drop o).take (end_ - o))], false)
      else
        let r := graphRecs b (o + n) end_ fuel
        ((o, (b.drop o).take n) :: r.1, r.2)

/-- Offset of flow entry `i` in a record. -/
def recFlowAt (i : Nat) : Nat := 12 + 32 + 16 * i
/-- Offset of node `i` in a record. -/
def recNodeAt (r : List Byte) (i : Nat) : Nat := 12 + 32 + 16 * getLE r 18 2 + 64 * i

/-- Flow IDs of `k` half-words; 0xFFFF names none. -/
def flowIds (r : List Byte) (o k : Nat) : List Nat :=
  ((List.range k).map fun i => getLE r (o + 2 * i) 2).filter (· != 0xFFFF)

/-- The graph of a record (R51, R354). -/
def recGraph (r : List Byte) : Graph :=
  let owner := getLE r 1 1
  { id := getLE r 0 1, owner := if owner = 0xFF then none else some owner, engines := getLE r 4 4, loss := getLE r 20 1,
    nodes := (List.range (getLE r 16 2)).map fun i =>
      let o := recNodeAt r i
      { op := getLE r o 1, outmode := getLE r (o + 1) 1 % 2 == 1, ins := flowIds r (o + 4) 4, outs := flowIds r (o + 12) 2,
        key := (List.range 4).map fun k => termAt r (o + 16 + 8 * k), params := (r.drop (o + 48)).take 16 },
    flows := (List.range (getLE r 18 2)).map fun i =>
      let o := recFlowAt i
      { flow := getLE r o 2, kind := getLE r (o + 2) 1, credit := getLE r (o + 4) 2, spillSize := getLE r (o + 6) 2,
        spillBase := getLE r (o + 8) 8 } }

/-- All `n` bytes from offset `o` are 0. -/
def zeroAt (r : List Byte) (o n : Nat) : Bool := ((r.drop o).take n).all (· == 0)

/-- A key term has its reserved bits 0 and, where it is used, its fields in range (R355). -/
def termOk (r : List Byte) (o : Nat) (used : Bool) : Bool :=
  let t := termAt r o
  bits (getLE r (o + 1) 1) 7 5 == 0 && bits (getLE r (o + 2) 1) 7 6 == 0 && bits (getLE r (o + 3) 1) 7 5 == 0 &&
    (!used || (decide (t.ofs ≤ 60) && decide (1 ≤ t.width) && decide (t.width ≤ 32)))

/-- Parameters and OUTMODE of a node are ones R356 allows. -/
def paramsOk (n : GNode) : Bool :=
  let p := fun o k => getLE n.params o k
  match n.op with
  | 1 => decide (1 ≤ p 0 2) && decide (p 0 2 ≤ 4096)
  | 2 => decide (1 ≤ p 8 2) && decide (p 8 2 ≤ 2048) && !n.outmode && termOk n.params 0 true
  | 3 =>
    let ok := fun x => decide (1 ≤ x) && decide (x ≤ 12)
    ok (p 8 1) && ok (p 9 1) && decide (3 ≤ p 8 1 + p 9 1) && decide (1 ≤ p 10 1) && decide (p 10 1 ≤ 64) &&
      decide (p 11 1 ≤ 1)
  | 4 => decide (1 ≤ p 0 4) && n.outmode
  | 5 => decide (1 ≤ p 4 4) && decide (1 ≤ p 8 2) && decide (p 8 2 ≤ 4096) && !n.outmode
  | 6 => !n.outmode && termOk n.params 0 true
  | 7 =>
    decide (1 ≤ p 12 1) && decide (p 12 1 ≤ 3) && decide (p 13 1 < 16) && decide (p 14 1 ≤ 60) &&
      (decide (p 12 1 < 2) || decide (p 0 4 < p 4 4)) && (decide (p 12 1 < 3) || decide (p 4 4 < p 8 4))
  | 8 => zeroAt n.params 0 16 && !n.outmode
  | 9 => !n.outmode
  | _ => false

/-- Inputs and outputs of a node have the form R363 gives its operator. -/
def nodeShape (r : List Byte) (o : Nat) (n : GNode) : Bool :=
  if n.op = 8 then decide (2 ≤ n.ins.length) && decide (n.ins.length ≤ 4)
  else if n.op = 9 then n.ins.isEmpty && n.outs.isEmpty && n.key.all fun t => !t.en
  else n.ins.length == 1 && getLE r (o + 4) 2 != 0xFFFF

/-- How often a flow ID stands in the inputs or outputs of nodes. -/
def timesIn (l : List (List Nat)) (f : Nat) : Nat := (l.flatten.filter (· == f)).length

/-- Flows of a graph that are known to carry items once the nodes placed so far run; `n` rounds. -/
def flowsReached (g : Graph) : Nat → List Nat → List Nat
  | 0, l => l
  | n + 1, l =>
    let fed := g.nodes.filter fun x => x.ins.all l.contains
    flowsReached g n ((l ++ fed.flatMap (·.outs)).dedup)

/-- The graph is acyclic (R363): from its input flows, every flow is reached. -/
def acyclic (g : Graph) : Bool :=
  let inputs := (g.flows.filter (·.kind != 0)).map (·.flow)
  let l := flowsReached g g.nodes.length inputs
  g.flows.all fun x => l.contains x.flow

/-- DRAM ranges of a graph: spill rings, and BITMAP planes (R358, R363). -/
def graphRanges (g : Graph) : List (Nat × Nat) :=
  ((g.flows.filter fun x => x.spillSize != 0).map fun x => (x.spillBase, 65536 * x.spillSize)) ++
    (g.nodes.filter (·.op == 3)).map fun n =>
      (getLE n.params 0 8, getLE n.params 10 1 * 2 ^ (getLE n.params 8 1 + getLE n.params 9 1 - 3))

/-- No two ranges of a list meet. -/
def rangesApart : List (Nat × Nat) → Bool
  | [] => true
  | x :: l => (l.all fun y => !rangesMeet x.1 x.2 y.1 y.2) && rangesApart l

/-- Bytes of a graph's node state (R363). -/
def Graph.stateBytes (g : Graph) : Nat := (g.nodes.map fun n => 64 * n.units).sum

/-- An EMIT is one of R363, in a graph area of `len` bytes. -/
def emitOk (g : Graph) (len : Nat) (n : GNode) : Bool :=
  n.op != 9 ||
    (let p := fun o k => getLE n.params o k
     match g.nodes[p 0 2]? with
     | none => false
     | some src => src.op != 9 && g.owner.isSome && decide (p 4 4 + p 8 4 ≤ src.size) && p 8 4 % 4 == 0 && p 12 4 % 4 == 0 &&
         decide (p 12 4 + p 8 4 ≤ len))

/-- A record is a valid one by itself (R51, R363); `dram` is the installed capacity, `len` the owner's GRAPH_LEN. -/
def recOk (r : List Byte) (dram len : Nat) : Bool :=
  let g := recGraph r
  let dlen := getLE r 8 4
  let nf := getLE r 18 2
  let nn := getLE r 16 2
  zeroAt r 2 2 && (getLE r 1 1 == 0xFF || decide (getLE r 1 1 < 16)) && g.engines != 0 &&
    getLE r 12 4 == 0x4447524C && decide (1 ≤ nn) && decide (nn ≤ 1024) && decide (1 ≤ nf) && decide (nf ≤ 1024) &&
    dlen == 32 + 16 * nf + 64 * nn && decide (r.length = (12 + dlen + 15) / 16 * 16) && decide (g.loss ≤ 1) &&
    zeroAt r 21 23 && zeroAt r (12 + dlen) 16 &&
    ((List.range nf).all fun i => getLE r (recFlowAt i + 3) 1 == 0) &&
    (g.flows.all fun x => decide (x.flow < 16384) && decide (x.kind ≤ 4) && decide (1 ≤ x.credit) && decide (x.credit ≤ 4096) &&
      (x.kind != 0 || x.spillSize == 0) && x.spillBase % 65536 == 0) &&
    decide ((g.flows.map (·.flow)).Nodup) &&
    ((List.range nn).all fun i =>
      let o := recNodeAt r i
      getLE r (o + 1) 1 ≤ 1 && zeroAt r (o + 2) 2 && ((List.range 4).all fun k => termOk r (o + 16 + 8 * k) (termAt r (o + 16 + 8 * k)).en) &&
        match g.nodes[i]? with
        | some n => paramsOk n && nodeShape r o n && emitOk g len n
        | none => false) &&
    (g.flows.all fun x =>
      timesIn (g.nodes.map (·.ins)) x.flow == 1 && timesIn (g.nodes.map (·.outs)) x.flow == (if x.kind = 0 then 1 else 0)) &&
    (g.nodes.all fun n => (n.ins ++ n.outs).all fun f => g.flows.any (·.flow == f)) &&
    acyclic g && rangesApart (graphRanges g) &&
    (graphRanges g).all fun x => decide (0x1000000 ≤ x.1) && decide (x.1 + x.2 ≤ dram)

/-! ### The structure an image gives -/

/-- The stopped set of a tile load: the sequencers that own a channel of tile `t` in force (R60). -/
def State.tileSet (s : State) (t : Nat) : List Nat :=
  (List.range 16).filter fun n => (s.ownedChans n).any fun c => c / 32 == t

/-- SQn is in the stopped set of tile `t`, or owns no site in force (R60). -/
def State.tileFree (s : State) (t n : Nat) : Bool := (s.tileSet t).contains n || (s.ownedSites n).isEmpty

/-- The graphs a load replaces (R60, R62): all for a whole image, for a tile image with a GRPH section those
of the stopped set. -/
def State.graphsInScope (s : State) (b : List Byte) : List Graph :=
  if imgKind b = 1 then s.str.graphs
  else if (imgSec b 6).isNone then []
  else s.str.graphs.filter fun g => match g.owner with | some n => (s.tileSet (imgTile b)).contains n | none => false

/-- The graph records of an image. -/
def imgRecs (b : List Byte) : List (Nat × List Byte) × Bool :=
  match imgSec b 6 with
  | none => ([], true)
  | some e => graphRecs b e.ofs (e.ofs + e.len) (e.len / 16 + 1)

/-- The graphs that stay. -/
def State.graphsKept (s : State) (b : List Byte) : List Graph :=
  s.str.graphs.filter fun g => !(s.graphsInScope b).any (·.id == g.id)

/-- Insert a graph by its number. -/
def insertGraph (g : Graph) : List Graph → List Graph
  | [] => [g]
  | h :: l => if g.id < h.id then g :: h :: l else h :: insertGraph g l

/-- Graphs by number, their node state packed from offset `o` (log entry 16). -/
def packGraphs (o : Nat) : List Graph → List Graph
  | [] => []
  | g :: l => { g with base := o } :: packGraphs (o + g.stateBytes) l

/-- The structure that image `b` puts in force (R39, R45, R60). -/
def State.imgStr (s : State) (b : List Byte) : Structure :=
  let old : Structure := if imgKind b = 1 then {} else s.str
  let new := (imgRecs b).1.map fun r => recGraph r.2
  let graphs := (s.graphsKept b ++ new).foldl (fun l g => insertGraph g l) []
  { siteOf := match imgSec b 1 with | some e => perChan none b e (fun _ i => siteEntryOf b e i) old.siteOf | none => old.siteOf,
    ownerOf := match imgSec b 2 with
      | some e => (List.range 64).foldl (fun m t => kset (fun _ => none) m t (ownerEntryOf b e t)) old.ownerOf
      | none => old.ownerOf,
    carve := match imgSec b 3 with
      | some e => (List.range 16).foldl (fun m n => kset (fun _ => {}) m n (carveEntryOf b e n)) old.carve
      | none => old.carve,
    xbar := match imgSec b 4 with | some e => perChan {} b e (xbarEntryOf b e) old.xbar | none => old.xbar,
    acqr := match imgSec b 5 with | some e => perChan {} b e (fun _ i => acqrEntryOf b e i) old.acqr | none => old.acqr,
    graphs := packGraphs 0 graphs,
    lane := match imgSec b 7 with
      | some e => (List.range 4).foldl (fun m p =>
          let w := secWord b e p
          kset (fun _ => none) m p (if bits w 31 31 = 1 then some (bits w 15 0) else none)) []
      | none => old.lane }

/-! ### Content rules (R59) -/

/-- A section of a tile image that is not complete: it is shorter than its format (R60). -/
def secShort (b : List Byte) (e : ImgSec) : Bool :=
  imgKind b == 2 && !secLenOk b e &&
    decide (e.len < match e.typ with | 2 => 256 | 3 => 512 | 5 => 512 | _ => 128)

/-- The reason code of a section (R59). -/
def secCode (t : Nat) : Nat := if t ≤ 3 then 0xA + t else if t = 6 then 0xE else if t = 4 then 0x15 else if t = 5 then 0x16 else 0x10 + t

/-- The failures of the entries of a section of type `t`, each `size` bytes: those that `bad` names. -/
def entryFails (b : List Byte) (t size n code : Nat) (bad : ImgSec → Nat → Bool) : List Rej :=
  match imgSec b t with
  | none => []
  | some e => ((List.range n).filter (bad e)).map fun i => ⟨code, t, e.ofs + size * i⟩

/-- The bits of word `j` of CARV's and of ACQR's entries that are reserved (R48, R50). -/
def carvReserved (j : Nat) : Nat := if 5 ≤ j % 8 then 0xFFFFFFFF else 0
/-- The same of ACQR. -/
def acqrReserved (j : Nat) : Nat := if j % 4 = 0 then 0 else if j % 4 = 3 then 0xFFFFFFFF else 0x7FFFC000

/-- Reserved bits of the fixed-size sections, by word. -/
def reservedFails (b : List Byte) : List Rej :=
  let k := (imgChans b).2
  entryFails b 1 4 k 0xB (fun e i => secWord b e i &&& 0x7FC0FFFF != 0) ++
    entryFails b 2 4 64 0xC (fun e i => secWord b e i &&& 0x7FFFFFF0 != 0) ++
    entryFails b 3 4 128 0xD (fun e j => secWord b e j &&& carvReserved j != 0) ++
    entryFails b 4 4 k 0x15 (fun e i => secWord b e i &&& 0x20FFFFFF != 0) ++
    entryFails b 5 4 (4 * k) 0x16 (fun e j => secWord b e j &&& acqrReserved j != 0) ++
    entryFails b 7 4 4 0x17 (fun e i => secWord b e i &&& 0x7FFF0000 != 0)

/-- Sites without an owner, and owners of sites without channels. -/
def ownerFails (b : List Byte) (x : Structure) : List Rej :=
  entryFails b 2 4 64 0xC fun _ t =>
    (x.siteOf.any fun y => y.2 == some t) != (kget (fun _ => none) x.ownerOf t).isSome

/-- The ranges of a carve by region: 0 sequence store, 1 vector buffer (twice), 2 capture memory, 3 Contact
Sheet area; with the size of the region. -/
def carveRanges (c : Carve) : List (Nat × Nat × Nat) :=
  [(0, c.sqsBase, c.sqsSize), (1, c.vbpBase, c.vbpSize), (1, c.vblBase, c.vblSize), (2, c.capBase, c.capSize),
   (3, c.csBase, 3 * c.csSize)]

/-- Size of a region in its units (R48). -/
def regionSize : Nat → Nat
  | 0 => 2048
  | 1 => 4096
  | 2 => 3072
  | _ => 1024

/-- Two ranges of regions meet. -/
def carvesMeet (x y : Nat × Nat × Nat) : Bool := x.1 == y.1 && rangesMeet x.2.1 x.2.2 y.2.1 y.2.2

/-- The capture area of an acquisition route. -/
def capRange (a : Acqr) : Nat × Nat × Nat := (2, a.capBase, a.capSize)

/-- Where an item of an image stands: the type of its section and its offset; none of what is in force outside it. -/
abbrev ImgPlace := Option (Nat × Nat)

/-- The place of byte `o` of a section of type `t`. -/
def imgPlace (b : List Byte) (t o : Nat) : ImgPlace := (imgSec b t).map fun e => (t, e.ofs + o)

/-- The place of byte `o` of channel `c`'s entry in a section of type `t` with entries of `size` bytes. -/
def chanPlace (b : List Byte) (t size c o : Nat) : ImgPlace :=
  let k := imgChans b
  if k.1 ≤ c ∧ c < k.1 + k.2 then imgPlace b t (size * (c - k.1) + o) else none

/-- Two items cannot both stand: the failing one is the later of the image (log entry 59). -/
def clashAt (code : Nat) (x y : ImgPlace) : Rej :=
  match x, y with
  | some p, some q => if p.2 < q.2 then ⟨code, q.1, q.2⟩ else ⟨code, p.1, p.2⟩
  | some p, none => ⟨code, p.1, p.2⟩
  | none, some q => ⟨code, q.1, q.2⟩
  | none, none => ⟨code, 0, 0⟩

/-- Each item of a list that `bad` finds to clash with one after it. -/
def clashes {α : Type} (code : Nat) (bad : α → α → Bool) : List (ImgPlace × α) → List Rej
  | [] => []
  | x :: l => ((l.filter fun y => bad x.2 y.2).map fun y => clashAt code x.1 y.1) ++ clashes code bad l

/-- The ranges of a structure that hold something, with their places: each carve's base and size, and each capture
area. -/
def placedRanges (b : List Byte) (x : Structure) : List (ImgPlace × (Nat × Nat × Nat)) :=
  let carves := (List.range 16).flatMap fun n =>
    let l := carveRanges (kget (fun _ => {}) x.carve n)
    (List.range 5).zipWith (fun k r => (imgPlace b 3 (32 * n + 4 * k), r)) l
  let caps := (List.range 128).map fun c => (chanPlace b 5 16 c 0, capRange (kget (fun _ => {}) x.acqr c))
  (carves ++ caps).filter fun y => y.2.2.2 != 0

/-- Carves out of their regions, and overlaps of carves and capture areas. -/
def carveFails (b : List Byte) (x : Structure) : List Rej :=
  entryFails b 3 4 128 0xD (fun _ j =>
    match (carveRanges (kget (fun _ => {}) x.carve (j / 8)))[j % 8]? with
    | some r => decide (regionSize r.1 < r.2.1 + r.2.2)
    | none => false) ++
    clashes 0xD carvesMeet (placedRanges b x)

/-- Capture areas that leave capture memory. -/
def acqrFails (b : List Byte) (x : Structure) : List Rej :=
  entryFails b 5 16 (imgChans b).2 0x16 fun _ i =>
    let a := kget (fun _ => {}) x.acqr ((imgChans b).1 + i)
    a.capSize != 0 && decide (3072 < a.capBase + a.capSize)

/-- A graph holds flow `f` with another kind than `kind`. -/
def heldOtherwise (g : Graph) (f kind : Nat) : Bool := g.flows.any fun y => y.flow == f && y.kind != kind

/-- The flows that routes name, with their places: the flow and the KIND its graph must give it (R50, R59). -/
def routeUses (b : List Byte) (x : Structure) : List (ImgPlace × (Nat × Nat)) :=
  (List.range 128).flatMap fun c =>
    let a := kget (fun _ => ({} : Acqr)) x.acqr c
    (match a.stampFlow with | some f => [(chanPlace b 5 16 c 4, (f, 2))] | none => []) ++
      (match a.frameFlow with | some f => [(chanPlace b 5 16 c 8, (f, 3))] | none => [])

/-- Routes whose flows have another role in another route (R59). -/
def routeFails (b : List Byte) (x : Structure) : List Rej :=
  clashes 0xE (fun u v => u.1 == v.1 && u.2 != v.2) (routeUses b x)

/-- Routes whose flows a graph record of the image holds with another KIND: one failure, at the later of the two
(log entry 59). -/
def routeRecFails (b : List Byte) (x : Structure) (recs : List (Nat × List Byte)) : List Rej :=
  recs.flatMap fun r =>
    ((routeUses b x).filter fun u => heldOtherwise (recGraph r.2) u.2.1 u.2.2).map fun u => clashAt 0xE u.1 (some (6, r.1))

/-- GRAPH_LEN of SQn under a structure (R237). -/
def graphLen (x : Structure) (n : Nat) : Nat :=
  let sites := ((List.range 64).filter fun t => kget (fun _ => none) x.ownerOf t == some n).length
  let chans := ((List.range 128).filter fun c =>
    (kget (fun _ => none) x.siteOf c).bind (kget (fun _ => none) x.ownerOf) == some n).length
  1024 * (kget (fun _ => {}) x.carve n).csSize - (256 + 32 * sites + 64 * chans)

/-- A graph after others has their number, is one too many, or takes what they hold (R59, R363). Two graphs of one
number are rejected as GRAPH, since a number names one graph (log entry 59). -/
def graphClash (before : List Graph) (g : Graph) : Bool :=
  let ranges := before.flatMap graphRanges
  before.any (·.id == g.id) || decide (256 ≤ before.length) ||
    decide (1024 < ((g :: before).map fun h => h.nodes.length).sum) ||
    decide (32768 < ((g :: before).map fun h => (h.flows.map (·.credit)).sum).sum) ||
    decide (1048576 < ((g :: before).map Graph.stateBytes).sum) ||
    (g.flows.any fun f => before.any fun h => h.flows.any (·.flow == f.flow)) ||
    (graphRanges g).any fun r => ranges.any fun q => rangesMeet r.1 r.2 q.1 q.2

/-- Graphs that stay: a route has another role for a flow of theirs, or an EMIT of theirs does not fit any more into
its owner's graph area, which fails at the owner's CS fields (R59, R363, log entry 59). -/
def keptFails (b : List Byte) (x : Structure) (kept : List Graph) : List Rej :=
  kept.flatMap fun g =>
    (((routeUses b x).filter fun u => heldOtherwise g u.2.1 u.2.2).map fun u => clashAt 0xE u.1 none) ++
      match g.owner with
      | some n => if g.nodes.all fun y => emitOk g (graphLen x n) y then [] else [clashAt 0xE (imgPlace b 3 (32 * n + 16)) none]
      | none => []

/-- The failures of graph records after the graphs `before`. -/
def recFails (x : Structure) (dram : Nat) (before : List Graph) : List (Nat × List Byte) → List Rej
  | [] => []
  | r :: l =>
    let g := recGraph r.2
    let len := match g.owner with | some n => graphLen x n | none => 0
    (if !recOk r.2 dram len || graphClash before g then [⟨0xE, 6, r.1⟩] else []) ++ recFails x dram (before ++ [g]) l

/-- The slot that an entry names by KIND and INDEX (R430). -/
def entrySlot (e : PtEntry) : Option Nat :=
  let kind := bits e.1 23 20
  let i := slotBase kind + bits e.1 8 0
  if 1 ≤ kind ∧ kind ≤ 6 ∧ i < 304 ∧ slotKind i = kind then some i else none

/-- The entries of the PROT section with their offsets. -/
def protEntries (b : List Byte) : List (Nat × PtEntry) :=
  match imgSec b 8 with
  | none => []
  | some e => (List.range (e.len / 16)).map fun k =>
      (e.ofs + 16 * k, (secWord b e (4 * k), secWord b e (4 * k + 1), secWord b e (4 * k + 2), secWord b e (4 * k + 3)))

/-- Protection entries that break R430, R431 or R53, after those of `before`: of two for one slot, or that overlap, the
later fails. Flow ranges and DRAM regions take part in the overlap check of a whole image only, since no tile load
changes them (R59, R60). -/
def protFails (whole : Bool) (before : List PtEntry) : List (Nat × PtEntry) → List Rej
  | [] => []
  | (o, e) :: l =>
    let bad := match entrySlot e with
      | none => true
      | some i => ptCheck i e != 0 || before.any fun y => entrySlot y == some i ||
          (whole && decide (5 ≤ slotKind i) && bits y.1 23 20 == slotKind i && ptMeet e y)
    (if bad then [⟨0x18, 8, o⟩] else []) ++ protFails whole (e :: before) l

/-- Every failure of the content rules (R59). -/
def State.contentFails (s : State) (b : List Byte) : List Rej :=
  let wrong := (imgDir b).filter fun e => !secLenOk b e && !secShort b e
  let x := s.imgStr b
  let recs := imgRecs b
  (wrong.map fun e => ⟨secCode e.typ, e.typ, e.ofs⟩) ++
    reservedFails b ++ ownerFails b x ++ carveFails b x ++ acqrFails b x ++ routeFails b x ++
    recFails x s.dramSize (s.graphsKept b) recs.1 ++ routeRecFails b x recs.1 ++ keptFails b x (s.graphsKept b) ++
    (if recs.2 then [] else [⟨0xE, 6, ((recs.1.getLast?).map (·.1)).getD 0⟩]) ++
    protFails (imgKind b == 1) [] (protEntries b)

/-- One failure comes before another: the lower code, then the lower offset (R58). -/
def Rej.before (x y : Rej) : Bool := decide (x.reason < y.reason) || (x.reason == y.reason && decide (x.ofs < y.ofs))

/-- The failure that is reported. -/
def firstRej (l : List Rej) : Option Rej :=
  l.foldl (fun a x => match a with | none => some x | some y => if x.before y then some x else some y) none

/-! ### Scope rules of a tile image (R60) -/

/-- Every breach of the scope of a tile image, the sections that are not complete among them. -/
def State.scopeFails (s : State) (b : List Byte) : List Rej :=
  let t := imgTile b
  let x := s.imgStr b
  let ownerIn := fun (m : Structure) c => (kget (fun _ => none) m.siteOf c).bind (kget (fun _ => none) m.ownerOf)
  let free := fun (o : Option Nat) => match o with | none => true | some n => s.tileFree t n
  (((imgDir b).filter (secShort b)).map fun e => ⟨0xF, e.typ, e.ofs⟩) ++
  entryFails b 1 4 32 0xF (fun _ i => !free (ownerIn x (32 * t + i))) ++
    entryFails b 2 4 64 0xF (fun _ k =>
      let old := s.seqOfSite k
      let new := kget (fun _ => none) x.ownerOf k
      old != new && !(free old && free new && (List.range 128).all fun c => kget (fun _ => none) x.siteOf c != some k || c / 32 == t)) ++
    entryFails b 3 32 16 0xF (fun _ n => s.carveOf n != kget (fun _ => {}) x.carve n && !s.tileFree t n) ++
    ((imgRecs b).1.filter fun r =>
      match (recGraph r.2).owner with | some n => !(s.tileSet t).contains n | none => true).map fun r => ⟨0xF, 6, r.1⟩

/-! ### The checks together (R58) -/

/-- The first check of R58 that image `b` fails; `op` and `t` as in `headReject`. A lasting injection makes its
first check word wrong (R492). -/
def State.imgReject (s : State) (b : List Byte) (op t : Nat) (inj : Bool) : Option Rej :=
  (headReject b op t).orElse fun _ =>
  (if inj || crc32c (b.take 0x3C) != getLE b 0x3C 4 then some ⟨6, 0, 0x3C⟩ else none).orElse fun _ =>
  (dirReject b).orElse fun _ =>
  (crcReject b).orElse fun _ =>
  (signReject (s.rd Reg.STI_KEYS) s.keyOf b).orElse fun _ =>
  (if imgKind b = 2 ∧ getLE b 0x14 4 ≠ (s.rd Reg.STI_GEN).toNat then some ⟨0x10, 0, 0x14⟩ else none).orElse fun _ =>
  (firstRej (s.contentFails b)).orElse fun _ =>
  if imgKind b = 2 then firstRej (s.scopeFails b) else none

end Sys2Proof.Machine
end

