-- ==== Sys2Proof/Machine/Lnk.lean ====
section
/-! DEFINITION. Falin ports (R438–R459): bring-up and training, block lock, frames with their sequence,
replay and credit, transfers, and the sleep of a direction. -/

namespace Sys2Proof.Machine

open Sys2Proof

/-- Block number of port FPp's instance. -/
def blkLNK (p : Nat) : Nat := 0xE00 + p

/-- The bytes of a frame (R443): header, payload, zeros up to the last 4 B, CRC-32C of all before. -/
def Frame.bytes (f : Frame) : List Byte :=
  let head := leBytes 1 f.typ ++ leBytes 1 (f.vc + 4 * b2n f.poison) ++ leBytes 2 f.data.length ++ leBytes 2 f.seq ++
    leBytes 2 0 ++ leBytes 8 f.arg
  let all := head ++ f.data ++ List.replicate (f.size - 20 - f.data.length) 0
  all ++ leBytes 4 (crc32c all)

/-- The frame that received bytes hold, where their length is the one their LEN gives and their CRC is good (R443). -/
def Frame.read (b : List Byte) : Option Frame :=
  let n := getLE b 2 2
  let last := b.length - 4
  let x := getLE b 1 1
  if b.length = (16 + n + 4 + 31) / 32 * 32 ∧ crc32c (b.take last) = getLE b last 4 then
    some { typ := getLE b 0 1, vc := x % 4, seq := getLE b 4 2, arg := getLE b 8 8, poison := x.testBit 2,
           data := (b.drop 16).take n }
  else none

/-- One lane's block of a row: its payload leaves scrambled (R438). -/
def State.laneBlock (s : State) (p l : Nat) (payload : List Byte) : State × Nat :=
  let u := s.fp p
  let r := scramble false (kget (fun _ => 0) u.txScr l) (leNat payload)
  (s.setFp p { u with txScr := kset (fun _ => 0) u.txScr l r.1 }, r.2)

/-- A row of four blocks goes out on FPp (R442). -/
def State.sendRow (s : State) (p header : Nat) (block : Nat → List Byte) : State :=
  let r := (List.range 4).foldl (fun (x : State × List Nat) l =>
    let y := x.1.laneBlock p l (block l)
    (y.1, x.2 ++ [y.2])) (s, [])
  r.1.send (.row p header r.2)

/-- A frame goes out on FPp in rows of data blocks: byte k of a row in lane k div 8 (R443). -/
def State.putFrame (s : State) (p : Nat) (f : Frame) : State :=
  forEach (List.range f.rows) (fun k s => s.sendRow p 1 fun l => (f.bytes.drop (32 * k + 8 * l)).take 8) s

/-- A row of control blocks: ALIGN with its lane numbers and a row count, or SLEEP (R440). -/
def State.sendControl (s : State) (p typ count : Nat) : State :=
  s.sendRow p 2 fun l =>
    if typ = 0x4B then leBytes 1 typ ++ leBytes 1 l ++ leBytes 4 count ++ leBytes 2 0 else leBytes 8 typ

/-- A VC0 frame leaves FPp; a direction that sleeps wakes for it, and the frame waits until the direction carries frames
again (R456); one of its type that waits already gives way, since its values are cumulative (R444). -/
def State.sendVc0 (s : State) (p typ arg : Nat) (data : List Byte := []) : State :=
  let f : Frame := { typ := typ, arg := arg, data := data }
  let s := s.txWake p 4
  if s.unit 5 p ≤ 1 then s.putFrame p f
  else s.setFp p { s.fp p with vc0 := ((s.fp p).vc0.filter fun x => x.typ != typ) ++ [f] }

/-! ### Training (R447, R454) -/

/-- FPp begins to train, at the rate that LNK_CTL names now (R459): its replay buffer and sequence numbers stay
(R447). What its scramblers hold then is free (log entry 112). -/
def State.trainPort (s : State) (p : Nat) : State :=
  let s := (s.wrF (Reg.LNK_STAT p) 31 29 1).wrF (Reg.LNK_STAT p) 26 22 0
  let s := (s.countF (Reg.LNK_LASTING p) 31 16 1).setUnit 5 p 0
  let lanes := fun (k : Nat) => (List.range 4).foldl (fun m l =>
    kset (fun _ => 0) m l (Config.freeValue (s.free + l) / 2 ^ (58 * k) % 2 ^ 58)) []
  { s.setFp p { s.fp p with trainFrom := s.mt, rate := s.rdF (Reg.LNK_CTL p) 0 0, mismatch := false, hdrs := [], discard := false,
                            nakSeq := none, lasting := false, again := [], vc0 := [], eyeFrom := [], aligned := false,
                            order := [], skew := [], rows := 0, rowFrom := 75 * s.mt, txScr := lanes 0,
                            rxScr := lanes 1 } with free := s.free + 4 }

/-- A transfer of FPp ends with a code (R453). -/
def State.xferEnd (s : State) (p code : Nat) : State :=
  let x := s.rd (Reg.LNK_XSTAT p)
  let s := s.wrN (Reg.LNK_XSTAT p) (2 ^ 30 + fld x 29 28 * 2 ^ 28 + code)
  (s.setFp p { s.fp p with xfer := none }).irq (Reg.LNK_ISTAT p) 16

/-- FPp goes DOWN: items not acknowledged are lost, a transfer ends with LINK_DOWN, and both ends begin
with SEQ 0 again (R447, R454). -/
def State.goDown (s : State) (p : Nat) : State :=
  let u := s.fp p
  let items := (u.replay ++ u.txq).filter fun f => f.typ == 1
  let s := items.foldl (fun s f => s.txLose p f.lflow 2) s
  let s := if bit (s.rd (Reg.LNK_XSTAT p)) 31 then s.xferEnd p 2 else s
  let s := ((s.wrF (Reg.LNK_STAT p) 31 29 0).wrF (Reg.LNK_STAT p) 26 22 0).setUnit 5 p 0
  (s.setFp p { eyeLow := u.eyeLow, nakAt := u.nakAt, peerDrop := u.peerDrop, pos := u.pos }).irq (Reg.LNK_ISTAT p) 2

/-- Port FPp is off: DOWN. -/
def State.portDown (s : State) (p : Nat) : State := if s.lnkState p = 0 then s else s.goDown p

/-- FPp is trained from the start (R454); while GRAVE is held every port is DOWN (R485). -/
def State.portUp (s : State) (p : Nat) : State :=
  if s.graveHeld then s else (s.trainPort p).setFp p { (s.trainPort p).fp p with tries := 0 }

/-- The peer that FPp's LANE entry expects (R52). -/
def State.peerOf (s : State) (p : Nat) : Option Nat := kget (fun _ => none) s.str.lane p

/-- UP: trains the port; refused with a NOTE fault where its LANE entry is off (R454). -/
def doUp (dom p : Nat) (s : State) : State :=
  s.hostWrite dom (Reg.LNK_CMD p) fun s =>
    if (s.peerOf p).isNone then s.noteReg dom (Reg.LNK_CMD p) else s.portUp p
/-- Meaning of UP. -/
def execUp (dom : Fin 16) (p : Fin 4) (s : State) : Host.Outcome State Fault Refusal := .next (doUp dom.val p.val s)

/-- DOWN takes a port down. -/
def doDown (dom p : Nat) (s : State) : State := s.hostWrite dom (Reg.LNK_CMD p) fun s => s.portDown p
/-- Meaning of DOWN. -/
def execDown (dom : Fin 16) (p : Fin 4) (s : State) : Host.Outcome State Fault Refusal := .next (doDown dom.val p.val s)

/-- LNK_TRAIN_DONE: lock on all four lanes and lane alignment; HELLO goes out (R444, R454). -/
def doLnkTrainDone (p : Nat) (s : State) : State :=
  s.whenDue (s.lnkState p == 1 && s.rdF (Reg.LNK_STAT p) 25 22 == 15 && (s.fp p).aligned) fun s =>
    let s := s.wrF (Reg.LNK_STAT p) 31 29 2
    let hello := leBytes 2 (s.rdF Reg.GLB_MODULE 15 0) ++ leBytes 2 0xB1 ++ leBytes 12 (s.fp p).rate
    s.sendVc0 p 6 0 hello
/-- Meaning of LNK_TRAIN_DONE. -/
def execLnkTrainDone (p : Fin 4) (s : State) : Host.Outcome State Fault Refusal := .next (doLnkTrainDone p.val s)

/-- The sender replays from its oldest frame, if it holds one (R446, R447). -/
def State.replayAll (s : State) (p : Nat) : State :=
  let u := s.fp p
  let s := s.setFp p { u with again := u.replay, ackFrom := s.mt }
  if u.replay.isEmpty then s else s.count (Reg.LNK_REPLAY p) 1

/-- A frame of type `typ` arrives on FPp, with a good CRC, while `on` holds. -/
def State.onFrame (s : State) (on : Bool) (typ : Nat) (b : List Byte) (k : Frame → State → State) : State :=
  match Frame.read b with
  | some f => s.whenDue (on && f.typ == typ) (k f)
  | none => s

/-- HELLO: the peer's module number brings the port UP where it is the one expected; otherwise the port
stays in HELLO (R52, R454). -/
def doHello (p : Nat) (b : List Byte) (s : State) : State :=
  s.onFrame (s.lnkState p == 2) 6 b fun f s =>
    let mod := getLE f.data 0 2
    let s := s.wrF (Reg.LNK_STAT p) 15 0 mod
    if s.peerOf p = some mod then
      let s := (s.wrF (Reg.LNK_STAT p) 31 29 3).irq (Reg.LNK_ISTAT p) 1
      (s.setFp p { s.fp p with tries := 0, mismatch := false }).replayAll p
    else
      ((s.setFp p { s.fp p with mismatch := true }).irq (Reg.LNK_ISTAT p) 4).note (blkLNK p) 0 mod
/-- Meaning of HELLO. -/
def execHello (p : Fin 4) (frame : List Byte) (s : State) : Host.Outcome State Fault Refusal :=
  .next (doHello p.val frame s)

/-- LNK_TRAIN_TIMEOUT: training has not reached UP within 10 ms; it is tried again, and after the third
failure the port goes DOWN with a NOTE fault (R447). -/
def doLnkTrainTimeout (p : Nat) (s : State) : State :=
  let u := s.fp p
  s.whenDue ((s.lnkState p == 1 || s.lnkState p == 2) && !u.mismatch && decide (u.trainFrom + 40000000 ≤ s.mt)) fun s =>
    if 3 ≤ u.tries + 1 then (s.goDown p).note (blkLNK p)
    else (s.trainPort p).setFp p { (s.trainPort p).fp p with tries := u.tries + 1 }
/-- Meaning of LNK_TRAIN_TIMEOUT. -/
def execLnkTrainTimeout (p : Fin 4) (s : State) : Host.Outcome State Fault Refusal :=
  .next (doLnkTrainTimeout p.val s)

/-! ### Blocks and lanes (R439–R442) -/

/-- A sync header at the tested bit position of lane `l` of FPp (R441). -/
def State.header (s : State) (p l : Nat) (valid : Bool) : State :=
  let s := if valid then s else s.countF (Reg.LNK_L_HDRERR p l) 15 0 1
  let u := s.fp p
  let h := kget (fun _ => []) u.hdrs l
  let put := fun (s : State) (h : List Bool) => s.setFp p { s.fp p with hdrs := kset (fun _ => []) (s.fp p).hdrs l h }
  if bit (s.rd (Reg.LNK_STAT p)) (22 + l) then
    let h := (valid :: h).take 64
    if 16 ≤ (h.filter fun b => !b).length then
      put ((s.countF (Reg.LNK_L_HDRERR p l) 31 16 1).wrF (Reg.LNK_STAT p) (22 + l) (22 + l) 0) []
    else put s h
  else if !valid then
    let u := s.fp p
    put (s.setFp p { u with pos := kset (fun _ => 0) u.pos l ((kget (fun _ => 0) u.pos l + 1) % 66) }) []
  else
    let h := true :: h
    if 64 ≤ h.length then
      let e := s.rdF (Reg.LNK_L_EYE p l) 7 0
      put ((s.wrF (Reg.LNK_STAT p) (22 + l) (22 + l) 1).wrF (Reg.LNK_L_EYE p l) 15 8 e) []
    else put s h

/-- A block with this sync header and descrambled payload is valid: a data block, or a control block of a type of R440. -/
def validBlock (header payload : Nat) : Bool :=
  header == 1 || header == 2 && (payload % 256 == 0x1E || payload % 256 == 0x4B || payload % 256 == 0x2D)

/-- The receiver of FPp is powered, and the port is not DOWN. -/
def State.lanesOn (s : State) (p : Nat) : Bool := decide (1 ≤ s.lnkState p) && !bit (s.rd (Reg.LNK_STAT p)) 26

/-- A block at the tested bit position of lane `l`: its payload is descrambled, and its header counts (R438, R440, R441). -/
def State.blockIn (s : State) (p l header payload : Nat) : State :=
  let u := s.fp p
  let r := scramble true (kget (fun _ => 0) u.rxScr l) payload
  (s.setFp p { u with rxScr := kset (fun _ => 0) u.rxScr l r.1 }).header p l (validBlock header r.2)

/-- LANE_BLOCK_RECEIVED. -/
def doLaneBlockReceived (p l header payload : Nat) (s : State) : State :=
  s.whenDue (s.lanesOn p) fun s => s.blockIn p l header payload
/-- Meaning of LANE_BLOCK_RECEIVED. -/
def execLaneBlockReceived (p l : Fin 4) (block : LaneBlock) (s : State) : Host.Outcome State Fault Refusal :=
  .next (doLaneBlockReceived p.val l.val block.header.toNat block.payload.toNat s)

/-- The arrival of the first of a row's blocks. -/
def firstArrival (blocks : List AlignBlock) : Nat := blocks.foldl (fun m b => min m b.arrival) (blocks.headD ⟨0, 0, 0⟩).arrival

/-- Lane `l` is misplaced in a row of ALIGN blocks (R442): it carries no lane number or that of a lane before it, another
row count than lane 0, or comes more than 8 blocks after the first (log entry 114). -/
def misplaced (blocks : List AlignBlock) (l : Nat) : Bool :=
  let b := blocks.getD l ⟨0xFF, 0, 0⟩
  decide (4 ≤ b.lane.toNat) || (blocks.take l).any (fun x => x.lane == b.lane) ||
    b.rows != (blocks.headD ⟨0, 0, 0⟩).rows || decide (firstArrival blocks + 8 < b.arrival)

/-- A row of ALIGN blocks deskews the lanes of FPp and orders them by the lane numbers carried; one that does not align
counts as an invalid header on each misplaced lane (R442). -/
def State.alignRow (s : State) (p : Nat) (blocks : List AlignBlock) : State :=
  let s := forEach (List.range 4) (fun l s => s.header p l (!misplaced blocks l)) s
  if (List.range 4).any (misplaced blocks) then s
  else s.setFp p { s.fp p with aligned := true, order := blocks.map fun b => b.lane.toNat,
                               skew := blocks.map fun b => b.arrival - firstArrival blocks }

/-- ALIGN. -/
def doAlign (p : Nat) (blocks : List AlignBlock) (s : State) : State :=
  s.whenDue (s.lanesOn p) fun s => s.alignRow p blocks
/-- Meaning of ALIGN. -/
def execAlign (p : Fin 4) (blocks : List AlignBlock) (s : State) : Host.Outcome State Fault Refusal :=
  .next (doAlign p.val blocks s)

/-- The time of 16,384 rows in 1/75 tick: a block of 66 bits at the line rate of FPp (R438, R442). -/
def Port.alignEvery (u : Port) : Nat := 16384 * 704 * (1 + u.rate)

/-- LNK_ALIGN_SEND: every 16,384 rows a row of ALIGN blocks with the row count (R442). -/
def doLnkAlignSend (p : Nat) (s : State) : State :=
  let u := s.fp p
  s.whenDue (decide (1 ≤ s.lnkState p) && decide (s.unit 5 p ≤ 2) && decide (u.rowFrom + u.alignEvery ≤ 75 * s.mt)) fun s =>
    let n := (u.rows + 16384) % 2 ^ 32
    (s.setFp p { u with rows := n, rowFrom := u.rowFrom + u.alignEvery }).sendControl p 0x4B n
/-- Meaning of LNK_ALIGN_SEND. -/
def execLnkAlignSend (p : Fin 4) (s : State) : Host.Outcome State Fault Refusal := .next (doLnkAlignSend p.val s)

/-- LNK_EYE_UPDATE: lane `l` of instance `i` (0–3 a port; 4, 5 a time lane) reports its figure and its
equaliser (R439). -/
def doLnkEyeUpdate (i l eye eq : Nat) (s : State) : State :=
  s.whenDue true fun s =>
    let ra := if i < 4 then Reg.LNK_L_EYE i l else Reg.LNK_TL_EYE i
    let s := s.wrN (if i < 4 then Reg.LNK_L_EQ i l else Reg.LNK_TL_EQ i) eq
    let low := if s.rd ra = 0 then eye else min eye (s.rdF ra 15 8)
    let s := s.wrN ra (256 * low + eye)
    let u := s.fp i
    let warn := s.rdF Reg.LNK_EYE_CTL 7 0
    let was := kget (fun _ => false) u.eyeLow l
    let now := if warn < eye then false else was || decide (eye < warn)
    let from_ := kget (fun _ => 0) u.eyeFrom l
    let since := if i < 4 ∧ eye < s.rdF Reg.LNK_EYE_CTL 15 8 then (if from_ = 0 then s.mt + 1 else from_) else 0
    let s := s.setFp i { u with eyeLow := kset (fun _ => false) u.eyeLow l now,
                                eyeFrom := kset (fun _ => 0) u.eyeFrom l since }
    if now && !was then (s.irq (Reg.LNK_ISTAT i) 8).note (blkLNK i) 0 l else s
/-- Meaning of LNK_EYE_UPDATE. -/
def execLnkEyeUpdate (i : Fin 6) (l : Fin 4) (eye : BitVec 8) (eq : BitVec 30) (s : State) :
    Host.Outcome State Fault Refusal :=
  .next (doLnkEyeUpdate i.val l.val eye.toNat eq.toNat s)

/-- A lasting failure of FPp: counted, noted, and the port retrains (R447, R487). -/
def State.lastingFail (s : State) (p : Nat) (retried : Bool) : State :=
  let s := s.countF (Reg.LNK_LASTING p) 15 0 1
  let s := s.detect { src := blkLNK p, chk := if retried then 3 else 7, retried := retried, rkind := 5, rid := p }
  s.portUp p

/-- LNK_EYE_RETRAIN: a data lane's figure has been below RETRAIN for 1 ms (R439, R447). -/
def doLnkEyeRetrain (p : Nat) (s : State) : State :=
  let due := (List.range 4).any fun l =>
    let f := kget (fun _ => 0) (s.fp p).eyeFrom l
    f != 0 && decide (f + 4000000 ≤ s.mt + 1)
  s.whenDue (s.lnkState p == 3 && due) fun s => s.lastingFail p false
/-- Meaning of LNK_EYE_RETRAIN. -/
def execLnkEyeRetrain (p : Fin 4) (s : State) : Host.Outcome State Fault Refusal := .next (doLnkEyeRetrain p.val s)

/-! ### Sending (R443–R449, R453) -/

/-- Rows that FPp may still send under a grant (R449). -/
def creditLeft (grant sent : Nat) : Nat := (grant + 2 ^ 32 - sent % 2 ^ 32) % 2 ^ 32

/-- The replay buffer of FPp takes one more frame (R445). -/
def Port.replayFits (u : Port) (f : Frame) : Bool :=
  decide (u.replay.length < 8192) && decide ((u.replay.map Frame.size).sum + f.size ≤ 262144)

/-- A new sequenced frame goes out and is held until it is acknowledged (R445, R449). -/
def State.sendNew (s : State) (p : Nat) (f : Frame) : State :=
  let u := s.fp p
  let f := { f with seq := u.txSeq }
  let u := { u with txSeq := (u.txSeq + 1) % 65536, replay := u.replay ++ [f],
                    ackFrom := if u.replay.isEmpty then s.mt else u.ackFrom }
  let u := if f.vc = 1 then { u with sent1 := (u.sent1 + f.rows) % 2 ^ 32 } else { u with sent2 := (u.sent2 + f.rows) % 2 ^ 32 }
  (s.setFp p u).putFrame p f

/-- The next WRITE frame of a transfer (R453): the state after its DRAM read, and the frame. -/
def State.xferFrame (s : State) (p src dst n : Nat) : State × Frame :=
  let q : DramReq := { cls := 3, id := p, rkind := 5 }
  let (s, lost) := s.dramAsk q 0 src n
  let s := if lost then s.wrF (Reg.LNK_XSTAT p) 28 28 1 else s
  let (s, data) := s.dramGive src n
  (s, { typ := 2, vc := 2, arg := dst, poison := lost, data := data })

/-- A WRITE frame of the copy in progress is sent, where its credit and the replay buffer take it, and DRAM gives its
data. -/
def State.xferSend (s : State) (p : Nat) : State :=
  let u := s.fp p
  match u.xfer with
  | some (src, dst, left) =>
    let n := min 4096 left
    let sz : Frame := { data := List.replicate n 0 }
    if 0 < n ∧ sz.rows ≤ creditLeft u.grant2 u.sent2 ∧ u.replayFits sz ∧ !s.dramHeld src n then
      let (s, f) := s.xferFrame p src dst n
      (s.setFp p { s.fp p with xfer := some (src + n, dst + n, left - n) }).sendNew p f
    else s
  | none => s

/-- Queued and replayed frames, and transfers, of a port that is UP and whose direction is not asleep: VC0 frames that
have waited for its wake, then replays, then copies, then the transfer (R446, R449, R453, R456). -/
def State.frameSend (s : State) (p : Nat) : State :=
  let u := s.fp p
  match u.vc0, u.again, u.txq with
  | f :: fs, _, _ => (s.setFp p { u with vc0 := fs }).putFrame p f
  | [], f :: fs, _ => (s.setFp p { u with again := fs }).putFrame p f
  | [], [], f :: fs =>
      if f.rows ≤ creditLeft u.grant1 u.sent1 ∧ u.replayFits f then (s.setFp p { u with txq := fs }).sendNew p f
      else s.xferSend p
  | [], [], [] => s.xferSend p

/-- LNK_FRAME_SEND. -/
def doLnkFrameSend (p : Nat) (s : State) : State :=
  s.whenDue (s.lnkState p == 3 && decide (s.unit 5 p ≤ 1)) fun s => s.frameSend p
/-- Meaning of LNK_FRAME_SEND. -/
def execLnkFrameSend (p : Fin 4) (s : State) : Host.Outcome State Fault Refusal := .next (doLnkFrameSend p.val s)

/-! ### Receiving (R445, R446, R449–R452) -/

/-- An ACK: the last SEQ received in order and the WRITE frames dropped here (R444). -/
def State.sendAck (s : State) (p : Nat) : State :=
  let u := s.fp p
  (s.setFp p { u with ackDue := 0 }).sendVc0 p 3 ((u.rxSeq + 65535) % 65536 + 65536 * (s.rd (Reg.LNK_RDROP p)).toNat)

/-- A frame failed its CRC or came out of sequence: NAK, at most one per µs, and frames are discarded
until the expected one arrives (R446). -/
def State.badFrame (s : State) (p : Nat) : State :=
  let u := s.fp p
  let due := match u.nakAt with | none => true | some t => decide (t + 4000 ≤ s.mt)
  if due then (s.setFp p { u with discard := true, nakAt := some s.mt }).sendVc0 p 4 u.rxSeq
  else s.setFp p { u with discard := true }

/-- Port FPp can receive a frame. -/
def State.rxOn (s : State) (p : Nat) : Bool := s.lnkState p == 3 && !bit (s.rd (Reg.LNK_STAT p)) 26

/-- A sequenced frame with good CRC arrives: `k` takes it where its SEQ is the one expected (R445), unless an
injection makes its check fail (R492). A frame accepted after a replay is logged as CORR (R446). -/
def State.sequenced (s : State) (p seq : Nat) (k : State → State) : State :=
  let u := s.fp p
  if seq ≠ u.rxSeq then s.badFrame p
  else if s.injArmed (blkLNK p) 3 then (s.injOnce.setFp p { u with injected := true }).badFrame p
  else
    let s := if u.discard then
        s.detect { src := blkLNK p, cls := 1, chk := 3, rkind := 5, rid := p, retried := true, inj := u.injected }
      else s
    let s := s.setFp p { u with injected := false, rxSeq := (u.rxSeq + 1) % 65536, discard := false, ackDue := u.ackDue + 1 }
    let s := k s
    if 32 ≤ (s.fp p).ackDue then s.sendAck p else s

/-- ITEM: accepted in sequence and admitted to its flow as a KIND 4 item; its rows are granted back (R449,
R451). -/
def doItem (p : Nat) (b : List Byte) (s : State) : State :=
  s.onFrame (s.rxOn p) 1 b fun f s =>
    s.sequenced p f.seq fun s =>
      let s := (s.takeIn (f.arg % 16384) 4 none f.data).1
      s.setFp p { s.fp p with rgrant1 := ((s.fp p).rgrant1 + f.rows) % 2 ^ 32 }
/-- Meaning of ITEM. -/
def execItem (p : Fin 4) (head arg : BitVec 64) (rest : List Byte) (s : State) : Host.Outcome State Fault Refusal :=
  .next (doItem p.val (rxFrame head arg rest) s)

/-- A received WRITE of `n` bytes at window offset `arg` is dropped (R452). -/
def State.writeDropped (s : State) (p arg n : Nat) : Bool :=
  let base := s.rdF (Reg.LNK_RWIN_BASE p) 21 0
  let size := s.rdF (Reg.LNK_RWIN_SIZE p) 22 0
  decide (size = 0) || decide (2 ^ 20 * size < arg + n) || decide (2 ^ 20 * base < segTop) ||
    decide (s.dramSize < 2 ^ 20 * (base + size))

/-- The data of a WRITE frame land in DRAM, with the poison pattern where the frame is marked (R452). -/
def State.laneWrite (s : State) (p a : Nat) (poison : Bool) (data : List Byte) : State :=
  (s.keepOld a data.length).dramPut { cls := 3, id := p, typ := 1, rkind := 5 } 0 a data poison

/-- WRITE: lands in the receive window, or is dropped and counted; its rows are granted back (R449, R452). -/
def doWrite (p : Nat) (b : List Byte) (s : State) : State :=
  s.onFrame (s.rxOn p) 2 b fun f s =>
    s.sequenced p f.seq fun s =>
      let s :=
        if s.writeDropped p f.arg f.data.length then s.count (Reg.LNK_RDROP p) 1
        else s.laneWrite p (2 ^ 20 * s.rdF (Reg.LNK_RWIN_BASE p) 21 0 + f.arg) f.poison f.data
      s.setFp p { s.fp p with rgrant2 := ((s.fp p).rgrant2 + f.rows) % 2 ^ 32 }
/-- Meaning of WRITE. -/
def execWrite (p : Fin 4) (head arg : BitVec 64) (data tail : List Byte) (s : State) :
    Host.Outcome State Fault Refusal :=
  .next (doWrite p.val (rxFrame head arg (data ++ tail)) s)

/-- A received frame fails its CRC, or is a sequenced one out of sequence (R446). -/
def State.frameFails (s : State) (p : Nat) (b : List Byte) : Bool :=
  match Frame.read b with
  | none => true
  | some f => (f.typ == 1 || f.typ == 2) && f.seq != (s.fp p).rxSeq

/-- FRAME_BAD. -/
def doFrameBad (p : Nat) (b : List Byte) (s : State) : State := s.whenDue (s.rxOn p && s.frameFails p b) fun s => s.badFrame p
/-- Meaning of FRAME_BAD. -/
def execFrameBad (rx : PortFrame) (s : State) : Host.Outcome State Fault Refusal :=
  .next (doFrameBad rx.port.val rx.frame s)

/-- Frames left when those up to SEQ `n` are acknowledged; none are where `n` names no frame held. -/
def ackFrames (n : Nat) (l : List Frame) : List Frame :=
  if l.any fun f => f.seq == n then (l.dropWhile fun f => f.seq != n).drop 1 else l

/-- The transfer of FPp is DONE once every frame of it is acknowledged (R453). -/
def State.xferDone (s : State) (p : Nat) : State :=
  let u := s.fp p
  match u.xfer with
  | some (_, _, 0) =>
    if u.replay.any fun f => f.typ == 2 then s
    else
      let s := if u.peerDrop ≠ u.xferDrop0 then s.wrF (Reg.LNK_XSTAT p) 29 29 1 else s
      s.xferEnd p 0
  | _ => s

/-- ACK: frames up to the SEQ named are acknowledged, and the peer's drops are told (R444, R445, R453). -/
def doAck (p : Nat) (b : List Byte) (s : State) : State :=
  s.onFrame (s.rxOn p) 3 b fun f s =>
    let u := s.fp p
    let left := ackFrames (f.arg % 65536) u.replay
    let u := { u with replay := left, again := u.again.filter fun f => left.contains f, ackFrom := s.mt,
                      peerDrop := f.arg / 65536 % 2 ^ 32,
                      nakSeq := u.nakSeq.filter fun n => left.any fun f => f.seq == n }
    (s.setFp p u).xferDone p
/-- Meaning of ACK. -/
def execAck (p : Fin 4) (head : BitVec 64) (rest : List Byte) (s : State) : Host.Outcome State Fault Refusal :=
  .next (doAck p.val (rxBytes head rest) s)

/-- The frame with sequence number `n` fails: it is lasting where it has failed before and has been sent again since, and
is not acknowledged yet (R447). -/
def Port.fails (u : Port) (n : Nat) : Port :=
  let second := u.nakSeq == some n && !(u.again.any fun f => f.seq == n)
  { u with nakSeq := some n, lasting := u.lasting || second }

/-- NAK: every frame held from the SEQ named is replayed in order; the same frame named again after its
replay is a lasting failure (R446, R447). -/
def doNak (p : Nat) (b : List Byte) (s : State) : State :=
  s.onFrame (s.rxOn p) 4 b fun f s =>
    let u := s.fp p
    let n := f.arg % 65536
    if u.replay.any fun f => f.seq == n then
      (s.setFp p { u.fails n with again := u.replay.dropWhile fun f => f.seq != n }).count (Reg.LNK_REPLAY p) 1
    else s
/-- Meaning of NAK. -/
def execNak (p : Fin 4) (frame : List Byte) (s : State) : Host.Outcome State Fault Refusal := .next (doNak p.val frame s)

/-- CREDIT: the cumulative row counts granted (R444, R449). -/
def doCredit (p : Nat) (b : List Byte) (s : State) : State :=
  s.onFrame (s.rxOn p) 5 b fun f s => s.setFp p { s.fp p with grant1 := getLE f.data 0 4, grant2 := getLE f.data 4 4 }
/-- Meaning of CREDIT. -/
def execCredit (p : Fin 4) (head : BitVec 64) (rest : List Byte) (s : State) : Host.Outcome State Fault Refusal :=
  .next (doCredit p.val (rxBytes head rest) s)

/-- LNK_ACK_TIMER: 1 µs has passed with frames not yet acknowledged (R445). -/
def doLnkAckTimer (p : Nat) (s : State) : State :=
  s.whenDue (s.lnkState p == 3 && decide (0 < (s.fp p).ackDue)) fun s => s.sendAck p
/-- Meaning of LNK_ACK_TIMER. -/
def execLnkAckTimer (p : Fin 4) (s : State) : Host.Outcome State Fault Refusal := .next (doLnkAckTimer p.val s)

/-- LNK_CREDIT_TIMER: 1 µs has passed with grants that changed (R449). -/
def doLnkCreditTimer (p : Nat) (s : State) : State :=
  let u := s.fp p
  s.whenDue (s.lnkState p == 3 && (u.rgrant1 != u.told1 || u.rgrant2 != u.told2)) fun s =>
    (s.setFp p { u with told1 := u.rgrant1, told2 := u.rgrant2 }).sendVc0 p 5 0
      (leBytes 4 u.rgrant1 ++ leBytes 4 u.rgrant2 ++ leBytes 8 0)
/-- Meaning of LNK_CREDIT_TIMER. -/
def execLnkCreditTimer (p : Fin 4) (s : State) : Host.Outcome State Fault Refusal := .next (doLnkCreditTimer p.val s)

/-- LNK_REPLAY_TIMEOUT: no ACK for 4 µs; the oldest frame has failed (R446, R447). -/
def doLnkReplayTimeout (p : Nat) (s : State) : State :=
  let u := s.fp p
  s.whenDue (s.lnkState p == 3 && !u.replay.isEmpty && decide (u.ackFrom + 16000 ≤ s.mt)) fun s =>
    (s.setFp p (u.fails (u.replay.headD {}).seq)).replayAll p
/-- Meaning of LNK_REPLAY_TIMEOUT. -/
def execLnkReplayTimeout (p : Fin 4) (s : State) : Host.Outcome State Fault Refusal :=
  .next (doLnkReplayTimeout p.val s)

/-- LNK_LASTING_FAILURE: a frame has failed again after its replay (R447). -/
def doLnkLastingFailure (p : Nat) (s : State) : State :=
  s.whenDue (s.lnkState p == 3 && (s.fp p).lasting) fun s => s.lastingFail p true
/-- Meaning of LNK_LASTING_FAILURE. -/
def execLnkLastingFailure (p : Fin 4) (s : State) : Host.Outcome State Fault Refusal :=
  .next (doLnkLastingFailure p.val s)

/-! ### Sleep (R455, R456) -/

/-- TX_SLEEP: AP1 of the entry, for a port that is UP; refused with a NOTE fault while the direction is
waking (R502). -/
def doTxSleep (dom p : Nat) (s : State) : State :=
  s.hostWrite dom (Reg.LNK_CMD p) fun s =>
    if s.lnkState p ≠ 3 ∨ s.unit 5 p = 4 then s.noteReg dom (Reg.LNK_CMD p)
    else if s.unit 5 p = 0 then s.enterUnit 5 p
    else s
/-- Meaning of TX_SLEEP. -/
def execTxSleep (dom : Fin 16) (p : Fin 4) (s : State) : Host.Outcome State Fault Refusal :=
  .next (doTxSleep dom.val p.val s)

/-- TX_WAKE; one that reaches an ACTIVE direction counts against an entry decided in its round (R501). -/
def doTxWake (dom p : Nat) (s : State) : State :=
  s.hostWrite dom (Reg.LNK_CMD p) fun s => if s.unit 5 p = 0 then s.sourceNow 5 p 3 else s.txWake p 3
/-- Meaning of TX_WAKE. -/
def execTxWake (dom : Fin 16) (p : Fin 4) (s : State) : Host.Outcome State Fault Refusal :=
  .next (doTxWake dom.val p.val s)

/-- The transmit direction has drained: nothing queued, nothing unacknowledged. -/
def Port.drained (u : Port) : Bool := u.vc0.isEmpty && u.txq.isEmpty && u.replay.isEmpty && u.again.isEmpty && u.xfer.isNone

/-- LNK_SLEEP_AP2: drained; the SLEEP row is sent. -/
def doLnkSleepAp2 (p : Nat) (s : State) : State :=
  s.whenDue (s.unit 5 p == 1 && (s.fp p).drained) fun s => (s.setUnit 5 p 2).sendControl p 0x2D 0
/-- Meaning of LNK_SLEEP_AP2. -/
def execLnkSleepAp2 (p : Fin 4) (s : State) : Host.Outcome State Fault Refusal := .next (doLnkSleepAp2 p.val s)

/-- LNK_SLEEP_AP2_TIMEOUT: AP2 not reached within 100 µs; entry is abandoned with a NOTE fault. -/
def doLnkSleepAp2Timeout (p : Nat) (s : State) : State :=
  let t := kget (fun _ => 0) s.pwr.entryAt (unitKey 5 p)
  s.whenDue (s.unit 5 p == 1 && decide (t + 400000 ≤ s.mt)) fun s => (s.setUnit 5 p 0).note (blkLNK p)
/-- Meaning of LNK_SLEEP_AP2_TIMEOUT. -/
def execLnkSleepAp2Timeout (p : Fin 4) (s : State) : Host.Outcome State Fault Refusal :=
  .next (doLnkSleepAp2Timeout p.val s)

/-- SLEEP: the peer announces the sleep of its direction, and the receiver powers down. -/
def doSleep (p : Nat) (s : State) : State := s.whenDue (s.lnkState p == 3) fun s => s.wrF (Reg.LNK_STAT p) 26 26 1
/-- Meaning of SLEEP. -/
def execSleep (p : Fin 4) (s : State) : Host.Outcome State Fault Refusal := .next (doSleep p.val s)

/-- LNK_WAKE_BURST: the receiver restores its lock. -/
def doLnkWakeBurst (p : Nat) (s : State) : State :=
  s.whenDue (bit (s.rd (Reg.LNK_STAT p)) 26) fun s => s.wrF (Reg.LNK_STAT p) 26 26 0
/-- Meaning of LNK_WAKE_BURST. -/
def execLnkWakeBurst (p : Fin 4) (s : State) : Host.Outcome State Fault Refusal := .next (doLnkWakeBurst p.val s)

/-! ### Transfers (R453) -/

/-- XFER: discarded with a NOTE fault while BUSY; BAD at once where the port is not UP or the length is no
multiple of 64. -/
def doXfer (dom p : Nat) (s : State) : State :=
  s.hostWrite dom (Reg.LNK_CMD p) fun s =>
    let n := (s.rd (Reg.LNK_XLEN p)).toNat
    if bit (s.rd (Reg.LNK_XSTAT p)) 31 then s.noteReg dom (Reg.LNK_CMD p)
    else if s.lnkState p ≠ 3 ∨ n % 64 ≠ 0 then (s.wrN (Reg.LNK_XSTAT p) 0).xferEnd p 3
    else
      let src := s.rdWide (Reg.LNK_XSRC_LO p) 2
      let dst := s.rdWide (Reg.LNK_XDST_LO p) 2
      let s := s.wrN (Reg.LNK_XSTAT p) (2 ^ 31)
      let s := s.setFp p { s.fp p with xfer := some (src, dst, n), xferDrop0 := (s.fp p).peerDrop }
      if n = 0 then s.xferEnd p 0
      else if bit (s.rd (Reg.LNK_CTL p)) 1 then s.txWake p 1
      else s
/-- Meaning of XFER. -/
def execXfer (dom : Fin 16) (p : Fin 4) (s : State) : Host.Outcome State Fault Refusal :=
  .next (doXfer dom.val p.val s)

/-- XABORT: no further frame of the transfer is sent, and it ends ABORTED. -/
def doXabort (dom p : Nat) (s : State) : State :=
  s.hostWrite dom (Reg.LNK_CMD p) fun s => if bit (s.rd (Reg.LNK_XSTAT p)) 31 then s.xferEnd p 1 else s
/-- Meaning of XABORT. -/
def execXabort (dom : Fin 16) (p : Fin 4) (s : State) : Host.Outcome State Fault Refusal :=
  .next (doXabort dom.val p.val s)

/-- LNK_CMD_INVALID: an OP outside 1–6 is discarded with a NOTE fault (R459). -/
def doLnkCmdInvalid (dom p : Nat) (v : Word) (s : State) : State :=
  s.hostWrite dom (Reg.LNK_CMD p) fun s =>
    if fld v 3 0 = 0 ∨ 7 ≤ fld v 3 0 then s.noteReg dom (Reg.LNK_CMD p) else s
/-- Meaning of LNK_CMD_INVALID. -/
def execLnkCmdInvalid (dom : Fin 16) (p : Fin 4) (v : Word) (s : State) : Host.Outcome State Fault Refusal :=
  .next (doLnkCmdInvalid dom.val p.val v s)

end Sys2Proof.Machine
end

