-- ==== Sys2Proof/Machine/Pel.lean ====
section
/-! DEFINITION. Commands and events of the pin electronics (R307–R324). -/

namespace Sys2Proof.Machine

open Sys2Proof

/-! ### Value writes (R308) -/

/-- The accepted range of the ST register at offset `o` of R324, for the mode that PEL_PMU_CTL holds: OFF
and MV allow the whole of both formats (log entry 44). -/
def pelRange (o mode : Nat) : Option (Int × Int) :=
  if o = 4 ∨ o = 8 ∨ o = 0xC ∨ o = 0x20 then some (-6000, 26000)
  else if o = 0x10 ∨ o = 0x14 ∨ o = 0x24 ∨ o = 0x28 then some (-8000, 28000)
  else if o = 0x18 ∨ o = 0x1C then some (0, 48000)
  else if o = 0x30 then some (if mode = 1 then (-6000, 26000) else (-32000, 32000))
  else if o = 0x34 ∨ o = 0x38 then some (if mode = 2 then (-8000, 28000) else (-32000, 32000))
  else none

/-- The value that a code of the register at offset `o` means: the load currents are unsigned (R307). -/
def pelCode (o : Nat) (v : Word) : Int := if o = 0x18 ∨ o = 0x1C then (fld v 15 0 : Nat) else code16 v

/-- A write to the register at offset `o` is accepted. The MODE that gives a range is the last one written, applied or
not (log entry 101). -/
def State.pelAccepts (s : State) (c o : Nat) (v : Word) : Bool :=
  if o = 0x2C then decide (fld v 6 4 ≤ 4)
  else
    match pelRange o (s.rdF (Reg.PEL_PMU_CTL c) 1 0) with
    | some (lo, hi) => decide (lo ≤ pelCode o v) && decide (pelCode o v ≤ hi)
    | none => true

/-- PEL_VALUE_WRITE: a write to the ST register at offset 0x0100 + 4·`r`: staged, or discarded as out of
range. -/
def doPelValueWrite (dom c r : Nat) (v : Word) (s : State) : State :=
  let a := Reg.PEL_DRV_CTL c + 4 * r
  s.hostWrite dom a fun s =>
    if s.pelAccepts c (4 * r) v then
      match regRow a with
      | some row => s.stageWrite a (v &&& word row.mask)
      | none => s
    else ((s.wrN (Reg.PEL_ERR c) (2 ^ 31 + a % 256 * 256 + 1)).irq (Reg.PEL_ISTAT c) 1).noteReg dom a 1
/-- Meaning of PEL_VALUE_WRITE. -/
def execPelValueWrite (dom : Fin 16) (ch : Fin 128) (r : Fin 15) (v : Word) (s : State) :
    Host.Outcome State Fault Refusal := .next (doPelValueWrite dom.val ch.val r.val v s)

/-! ### Commands (R313, R320, R324) -/

/-- CLEAR_TRIP: refused with TRIP_RUN unless the owner is STOPPED or the channel is in no site; the driver
takes its present drive state. -/
def doClearTrip (dom c : Nat) (s : State) : State :=
  s.hostWrite dom (Reg.PEL_CMD c) fun s =>
    if s.chStopped c then
      if s.tripped c then (s.wrF (Reg.PEL_STAT c) 31 31 0).landSet c s.now1024 (s.ch c).drv else s
    else
      ((s.wrN (Reg.PEL_ERR c) (2 ^ 31 + Reg.PEL_CMD c % 256 * 256 + 7)).irq (Reg.PEL_ISTAT c) 1).noteReg dom
        (Reg.PEL_CMD c) 7
/-- Meaning of CLEAR_TRIP. -/
def execClearTrip (dom : Fin 16) (ch : Fin 128) (s : State) : Host.Outcome State Fault Refusal :=
  .next (doClearTrip dom.val ch.val s)

/-- Conditions on which REFL starts (R320, R324). -/
def State.reflOk (s : State) (c : Nat) : Bool :=
  let n := s.rdF (Reg.PEL_REFL_CTL c) 12 0
  s.chStopped c && !ownsLand (s.pmuMode c) && s.tmState c == 0 && !s.tripped c && decide (16 ≤ n) &&
    decide (n ≤ 4096) && !(s.ch c).refl

/-- What a measurement drives (R321): COUNT launch cycles of 640 ns, channel n of a tile 20 × n ns into each, from 0 V to
1.0 V, with thresholds of 0.25 V and 0.75 V. The cycles of all channels begin together, at multiples of 640 ns of Module
Time, so that no two launch within 20 ns (log entry 102). -/
def State.reflDrives (s : State) (c : Nat) : Output :=
  .reflDrive c ((s.mt + 2559) / 2560 * 2560 + 80 * (c % 32)) 2560 (s.rdF (Reg.PEL_REFL_CTL c) 12 0) 0 4000 1000 3000

/-- REFL: the measurement starts, with the channel's own driver and load off the land, or ends at once with STATUS = REFUSED (R320, R322). -/
def doRefl (dom c : Nat) (s : State) : State :=
  s.hostWrite dom (Reg.PEL_CMD c) fun s =>
    if s.reflOk c then
      let s := (s.wakeNow 1 c 1).landOff c s.now1024
      ((s.setCh c { s.ch c with refl := true }).wrF (Reg.PEL_STAT c) 28 28 1).send (s.reflDrives c)
    else (s.wrN (Reg.PEL_REFL_RES c) (2 ^ 31 + 2 ^ 28 * 4)).irq (Reg.PEL_ISTAT c) 4
/-- Meaning of REFL. -/
def execRefl (dom : Fin 16) (ch : Fin 128) (s : State) : Host.Outcome State Fault Refusal :=
  .next (doRefl dom.val ch.val s)

/-- PEL_CMD_INVALID: an OP other than 1 and 2 is discarded with a NOTE fault. -/
def doPelCmdInvalid (dom c : Nat) (v : Word) (s : State) : State :=
  s.hostWrite dom (Reg.PEL_CMD c) fun s =>
    if fld v 1 0 = 1 ∨ fld v 1 0 = 2 then s else s.noteReg dom (Reg.PEL_CMD c)
/-- Meaning of PEL_CMD_INVALID. -/
def execPelCmdInvalid (dom : Fin 16) (ch : Fin 128) (v : Word) (s : State) : Host.Outcome State Fault Refusal :=
  .next (doPelCmdInvalid dom.val ch.val v s)

/-! ### Reflection results (R321, R322) -/

/-- A measurement ends with a STATUS and a delay; the channel's applied setting is restored (R321, R322). -/
def State.reflEnd (s : State) (c status tau : Nat) : State :=
  let s := ((s.workNow 1 c).setCh c { s.ch c with refl := false }).wrF (Reg.PEL_STAT c) 28 28 0
  let s := s.landSet c s.now1024 (s.ch c).drv
  (s.wrN (Reg.PEL_REFL_RES c) (2 ^ 31 + 2 ^ 28 * status + tau)).irq (Reg.PEL_ISTAT c) 4

/-- A measurement that runs is ended by a structure load (R320). -/
def State.reflAbort (s : State) (c : Nat) : State := if (s.ch c).refl then s.reflEnd c 5 0 else s

/-- A launch has its return within 40 ns: the interval in 2^-16 tick. -/
def reflX : Option (Nat × Option Nat) → Option Nat
  | some (l, some r) => if r ≤ l + 160 * 65536 then some (r - l) else none
  | _ => none

/-- σ(x) is more than 4 ps: 1,048.576 units of 2^-16 tick. -/
def reflSpread (n sum sq : Nat) : Bool := decide (n * n * 2 ^ 40 < 10 ^ 6 * (n * sq - sum * sum))

/-- τ in 1/1024 tick, ties upward (R321). -/
def reflTau (n sum ofs : Nat) : Int := (2 * ((sum : Int) - n * ofs) + 128 * n) / (256 * n)

/-- PEL_REFL_DONE: what the TDC stamped at each launch: the launch crossing and the return. -/
def doPelReflDone (c : Nat) (obs : List (Option (Nat × Option Nat))) (s : State) : State :=
  s.whenDue ((s.ch c).refl && obs.length == s.rdF (Reg.PEL_REFL_CTL c) 12 0) fun s =>
    if obs.any Option.isNone then s.reflEnd c 2 0
    else
      let xs := obs.filterMap reflX
      if xs.length < obs.length then s.reflEnd c 1 0
      else
        let n := xs.length
        let sum := xs.sum
        let sq := (xs.map fun x => x * x).sum
        let raw := sum / n + (if sum % n = 0 then 0 else s.freeNow % 2)
        let s := (s.wrN (Reg.PEL_REFL_RAW c) raw).drawn
        let tau := reflTau n sum (s.rd (Reg.PEL_REFL_OFS c)).toNat
        if reflSpread n sum sq || decide (tau < 0) || decide (65535 < tau) then s.reflEnd c 3 0
        else s.reflEnd c 0 tau.toNat
/-- Meaning of PEL_REFL_DONE. -/
def execPelReflDone (ch : Fin 128) (obs : List (Option (Nat × Option Nat))) (s : State) :
    Host.Outcome State Fault Refusal := .next (doPelReflDone ch.val obs s)

/-! ### Trips, clamps and temperature (R313, R316, R319) -/

/-- PEL_TRIP: the driver's output current has exceeded 120 mA for 200 ns. -/
def doPelTrip (c : Nat) (s : State) : State := s.whenDue (!s.tripped c) fun s => s.pelTrip c
/-- Meaning of PEL_TRIP. -/
def execPelTrip (ch : Fin 128) (s : State) : Host.Outcome State Fault Refusal := .next (doPelTrip ch.val s)

/-- PMU_CLAMP_ENTRY: the PMU holds CLH or CLL. -/
def doPmuClampEntry (c : Nat) (s : State) : State :=
  s.whenDue (ownsLand (s.pmuMode c) && !bit (s.rd (Reg.PEL_STAT c)) 30) fun s =>
    let s := if s.rd (Reg.PEL_CLAMP_CNT c) = 0 then s.irq (Reg.PEL_ISTAT c) 2 else s
    (s.count (Reg.PEL_CLAMP_CNT c) 1).wrF (Reg.PEL_STAT c) 30 30 1
/-- Meaning of PMU_CLAMP_ENTRY. -/
def execPmuClampEntry (ch : Fin 128) (s : State) : Host.Outcome State Fault Refusal :=
  .next (doPmuClampEntry ch.val s)

/-- PMU_CLAMP_EXIT. -/
def doPmuClampExit (c : Nat) (s : State) : State :=
  s.whenDue (bit (s.rd (Reg.PEL_STAT c)) 30) fun s => s.wrF (Reg.PEL_STAT c) 30 30 0
/-- Meaning of PMU_CLAMP_EXIT. -/
def execPmuClampExit (ch : Fin 128) (s : State) : Host.Outcome State Fault Refusal := .next (doPmuClampExit ch.val s)

/-- The PMU of channel `c` goes to OFF, in the applied setting and in the register. -/
def State.pmuOff (s : State) (c : Nat) : State :=
  let a := Reg.PEL_PMU_CTL c
  let old := s.pinOf c
  (((s.wrF a 1 0 0).setApv a (setFld (s.apv a) 1 0 0)).pmuApply c 0 (s.pmuRange c)).pinChange c old

/-- PEL_TEMP_CROSSING: the die of tile `t` reports a temperature in 0.125 °C: past 110 °C a NOTE fault, past
120 °C every channel of the tile trips, its PMU goes to OFF, and a MOD-class fault. -/
def doPelTempCrossing (t : Nat) (deg : Word) (s : State) : State :=
  s.whenDue true fun s =>
    let a := Reg.PEL_TEMP t
    let old := code16 (s.rd a)
    let new := code16 deg
    let s := s.wrN a (fld deg 15 0)
    let s := if old < 880 ∧ 880 ≤ new then s.note (0x700 + 32 * t) 0 a else s
    if old < 960 ∧ 960 ≤ new then
      (forEach (tileChans t) (fun c s => ((if s.tripped c then s else s.pelTrip c)).pmuOff c) s).modFault (0x700 + 32 * t) 0
    else s
/-- Meaning of PEL_TEMP_CROSSING. -/
def execPelTempCrossing (tile : Fin 4) (t : BitVec 16) (s : State) : Host.Outcome State Fault Refusal :=
  .next (doPelTempCrossing tile.val (t.zeroExtend 32) s)

end Sys2Proof.Machine
end

