-- ==== Sys2Proof/Machine/Mtb.lean ====
section
/-! DEFINITION. Module Time distribution (R460–R480): the messages of the time lanes, alignment, the choice
of an upstream lane, mirror pairs, sync deliveries and XT lines. -/

namespace Sys2Proof.Machine

open Sys2Proof

/-! ### State and lanes -/

/-- MTB_STAT.STATE: 0 OFF, 1 FREE, 2 ACQUIRE, 3 ALIGNED, 4 HOLDOVER, 5 ACTIVE. -/
def State.mtbState (s : State) : Nat := s.rdF Reg.MTB_STAT 31 29
/-- Set MTB_STAT.STATE. -/
def State.setMtbState (s : State) (st : Nat) : State := s.wrF Reg.MTB_STAT 31 29 st
/-- The module is a member of a pair (R462). -/
def State.pairRole (s : State) : Bool := s.role == 1 || s.role == 2
/-- An upstream lane is chosen. -/
def State.upv (s : State) : Bool := bit (s.rd Reg.MTB_STAT) 28
/-- The upstream lane. -/
def State.upLane (s : State) : Nat := s.rdF Reg.MTB_STAT 27 27
/-- HOPS. -/
def State.hops (s : State) : Nat := s.rdF Reg.MTB_STAT 21 16
/-- SRC_OK: the active master or ALIGNED (R464). -/
def State.srcOk (s : State) : Bool := s.mtbState == 5 || s.mtbState == 3
/-- VIA on lane `l`: it is the module's own upstream lane. -/
def State.viaOn (s : State) (l : Nat) : Bool := s.upv && s.upLane == l
/-- Lane `l` is a time lane of the role: TL1 of a pair member is the pair lane (R462). -/
def State.timeLane (s : State) (l : Nat) : Bool := s.role == 3 || (s.pairRole && l == 0)

/-- Forget the values of theta measured so far. -/
def State.clearTheta (s : State) : State := { s with mtb := { s.mtb with thetas := [], okRun := 0 } }

/-- The source in force of the timing clock (R169, R462): REFCLK, or the upstream lane of a slave with CLKSRC 1. The
PLL holds its last frequency when that lane is lost, and the register keeps naming it (log entry 97). -/
def State.clockShow (s : State) : State :=
  if s.role ≠ 3 ∨ !bit (s.rd Reg.MTB_CTL) 29 then s.wrF Reg.TMG_CLK_STAT 30 29 0
  else if s.upv then s.wrF Reg.TMG_CLK_STAT 30 29 (1 + s.upLane)
  else s

/-- Lane `l` is chosen as upstream: ACQUIRE (R467, R468). -/
def State.takeUp (s : State) (l : Nat) : State :=
  let s := (s.wrF Reg.MTB_STAT 28 28 1).wrF Reg.MTB_STAT 27 27 l
  let s := s.wrF Reg.MTB_STAT 21 16 (if s.pairRole then 1 else min 63 ((s.tl l).hops + 1))
  (s.clearTheta.setMtbState 2).clockShow

/-- No upstream lane is chosen. -/
def State.dropUp (s : State) : State := (s.wrF Reg.MTB_STAT 28 28 0).wrF Reg.MTB_STAT 26 26 0

/-- Lane `l` has been silent for `n` ticks: since its last TIME or MIRROR, or since it aligned. -/
def State.silentFor (s : State) (l n : Nat) : Bool :=
  let last := match (s.tl l).time with
    | some (_, t) => t
    | none => 65536 * (s.tl l).alignedAt
  decide (last + n * 65536 ≤ 65536 * s.mt)

/-- A slave may choose lane `l`: one that is silent for 3 µs is lost (R468, R469). -/
def State.qualifies (s : State) (l : Nat) : Bool :=
  let u := s.tl l
  s.laneUp l && !s.silentFor l 12000 && u.replied && u.srcOk && !u.via && decide (u.hops < 63)

/-- Corrections of a slave that has lost or left an upstream lane are by slew: a takeover may be the reason (R473, log
entry 113). -/
def State.slewFromNow (s : State) : State := if s.role = 3 then { s with mtb := { s.mtb with slewOnly := true } } else s

/-- The choice of a slave's upstream lane (R468); of two lanes that qualify where none is chosen, the one
with the lower HOPS, and TL0 of equals (log entry 41). -/
def State.chooseUp (s : State) : State :=
  if s.role ≠ 3 then s
  else if s.upv then
    let l := s.upLane
    let o := 1 - l
    if s.qualifies o ∧ (s.tl o).hops + 2 ≤ (s.tl l).hops then s.slewFromNow.takeUp o else s
  else
    match s.qualifies 0, s.qualifies 1 with
    | true, true => s.takeUp (if (s.tl 0).hops ≤ (s.tl 1).hops then 0 else 1)
    | true, false => s.takeUp 0
    | false, true => s.takeUp 1
    | _, _ => s

/-- The upstream lane is lost: HOLDOVER, left at once where R468 yields a lane (R469). -/
def State.upstreamLost (s : State) : State :=
  let s := { s.slewFromNow with mtb := { s.slewFromNow.mtb with holdFrom := s.mt } }
  (((s.dropUp.setMtbState 4).irq Reg.MTB_ISTAT 2).clearTheta).chooseUp

/-! ### Takeover and failure (R472, R474) -/

/-- A discontinuity of Module Time (R460, R461). -/
def State.discontinuity (s : State) : State := (s.count Reg.MTB_DISC 1).irq Reg.MTB_ISTAT 32

/-- The active master fails: it sends FAIL = 1 and is master no more (R472, log entry 42). -/
def State.masterFail (s : State) : State :=
  if s.mtbState = 5 then
    { s with mtb := { s.mtb with failSent := true } }.setMtbState 1
  else s

/-- A cause of takeover reaches the standby: 1 TIMEOUT, 2 LANE, 3 FAIL, 4 COMMAND. One that is FREE or in
ACQUIRE does not take over, and has no upstream lane (R472, log entry 42); it notes a cause that goes on once. -/
def State.takeover (s : State) (cause : Nat) : State :=
  let s := s.note blkMTB cause
  let s := { s with mtb := { s.mtb with causeNoted := cause } }
  if s.mtbState = 3 ∨ s.mtbState = 4 then
    let s := s.dropUp.setMtbState 5
    let s := s.wrF Reg.MTB_STAT 21 16 0
    let s := (s.countF Reg.MTB_SWITCH 31 16 1).wrF Reg.MTB_SWITCH 2 0 cause
    (s.wrWide (Reg.MTB_SWMT 0) 3 (65536 * s.mt)).irq Reg.MTB_ISTAT 4
  else s.dropUp.setMtbState 1

/-- A member of the pair that is not the active master, has not failed as one, and is not, at its start, to become one
(R471, R472). -/
def State.standby (s : State) : Bool :=
  s.pairRole && s.mtbState != 5 && s.mtbState != 0 && !s.mtb.failSent && !(s.role == 1 && s.mtb.atStart)

/-- The standby acts on a cause of takeover that goes on: one that stays FREE has noted it. -/
def State.newCause (s : State) (cause : Nat) : Bool := s.standby && (s.mtbState != 1 || s.mtb.causeNoted != cause)

/-! ### Sending (R464, R465, R471) -/

/-- The first tick-aligned symbol of lane `l`: now, or after the message that is being sent; one comes every 32 ticks
(R464). -/
def State.launchTick (s : State) (l : Nat) : Nat :=
  let b := max s.mt (s.tl l).busy
  b + (32 - (b + Config.symbolPhase l + (s.tl l).grid) % 32) % 32

/-- A message of R464 is launched on lane `l`, on a tick-aligned symbol. -/
def State.launch (s : State) (l sym : Nat) (data : List Byte) : State :=
  if s.graveHeld then s else s.timeSend l (s.launchTick l) sym data

/-- Lane `l` is used, and its transmitter is free. -/
def State.canLaunch (s : State) (l : Nat) : Bool := s.laneUp l && decide ((s.tl l).busy ≤ s.mt)

/-- MTB_TIME_SEND. -/
def doMtbTimeSend (l : Nat) (s : State) : State :=
  s.whenDue (s.canLaunch l && s.timeLane l) fun s => s.launch l symTIME (leBytes 8 (s.launchTick l))
/-- Meaning of MTB_TIME_SEND. -/
def execMtbTimeSend (l : Fin 2) (s : State) : Host.Outcome State Fault Refusal := .next (doMtbTimeSend l.val s)

/-- MTB_ECHO_SEND: a request with the next SEQ; its launch is kept for 4 µs. -/
def doMtbEchoSend (l : Nat) (s : State) : State :=
  s.whenDue (s.canLaunch l) fun s =>
    let u := s.tl l
    let q := (u.reqSeq + 1) % 65536
    let t := s.launchTick l
    let keep := u.reqs.filter fun r => decide (65536 * s.mt ≤ r.2 + 16000 * 65536)
    (s.setTl l { u with reqSeq := q, reqs := keep ++ [(q, 65536 * t)] }).launch l symECHO
      (leBytes 8 t ++ leBytes 2 q ++ leBytes 2 0)
/-- Meaning of MTB_ECHO_SEND. -/
def execMtbEchoSend (l : Fin 2) (s : State) : Host.Outcome State Fault Refusal := .next (doMtbEchoSend l.val s)

/-- ECHO_REQUEST: a request with SEQ `q` arrives on lane `l` at `t` (2^-16 tick) and is answered (R464). -/
def doEchoRequest (l q t : Nat) (s : State) : State :=
  s.whenDue (s.laneUp l && decide (t ≤ 65536 * s.mt)) fun s =>
    let b := b2n s.srcOk * 128 + b2n (s.viaOn l) * 64 + (if s.mtbState = 5 then 0 else s.hops)
    s.launch l symECHO (leBytes 8 (t / 65536) ++ leBytes 2 t ++ leBytes 1 q ++ leBytes 1 b)
/-- Meaning of ECHO_REQUEST. -/
def execEchoRequest (l : Fin 2) (seq : BitVec 16) (arr : Nat) (s : State) : Host.Outcome State Fault Refusal :=
  .next (doEchoRequest l.val seq.toNat arr s)

/-- MTB_MIRROR_SEND. -/
def doMtbMirrorSend (s : State) : State :=
  s.whenDue (s.canLaunch 1 && s.pairRole) fun s =>
    let m := s.mtb
    let f := b2n (s.mtbState == 5) + 2 * b2n m.failSent + 4 * b2n (s.role == 1) + 8 * b2n (s.mtbState == 3)
    { s with mtb := { m with hbeat := (m.hbeat + 1) % 2 ^ 32 } }.launch 1 symMIRROR
      (leBytes 8 (s.launchTick 1) ++ leBytes 4 m.hbeat ++ leBytes 1 f ++ leBytes 3 0)
/-- Meaning of MTB_MIRROR_SEND. -/
def execMtbMirrorSend (s : State) : Host.Outcome State Fault Refusal := .next (doMtbMirrorSend s)

/-! ### Receiving TIME and ECHO (R465–R469) -/

/-- TIME: launch tick `tk` of the sender, arrival `t` in 2^-16 tick. -/
def doTime (l tk t : Nat) (s : State) : State :=
  s.whenDue (s.laneUp l && decide (t ≤ 65536 * s.mt)) fun s => s.setTl l { s.tl l with time := some (tk, t) }
/-- Meaning of TIME. -/
def execTime (l : Fin 2) (tick : BitVec 64) (arr : Nat) (s : State) : Host.Outcome State Fault Refusal :=
  .next (doTime l.val tick.toNat arr s)

/-- The module is idle in the sense of R466. -/
def State.mtIdle (s : State) : Bool :=
  ((List.range 16).all fun n => s.seqStopped n) &&
    (List.range 128).all fun c => s.tmState c == 0 && s.aqState c == 0

/-- A moment that is held as a Module Time of the past, in units of 1/`u` tick, moves with a step of Module Time, so
that the time since then stays what it is. -/
def moveBy (u : Nat) (d : Int) (t : Nat) : Nat := ((t : Int) + u * d).toNat

/-- The held moments of a TDC (R243, R244, R248) move with a step. -/
def TmuUnit.moveTimes (u : TmuUnit) (d : Int) : TmuUnit :=
  { u with pathFree := [0, 1].foldl (fun m p => kset (fun _ => 0) m p (moveBy 1 d (kget (fun _ => 0) m p))) u.pathFree,
           lastStamped := u.lastStamped.map (moveBy 65536 d),
           lastHit := u.lastHit.map fun x => (x.1, x.2.map (moveBy 65536 d)),
           adopt := u.adopt.map fun x => (x.1, x.2.map (· + d)) }

/-- The held moments of the calibration (R327, R341, R345) move with a step. -/
def Cal.moveTimes (c : Cal) (d : Int) : Cal :=
  { c with rotStart := c.rotStart + d, lastStore := c.lastStore + d,
           ageFrom := c.ageFrom.map fun x => (x.1, x.2.map (· + d)),
           digFrom := c.digFrom.map fun x => (x.1, x.2.map (· + d)) }

/-- The held moments of a time lane move with a step. -/
def Lane.moveTimes (u : Lane) (d : Int) : Lane :=
  { u with begins := u.begins.map (moveBy 1 d), busy := moveBy 1 d u.busy, alignedAt := moveBy 1 d u.alignedAt,
           reqs := u.reqs.map fun r => (r.1, moveBy 65536 d r.2),
           time := u.time.map fun x => (x.1, moveBy 65536 d x.2), grid := (((u.grid : Int) - d) % 32).toNat }

/-- The held moments of a Falin port move with a step. -/
def Port.moveTimes (u : Port) (d : Int) : Port :=
  { u with nakAt := u.nakAt.map (moveBy 1 d), ackFrom := moveBy 1 d u.ackFrom, trainFrom := moveBy 1 d u.trainFrom, rowFrom := moveBy 75 d u.rowFrom,
           eyeFrom := u.eyeFrom.map fun x => (x.1, moveBy 1 d x.2) }

/-- The held moments of the distribution move with a step; a Te, which is a Module Time to come, does not. -/
def Mtb.moveTimes (m : Mtb) (d : Int) : Mtb :=
  { m with holdFrom := moveBy 1 d m.holdFrom, xtLast := m.xtLast.map fun x => (x.1, moveBy 65536 d x.2),
           xtEnd := m.xtEnd.map fun x => (x.1, moveBy 1 d x.2),
           forwarded := m.forwarded.map fun x => (x.1, x.2.1, moveBy 1 d x.2.2),
           own := m.own.map fun x => (x.1, x.2.1, moveBy 1 d x.2.2) }

/-- The held moments of the power units and of the supervisor move with a step. -/
def Pwr.moveTimes (p : Pwr) (d : Int) : Pwr :=
  { p with entryAt := p.entryAt.map fun x => (x.1, moveBy 1 d x.2), workAt := p.workAt.map fun x => (x.1, moveBy 1 d x.2),
           wakeAt := p.wakeAt.map fun x => (x.1, moveBy 1 d x.2),
           srcAt := p.srcAt.map fun x => (x.1, x.2.map fun y => (moveBy 1 d y.1, y.2)),
           startAt := moveBy 1 d p.startAt, stepAt := moveBy 1 d p.stepAt, pfwAt := moveBy 1 d p.pfwAt }

/-- Module Time steps by `d` ticks (R466): ages and waits go on as if it had not. -/
def State.stepTime (s : State) (d : Int) : State :=
  { s with mt := moveBy 1 d s.mt, tmu := s.tmu.map fun x => (x.1, x.2.moveTimes d), cal := s.cal.moveTimes d,
           avsFrom := moveBy 1 d s.avsFrom, mtb := s.mtb.moveTimes d, pwr := s.pwr.moveTimes d,
           lane := s.lane.map fun x => (x.1, x.2.moveTimes d), port := s.port.map fun x => (x.1, x.2.moveTimes d),
           dma := s.dma.map fun x => (x.1, { x.2 with readAt := moveBy 1 d x.2.readAt }),
           sup := { s.sup with activated := moveBy 1 d s.sup.activated, watch := s.sup.watch.map (moveBy 1 d) },
           sti := s.sti.map fun x => { x with stopAt := moveBy 1 d x.stopAt },
           ane := { s.ane with runAt := s.ane.runAt.map fun x => (x.1, moveBy 1 d x.2),
                               flows := s.ane.flows.map fun x => (x.1, { x.2 with since := moveBy 1 d x.2.since }) },
           stampQ := s.stampQ.map fun x => (x.1, moveBy 1 d x.2),
           drc := { s.drc with ceSec := s.drc.ceSec.map fun x => (x.1, x.2.map (moveBy 1 d)),
                               ueSec := s.drc.ueSec.map (moveBy 1 d), trainAt := moveBy 1 d s.drc.trainAt,
                               refBusy := s.drc.refBusy.map fun x => (x.1, moveBy 1 d x.2) } }

/-- Correction toward theta = 0, with theta in 2^-17 tick (R466): a step of whole ticks where the module is
idle, else slew. The active master never corrects. -/
def State.correct (s : State) (theta : Int) : State :=
  if s.mtbState = 5 then s
  else if 131072 < theta.natAbs ∧ s.mtIdle ∧ !s.mtb.slewOnly then
    (s.stepTime (-theta.tdiv 131072)).discontinuity.wrF Reg.MTB_STAT 26 26 0
  else s.wrF Reg.MTB_STAT 26 26 (b2n (theta != 0))

/-- The mean of the last values of theta in MTB_OFS; where it is no whole number the manual gives no
rounding, and either neighbour may result (log entry 5). -/
def State.putOfs (s : State) (l : List Int) : State :=
  let d : Int := 2 * l.length
  let q := l.sum / d
  (s.wrN Reg.MTB_OFS (ofInt 32 (q + (if l.sum % d = 0 then 0 else (s.freeNow % 2 : Nat))))).drawn

/-- |mean of theta| ≤ 2 ps, and > 8 ps (R467): 524.288 and 2,097.152 units of 2^-16 tick. -/
def nearMean (l : List Int) : Bool := decide (1000 * l.sum.natAbs ≤ 2 * l.length * 524288)
/-- |mean of theta| > 8 ps. -/
def farMean (l : List Int) : Bool := decide (2 * l.length * 2097152 < 1000 * l.sum.natAbs)

/-- An exchange on the upstream lane gives theta (in 2^-17 tick): MTB_OFS, the state, the correction. -/
def State.exchange (s : State) (theta : Int) : State :=
  let m := s.mtb
  let l := (theta :: m.thetas).take 16
  let run := if nearMean l then m.okRun + 1 else 0
  let s := { s with mtb := { m with thetas := l, okRun := run } }.putOfs l
  let s :=
    if s.mtbState = 2 ∧ 16 ≤ run then (s.setMtbState 3).irq Reg.MTB_ISTAT 1
    else if s.mtbState = 3 ∧ farMean l then
      { s with mtb := { s.mtb with okRun := 0 } }.setMtbState 2 |>.note blkMTB
    else s
  s.correct theta

/-- ASYM of lane `l`, signed. -/
def State.asym (s : State) (l : Nat) : Int := sext 32 (s.rd (if l = 0 then Reg.MTB_ASYM0 else Reg.MTB_ASYM1)).toNat

/-- The latest reply on lane `l` gives SRC_OK, VIA and HOPS; a slave's choice follows (R468, R469). -/
def State.replyFlags (s : State) (l b : Nat) : State :=
  let s := s.setTl l { s.tl l with replied := true, srcOk := bits b 7 7 == 1, via := bits b 6 6 == 1, hops := bits b 5 0 }
  if s.viaOn l then
    let s := if s.role = 3 then s.wrF Reg.MTB_STAT 21 16 (min 63 (bits b 5 0 + 1)) else s
    if bits b 7 7 = 0 ∨ (s.role = 3 ∧ bits b 5 0 = 63) then s.upstreamLost else s.chooseUp
  else s.chooseUp

/-- What a reply measures with the request launched at `t1` and the TIME (`tk`, `t4`) (R463, R465). -/
def State.measureReply (s : State) (l t1 t2 tk t4 : Nat) : State :=
  let rtt : Int := (t2 - t1 : Int) + (t4 - 65536 * tk : Int)
  if 800 * 65536 < rtt then
    let s := (s.setTl l { s.tl l with rttBad := true }).note blkMTB l
    if s.viaOn l then s.upstreamLost else s
  else if s.viaOn l then
    (s.wrN Reg.MTB_RTT (ofInt 32 rtt)).exchange (2 * (t4 - 65536 * tk : Int) - (rtt + s.asym l))
  else s

/-- ECHO_REPLY: `t2` is the arrival of the request, `q` its SEQ[7:0], `b` byte 11, `t` the reply's arrival. A
reply that answers no request of the last 4 µs is ignored. -/
def doEchoReply (l t2 q b t : Nat) (s : State) : State :=
  let u := s.tl l
  let r := u.reqs.find? fun r => r.1 % 256 == q && decide (t ≤ r.2 + 16000 * 65536)
  s.whenDue (s.laneUp l && r.isSome && decide (t ≤ 65536 * s.mt)) fun s =>
    let s := s.replyFlags l b
    match r, (s.tl l).time with
    | some r, some (tk, t4) => if t ≤ t4 + 16000 * 65536 then s.measureReply l r.2 t2 tk t4 else s
    | _, _ => s
/-- Meaning of ECHO_REPLY. -/
def execEchoReply (l : Fin 2) (t2 : BitVec 80) (seq b : BitVec 8) (arr : Nat) (s : State) :
    Host.Outcome State Fault Refusal := .next (doEchoReply l.val t2.toNat seq.toNat b.toNat arr s)

/-- The upstream lane is lost (R469): silent for 3 µs, or its receiver not aligned. -/
def State.upLostNow (s : State) : Bool := s.upv && (!s.laneUp s.upLane || s.silentFor s.upLane 12000)

/-- MTB_UPSTREAM_LOSS. -/
def doMtbUpstreamLoss (s : State) : State := s.whenDue s.upLostNow fun s => s.upstreamLost
/-- Meaning of MTB_UPSTREAM_LOSS. -/
def execMtbUpstreamLoss (s : State) : Host.Outcome State Fault Refusal := .next (doMtbUpstreamLoss s)

/-- MTB_HOLDOVER_LIMIT: holdover has lasted longer than MTB_HOLD_MAX ms (R469). -/
def doMtbHoldoverLimit (s : State) : State :=
  s.whenDue (s.mtbState == 4 && decide (s.mtb.holdFrom + 4000000 * s.rdF Reg.MTB_HOLD_MAX 15 0 < s.mt)) fun s =>
    let s := if s.role = 3 then { s with mtb := { s.mtb with slewOnly := false } } else s
    ((s.setMtbState 1).irq Reg.MTB_ISTAT 8).note blkMTB
/-- Meaning of MTB_HOLDOVER_LIMIT. -/
def execMtbHoldoverLimit (s : State) : Host.Outcome State Fault Refusal := .next (doMtbHoldoverLimit s)

/-! ### Mirror pairs (R471–R474) -/

/-- The peer of the pair is seen ACTIVE: the module is, or becomes, the standby. One that was active itself corrects by
slew only (R473, R474). -/
def State.peerActive (s : State) : State :=
  if s.mtbState = 5 then
    if s.role = 2 then
      { s with mtb := { s.mtb with slewOnly := true } }.takeUp 1 |>.note blkMTB
    else s
  else
    let s := { s with mtb := { s.mtb with failSent := false, slewOnly := s.mtb.slewOnly || s.mtb.failSent,
                                          atStart := false, causeNoted := 0 } }
    if s.upv then s else s.takeUp 1

/-- MIRROR: launch tick `tk`, flags of byte 12, arrival `t`. -/
def doMirror (tk b t : Nat) (s : State) : State :=
  s.whenDue (s.laneUp 1 && s.pairRole && decide (t ≤ 65536 * s.mt)) fun s =>
    let s := s.setTl 1 { s.tl 1 with time := some (tk, t) }
    let s := { s with mtb := { s.mtb with standbyAligned := bits b 3 3 == 1 } }
    if bits b 1 1 = 1 ∧ s.newCause 3 then s.takeover 3
    else if bits b 0 0 = 1 then s.peerActive
    else s
/-- Meaning of MIRROR. -/
def execMirror (tick : BitVec 64) (flags : BitVec 8) (arr : Nat) (s : State) : Host.Outcome State Fault Refusal :=
  .next (doMirror tick.toNat flags.toNat arr s)

/-- MTB_MIRROR_TIMEOUT: the standby has had no MIRROR for 1 µs. -/
def doMtbMirrorTimeout (s : State) : State :=
  s.whenDue (s.newCause 1 && (s.upv || s.mtbState == 4 || s.laneUp 1) && s.silentFor 1 4000) fun s => s.takeover 1
/-- Meaning of MTB_MIRROR_TIMEOUT. -/
def execMtbMirrorTimeout (s : State) : Host.Outcome State Fault Refusal := .next (doMtbMirrorTimeout s)

/-- MTB_MASTER_ELECT: a MASTER-role member at the start rule has seen no ACTIVE peer, for 10 µs where its
pair lane is aligned (R471). -/
def doMtbMasterElect (s : State) : State :=
  s.whenDue (s.role == 1 && s.mtbState == 1 && s.mtb.atStart &&
      (!s.laneUp 1 || decide ((s.tl 1).alignedAt + 40000 ≤ s.mt))) fun s =>
    ({ s with mtb := { s.mtb with atStart := false } }.setMtbState 5).wrF Reg.MTB_STAT 21 16 0
/-- Meaning of MTB_MASTER_ELECT. -/
def execMtbMasterElect (s : State) : Host.Outcome State Fault Refusal := .next (doMtbMasterElect s)

/-- TAKEOVER: a command for the standby only (R472, R480). -/
def doTakeover (dom : Nat) (s : State) : State :=
  s.hostWrite dom Reg.MTB_CMD fun s => if s.standby then s.takeover 4 else s.noteReg dom Reg.MTB_CMD
/-- Meaning of TAKEOVER. -/
def execTakeover (dom : Fin 16) (s : State) : Host.Outcome State Fault Refusal := .next (doTakeover dom.val s)

/-- YIELD: a command for the active master only, refused unless the standby is ALIGNED (R472, R480). -/
def doYield (dom : Nat) (s : State) : State :=
  s.hostWrite dom Reg.MTB_CMD fun s =>
    if s.mtbState = 5 ∧ s.mtb.standbyAligned then s.masterFail else s.noteReg dom Reg.MTB_CMD
/-- Meaning of YIELD. -/
def execYield (dom : Fin 16) (s : State) : Host.Outcome State Fault Refusal := .next (doYield dom.val s)

/-- MTB_CMD_INVALID: another OP, or a command in the wrong role, is discarded with a NOTE fault. -/
def doMtbCmdInvalid (dom : Nat) (v : Word) (s : State) : State :=
  s.hostWrite dom Reg.MTB_CMD fun s =>
    if (fld v 1 0 = 1 ∧ s.standby) ∨ (fld v 1 0 = 2 ∧ s.mtbState = 5) then s else s.noteReg dom Reg.MTB_CMD
/-- Meaning of MTB_CMD_INVALID. -/
def execMtbCmdInvalid (dom : Fin 16) (v : Word) (s : State) : Host.Outcome State Fault Refusal :=
  .next (doMtbCmdInvalid dom.val v s)

/-- MTB_CTL_WRITE: a change of ROLE or of a lane enable returns the module to FREE, or to OFF (R480). -/
def doMtbCtlWrite (dom : Nat) (v : Word) (s : State) : State :=
  s.hostWrite dom Reg.MTB_CTL fun s =>
    let old := s.rd Reg.MTB_CTL
    let s := s.wrRow Reg.MTB_CTL v
    let new := s.rd Reg.MTB_CTL
    if fld old 31 30 = fld new 31 30 ∧ fld old 25 24 = fld new 25 24 then s.clockShow
    else
      let s := { s with mtb := { s.mtb with failSent := false, slewOnly := false, standbyAligned := false, atStart := true, causeNoted := 0 } }
      ((s.dropUp.clearTheta).setMtbState (if s.role = 0 then 0 else 1)).clockShow
/-- Meaning of MTB_CTL_WRITE. -/
def execMtbCtlWrite (dom : Fin 16) (v : Word) (s : State) : Host.Outcome State Fault Refusal :=
  .next (doMtbCtlWrite dom.val v s)

/-! ### Time-lane receivers (R457, R458) -/

/-- Lane `l`, if it is aligned, loses its alignment. -/
def State.alignLost (s : State) (l : Nat) : State :=
  let a := Reg.LNK_TL_STAT (4 + l)
  if !bit (s.rd a) 31 then s
  else
    let s := (s.wrF a 31 31 0).irq (Reg.LNK_ISTAT (4 + l)) 2
    if s.standby && l == 1 then s.takeover 2
    else if s.viaOn l then s.upstreamLost
    else s

/-- Lane `l`, which is not aligned, aligns: what it knew of the lane before is forgotten, and the lowest eye begins anew
(R457, R459). -/
def State.alignGained (s : State) (l : Nat) : State :=
  let e := Reg.LNK_TL_EYE (4 + l)
  let s := (s.wrF (Reg.LNK_TL_STAT (4 + l)) 31 31 1).wrF e 15 8 (s.rdF e 7 0)
  (s.irq (Reg.LNK_ISTAT (4 + l)) 1).setTl l
    { s.tl l with alignedAt := s.mt, rttBad := false, time := none, replied := false, cvs := [], commas := (0, 0) }

/-- A symbol reaches the receiver of lane `l` (R457): three commas at one bit position, with no violation between them,
align it; 16 violations among the last 64 symbols end the alignment. -/
def State.tlSymbol (s : State) (l : Nat) (x : TlSymbol) : State :=
  let a := Reg.LNK_TL_STAT (4 + l)
  let s := if x = .violation then s.countF a 15 0 1 else s
  let u := s.tl l
  if bit (s.rd a) 31 then
    let h := (decide (x = .violation) :: u.cvs).take 64
    if 16 ≤ (h.filter fun b => b).length then (s.setTl l { u with cvs := [] }).alignLost l
    else s.setTl l { u with cvs := h }
  else
    match x with
    | .comma p =>
      let n := if u.commas.1 = p.val then u.commas.2 + 1 else 1
      if 3 ≤ n then s.alignGained l else s.setTl l { u with commas := (p.val, n) }
    | .violation => s.setTl l { u with commas := (0, 0) }
    | .other => s

/-- Symbols reach the receiver of lane `l`. -/
def State.tlSymbols (s : State) (l : Nat) (xs : List TlSymbol) : State := xs.foldl (fun s x => s.tlSymbol l x) s

/-- TL_ALIGNMENT: symbols by which the receiver of lane `l` may gain or lose alignment. -/
def doTlAlignment (l : Nat) (xs : List TlSymbol) (s : State) : State := s.whenDue true fun s => s.tlSymbols l xs
/-- Meaning of TL_ALIGNMENT. -/
def execTlAlignment (l : Fin 2) (symbols : List TlSymbol) (s : State) : Host.Outcome State Fault Refusal :=
  .next (doTlAlignment l.val symbols s)

/-- TL_MESSAGE_BAD: a message is discarded whole and counted; its symbols reach the receiver as any others. -/
def doTlMessageBad (l : Nat) (xs : List TlSymbol) (s : State) : State :=
  s.whenDue true fun s => (s.count (Reg.LNK_TL_SETERR (4 + l)) 1).tlSymbols l xs
/-- Meaning of TL_MESSAGE_BAD. -/
def execTlMessageBad (l : Fin 2) (symbols : List TlSymbol) (s : State) : Host.Outcome State Fault Refusal :=
  .next (doTlMessageBad l.val symbols s)

/-! ### Sync events and triggers received and delivered (R476, R477) -/

/-- Te of 24 low bits: within 2^22 of the present Module Time; low bits with no such tick give one that has
passed. -/
def teOf (mt low : Nat) : Int :=
  let b : Int := (mt : Int) - 2 ^ 22
  let x := ((low : Int) - b) % 2 ^ 24
  if x < 2 ^ 23 then b + x else b + x - 2 ^ 24

/-- A late delivery is counted; the first one is noted (R477). -/
def State.syncLate (s : State) : State :=
  let s := s.count Reg.MTB_SYNC_LATE 1
  if s.mtb.lateNote then s
  else (({ s with mtb := { s.mtb with lateNote := true } }).irq Reg.MTB_ISTAT 16).note blkMTB

/-- A SYNC or TRIG message arrives on lane `l`: it is forwarded out of the other lane unless it was before,
and scheduled for Te, or delivered at once when late. A message of the module's own that comes round is
neither (log entry 43). -/
def State.syncIn (s : State) (l kind line low : Nat) : State :=
  let te := (teOf s.mt low).toNat
  if noted s.mt kind line te s.mtb.own then s
  else
    let s := if noted s.mt kind line te s.mtb.forwarded then s
      else { s with mtb := { s.mtb with
              forwarded := recent s.mt s.mtb.forwarded ++ [(syncKey kind line, te, s.mt)] } }.syncOut kind line te [1 - l]
    if s.mt < te then s.deliverAt kind line te
    else if s.mt = te then s.syncEvent kind line te
    else s.syncLate.syncEvent kind line s.mt

/-- SYNC. -/
def doSync (l : Nat) (v : Word) (s : State) : State :=
  s.whenDue (s.laneUp l) fun s => s.syncIn l 0 (fld v 3 0) (fld v 31 8)
/-- Meaning of SYNC. -/
def execSync (l : Fin 2) (v : Word) (s : State) : Host.Outcome State Fault Refusal := .next (doSync l.val v s)

/-- TRIG. -/
def doTrig (l : Nat) (v : Word) (s : State) : State :=
  s.whenDue (s.laneUp l) fun s => s.syncIn l 1 (fld v 2 0) (fld v 31 8)
/-- Meaning of TRIG. -/
def execTrig (l : Fin 2) (v : Word) (s : State) : Host.Outcome State Fault Refusal := .next (doTrig l.val v s)

/-- MTB_SYNC_DELIVER: the first scheduled delivery whose Te has come. -/
def doMtbSyncDeliver (s : State) : State :=
  match s.mtb.deliver.find? fun x => decide (x.2.2 ≤ s.mt) with
  | none => s
  | some x =>
    s.whenDue true fun s =>
      ({ s with mtb := { s.mtb with deliver := s.mtb.deliver.erase x } }).syncEvent x.1 x.2.1 x.2.2
/-- Meaning of MTB_SYNC_DELIVER. -/
def execMtbSyncDeliver (s : State) : Host.Outcome State Fault Refusal := .next (doMtbSyncDeliver s)

/-! ### XT lines (R478, R479) -/

/-- The configured edge of XT line `x` is this one; EDGE 3 acts as 0. -/
def State.xtEdge (s : State) (x : Nat) (rising : Bool) : Bool :=
  match s.rdF (Reg.MTB_XT_CFG x) 29 28 with
  | 1 => !rising
  | 2 => true
  | _ => rising

/-- XT_INPUT_EDGE: an edge of XT line `x` at `t` in 2^-16 tick; one within 2 ns of the accepted edge before it
is ignored, and a line with OUT = 1 ignores its input. -/
def doXtInputEdge (x : Nat) (rising : Bool) (t : Nat) (s : State) : State :=
  let last := kget (fun _ => 0) s.mtb.xtLast x
  let cfg := s.rd (Reg.MTB_XT_CFG x)
  s.whenDue (!bit cfg 31 && s.xtEdge x rising && decide (t ≤ 65536 * s.mt) &&
      (last == 0 || decide (last - 1 + 8 * 65536 ≤ t))) fun s =>
    let s := { s with mtb := { s.mtb with xtLast := kset (fun _ => 0) s.mtb.xtLast x (t + 1) } }
    let s := s.wrWide (Reg.MTB_XT_STAMP0 x) 3 t
    if bit cfg 30 then
      let te := t / 65536 + s.syncLat
      (s.ownMessage 1 x te).deliverAt 1 x te
    else s.syncSoon 1 x ((t + 65535) / 65536)
/-- Meaning of XT_INPUT_EDGE. -/
def execXtInputEdge (x : Fin 8) (rising : Bool) (stamp : Nat) (s : State) : Host.Outcome State Fault Refusal :=
  .next (doXtInputEdge x.val rising stamp s)

/-- XT_PULSE_END. -/
def doXtPulseEnd (x : Nat) (s : State) : State :=
  let e := kget (fun _ => 0) s.mtb.xtEnd x
  s.whenDue (e != 0 && decide (e ≤ s.mt)) fun s =>
    ({ s with mtb := { s.mtb with xtEnd := kset (fun _ => 0) s.mtb.xtEnd x 0 } }).send (.xt x e false)
/-- Meaning of XT_PULSE_END. -/
def execXtPulseEnd (x : Fin 8) (s : State) : Host.Outcome State Fault Refusal := .next (doXtPulseEnd x.val s)

end Sys2Proof.Machine
end

