-- ==== Sys2Proof/Machine/Tmg.lean ====
section
/-! DEFINITION. The timing block (R169–R192): period pairs, pace monitors and the voltage loop, the timing
PLL, delay lines and the spare edge generators, and the path register of a channel. -/

namespace Sys2Proof.Machine

open Sys2Proof

/-! ### Period pairs (R174) -/

/-- The pair that an entry's registers show when a refused one is discarded: the staged pair, or the applied
one. -/
def State.periodPair (s : State) (n e : Nat) : Nat × Nat :=
  match kget (fun _ => none) s.perStg (16 * n + e) with
  | some p => p
  | none => ((s.apv (Reg.TMG_PER_LO n e)).toNat, (s.apv (Reg.TMG_PER_HI n e)).toNat)

/-- A write to TMG_PERn_HI checks the pair (R171, R174). -/
def State.periodWrite (s : State) (dom n e : Nat) (v : Word) : State :=
  let lo := (s.rd (Reg.TMG_PER_LO n e)).toNat
  let hi := fld v 6 0
  if periodOk (lo + 2 ^ 32 * hi) then
    { s.wrN (Reg.TMG_PER_HI n e) hi with perStg := kset (fun _ => none) s.perStg (16 * n + e) (some (lo, hi)) }
  else
    let p := s.periodPair n e
    let s := (s.wrN (Reg.TMG_PER_LO n e) p.1).wrN (Reg.TMG_PER_HI n e) p.2
    ((s.wrN Reg.TMG_ERR (2 ^ 31 + e * 16 + n)).irq Reg.TMG_ISTAT 16).noteReg dom (Reg.TMG_PER_HI n e)

/-- TMG_PER_HI_WRITE. -/
def doTmgPerHiWrite (dom n e : Nat) (v : Word) (s : State) : State :=
  s.hostWrite dom (Reg.TMG_PER_HI n e) fun s => s.periodWrite dom n e v
/-- Meaning of TMG_PER_HI_WRITE. -/
def execTmgPerHiWrite (dom n e : Fin 16) (v : Word) (s : State) : Host.Outcome State Fault Refusal :=
  .next (doTmgPerHiWrite dom.val n.val e.val v s)

/-! ### Commands of the block (R191) -/

/-- Margin of monitor `m` as last reported: 0xFFFF where it has reported none. -/
def State.margin (s : State) (m : Nat) : Nat := kget (fun _ => 0xFFFF) s.pace m

/-- The pipeline of monitor `m` has demand (R187): a sequencer in a run, the interconnect and register access always, an
engine that has work, a DMA channel that runs. -/
def State.demand (s : State) (m : Nat) : Bool :=
  if m < 0x20 then s.seqRuns (m % 16)
  else if m < 0x22 then true
  else if m < 0x42 then !(s.eng (m - 0x22)).ready.isEmpty
  else (List.range 16).any fun n => s.rdF (Reg.DMA_STAT n) 2 0 != 0 && s.rdF (Reg.DMA_STAT n) 2 0 != 5

/-- What monitor `m` reports: 0xFFFF where its pipeline has no demand (R187). -/
def State.shown (s : State) (m : Nat) : Nat := if s.demand m then s.margin m else 0xFFFF

/-- The lowest margin and its monitor, the lowest-numbered of equals. -/
def State.lowestMargin (s : State) : Nat × Nat :=
  (List.range 67).foldl (fun a m => if s.shown m < a.1 then (s.shown m, m) else a) (0xFFFF, 0xFF)

/-- What TMG_PACE_MIN reads. -/
def State.paceMin (s : State) : Nat := 65536 * s.lowestMargin.2 + s.lowestMargin.1

/-- PACE_CLR: TMG_PACE_LOW takes TMG_PACE_MIN. -/
def doPaceClr (dom : Nat) (s : State) : State :=
  s.hostWrite dom Reg.TMG_CMD fun s => s.wrN Reg.TMG_PACE_LOW s.paceMin
/-- Meaning of PACE_CLR. -/
def execPaceClr (dom : Fin 16) (s : State) : Host.Outcome State Fault Refusal := .next (doPaceClr dom.val s)

/-- TMG_CMD_INVALID: a TMG_CMD write with PACE_CLR 0 is discarded with a NOTE fault. -/
def doTmgCmdInvalid (dom : Nat) (v : Word) (s : State) : State :=
  s.hostWrite dom Reg.TMG_CMD fun s => if bit v 0 then s else s.noteReg dom Reg.TMG_CMD
/-- Meaning of TMG_CMD_INVALID. -/
def execTmgCmdInvalid (dom : Fin 16) (v : Word) (s : State) : Host.Outcome State Fault Refusal :=
  .next (doTmgCmdInvalid dom.val v s)

/-- CHN_DSK_PATH_WRITE: by the owner while the owning sequencer is STOPPED or the channel is in no site; any
other write is a denied write (R182). -/
def doChnDskPathWrite (dom c : Nat) (v : Word) (s : State) : State :=
  s.hostWrite dom (Reg.CHN_DSK_PATH c) fun s =>
    if s.chStopped c then s.wrN (Reg.CHN_DSK_PATH c) (fld v 15 0) else s.deny 0 dom 0 true (Reg.CHN_DSK_PATH c)
/-- Meaning of CHN_DSK_PATH_WRITE. -/
def execChnDskPathWrite (dom : Fin 16) (ch : Fin 128) (v : Word) (s : State) : Host.Outcome State Fault Refusal :=
  .next (doChnDskPathWrite dom.val ch.val v s)

/-! ### The timing PLL (R170, R461) -/

/-- Module Time goes on: one tick, or one REFCLK cycle of 40 ticks while the timing PLL is out of lock (R460,
R461), and the drive events launched by then come about (R177). A module without power counts nothing. -/
def State.tick (s : State) : State :=
  if s.pwr.on then
    let s := { s with mt := (s.mt + if s.pllLocked then 1 else 40) % 2 ^ 64 }
    (s.chn.map Prod.fst).foldl (fun s c => s.runDrives c) s
  else s

/-- Every sequencer in PRIMING, RUNNING or WAITING ends with a stop cause. -/
def State.endAllRuns (s : State) (cause : Nat) : State :=
  forEach (List.range 16) (fun n s => if s.seqRuns n then s.endRun n cause else s) s

/-- Every measurement ends with cause FAULT (R257, R303). -/
def State.endMeasures (s : State) : State :=
  forEach (List.range 128) (fun c s => (s.tmuEnd c 5).acqEnd c 6) s

/-- PLL_LOCK_LOSS: a MOD-class fault; runs and measurements end; the active master fails (R170, R461). -/
def doPllLockLoss (s : State) : State :=
  s.whenDue (s.pllLocked && !s.pllOff) fun s =>
    let s := (s.wrF Reg.TMG_CLK_STAT 31 31 0).countF Reg.TMG_CLK_STAT 15 0 1
    let s := ((s.irq Reg.TMG_ISTAT 8).modFault 0x300 0).discontinuity
    ((s.endAllRuns causeFAULT).endMeasures).masterFail
/-- Meaning of PLL_LOCK_LOSS. -/
def execPllLockLoss (s : State) : Host.Outcome State Fault Refusal := .next (doPllLockLoss s)

/-- The PLL locks: a slave or standby enters ACQUIRE where it has an upstream lane (R461, R467). -/
def State.pllLock (s : State) : State :=
  let s := s.wrF Reg.TMG_CLK_STAT 31 31 1
  if s.upv && s.mtbState != 5 then s.clearTheta.setMtbState 2 else s

/-- PLL_RELOCK. -/
def doPllRelock (s : State) : State := s.whenDue (!s.pllLocked && !s.pllOff) fun s => s.pllLock
/-- Meaning of PLL_RELOCK. -/
def execPllRelock (s : State) : Host.Outcome State Fault Refusal := .next (doPllRelock s)

/-! ### Delay lines and spares (R22, R177–R179) -/

/-- The channel of tile `t` that the spare stands in for. -/
def State.spareServes (s : State) (t : Nat) : Option Nat := (tileChans t).find? fun c => s.spareStands c

/-- DLL_UNLOCK: the delay line of generator `g` (0–127 a channel's, 128–131 a spare) is off by more than one
tap: a SITE-class fault for the owner, or a NOTE fault; a relock is tried. The owner of a spare that stands in is that of
the channel it serves (log entry 94). -/
def doDllUnlock (g : Nat) (s : State) : State :=
  if g < 128 then
    s.whenDue (bit (s.rd (Reg.CHN_EDGE_STAT g)) 31 && !bit (s.rd (Reg.CHN_EDGE_STAT g)) 30) fun s =>
      let s := s.wrF (Reg.CHN_EDGE_STAT g) 31 31 0
      match s.seqOfCh g with
      | some n => s.detect { src := 0x400 + g, cls := 2, seqNamed := some n }
      | none => s.note (0x400 + g)
  else
    s.whenDue (decide (g < 132) && !s.spareUnlock.testBit (g - 128) && !bit (s.rd Reg.TMG_DLL_FAIL_SP) (g - 128)) fun s =>
      let s := { s with spareUnlock := s.spareUnlock ||| 2 ^ (g - 128) }
      match (s.spareServes (g - 128)).bind s.seqOfCh with
      | some n => s.detect { src := 0x300, cls := 2, addr := g, seqNamed := some n }
      | none => s.note 0x300 0 g
/-- Meaning of DLL_UNLOCK. -/
def execDllUnlock (g : Fin 132) (s : State) : Host.Outcome State Fault Refusal := .next (doDllUnlock g.val s)

/-- The calibration slot on a channel whose delay line fails ends with LOCK (R334). -/
def State.calLockHook (s : State) (c : Nat) : State :=
  match s.cal.slot with
  | some x => if x.target = c then s.calAbort 8 else s
  | none => s

/-- A slot of tile `t` of the kind that `needs` tells ends as if its sequencer had stopped: one that needs the tile's
spare, or any, where calibration of the tile is suspended (R22, R338; log entry 94). -/
def State.tileSlotEnds (s : State) (t : Nat) (needs : CalSlot → Bool) : State :=
  match s.cal.slot with
  | some x => if tileOf x.target = t ∧ needs x = true then s.calAbort 6 else s
  | none => s

/-- A spare that has failed stands in for no channel any more: its tile is without substitution (R179). -/
def State.spareLost (s : State) (t : Nat) : State :=
  let s := s.tileSlotEnds t fun x => x.subst
  let s := match s.spareServes t with
    | some c => s.wrF (Reg.CHN_EDGE_STAT c) 29 28 0
    | none => s
  s.wrF Reg.CAL_TILE (8 * t) (8 * t) 0

/-- A generator is marked failed (R179). -/
def State.dllFailed (s : State) (g : Nat) : State :=
  let s := s.irq Reg.TMG_ISTAT 4
  if g < 128 then
    ((s.wrF (Reg.CHN_EDGE_STAT g) 30 30 1).wrF (Reg.TMG_DLL_FAIL (g / 32)) (g % 32) (g % 32) 1).calLockHook g
  else
    let t := g - 128
    ((((s.wrF Reg.TMG_DLL_FAIL_SP t t 1).wrF Reg.CAL_TILE (8 * t + 3) (8 * t + 3) 1).note 0x300 1 t).calLockHook g).spareLost t

/-- DLL_RELOCK_RESULT: the one relock of R179 succeeds within 10 µs, or fails. -/
def doDllRelockResult (g : Nat) (ok : Bool) (s : State) : State :=
  if g < 128 then
    s.whenDue (!bit (s.rd (Reg.CHN_EDGE_STAT g)) 31 && !bit (s.rd (Reg.CHN_EDGE_STAT g)) 30) fun s =>
      if ok then s.wrF (Reg.CHN_EDGE_STAT g) 31 31 1 else s.dllFailed g
  else
    s.whenDue (s.spareUnlock.testBit (g - 128)) fun s =>
      let s := { s with spareUnlock := s.spareUnlock &&& (15 ^^^ 2 ^ (g - 128)) }
      if ok then s else s.dllFailed g
/-- Meaning of DLL_RELOCK_RESULT. -/
def execDllRelockResult (g : Fin 132) (ok : Bool) (s : State) : Host.Outcome State Fault Refusal :=
  .next (doDllRelockResult g.val ok s)

/-- Tile `t`'s spare is assigned for good. -/
def State.sparePermanent (s : State) (t : Nat) : Bool := bit (s.rd Reg.CAL_TILE) (8 * t)

/-- PERMANENT_SPARE_ASSIGNMENT: the supervisor assigns the tile's spare to a channel whose generator has
failed (R22). A slot of the tile ends first: its calibration is suspended (R22, R338). -/
def doPermanentSpareAssignment (c : Nat) (s : State) : State :=
  let t := c / 32
  s.whenDue (bit (s.rd (Reg.CHN_EDGE_STAT c)) 30 && !bit (s.rd Reg.TMG_DLL_FAIL_SP) t && !s.sparePermanent t) fun s =>
    let s := s.tileSlotEnds t fun _ => true
    let s := (s.wrF (Reg.CHN_EDGE_STAT c) 29 28 3).wrF Reg.CAL_TILE (8 * t) (8 * t) 1
    s.note 0x800 0 t
/-- Meaning of PERMANENT_SPARE_ASSIGNMENT. -/
def execPermanentSpareAssignment (ch : Fin 128) (s : State) : Host.Outcome State Fault Refusal :=
  .next (doPermanentSpareAssignment ch.val s)

/-! ### Pace monitors and VCORE (R187–R189) -/

/-- VCORE in mV. -/
def State.vcore (s : State) : Nat := s.rdF Reg.TMG_VCORE 9 0

/-- The voltage loop meets a lowest margin (R31, R189): below 1.25 it raises VCORE by 5 mV, or notes once that the margin
is low at the ceiling, where MODE 1 holds VCORE too. -/
def State.avsRaise (s : State) (low : Nat) : State :=
  let s := if s.rdF Reg.TMG_AVS_CTL 0 0 = 1 then s.wrF Reg.TMG_VCORE 9 0 850 else s
  if 0x140 ≤ low then { s with paceNoted := false }
  else if s.vcore < 850 then s.wrF Reg.TMG_VCORE 9 0 (min 850 (s.vcore + 5))
  else if s.paceNoted then s
  else ({ s with paceNoted := true }.irq Reg.TMG_ISTAT 2).note 0x300 2

/-- PACE_MONITOR_UPDATE: monitor `m` reports a margin, 0xFFFF while its pipeline has no demand (R187). The millisecond of R189 begins where the lowest margin comes
to 1.40 (0x0167 is the first code not below it). -/
def doPaceMonitorUpdate (m : Nat) (margin : Word) (s : State) : State :=
  s.whenDue (decide (m < 67)) fun s =>
    let was := s.lowestMargin.1
    let s := { s with pace := kset (fun _ => 0xFFFF) s.pace m (if s.demand m then margin.toNat % 65536 else 0xFFFF) }
    let low := s.lowestMargin.1
    let s := if low < s.rdF Reg.TMG_PACE_LOW 15 0 then s.wrN Reg.TMG_PACE_LOW s.paceMin else s
    let s := if was < 0x167 ∨ low < 0x167 then { s with avsFrom := s.mt } else s
    s.avsRaise low
/-- Meaning of PACE_MONITOR_UPDATE. -/
def execPaceMonitorUpdate (m : Fin 67) (margin : BitVec 16) (s : State) : Host.Outcome State Fault Refusal :=
  .next (doPaceMonitorUpdate m.val (margin.zeroExtend 32) s)

/-- AVS_LOWER: the lowest margin has stayed at or above 1.40 for a whole millisecond, which begins anew with each step. -/
def doAvsLower (s : State) : State :=
  s.whenDue (s.rdF Reg.TMG_AVS_CTL 0 0 == 0 && decide (0x167 ≤ s.lowestMargin.1) && decide (650 < s.vcore) &&
      decide (s.avsFrom + 4000000 ≤ s.mt)) fun s =>
    { s with avsFrom := s.mt }.wrF Reg.TMG_VCORE 9 0 (max 650 (s.vcore - 5))
/-- Meaning of AVS_LOWER. -/
def execAvsLower (s : State) : Host.Outcome State Fault Refusal := .next (doAvsLower s)

end Sys2Proof.Machine
end

