-- ==== Sys2Proof/Machine/Sti.lean ====
section
/-! DEFINITION. Structure operations (R56–R72): the commands of STI_CMD, and a load from its stop step through
draining to the configure step; the configure step is also what a start does with the boot image. -/

namespace Sys2Proof.Machine

open Sys2Proof

/-- Block number of STI. -/
def blkSTI : Nat := 0x100

/-! ### How an operation ends (R57, R58, R67, R72) -/

/-- STI_STAT: DONE, REJ, BUSY and PHASE of an ended operation. -/
def State.stiEnds (s : State) (rej : Bool) : State :=
  let s := (s.clrBits Reg.STI_STAT 0x3F).setBits Reg.STI_STAT (if rej then 32 else 16)
  { s with sti := none }.irq Reg.STI_ISTAT (if rej then 2 else 1)

/-- An operation completes. -/
def State.stiDone (s : State) : State := s.stiEnds false

/-- A rejection (R57, R58); RETRIED where a read or a check has failed twice (R68, R488, R492). One that is no failure of an image has no failing item and shows offset 0 (log entry 59). -/
def State.stiReject (s : State) (dom : Nat) (r : Rej) (chk : Nat := 7) (inj : Bool := false)
    (retried : Bool := inj) : State :=
  (((s.stiEnds true).wrN Reg.STI_ERR (256 * r.sec + r.reason)).wrN Reg.STI_ERR_OFS r.ofs).detect
    { src := blkSTI, chk := chk, code := r.reason, addr := Reg.STI_CMD, rkind := 1, access := 1, rid := dom,
      inj := inj, retried := retried }

/-- A command while an operation runs is discarded (R67). -/
def State.stiBusy (s : State) (dom : Nat) : State := (s.wrN Reg.STI_ERR 0x11).noteReg dom Reg.STI_CMD 0x11

/-- A write of STI_CMD with operation `op` (R57): BUSY, then FAULT_HELD but for a CHECK, come first. -/
def State.stiCmd (s : State) (dom op : Nat) (v : Word) (k : State → State) : State :=
  s.hostWrite dom Reg.STI_CMD fun s =>
    if fld v 3 0 ≠ op then s
    else if s.sti.isSome then s.stiBusy dom
    else if op ≠ 3 ∧ s.modHeld then s.stiReject dom ⟨0x1C, 0, 0⟩
    else k s

/-! ### Reading an image (R57, R68, R70, R71) -/

/-- The image in NOR slot `k`: none where its trailer is not valid. -/
def State.slotImage (s : State) (k : Nat) : Option (List Byte) :=
  let n := leNat (s.norRd (norTrailer k) 4)
  if n ≤ 1048576 ∧ crc32c (s.norRd (norImage k) n) = leNat (s.norRd (norTrailer k + 4) 4) then
    some (s.norRd (norImage k) n)
  else none

/-- A read of module DRAM for an image. -/
def State.stiDram (s : State) (a n : Nat) : State × Option (List Byte) :=
  let r := s.dramAsk { cls := 2, rkind := 7 } 0 a n
  (r.1, if r.2 then none else some (r.1.dramBytes a n))

/-- The image an operation works on, with `fails` failed attempts of its source read (R68): none where the read
failed twice. An empty slot has nothing that could be an image. -/
def State.stiFetch (s : State) (nor : Bool) (slot fails : Nat) : State × Option (List Byte) :=
  let s := if fails = 1 then s.detect { src := blkSTI, cls := 1, chk := 3, retried := true } else s
  if 2 ≤ fails then (s, none)
  else if nor then (s, some ((s.slotImage slot).getD (List.replicate 64 0xFF)))
  else
    let a := s.rdWide Reg.STI_SRC_LO 2 % 2 ^ 42
    let h := s.stiDram a 64
    match h.2 with
    | none => h
    | some b => if imgLenOk b then h.1.stiDram a (imgLen b) else h

/-- An image is fetched and checked (R58), and accepted by `k` or rejected; `op` and `t` as in `headReject`. -/
def State.stiExamine (s : State) (dom : Nat) (nor : Bool) (slot fails op t : Nat) (k : List Byte → State → State) :
    State :=
  let f := s.stiFetch nor slot fails
  match f.2 with
  | none => f.1.stiReject dom ⟨0x13, 0, 0⟩ 3 false true
  | some b =>
    let i := if (headReject b op t).isSome then (f.1, false) else f.1.injTake blkSTI 3
    match i.1.imgReject b op t i.2 with
    | some r => i.1.stiReject dom r 3 i.2
    | none => k b i.1

/-- An operation begins (R57): BUSY and its phase; a load clears the marks of the last load (R72). -/
def State.stiBegin (s : State) (o : StiOp) (phase : Nat) : State :=
  { (s.clrBits Reg.STI_STAT (if o.op = 4 then 0x3F else 0x27F)).setBits Reg.STI_STAT (1 + 2 * phase) with sti := some o }

/-! ### Commands -/

/-- LOAD_WHOLE or LOAD_TILE: the image is checked before any work stops. -/
def State.stiLoad (s : State) (dom op : Nat) (v : Word) (fails : Nat) : State :=
  s.stiCmd dom op v fun s =>
    s.stiExamine dom (bit v 11) (fld v 14 12) fails op (fld v 9 8) fun b s =>
      s.stiBegin { op := op, tile := fld v 9 8, image := b } 4

/-- STI_LOAD_WHOLE. -/
def doStiLoadWhole (dom : Nat) (v : Word) (fails : Nat) (s : State) : State := s.stiLoad dom 1 v fails
/-- Meaning of STI_LOAD_WHOLE. -/
def execStiLoadWhole (dom : Fin 16) (v : Word) (fails : Fin 3) (s : State) : Host.Outcome State Fault Refusal :=
  .next (doStiLoadWhole dom.val v fails.val s)

/-- STI_LOAD_TILE. -/
def doStiLoadTile (dom : Nat) (v : Word) (fails : Nat) (s : State) : State := s.stiLoad dom 2 v fails
/-- Meaning of STI_LOAD_TILE. -/
def execStiLoadTile (dom : Fin 16) (v : Word) (fails : Fin 3) (s : State) : Host.Outcome State Fault Refusal :=
  .next (doStiLoadTile dom.val v fails.val s)

/-- STI_CHECK: the checks alone, against the image's own KIND (R58). -/
def doStiCheck (dom : Nat) (v : Word) (fails : Nat) (s : State) : State :=
  s.stiCmd dom 3 v fun s => s.stiExamine dom (bit v 11) (fld v 14 12) fails 0 0 fun _ s => s.stiDone
/-- Meaning of STI_CHECK. -/
def execStiCheck (dom : Fin 16) (v : Word) (fails : Fin 3) (s : State) : Host.Outcome State Fault Refusal :=
  .next (doStiCheck dom.val v fails.val s)

/-- STI_STORE: an image of DRAM is checked, and then written to a slot, its trailer last (R70). -/
def doStiStore (dom : Nat) (v : Word) (fails : Nat) (s : State) : State :=
  let k := fld v 14 12
  s.stiCmd dom 4 v fun s =>
    if s.supSwitch then s.stiBusy dom
    else if s.pfw then s.norPfw.stiReject dom ⟨0x14, 0, 0⟩
    else s.stiExamine dom false k fails 0 0 fun b s =>
      (s.stiBegin { op := 4, slot := k } 6).norPush
        { user := 1, region := 5, erases := [(norTrailer k, 65536), (norImage k, 0x100000)],
          writes := [(norImage k, b), (norTrailer k, leBytes 4 b.length ++ leBytes 4 (crc32c b))] }
/-- Meaning of STI_STORE. -/
def execStiStore (dom : Fin 16) (v : Word) (fails : Fin 3) (s : State) : Host.Outcome State Fault Refusal :=
  .next (doStiStore dom.val v fails.val s)

/-- The reason for which a REVOKE of key slot `k` is refused (R56); 0 none. -/
def State.revokeBar (s : State) (k : Nat) : Nat :=
  let keys := s.rd Reg.STI_KEYS
  if !bit keys k then 0x1A
  else if bit keys (4 + k) then 0x1B
  else if (List.range 4).all fun j => j == k || !bit keys j || bit keys (4 + j) then 0x19
  else if s.pfw then 0x14
  else 0

/-- REVOKE of slots 0–3 (R56). -/
def doRevoke (dom : Nat) (v : Word) (s : State) : State :=
  let k := fld v 14 12
  s.hostWrite dom Reg.STI_CMD fun s =>
    if fld v 3 0 ≠ 6 ∨ 4 ≤ k then s
    else if s.sti.isSome then s.stiBusy dom
    else if s.modHeld then s.stiReject dom ⟨0x1C, 0, 0⟩
    else if s.revokeBar k ≠ 0 then s.stiReject dom ⟨s.revokeBar k, 0, 0⟩
    else (s.setBits Reg.STI_KEYS (2 ^ (4 + k))).stiDone
/-- Meaning of REVOKE. -/
def execRevoke (dom : Fin 16) (v : Word) (s : State) : Host.Outcome State Fault Refusal := .next (doRevoke dom.val v s)

/-- STI_BAD_CMD: an OP the table does not give, or a REVOKE of slots 4–7 (R57, R72). BAD_CMD comes before FAULT_HELD
(log entry 59). -/
def doStiBadCmd (dom : Nat) (v : Word) (s : State) : State :=
  let op := fld v 3 0
  s.hostWrite dom Reg.STI_CMD fun s =>
    if !(op == 0 || op == 5 || decide (7 ≤ op) || (op == 6 && decide (4 ≤ fld v 14 12))) then s
    else if s.sti.isSome then s.stiBusy dom
    else s.stiReject dom ⟨0x12, 0, 0⟩
/-- Meaning of STI_BAD_CMD. -/
def execStiBadCmd (dom : Fin 16) (v : Word) (s : State) : Host.Outcome State Fault Refusal :=
  .next (doStiBadCmd dom.val v s)

/-! ### The stop step (R62, R63) -/

/-- A load is in its phase `p`. -/
def State.stiAt (s : State) (p : Nat) : Option StiOp :=
  match s.sti with
  | some o => if (o.op = 1 ∨ o.op = 2) ∧ o.phase = p then some o else none
  | none => none

/-- The tiles a load reloads. -/
def StiOp.tiles (o : StiOp) : List Nat := if o.op = 1 then [0, 1, 2, 3] else [o.tile]
/-- The channels a load reloads. -/
def StiOp.chans (o : StiOp) : List Nat := (List.range 128).filter fun c => o.tiles.contains (c / 32)
/-- The sequencers of a load's stopped set. -/
def StiOp.seqs (o : StiOp) : List Nat := bitsOf 16 o.stopped

/-- Everything a load measures or samples on channel `c` stops (R62). -/
def State.stiStopChan (s : State) (c : Nat) : State :=
  ((((s.ringCut c).frameCut c).tmuEnd c 3).acqEnd c 5).reflAbort c

/-- STI_STOP_STEP: the stopped set, measurements, calibration and DMA stop, and the graphs in scope drain. -/
def doStiStopStep (s : State) : State :=
  match s.stiAt 0 with
  | none => s
  | some o =>
    s.whenDue true fun s =>
      let seqs := if o.op = 1 then List.range 16 else s.tileSet o.tile
      let o := { o with phase := 1, stopped := maskOf seqs, stopAt := s.mt }
      let scope := (s.graphsInScope o.image).map (·.id)
      let s := { s with sti := some o }.wrN Reg.STI_STOPPED o.stopped
      let s := (s.wrN Reg.STI_LOST 0).clrBits Reg.STI_STAT 256
      let s := forEach seqs (fun n s => if s.seqRuns n then s.endRun n causeSTRUCTURE else s) s
      let s := forEach o.chans (fun c s => s.stiStopChan c) s
      let s := forEach o.tiles (fun t s => (s.wrF Reg.CAL_TILE (8 * t + 1) (8 * t + 1) 1).calTileStop t) s
      let s := if o.op = 1 then forEach (List.range 16) (fun n s => s.dmaPause n) s else s
      { s with ane := { s.ane with draining := scope } }
/-- Meaning of STI_STOP_STEP. -/
def execStiStopStep (s : State) : Host.Outcome State Fault Refusal := .next (doStiStopStep s)

/-! ### Draining (R63, R65, R362) -/

/-- Flows of the graphs that drain. -/
def State.drainFlows (s : State) : List Nat :=
  (s.str.graphs.filter fun g => s.ane.draining.contains g.id).flatMap fun g => g.flows.map (·.flow)

/-- The load changes the Contact Sheet area of SQn (R63, R235). -/
def State.csChanges (s : State) (x : Structure) (n : Nat) : Bool :=
  let a := s.carveOf n
  let b := kget (fun _ => ({} : Carve)) x.carve n
  a.csBase != b.csBase || a.csSize != b.csSize

/-- The sequencers of a load whose sheets it moves. -/
def State.csMoved (s : State) (o : StiOp) : List Nat :=
  let x := s.imgStr o.image
  o.seqs.filter (s.csChanges x)

/-- Every sequencer of the stopped set is STOPPED with its closing epoch out, and the draining flows are empty. -/
def State.drained (s : State) (o : StiOp) : Bool :=
  (o.seqs.all fun n => s.seqStopped n && (s.sq n).epochs.isEmpty) &&
    (s.drainFlows.all fun f => (s.fw f).pool.isEmpty && (s.fw f).spill.isEmpty)

/-- STI_DRAIN_DONE: the drain and the Contact Sheet wait end; the configure step begins (R63, R65). -/
def doStiDrainDone (s : State) : State :=
  let go := fun (o : StiOp) (due : Bool) => s.whenDue due fun s =>
    { s with sti := some { o with phase := 3 } }.wrF Reg.STI_STAT 3 1 5
  match s.stiAt 1, s.stiAt 2 with
  | some o, _ => go o (s.drained o && (s.csMoved o).all fun n => (s.sq n).sheet.held.isNone)
  | none, some o => go o (s.drained o)
  | none, none => s
/-- Meaning of STI_DRAIN_DONE. -/
def execStiDrainDone (s : State) : Host.Outcome State Fault Refusal := .next (doStiDrainDone s)

/-- The items of flow `f` are lost as RECONFIGURED and counted in STI_LOST, fail-log records by their channels and in the
epochs that wait too; its markers stay (R65, R212, R362). -/
def State.drainLose (s : State) (f : Nat) : State :=
  let u := s.fw f
  let all := u.pool ++ u.spill
  let items := all.filterMap fun e => match e with | .item d _ => some d | .marker _ => none
  let failLog := match s.graphOf f with | some g => (g.entry f).kind == 1 | none => false
  let s := items.foldl (fun s d => s.loseItem f 4 d) s
  let s := if failLog then s.flogLosses (items.map fun d => (4, d)) else s
  let s := s.setFw f { s.fw f with pool := all.filter fun e => !e.isItem, slots := [], spill := [], spHead := 0 }
  let s := s.count Reg.STI_LOST items.length
  if items.isEmpty then s else s.setBits Reg.STI_STAT 256

/-- A buffer still HELD at the drain limit is released (R63). -/
def State.heldFree (s : State) (n : Nat) : State :=
  if (s.sq n).sheet.held.isNone then s
  else ((s.releaseHeld n).setBits Reg.STI_STAT 512).note blkSTI 0 (Reg.CSH_REL n)

/-- The drain limit in ticks. -/
def State.drainLimit (s : State) : Nat := 4000 * min 10000 (s.rdF Reg.STI_DRAIN 13 0)

/-- STI_DRAIN_EXPIRY: the drain limit expires (R63, R65). -/
def doStiDrainExpiry (s : State) : State :=
  match s.stiAt 1 with
  | none => s
  | some o =>
    s.whenDue (decide (o.stopAt + s.drainLimit ≤ s.mt)) fun s =>
      let s := forEach s.drainFlows (fun f s => s.drainLose f) s
      let s := forEach (s.csMoved o) (fun n s => s.heldFree n) s
      { s with sti := some { o with phase := 2 } }
/-- Meaning of STI_DRAIN_EXPIRY. -/
def execStiDrainExpiry (s : State) : Host.Outcome State Fault Refusal := .next (doStiDrainExpiry s)

/-! ### The configure step (R62–R64, R71, R235) -/

/-- `n` bytes of on-chip SRAM from BAR4 offset `a` hold values the manual leaves open (log entry 5). -/
def State.freeFill (s : State) (a n : Nat) : State :=
  { s.sramWr a ((List.range n).map fun i => BitVec.ofNat 8 (Config.freeValue (s.free + i))) with free := s.free + n }

/-- The sequence store and vector buffers of SQn are undefined where their carve changes (R48). -/
def State.carveMoved (s : State) (old new : Carve) : State :=
  let go := fun (b0 b1 z0 z1 base : Nat) (s : State) => if b0 = b1 ∧ z0 = z1 then s else s.freeFill (base + 4096 * b1) (4096 * z1)
  go old.sqsBase new.sqsBase old.sqsSize new.sqsSize 0
    (go old.vbpBase new.vbpBase old.vbpSize new.vbpSize vbBase
      (go old.vblBase new.vblBase old.vblSize new.vblSize vbBase s))

/-- The node state of the graphs of the new structure: a graph that stays keeps its state at its new place, a
new one begins at 0 (R360). -/
def State.graphState (s : State) (old new : List Graph) (kept : List Nat) : State :=
  new.foldl (fun t g =>
    let n := g.stateBytes
    match old.find? fun h => h.id == g.id && kept.contains g.id with
    | some h => t.sramWr (0x2F00000 + g.base) (s.sramRd (0x2F00000 + h.base) n)
    | none => t.sramWr (0x2F00000 + g.base) (List.replicate n 0)) s

/-- The ticks of open runs, by node, at the new places of the graphs that stay (R359). -/
def State.runsMoved (s : State) (old new : List Graph) : KMap Nat :=
  new.foldl (fun m g =>
    match old.find? fun h => h.id == g.id with
    | none => m
    | some h =>
      (List.range g.nodes.length).foldl (fun m i => kset (fun _ => 0) m (g.nodeAt i) (s.runAt (h.nodeAt i))) m) []

/-- The analysis side takes the new graphs: contexts of the flows of replaced graphs are fresh, and a CLRMAP of a graph that
goes ends. -/
def State.graphsLoad (s : State) (x : Structure) (scope : List Graph) : State :=
  let keptOld := s.str.graphs.filter fun g => !(scope.any (·.id == g.id))
  let kept := keptOld.map (·.id)
  let gone := scope.flatMap fun g => g.flows.map (·.flow)
  let runs := s.runsMoved keptOld (x.graphs.filter fun g => kept.contains g.id)
  let s := s.graphState s.str.graphs x.graphs kept
  let s := forEach gone (fun f s => s.setFw f {}) s
  let s := forEach (List.range 32) (fun e s =>
    let u := s.eng e
    let s := if u.ready.isEmpty then s else s.workNow 3 e
    s.setEng e { u with ready := u.ready.filter fun f => !gone.contains f }) s
  let s := if (s.ane.clearing.filter kept.contains).isNone then (s.wrF Reg.ANE_STAT 31 31 0).wrF Reg.ANE_STAT 30 23 0 else s
  { s with ane := { s.ane with
      draining := [], runAt := runs, noEngine := s.ane.noEngine.filter kept.contains,
      clearing := s.ane.clearing.filter kept.contains } }

/-- The sheet of SQn: three FREE buffers, no NEWEST (R235). -/
def State.sheetFresh (s : State) (n : Nat) : State :=
  (s.setSq n { s.sq n with sheet := {} }).wrWide (Reg.CSH_AEPOCH_LO n) 2 0

/-- A staged write is discarded: the register shows what is applied (R64). -/
def State.dropStaged (s : State) (a : Nat) : State := (s.wr a (s.apv a)).unstage a

/-- The staged writes of the stopped set and of the reloaded channels are discarded (R64). -/
def State.dropAllStaged (s : State) (seqs chans : List Nat) : State :=
  let l := (s.staged.map Prod.fst).filter fun a =>
    if a < 0x400000 then seqs.contains ((a - 0x200000) / 0x10000)
    else if a < 0x600000 then seqs.contains ((a - 0x400000) / 0x1000)
    else chans.contains (a % 0x100000 / 0x1000 % 128)
  let pers := (s.perStg.map Prod.fst).filter fun k => seqs.contains (k / 16)
  let s := forEach l (fun a s => s.dropStaged a) s
  let s := forEach pers (fun k s =>
    let n := k / 16
    let e := k % 16
    let s := (s.wr (Reg.TMG_PER_LO n e) (s.apv (Reg.TMG_PER_LO n e))).wr (Reg.TMG_PER_HI n e) (s.apv (Reg.TMG_PER_HI n e))
    { s with perStg := kset (fun _ => none) s.perStg k none }) s
  if l.isEmpty && pers.isEmpty then s else s.setBits Reg.STI_STAT 64

/-- The empty entry of slot `i` (R430). -/
def emptyEntry (i : Nat) : PtEntry := (slotKind i * 2 ^ 20 + slotIndex i, 0, 0, 0)

/-- Protection slots that a load replaces (R60, R62). -/
def protScope (b : List Byte) (seqs : List Nat) : List Nat :=
  if imgKind b = 1 then List.range 304
  else if (imgSec b 8).isNone then []
  else (List.range 304).filter fun i =>
    match slotKind i with
    | 1 => seqs.contains (slotIndex i)
    | 2 => slotIndex i / 32 == imgTile b
    | 4 => seqs.contains (slotIndex i)
    | _ => false

/-- PROT takes effect: a slot in scope takes the entry that names it, or becomes empty. -/
def State.protLoad (s : State) (b : List Byte) (seqs : List Nat) : State :=
  let l := protEntries b
  forEach (protScope b seqs) (fun i s =>
    s.setPt i (match l.find? fun x => entrySlot x.2 == some i with | some x => x.2 | none => emptyEntry i)) s

/-- Ports whose LANE entry changes go down, and are brought up again where it is on (R62). -/
def State.lanesLoad (s : State) (old : Structure) : State :=
  forEach (List.range 4) (fun p s =>
    if kget (fun _ => none) old.lane p = s.peerOf p then s
    else
      let s := s.portDown p
      if (s.peerOf p).isSome then s.portUp p else s) s

/-- The registers that name the image in force (R72). -/
def State.genLoad (s : State) (b : List Byte) : State :=
  let digest := sha384 (b.take (imgLen b - 128))
  let s := forEach (List.range 12) (fun i s => s.wrN (Reg.STI_DIGEST i) (getLE digest (4 * i) 4)) s
  let s := s.clrBits Reg.STI_STAT 128
  let gen := getLE b 0x10 4
  if imgKind b = 1 then
    forEach (List.range 4) (fun t s => s.wrN (Reg.STI_TGEN0 + 4 * t) 0) (s.wrN Reg.STI_GEN gen)
  else s.wrN (Reg.STI_TGEN0 + 4 * imgTile b) gen

/-- A channel that comes under a sequencer, which is STOPPED then, takes its idle LEVEL (R166). -/
def State.idleOwned (s : State) (c : Nat) : State :=
  if (s.seqOfCh c).isSome && s.chStopped c then s.idleLevel c (65536 * s.mt) else s

/-- Image `b` comes into force, with the sequencers and channels that it stopped, but for the ports (R62, R71). -/
def State.applyImage (s : State) (b : List Byte) (seqs chans : List Nat) : State :=
  let old := s.str
  let x := s.imgStr b
  let moved := (List.range 16).filter (s.csChanges x)
  let s := s.dropAllStaged seqs chans
  let s := s.graphsLoad x (s.graphsInScope b)
  let s := forEach (List.range 16) (fun n s =>
    s.carveMoved (kget (fun _ => {}) old.carve n) (kget (fun _ => {}) x.carve n)) s
  let s := forEach moved (fun n s => s.sheetFresh n) s
  let was := fun (c : Nat) => kget (fun _ => none) old.siteOf c
  let s := forEach (chans.filter fun c => (kget (fun _ => none) x.siteOf c).isNone) (fun c s => s.landOff c s.now1024) s
  let s := forEach chans (fun c s => s.setCh c { s.ch c with path := s.pathOf c }) s
  let s := { s with str := x }
  let s := forEach (chans.filter fun c => ((was c).bind fun t => kget (fun _ => none) old.ownerOf t) != s.seqOfCh c)
    (fun c s => s.idleOwned c) s
  let s := (s.protLoad b seqs).genLoad b
  s.str.graphs.foldl (fun s g => s.noteNoEngine g) s

/-- STI_CONFIGURE_DONE: the new structure is in force, and what the load paused goes on (R62). -/
def doStiConfigureDone (s : State) : State :=
  match s.stiAt 3 with
  | none => s
  | some o =>
    s.whenDue true fun s =>
      let s := (s.applyImage o.image o.seqs o.chans).lanesLoad s.str
      let s := forEach o.tiles (fun t s => s.wrF Reg.CAL_TILE (8 * t + 1) (8 * t + 1) 0) s
      let s := if o.op = 1 then forEach (List.range 16) (fun n s => s.dmaUnpause n) s else s
      s.stiDone
/-- Meaning of STI_CONFIGURE_DONE. -/
def execStiConfigureDone (s : State) : Host.Outcome State Fault Refusal := .next (doStiConfigureDone s)

/-! ### The boot slot (R72) -/

/-- STI_BOOT_WRITE: stored in NOR; refused under PFW_N, and the register keeps its value (R504, R514). -/
def doStiBootWrite (dom : Nat) (v : Word) (s : State) : State :=
  s.hostWrite dom Reg.STI_BOOT fun s =>
    if s.pfw then s.norPfw.noteReg dom Reg.STI_BOOT 0x14
    else (s.wrRow Reg.STI_BOOT v).norPush (identityOp 1 norBoot (fld v 2 0))
/-- Meaning of STI_BOOT_WRITE. -/
def execStiBootWrite (dom : Fin 16) (v : Word) (s : State) : Host.Outcome State Fault Refusal :=
  .next (doStiBootWrite dom.val v s)

end Sys2Proof.Machine
end

