-- ==== Sys2Proof/Machine/Flt.lean ====
section
/-! DEFINITION. Fault collection and reaction (R481–R496): rounds of the collector, records, the reactions of the
classes, injection, and the commands of FLT. -/

namespace Sys2Proof.Machine

open Sys2Proof

/-! ### Reactions (R481, R483–R486) -/

/-- The reaction to a MOD-class fault (R484): what runs ends, an active master fails, SAFELIGHT stops. -/
def State.modReact (s : State) : State :=
  let s := (s.endAllRuns causeFAULT).endMeasures
  let s := forEach (List.range 16) (fun n s => if s.dmaState n = 0 then s else s.dmaStopNow n) s
  (s.masterFail.wrF Reg.FLT_STAT 29 29 0).wrF Reg.FLT_STAT 30 30 1

/-- The pin electronics of channel `c` under GRAVE: load and PMU off (R485). -/
def State.graveChan (s : State) (c : Nat) : State :=
  let s := s.pmuOff c
  let a := Reg.PEL_DRV_CTL c
  (s.wrF a 30 30 0).setApv a (setFld (s.apv a) 30 30 0)

/-- The GRAVE record's NOR write: the record first, its CRC last (R493). -/
def graveOp (ws : List Nat) : NorOp :=
  let r := (ws.map (leBytes 4)).flatten
  { user := 5, region := 3, erases := [(norGrave, 4096)], writes := [(norGrave, r), (norGrave + 32, leBytes 4 (crc32c r))] }

/-- The reaction to a GRAVE-class fault with record `ws`: drivers at high impedance, loads and PMUs off, ports
down, the flash interrupted and given the record (R485, R493). -/
def State.graveReact (s : State) (ws : List Nat) : State :=
  let s := s.modReact
  let s := forEach (List.range 128) (fun c s => s.landOff c s.now1024) s
  let s := s.wrF Reg.FLT_STAT 31 31 1
  let s := forEach (List.range 128) (fun c s => s.graveChan c) s
  let s := forEach (List.range 4) (fun p s => s.portDown p) s
  let s := s.norAbort
  if s.pfw then s else s.norPush (graveOp ws)

/-- The reaction to a SITE-class fault: the sequencer it names stops, unless it raised the fault itself and has
stopped already (R113, R481, R483). -/
def State.siteReact (s : State) (r : FaultRec) : State :=
  match r.seqNamed with
  | some n =>
    let s := s.wrF Reg.FLT_SITE n n 1
    if !r.selfRaised && s.seqRuns n then s.endRun n causeFAULT else s
  | none => s

/-! ### Records (R489–R491) -/

/-- The words of a record; `also` are the other faults of its round. -/
def FaultRec.words (r : FaultRec) (num : Nat) (also : List FaultRec) : List Nat :=
  [r.addr % 2 ^ 32, r.addr / 2 ^ 32 % 2 ^ 32, r.mt % 2 ^ 32, r.mt / 2 ^ 32 % 2 ^ 32,
   r.src % 2 ^ 16 * 2 ^ 16 + r.cls % 8 * 2 ^ 13 + b2n r.inj * 2 ^ 12 + b2n r.retried * 2 ^ 11 + r.chk % 8 * 2 ^ 8 +
     r.code % 256,
   r.rkind % 16 * 2 ^ 28 + r.access % 16 * 2 ^ 24 + r.rid % 2 ^ 16,
   maskOf (also.map (·.cls)) % 32 * 2 ^ 24 + maskOf (also.map (·.src / 256)) % 2 ^ 20,
   num % 2 ^ 32]

/-- Store the words of a record from address `a`. -/
def State.putWords (s : State) (a : Nat) : List Nat → State
  | [] => s
  | w :: ws => (s.wrN a w).putWords (a + 4) ws

/-- A record is recorded and counted (R481, R491). -/
def State.record (s : State) (cls : Nat) (ws : List Nat) : State :=
  let ctl := s.rd Reg.FLT_CTL
  let s := (s.count (Reg.FLT_CNT cls) 1).irq Reg.FLT_ISTAT (2 ^ cls)
  let s := if s.rd (Reg.FLT_FIRST 7) = 0 ∧ min 4 (fld ctl 6 4) ≤ cls then
      (s.putWords (Reg.FLT_FIRST 0) ws).irq Reg.FLT_ISTAT 32
    else s
  let s := if s.rd (Reg.FLT_WORST 7) = 0 ∨ s.rdF (Reg.FLT_WORST 4) 15 13 < cls then s.putWords (Reg.FLT_WORST 0) ws else s
  if min 4 (fld ctl 2 0) ≤ cls then
    let k := (s.rd Reg.FLT_LOG_WR).toNat + 1
    (s.putWords (Reg.FLT_LOG (8 * (k % 64))) ws).wrN Reg.FLT_LOG_WR k
  else s

/-- One fault comes before another in its round (R490); the keys stand for the arbiter of R34. -/
def FaultRec.before (a b : Nat × FaultRec) : Bool :=
  let x := a.2
  let y := b.2
  if x.cls ≠ y.cls then decide (y.cls < x.cls)
  else if x.src ≠ y.src then decide (x.src < y.src)
  else if x.chk ≠ y.chk then decide (x.chk < y.chk)
  else decide (a.1 ≤ b.1)

/-- Insert a fault in order. -/
def insertFault (x : Nat × FaultRec) : List (Nat × FaultRec) → List (Nat × FaultRec)
  | [] => [x]
  | y :: l => if FaultRec.before x y then x :: y :: l else y :: insertFault x l

/-- The faults of a round in the collector's order, each with its place. -/
def State.ordered (s : State) (l : List FaultRec) : List FaultRec :=
  ((l.zipIdx.map fun x => (Config.arbiterKey (s.free + x.2), x.1)).foldl (fun a x => insertFault x a) []).map (·.2)

/-- The faults of an ordered round are numbered and recorded, one after the other. -/
def State.recordAll (s : State) (all : List FaultRec) : List (FaultRec × Nat) → State
  | [] => s
  | (r, i) :: l =>
    let num := s.fltNum + 1
    ({ s with fltNum := num }.record r.cls (r.words num (all.eraseIdx i))).recordAll all l

/-- The reaction that a round with the ordered faults `l`, numbered from `n0`, starts (R482–R486, R492). -/
def State.react (s : State) (l : List FaultRec) (n0 : Nat) : State :=
  let held := s.modHeld
  let s := if held then s else (l.filter (·.cls == 2)).foldl (fun s r => s.siteReact r) s
  match l.zipIdx.find? fun x => x.1.cls == 4 && !x.1.inj with
  | some (r, i) => if s.graveHeld then s else s.graveReact (r.words (n0 + i) (l.eraseIdx i))
  | none => if !held && l.any fun r => decide (3 ≤ r.cls) then s.modReact else s

/-! ### Rounds (R482, R490) -/

/-- The oldest round with faults ends. -/
def State.closeRound (s : State) : State :=
  match s.round with
  | [] => s
  | r :: _ =>
    let k := r.mt / 16
    let l := s.ordered (s.round.filter fun x => x.mt / 16 == k)
    let s := { s with round := s.round.filter fun x => x.mt / 16 != k, free := s.free + l.length }
    (s.recordAll l l.zipIdx).react l (s.fltNum + 1)

/-- FAULT_ROUND: a round of 16 ticks has ended; a step of Module Time may have ended it (R466). -/
def doFaultRound (s : State) : State :=
  match s.round with
  | [] => s
  | r :: _ => s.whenOn (r.mt / 16 != s.mt / 16) fun s => s.closeRound
/-- Meaning of FAULT_ROUND. -/
def execFaultRound (s : State) : Host.Outcome State Fault Refusal := .next (doFaultRound s)

/-- A fault reaches the collector now; a SITE-class fault whose sequencer does not run becomes NOTE (R483). -/
def State.collect (s : State) (r : FaultRec) : State :=
  let s := match s.round with | x :: _ => if x.mt / 16 ≠ s.mt / 16 then s.closeRound else s | [] => s
  let idle : Bool := match r.seqNamed with | some n => s.seqStopped n | none => true
  let cls := if r.cls = 2 ∧ !r.selfRaised ∧ idle then 0 else r.cls
  { s with round := s.round ++ [{ r with cls := cls, mt := s.mt }] }

/-- Instances of the block with index `i` (R421). -/
def blockCount (i : Nat) : Nat :=
  match i with
  | 2 => 16 | 3 => 16 | 4 => 128 | 5 => 128 | 6 => 128 | 7 => 128 | 8 => 128 | 9 => 16 | 10 => 32 | 11 => 8 | 12 => 16
  | 14 => 4
  | _ => if i ≤ 0x13 then 1 else 0

/-- Block `b` has checker `chk` (log entry 45): SECDED where it holds SRAM, parity and the transfer check
everywhere, a check word of its own in STI, CAL, DRC, DMA and LNK. -/
def hasChecker (b chk : Nat) : Bool :=
  let i := b / 256
  decide (b % 256 < blockCount i) &&
    match chk with
    | 0 => [2, 4, 6, 8, 9, 10, 13].contains i
    | 1 => true
    | 2 => true
    | 3 => [1, 8, 11, 12, 14].contains i
    | _ => false

/-- The class of a lasting fault of checker `chk` of block `src` (R487): SRAM by what it holds, parity and the transfer
check MOD, the signature checker of STI and the key fuses that it checks GRAVE (log entry 45), any other check word NOTE. -/
def lastingClass (src chk : Nat) : Nat :=
  match chk with
  | 0 =>
    match src / 256 with
    | 2 | 4 => 2
    | 8 | 9 | 10 => 3
    | 13 => 4
    | _ => 0
  | 1 | 2 => 3
  | 3 => if src / 256 = 1 then 4 else 0
  | _ => 0

/-- The sequencer that a lasting SITE-class fault of block `src` names (R487): SQn for its store and carves, the owner of
the channel for waveform tables. -/
def State.faultSite (s : State) (src chk : Nat) : Option Nat :=
  if lastingClass src chk ≠ 2 then none
  else if src / 256 = 2 then some (src % 256)
  else s.seqOfCh (src % 256)

/-- The record `r` of a checker's fault that ends so (R487, R488): CORR where it is corrected or its retry succeeds, else
lasting. -/
def State.checkFault (s : State) (r : FaultRec) (e : CheckEnd) : FaultRec :=
  match e with
  | .corrected => { r with cls := 1 }
  | .transient => { r with cls := 1, retried := true }
  | .lasting => { r with cls := lastingClass r.src r.chk, retried := true, seqNamed := s.faultSite r.src r.chk }

/-- A checker's fault, which an armed injection makes (R492): lasting under ALL_STICKY, else one that is corrected or
whose retry succeeds. -/
def State.injected (s : State) (r : FaultRec) (e : CheckEnd) : State × FaultRec :=
  if !s.injArmed r.src r.chk then (s, s.checkFault r e)
  else if s.injSticky then (s, { s.checkFault r .lasting with inj := true })
  else
    let e : CheckEnd := if s.rdF Reg.FLT_INJ 30 29 == 1 || !corrects r.src r.chk then .transient else .corrected
    (s.injOnce, { s.checkFault r e with inj := true })

/-- A lasting fault of capture memory at BAR4 offset `x`, found by the acquisition block of channel `c` (R487): a stamp
record of the channel's ring is lost and counted (R270); else a fail-log record of the CAP carve that holds `x`, with a
reason that the manual does not give (R212, log entry 45); else the last sample of the channel's frame (R301). -/
def State.captureLoss (s : State) (c x : Nat) : State :=
  let size := 16 * (s.rd (Reg.TMU_RSIZE c)).toNat
  if (s.acqrOf c).capSize ≠ 0 ∧ s.tmCtl c 11 11 = 0 ∧ s.capAt c ≤ x ∧ x < s.capAt c + size then
    s.stampLost c (s.sramRd (s.capAt c + (x - s.capAt c) / 16 * 16) 16)
  else
    match (List.range 16).find? fun n =>
        let k := s.carveOf n
        decide (capBase + 4096 * k.capBase ≤ x) && decide (x < capBase + 4096 * (k.capBase + k.capSize)) with
    | some _ => s.drawn.flogLosses [(s.freeNow % 8, s.sramRd (capBase + (x - capBase) / 32 * 32) 32)]
    | none => s.sampleLost c

/-- FAULT_REPORT: the oldest fault that waits, a checker's fault, or an AER error (R417) reaches the collector. -/
def doFaultReport (f : FaultIn) (s : State) : State :=
  match f with
  | .detected =>
    match s.detected with
    | [] => s
    | r :: l => s.whenOn true fun s => { s with detected := l }.collect r
  | .checker src chk code addr rkind access rid e =>
    s.whenOn (hasChecker src chk) fun s =>
      let x := s.injected { src := src, chk := chk, code := code, addr := addr, rkind := rkind, access := access, rid := rid } e
      let s := if src / 256 = 6 ∧ chk = 0 ∧ x.2.cls = 0 then x.1.captureLoss (src % 256) addr else x.1
      s.collect x.2
  | .aer unc =>
    s.whenOn true fun s =>
      let s := if unc then s.countF Reg.HIF_AER_CNT 31 16 1 else s.countF Reg.HIF_AER_CNT 15 0 1
      (s.irq Reg.HIF_ISTAT 8).collect { src := blkHIF, cls := if unc then 0 else 1 }
/-- Meaning of FAULT_REPORT. -/
def execFaultReport (f : FaultIn) (s : State) : Host.Outcome State Fault Refusal := .next (doFaultReport f s)

/-! ### Commands (R491, R493, R495, R496) -/

/-- RAISE_MOD (R495). -/
def doRaiseMod (dom : Nat) (s : State) : State :=
  s.hostWrite dom Reg.FLT_CMD fun s =>
    s.detect { src := blkFLT, cls := 3, code := 1, addr := Reg.FLT_CMD, rkind := 1, access := 1, rid := dom }
/-- Meaning of RAISE_MOD. -/
def execRaiseMod (dom : Fin 16) (s : State) : Host.Outcome State Fault Refusal := .next (doRaiseMod dom.val s)

/-- The words of a record are cleared. -/
def State.clearRecord (s : State) (a : Nat) : State := s.putWords a (List.replicate 8 0)

/-- CLR_FIRST clears FIRST, and WORST while no MOD or GRAVE fault is held (R491). -/
def doClrFirst (dom : Nat) (s : State) : State :=
  s.hostWrite dom Reg.FLT_CMD fun s =>
    let s := s.clearRecord (Reg.FLT_FIRST 0)
    if s.modHeld then s else s.clearRecord (Reg.FLT_WORST 0)
/-- Meaning of CLR_FIRST. -/
def execClrFirst (dom : Fin 16) (s : State) : Host.Outcome State Fault Refusal := .next (doClrFirst dom.val s)

/-- CLR_COUNT clears FLT_CNT0–4. -/
def doClrCount (dom : Nat) (s : State) : State :=
  s.hostWrite dom Reg.FLT_CMD fun s => forEach (List.range 5) (fun c s => s.wrN (Reg.FLT_CNT c) 0) s
/-- Meaning of CLR_COUNT. -/
def execClrCount (dom : Fin 16) (s : State) : Host.Outcome State Fault Refusal := .next (doClrCount dom.val s)

/-- CLR_PGRAVE: the stored GRAVE record is erased; refused under PFW_N (R493, R504). -/
def doClrPgrave (dom : Nat) (s : State) : State :=
  s.hostWrite dom Reg.FLT_CMD fun s =>
    if s.pfw then s.norPfw.noteReg dom Reg.FLT_CMD
    else ((s.clearRecord (Reg.FLT_PGRAVE 0)).wrF Reg.FLT_STAT 26 26 0).norPush
      { user := 5, region := 3, erases := [(norGrave, 4096)] }
/-- Meaning of CLR_PGRAVE. -/
def execClrPgrave (dom : Fin 16) (s : State) : Host.Outcome State Fault Refusal := .next (doClrPgrave dom.val s)

/-- FLT_CMD_INVALID: an OP the table does not give. -/
def doFltCmdInvalid (dom : Nat) (v : Word) (s : State) : State :=
  s.hostWrite dom Reg.FLT_CMD fun s =>
    if fld v 3 0 = 0 ∨ 5 ≤ fld v 3 0 then s.noteReg dom Reg.FLT_CMD else s
/-- Meaning of FLT_CMD_INVALID. -/
def execFltCmdInvalid (dom : Fin 16) (v : Word) (s : State) : Host.Outcome State Fault Refusal :=
  .next (doFltCmdInvalid dom.val v s)

/-! ### Injection (R492) -/

/-- FLT_INJ_WRITE: arms or disarms an injection. -/
def doFltInjWrite (dom : Nat) (v : Word) (s : State) : State :=
  s.hostWrite dom Reg.FLT_INJ fun s =>
    if 4 ≤ fld v 26 24 ∨ (bit v 31 ∧ !hasChecker (fld v 15 0) (fld v 26 24)) then s.noteReg dom Reg.FLT_INJ
    else s.wrRow Reg.FLT_INJ v
/-- Meaning of FLT_INJ_WRITE. -/
def execFltInjWrite (dom : Fin 16) (v : Word) (s : State) : Host.Outcome State Fault Refusal :=
  .next (doFltInjWrite dom.val v s)

/-! ### Sources of the always-on logic (R487) -/

/-- SUP_WATCHDOG_EXPIRY: no heartbeat for 1 ms (R487). -/
def doSupWatchdogExpiry (s : State) : State :=
  s.whenOn (match s.sup.watch with | some t => decide (t + 4000000 ≤ s.mt) | none => false) fun s =>
    { s with sup := { s.sup with watch := none } }.modFault blkFLT 3
/-- Meaning of SUP_WATCHDOG_EXPIRY. -/
def execSupWatchdogExpiry (s : State) : Host.Outcome State Fault Refusal := .next (doSupWatchdogExpiry s)

/-- RAIL_FAULT: a rail has been out of range for 10 µs; the check does not act under PFW_N (R487). -/
def doRailFault (s : State) : State :=
  s.whenOn (!s.pfw) fun s => s.detect { src := blkFLT, cls := 4, code := 2 }
/-- Meaning of RAIL_FAULT. -/
def execRailFault (s : State) : Host.Outcome State Fault Refusal := .next (doRailFault s)

/-- JUNCTION_TEMP_CROSSING: the pattern and timing die passes 110 °C, or 120 °C where `c120`; a fault once for
each rising crossing (R487). -/
def doJunctionTempCrossing (c120 rising : Bool) (s : State) : State :=
  s.whenOn ((if c120 then s.pwr.jt120 else s.pwr.jt110) != rising) fun s =>
    let p := if c120 then { s.pwr with jt120 := rising } else { s.pwr with jt110 := rising }
    let s := { s with pwr := p }
    if rising then s.detect { src := blkFLT, cls := if c120 then 3 else 0, code := 4 } else s
/-- Meaning of JUNCTION_TEMP_CROSSING. -/
def execJunctionTempCrossing (c120 rising : Bool) (s : State) : Host.Outcome State Fault Refusal :=
  .next (doJunctionTempCrossing c120 rising s)

/-- SAFELIGHT_TOGGLE: a half-period of the supervisor's oscillator while SAFELIGHT runs (R494). -/
def doSafelightToggle (s : State) : State :=
  s.whenOn (bit (s.rd Reg.FLT_STAT) 29) fun s =>
    { s with pwr := { s.pwr with slLevel := !s.pwr.slLevel } }.send (.safelight (!s.pwr.slLevel))
/-- Meaning of SAFELIGHT_TOGGLE. -/
def execSafelightToggle (s : State) : Host.Outcome State Fault Refusal := .next (doSafelightToggle s)

end Sys2Proof.Machine
end

