-- ==== Sys2Proof/Machine/Hif.lean ====
section
/-! DEFINITION. The host interface (R415–R437): MSI-X messages, Function Level Reset of a
virtual function, the link, the deny count, and the module number. -/

namespace Sys2Proof.Machine

open Sys2Proof

/-! ### MSI-X (R429) -/

/-- MSIX_MESSAGE: a summary rose, or stayed 1 after a W1C write. While the host masks the vector, as `masked` says, its
Pending Bit is set instead, and it sends once it is unmasked (R429; log entry 109). -/
def doMsixMessage (fn vec : Nat) (masked : Bool) (s : State) : State :=
  s.whenOn (s.hostOn fn) fun s =>
    let k := vecKey fn vec
    let s := s.vecFall
    let s := { s with msixMask := kset (fun _ => false) s.msixMask k masked }
    let rose := s.summary fn vec && !s.vecOn k
    let s := if rose then s.setVecOn k true else s
    if masked then (if rose then { s with msixPend := kset (fun _ => false) s.msixPend k true } else s)
    else if rose || kget (fun _ => false) s.msixPend k then
      { s with msixPend := kset (fun _ => false) s.msixPend k false }.send (.msix fn vec)
    else s
/-- Meaning of MSIX_MESSAGE. -/
def execMsixMessage (fn : Fin 16) (vec : MsixVec) (s : State) : Host.Outcome State Fault Refusal :=
  .next (doMsixMessage fn.val vec.vec.val vec.masked s)

/-- The MSI-X state of function `fn` is reset. -/
def State.msixReset (s : State) (fn : Nat) : State :=
  let keep := fun (x : Nat × Bool) => x.1 / 64 != fn
  { s with msixOn := s.msixOn.filter keep, msixMask := s.msixMask.filter keep, msixPend := s.msixPend.filter keep }

/-! ### Function Level Reset of a virtual function (R419) -/

/-- A domain's wide-value latches are cleared; its ANE selects, which are no latches, stay. -/
def State.latchClear (s : State) (dom : Nat) : State :=
  { s with latch := s.latch.filter fun x =>
      x.1 / 2 ^ 26 != dom || x.1 % 2 ^ 26 == Reg.ANE_FSEL || x.1 % 2 ^ 26 == Reg.ANE_NSEL }

/-- FLR_VF: virtual function `k`, 1–15. -/
def doFlrVf (k : Nat) (s : State) : State :=
  s.whenOn (decide (k ≠ 0) && s.hostOn k) fun s =>
    let s := forEach ((List.range 16).filter fun n => s.ptOwner 3 n == k) (fun n s => s.dmaStopNow n) s
    let held := (List.range 16).filter fun n => (s.sq n).sheet.held.isSome && (s.sq n).sheet.heldBy == k
    let s := forEach held (fun n s => s.releaseHeld n) s
    (s.latchClear k).msixReset k
/-- Meaning of FLR_VF. -/
def execFlrVf (k : Fin 16) (s : State) : Host.Outcome State Fault Refusal := .next (doFlrVf k.val s)

/-! ### The link (R417, R420) -/

/-- The link is down: no function is enabled (R417, R418; log entry 108). -/
def State.linkDown (s : State) : State := { s.wrN Reg.HIF_LINK 0 with vfs := 0 }

/-- PCIE_LINK_DOWN: the module's work runs on. -/
def doPcieLinkDown (s : State) : State := s.whenOn (bit (s.rd Reg.HIF_LINK) 0) State.linkDown
/-- Meaning of PCIE_LINK_DOWN. -/
def execPcieLinkDown (s : State) : Host.Outcome State Fault Refusal := .next (doPcieLinkDown s)

/-- A speed and width of R415. -/
def linkOk (speed width : Nat) : Bool :=
  (3 ≤ speed && speed ≤ 5) && (width == 1 || width == 2 || width == 4 || width == 8)

/-- PCIE_LINK_UP at a speed and width of R415; the host enables the virtual functions 1 … `vfs`, which it can once a
start is complete, and not in Safe mode (R418, R508, R512; log entry 108). -/
def doPcieLinkUp (speed width vfs : Nat) (s : State) : State :=
  s.whenOn (linkOk speed width) fun s =>
    { s.wrN Reg.HIF_LINK (2 ^ 16 * speed + 2 ^ 8 * width + 1) with vfs := if s.pwr.starting || s.safeMode then 0 else vfs }
/-- Meaning of PCIE_LINK_UP. -/
def execPcieLinkUp (speed : Fin 16) (host : LinkHost) (s : State) : Host.Outcome State Fault Refusal :=
  .next (doPcieLinkUp speed.val host.width.val host.vfs.val s)

/-- PERST: only the endpoint is reset (R534): its link is down and its MSI-X state is reset. -/
def doPerst (s : State) : State :=
  s.whenOn true fun s =>
    { s.linkDown with msixOn := [], msixMask := [], msixPend := [] }
/-- Meaning of PERST. -/
def execPerst (s : State) : Host.Outcome State Fault Refusal := .next (doPerst s)

/-! ### Registers with an action of their own -/

/-- HIF_DENY_CNT_CLEAR: only a write of ones acts (R437). -/
def doHifDenyCntClear (dom : Nat) (v : Word) (s : State) : State :=
  s.hostWrite dom Reg.HIF_DENY_CNT fun s =>
    if v = 0xFFFFFFFF then (s.wrN Reg.HIF_DENY_CNT 0).wrF Reg.HIF_DENY_INFO 31 31 0 else s
/-- Meaning of HIF_DENY_CNT_CLEAR. -/
def execHifDenyCntClear (dom : Fin 16) (v : Word) (s : State) : Host.Outcome State Fault Refusal :=
  .next (doHifDenyCntClear dom.val v s)

/-- GLB_MODULE_WRITE: the number takes effect at once and is stored; refused while PFW_N is asserted
(R422, R524). -/
def doGlbModuleWrite (dom : Nat) (v : Word) (s : State) : State :=
  s.hostWrite dom Reg.GLB_MODULE fun s =>
    if s.pfw then s.norPfw.noteReg dom Reg.GLB_MODULE
    else
      let n := fld v 15 0
      (s.wrN Reg.GLB_MODULE n).norPush (identityOp 3 norModule n)
/-- Meaning of GLB_MODULE_WRITE. -/
def execGlbModuleWrite (dom : Fin 16) (v : Word) (s : State) : Host.Outcome State Fault Refusal :=
  .next (doGlbModuleWrite dom.val v s)

end Sys2Proof.Machine
end

