-- ==== Sys2Proof/Machine/Pwr.lean ====
section
/-! DEFINITION. Power units (R497–R503): entry through its abort points, wakes, and the commands that put the rails
of a tile or the timing PLL down and bring them back. -/

namespace Sys2Proof.Machine

open Sys2Proof

/-! ### Idle entry (R497, R500) -/

/-- PWR_IDLE_ENTRY: the idle timer of a unit has expired; AP1 (R500, R502). -/
def doPwrIdleEntry (kind i : Nat) (s : State) : State :=
  s.whenDue (s.unitIdle kind i && s.idleTimer kind != 0 && s.unit kind i == 0 && s.idleFor kind i (s.idleTimer kind))
    fun s => s.enterUnit kind i
/-- Meaning of PWR_IDLE_ENTRY. -/
def execPwrIdleEntry (kind : Fin 8) (idx : Fin 128) (s : State) : Host.Outcome State Fault Refusal :=
  .next (doPwrIdleEntry kind.val idx.val s)

/-- The entry of a DRAM channel into self-refresh no longer holds: a sequencer has left STOPPED, and no command put the
channel down (R385, R386). -/
def State.entryBroken (s : State) (kind i : Nat) : Bool :=
  kind == 4 && !s.allStopped && !kget (fun _ => false) s.drc.pdown i

/-- PWR_ENTRY_AP2: the unit has drained, or the entry is abandoned; a Falin direction reaches AP2 under R455. -/
def doPwrEntryAp2 (kind i : Nat) (s : State) : State :=
  s.whenOn (kind != 5 && s.unit kind i == 1) fun s =>
    if s.entryBroken kind i then s.wakeUnit kind i 1 else s.setUnit kind i 2
/-- Meaning of PWR_ENTRY_AP2. -/
def execPwrEntryAp2 (kind : Fin 8) (idx : Fin 128) (s : State) : Host.Outcome State Fault Refusal :=
  .next (doPwrEntryAp2 kind.val idx.val s)

/-- The timing PLL is down: out of lock, one discontinuity of Module Time (R460, R461, R499). -/
def State.pllDown (s : State) : State := (s.wrF Reg.TMG_CLK_STAT 31 31 0).discontinuity

/-- The rails of tile `t` are down: the drivers that act go to high impedance (R499). -/
def State.railsDownOf (s : State) (t : Nat) : State :=
  let s := forEach (tileChans t) (fun c s => s.landOff c s.now1024) s
  (s.setUnit 6 t 3).wrF Reg.PWR_STAT (20 + t) (20 + t) 1

/-- PWR_ENTRY_AP3: the clock is gated, and the unit is LOW (R500), or the entry is abandoned; rails and the PLL are down
from here on. -/
def doPwrEntryAp3 (kind i : Nat) (s : State) : State :=
  s.whenOn (s.unit kind i == 2) fun s =>
    if s.entryBroken kind i then s.wakeUnit kind i 1
    else
      match kind with
      | 6 => s.railsDownOf i
      | 7 => ((s.setUnit 7 0 3).wrF Reg.PWR_STAT 24 24 1).pllDown
      | _ => s.setUnit kind i 3
/-- Meaning of PWR_ENTRY_AP3. -/
def execPwrEntryAp3 (kind : Fin 8) (idx : Fin 128) (s : State) : Host.Outcome State Fault Refusal :=
  .next (doPwrEntryAp3 kind.val idx.val s)

/-! ### Wakes (R501–R503) -/

/-- A source of R497 that can reach the unit without a command: 1 WORK, 2 ACCESS. -/
def State.wakeSource (s : State) (kind i source : Nat) : Bool :=
  match kind with
  | 1 => source == 1 || source == 2
  | 2 => source == 1 || source == 2
  | 3 => source == 1 || source == 2
  | 4 => source == 1 && !kget (fun _ => false) s.drc.pdown i
  | _ => false

/-- PWR_WAKE: a wake source reaches a unit. -/
def doPwrWake (kind i source : Nat) (s : State) : State :=
  s.whenDue (s.wakeSource kind i source) fun s => s.wakeUnit kind i source
/-- Meaning of PWR_WAKE. -/
def execPwrWake (kind : Fin 8) (idx : Fin 128) (source : Fin 5) (s : State) : Host.Outcome State Fault Refusal :=
  .next (doPwrWake kind.val idx.val source.val s)

/-- PWR_WAKE_DONE: a unit's wake completes; rails and the PLL complete with their command. -/
def doPwrWakeDone (kind i : Nat) (s : State) : State :=
  s.whenOn (decide (kind < 6) && s.unit kind i == 4) fun s => s.setUnit kind i 0
/-- Meaning of PWR_WAKE_DONE. -/
def execPwrWakeDone (kind : Fin 8) (idx : Fin 128) (s : State) : Host.Outcome State Fault Refusal :=
  .next (doPwrWakeDone kind.val idx.val s)

/-! ### Rails and the PLL (R499) -/

/-- A PWR_CMD with operation `op`. -/
def State.pwrCmd (s : State) (dom op : Nat) (v : Word) (k : State → State) : State :=
  s.hostWrite dom Reg.PWR_CMD fun s => if fld v 3 0 = op then k s else s

/-- The command of PWR that runs. -/
def State.setPwrCmd (s : State) (op tiles : Nat) : State := { s with pwr := { s.pwr with cmd := op, cmdTiles := tiles } }

/-- The conditions of RAILS_OFF for tile `t`, whose unit must not be WAKING (R499, R502). -/
def State.railsMayFall (s : State) (t : Nat) : Bool :=
  s.unit 6 t != 4 &&
    ((tileChans t).all fun c =>
      s.chStopped c && s.pmuMode c == 0 && s.tmState c == 0 && s.aqState c == 0 && !(s.ch c).refl) &&
    match s.cal.slot with
    | some x => tileOf x.target != t
    | none => true

/-- The rails of tile `t` begin to fall: AP1. -/
def State.railsFallOf (s : State) (t : Nat) : State := if s.unit 6 t ≠ 0 then s else s.enterUnit 6 t

/-- The rails of tile `t` are up: the drivers act again, at every level's applied value. -/
def State.railsUpOf (s : State) (t : Nat) : State :=
  let s := (s.setUnit 6 t 0).wrF Reg.PWR_STAT (20 + t) (20 + t) 0
  forEach (tileChans t) (fun c s => s.landSet c s.now1024 (s.ch c).drv) s

/-- RAILS_OFF. -/
def doRailsOff (dom : Nat) (v : Word) (s : State) : State :=
  s.pwrCmd dom 1 v fun s =>
    let l := bitsOf 4 (fld v 11 8)
    if !l.all s.railsMayFall then s.noteReg dom Reg.PWR_CMD
    else (forEach l (fun t s => s.railsFallOf t) s).setPwrCmd 1 (fld v 11 8)
/-- Meaning of RAILS_OFF. -/
def execRailsOff (dom : Fin 16) (v : Word) (s : State) : Host.Outcome State Fault Refusal :=
  .next (doRailsOff dom.val v s)

/-- RAILS_ON: a wake by command, which abandons an entry (R501). -/
def doRailsOn (dom : Nat) (v : Word) (s : State) : State :=
  s.pwrCmd dom 2 v fun s =>
    (forEach (bitsOf 4 (fld v 11 8)) (fun t s => s.cmdWake 6 t) s).setPwrCmd 2 (fld v 11 8)
/-- Meaning of RAILS_ON. -/
def execRailsOn (dom : Fin 16) (v : Word) (s : State) : Host.Outcome State Fault Refusal :=
  .next (doRailsOn dom.val v s)

/-- The conditions of PLL_OFF (R499, R502). -/
def State.pllMayFall (s : State) : Bool :=
  s.unit 7 0 != 4 && s.allStopped && s.role == 0 && !bit (s.rd Reg.CAL_CTL) 0 &&
    (List.range 128).all fun c => s.tmState c == 0 && s.aqState c == 0

/-- PLL_OFF. -/
def doPllOff (dom : Nat) (s : State) : State :=
  s.hostWrite dom Reg.PWR_CMD fun s =>
    if !s.pllMayFall then s.noteReg dom Reg.PWR_CMD
    else (if s.unit 7 0 = 0 then s.enterUnit 7 0 else s).setPwrCmd 3 0
/-- Meaning of PLL_OFF. -/
def execPllOff (dom : Fin 16) (s : State) : Host.Outcome State Fault Refusal := .next (doPllOff dom.val s)

/-- The PLL is no longer down by command. -/
def State.pllUp (s : State) : State := (s.setUnit 7 0 0).wrF Reg.PWR_STAT 24 24 0

/-- PLL_ON: a wake by command, which abandons an entry (R501). -/
def doPllOn (dom : Nat) (s : State) : State :=
  s.hostWrite dom Reg.PWR_CMD fun s => (s.cmdWake 7 0).setPwrCmd 4 0
/-- Meaning of PLL_ON. -/
def execPllOn (dom : Fin 16) (s : State) : Host.Outcome State Fault Refusal := .next (doPllOn dom.val s)

/-- PWR_CMD_INVALID: an OP the table does not give (R522). -/
def doPwrCmdInvalid (dom : Nat) (v : Word) (s : State) : State :=
  s.hostWrite dom Reg.PWR_CMD fun s =>
    if fld v 3 0 = 0 ∨ 6 ≤ fld v 3 0 then s.noteReg dom Reg.PWR_CMD else s
/-- Meaning of PWR_CMD_INVALID. -/
def execPwrCmdInvalid (dom : Fin 16) (v : Word) (s : State) : Host.Outcome State Fault Refusal :=
  .next (doPwrCmdInvalid dom.val v s)

/-- No rails or PLL are on their way down. -/
def State.pwrCmdDue (s : State) : Bool :=
  s.pwr.cmd != 0 && ([(6, 0), (6, 1), (6, 2), (6, 3), (7, 0)].all fun u => s.unit u.1 u.2 != 1 && s.unit u.1 u.2 != 2)

/-- PWR_CMD_DONE: rails that rise are up and settled, a PLL that comes back has locked; CMD_DONE. -/
def doPwrCmdDone (s : State) : State :=
  s.whenOn s.pwrCmdDue fun s =>
    let s := forEach ((List.range 4).filter fun t => s.unit 6 t == 4) (fun t s => s.railsUpOf t) s
    let s := if s.unit 7 0 = 4 then s.pllUp.pllLock else s
    (s.setPwrCmd 0 0).irq Reg.PWR_ISTAT 16
/-- Meaning of PWR_CMD_DONE. -/
def execPwrCmdDone (s : State) : Host.Outcome State Fault Refusal := .next (doPwrCmdDone s)

end Sys2Proof.Machine
end

