-- ==== Sys2Proof/Machine/Start.lean ====
section
/-! DEFINITION. Starts (R507–R512): what a cold and a warm start keep, the ten steps, failed starts, Safe mode, and the
events and commands that begin a start. -/

namespace Sys2Proof.Machine

open Sys2Proof

/-! ### What a reset keeps (R389, R411, R460, R491, R509) -/

/-- Registers that hold what fuses and NOR hold: every start finds them (R507, R513). -/
def regStored (a : Nat) : Bool :=
  [Reg.GLB_MODULE, Reg.GLB_SERIAL_LO, Reg.GLB_SERIAL_HI, Reg.STI_BOOT, Reg.STI_KEYS, Reg.NVM_ERASE_MAX, Reg.SUP_FW,
   Reg.SUP_FWVER_A, Reg.SUP_FWVER_B].contains a

/-- Registers that a warm start keeps: the stored ones, MTB with the PLL's state (R460), fault records, the log and
counts (R491), DMA rings (R411), the set loaded (R348), what training found (R389), and counts since cold start. -/
def regKept (a : Nat) : Bool :=
  regStored a || (0x1400000 ≤ a && a < 0x1500000) || a == Reg.TMG_CLK_STAT ||
    (0x1500020 ≤ a && a < 0x1500038) || (0x1500100 ≤ a && a < 0x1501000) ||
    (0x1100000 ≤ a && a < 0x1200000 && dmaRing a) ||
    [Reg.CAL_SEQ, Reg.CAL_SEQ_A, Reg.CAL_SEQ_B, Reg.DRC_CFG, Reg.DRC_SPEED, Reg.PWR_BOOT, Reg.PWR_WREC3,
     Reg.PWR_PFW_CNT, Reg.PWR_START_MS, Reg.HIF_LINK].contains a
where
  /-- DMA_CTL, DMA_HEAD and DMA_CUR. -/
  dmaRing (a : Nat) : Bool :=
    let n := a % 0x100000 / 0x1000
    [Reg.DMA_CTL n, Reg.DMA_HEAD_LO n, Reg.DMA_HEAD_LO n + 4, Reg.DMA_CUR_LO n, Reg.DMA_CUR_LO n + 4].contains a

/-- What every reset keeps: the flash and the fuses, and the model's own ports (R507). -/
def State.coldKeep (s : State) : State :=
  { pending := s.pending, regs := s.regs.filter fun x => regStored x.1, nor := s.nor, erases := s.erases, recov := s.recov,
    keys := s.keys, jtag := { lock := s.jtag.lock },
    free := s.free, rdata := s.rdata, rpoison := s.rpoison, out := s.out }

/-- PWR_STAT of a start that begins: its cause and kind at step 1, and the bits of `old` that stay. -/
def startWord (cause : Nat) (warm : Bool) (old : Nat) : Nat := 2 ^ 27 * cause + b2n warm * 2 ^ 26 + old + 1

/-- SAFELIGHT goes low, where it is not (R494). -/
def State.lightLow (s : State) (was : Bool) : State := if was then s.send (.safelight false) else s

/-- A cold start begins (R507, R508); `counts` keeps the counts of failed starts. -/
def State.beginCold (s : State) (cause : Nat) (counts : Bool) : State :=
  let pfw := s.rdF Reg.PWR_STAT 25 25
  let t := s.norAbort.coldKeep
  let t := if counts then t.wr Reg.PWR_BOOT (s.rd Reg.PWR_BOOT) else t
  let t := t.wrN Reg.PWR_STAT (startWord cause false (2 ^ 25 * pfw))
  ({ t with pwr := { t.pwr with rstLow := s.pwr.rstLow } }).lightLow s.pwr.slLevel

/-- The channels that resume after a warm start: those that were not IDLE at the reset; a start that begins again keeps
the mark of the reset before it (R411, R534). -/
def State.resumeMap (s : State) : KMap DmaUnit :=
  (List.range 16).foldl (fun m n =>
    if bit (s.rd (Reg.DMA_CTL n)) 3 ∧ (s.dmaState n ≠ 0 ∨ (s.pwr.starting && (s.dc n).resume) = true)
    then kset (fun _ => {}) m n { resume := true } else m) []

/-- The writes that wait at a reset: each may or may not be in DRAM (R389, log entry 5). -/
def State.writesAtReset (s : State) : State :=
  s.drc.waiting.foldl (fun s w =>
    match w with
    | .write q dom a bs poison =>
      let t := s.drawn
      if s.freeNow % 2 = 0 then t else t.dramPutNow q dom a bs poison
    | _ => s) s

/-- What a warm start keeps (R509). -/
def State.warmKeep (s : State) : State :=
  { s.coldKeep with
    mt := s.mt, regs := s.regs.filter fun x => regKept x.1, dram := s.dram,
    sram := s.sram.filter fun x => decide (0x2B00000 ≤ x.1) && decide (x.1 < 0x2C00000),
    drc := { bad := s.drc.bad, spdMax := s.drc.spdMax, trained := s.drc.trained, tRFCsb := s.drc.tRFCsb, closed := true },
    sup := { digest := s.sup.digest },
    dma := s.resumeMap, mtb := s.mtb, cal := { crc := s.cal.crc }, jtag := s.jtag, detected := s.detected,
    round := s.round, fltNum := s.fltNum,
    pwr := { rstLow := s.pwr.rstLow, slLevel := s.pwr.slLevel, jt110 := s.pwr.jt110, jt120 := s.pwr.jt120,
             startAt := s.mt, units := s.pwr.units.filter fun x => x.1 == unitKey 7 0,
             entryAt := s.pwr.entryAt.filter fun x => x.1 == unitKey 7 0, cmd := if s.pwr.cmd < 3 then 0 else s.pwr.cmd } }

/-- A warm start begins (R389, R507–R509): the lanes lose their alignment, the flash is interrupted, DRAM is in
self-refresh until step 6, the rest is reset. -/
def State.beginWarm (s : State) (cause : Nat) : State :=
  let s := (forEach [0, 1] (fun l s => s.alignLost l) s.norAbort).writesAtReset
  let keep := s.rdF Reg.PWR_STAT 25 24 * 2 ^ 24
  let t := s.warmKeep.selfRefreshAll.wrN Reg.PWR_STAT (startWord cause true keep)
  let t := t.wrF Reg.CAL_STAT 29 28 (s.rdF Reg.CAL_STAT 29 28)
  (t.wrN Reg.FLT_STAT (s.rdF Reg.FLT_STAT 26 26 * 2 ^ 26)).wrN Reg.NVM_STAT (s.rdF Reg.NVM_STAT 15 0)

/-- The start that has begun begins again, of the same kind (R534). -/
def State.beginAgain (s : State) : State :=
  let cause := s.rdF Reg.PWR_STAT 29 27
  if bit (s.rd Reg.PWR_STAT) 26 then s.beginWarm cause else s.beginCold cause true

/-- A reset that asks for a warm start: without effect while GRAVE is held or in Safe mode; a start in progress
begins again (R485, R512, R534). -/
def State.resetFor (s : State) (cause : Nat) : State :=
  if s.graveHeld || s.safeMode then s
  else if s.pwr.starting then s.beginAgain
  else s.beginWarm cause

/-! ### Failed starts and Safe mode (R511, R512) -/

/-- Safe mode: 1 COLD_FAILS, 2 NO_FW. -/
def State.enterSafe (s : State) (why : Nat) : State :=
  let s := (s.wrF Reg.PWR_STAT 30 30 1).wrF Reg.PWR_STAT 19 16 why
  { s with pwr := { s.pwr with starting := false } }

/-- The start has failed (R511). -/
def State.startFailed (s : State) : State :=
  if bit (s.rd Reg.PWR_STAT) 26 then
    let n := s.rdF Reg.PWR_BOOT 7 0 + 1
    let s := s.wrF Reg.PWR_BOOT 7 0 n
    if 2 ≤ n then s.beginCold 5 true else s.beginWarm (s.rdF Reg.PWR_STAT 29 27)
  else
    let n := s.rdF Reg.PWR_BOOT 15 8 + 1
    let s := s.wrF Reg.PWR_BOOT 15 8 n
    if 3 ≤ n then s.enterSafe 1 else s.beginCold 6 true

/-- The step in progress. -/
def State.startStep (s : State) : Nat := s.rdF Reg.PWR_STAT 3 0

/-- A start is in progress, not held by RST_N, and no GRAVE-class fault is held (R485, R507, R529, R534). -/
def State.startRuns (s : State) : Bool :=
  s.pwr.starting && !s.pwr.rstLow && decide (s.pwr.startAt ≤ s.mt) && !s.graveHeld

/-- The start waits before its first NOR write, while PFW_N is asserted (R506). -/
def State.startWaits (s : State) : Bool := s.startStep == 5 && s.pfw

/-- The start has taken too long (R511): a cold one 10 ms at step 4 without the PLL's lock, or any 2 s, without the wait
of R506. -/
def State.startLate (s : State) : Bool :=
  !s.startWaits &&
    ((s.startStep == 4 && !bit (s.rd Reg.PWR_STAT) 26 && !s.pllLocked && decide (s.pwr.stepAt + 40000000 ≤ s.mt)) ||
      decide (8000000000 + s.pwr.waited ≤ s.pwr.spent + (s.mt - s.pwr.startAt)))

/-- The training step in progress (R387). -/
def State.trainStep (s : State) : Nat := s.rdF Reg.DRC_STAT 27 24

/-- Training runs at step 6 of a start (R387, R508). -/
def State.trains (s : State) : Bool := s.startStep == 6 && bit (s.rd Reg.DRC_STAT) 29

/-- Training has ended with a failure on channel `c` in step `k` (R387, R395). -/
def State.trainFails (s : State) (c k : Nat) : State :=
  let s := (s.setTraining false 0).wrF (Reg.DRC_CH_STAT c) 31 29 4
  (s.wrN Reg.DRC_TRAIN (3 * 2 ^ 30 + 2 ^ 27 * c + 2 ^ 24 * k)).irq Reg.DRC_ISTAT 8

/-- START_FAIL: the PLL does not lock, the start takes 2 s, or the training step in progress fails on a channel for the
second time (R387, R511). -/
def doStartFail (train : Option (Fin 8 × Fin 8)) (s : State) : State :=
  match train with
  | some (c, k) =>
    s.whenOn (s.startRuns && s.trains && s.trainStep == k.val && s.drc.tries) fun s => (s.trainFails c k).startFailed
  | none => s.whenOn (s.startRuns && s.startLate) State.startFailed
/-- Meaning of START_FAIL. -/
def execStartFail (train : Option (Fin 8 × Fin 8)) (s : State) : Host.Outcome State Fault Refusal :=
  .next (doStartFail train s)

/-! ### Firmware slots (R515, R516) -/

/-- The most bytes of a firmware image. -/
def fwMax : Nat := 0x7F0000

/-- What is wrong with a firmware image of `len` bytes, as a code of SUP_STAT.ERR; 0 nothing. -/
def fwReject (keys : Word) (key : Nat → Nat × Nat) (b : List Byte) (len : Nat) : Nat :=
  let n := getLE b 0xC 4
  if getLE b 0 4 ≠ 0x5746524C ∨ getLE b 4 2 ≠ 0x0100 then 1
  else if getLE b 6 2 ≠ 0xB1 then 2
  else if n % 16 ≠ 0 ∨ fwMax < n ∨ n < 192 ∨ n ≠ len then 3
  else if crc32c (b.take 0x3C) ≠ getLE b 0x3C 4 then 4
  else match sigCheck keys key (b.take (n - 128)) ((b.drop (n - 128)).take 128) with
    | none => 0
    | some (false, _) => 5
    | some (true, _) => 6

/-- NOR offset of the trailer of firmware slot `b`. -/
def fwTrailer (b : Nat) : Nat := norFw b + fwMax

/-- Firmware slot `b` is valid: header, trailer and signature (R516). -/
def State.fwSlotOk (s : State) (b : Nat) : Bool :=
  let n := leNat (s.norRd (norFw b + 0xC) 4)
  decide (n ≤ fwMax) && leNat (s.norRd (fwTrailer b) 4) == n &&
    leNat (s.norRd (fwTrailer b + 4) 4) == crc32c (s.norRd (norFw b) n) &&
    fwReject (s.rd Reg.STI_KEYS) s.keyOf (s.norRd (norFw b) n) n == 0

/-- SUP_FW.VALID and FWVER of slot `b`. -/
def State.fwShow (s : State) (b : Nat) : State :=
  let ok := s.fwSlotOk b
  (s.wrF Reg.SUP_FW (29 + b) (29 + b) (b2n ok)).wrN (Reg.SUP_FWVER_A + 4 * b)
    (if ok then leNat (s.norRd (norFw b + 8) 4) else 0)

/-- The trailer of firmware slot `b`, as a retained digest keeps it (R517). -/
def State.fwDigest (s : State) (b : Nat) : Nat × List Byte := (b, s.norRd (fwTrailer b) 8)

/-- Firmware of slot `b` runs: its heartbeats start again, and its digest is retained (R517, R523). -/
def State.fwRun (s : State) (b : Nat) : State :=
  { (s.wrF Reg.SUP_FW 0 0 b).wrN Reg.SUP_HBEAT 0 with sup := { s.sup with watch := none, digest := some (s.fwDigest b) } }

/-! ### The steps (R508) -/

/-- A setting of the identity region; one never written reads 0 (R422, log entry 14). -/
def State.setting (s : State) (a : Nat) : Nat :=
  let v := leNat (s.norRd a 4)
  if v = 2 ^ 32 - 1 then 0 else v

/-- Step 2: identity and boot settings. -/
def State.step2 (s : State) : State :=
  let s := (s.wrRow Reg.GLB_MODULE (word (s.setting norModule))).wrRow Reg.STI_BOOT (word (s.setting norBoot))
  s.wrF Reg.SUP_FW 1 1 (s.setting norFwBoot)

/-- Step 3: firmware of the boot slot, or of the other slot with a NOTE fault; none where both fail. A warm start
that retained the digest of that slot, good and with the slot's trailer, skips the check (R516, R517); a store to a
slot drops its digest. -/
def State.step3 (s : State) (digest : Bool) : Option State :=
  let boot := s.rdF Reg.SUP_FW 1 1
  let skip := digest && bit (s.rd Reg.PWR_STAT) 26 && s.sup.digest == some (s.fwDigest boot)
  let s := s.wrF Reg.SUP_FW 31 31 0
  if skip then some (s.fwRun boot)
  else
    let s := (s.fwShow 0).fwShow 1
    if s.fwSlotOk boot then some (s.fwRun boot)
    else if s.fwSlotOk (1 - boot) then some ((s.note 0x1200).fwRun (1 - boot))
    else none

/-- Step 4: a cold start locks the PLL and starts Module Time at 0 (R460); the ticks it has taken so far count on
(R511). -/
def State.step4 (s : State) : State :=
  if bit (s.rd Reg.PWR_STAT) 26 then s
  else
    { s with mt := 0, pwr := { s.pwr with startAt := 0, spent := s.mt - s.pwr.startAt } }.pllLock

/-- A reserve write at a start: it is complete when the step is. -/
def State.reserveNow (s : State) (k r : Nat) : State := let op := reserveOp k r; s.norDo op op.steps

/-- The epoch numbers from `r` on are reserved, and `r` comes next. -/
def State.epochTake (s : State) (r : Nat) : State :=
  (s.wrWide Reg.CSH_ENEXT_LO 2 r).wrWide Reg.CSH_ERES_LO 2 (r + 2 ^ 32)

/-- The epoch reserve at a start: none where every recovery fuse is blown (R228, R229). -/
def State.epochStart (s : State) : Option State :=
  let copies := (s.reserveCopy 0).toList ++ (s.reserveCopy 1).toList
  match copies with
  | a :: l =>
    let r := l.foldl max a
    some ((s.reserveNow s.reserveOther (r + 2 ^ 32)).epochTake r)
  | [] =>
    if 15 ≤ s.recov then none
    else
      let r := 2 ^ 59 * (s.recov + 1)
      let s := { s with recov := s.recov + 1 }
      some ((((s.reserveNow 0 (r + 2 ^ 32)).reserveNow 1 (r + 2 ^ 32)).epochTake r).note 0x900)

/-- A stored GRAVE record appears at a cold start (R493). -/
def State.graveRecord (s : State) : State :=
  let r := s.norRd norGrave 32
  if crc32c r = leNat (s.norRd (norGrave + 32) 4) then
    ((s.putWords (Reg.FLT_PGRAVE 0) ((List.range 8).map fun i => getLE r (4 * i) 4)).wrF Reg.FLT_STAT 26 26 1).irq
      Reg.FLT_ISTAT 64
  else s

/-- Step 5: none where it fails (R228, R229, R347, R348, R493). A warm start keeps the working set where what its memory
retained is good and matches the CRC-32C kept with it. -/
def State.step5 (s : State) (calKept : Bool) : Option State :=
  let warm := bit (s.rd Reg.PWR_STAT) 26
  match s.epochStart with
  | none => none
  | some s =>
    if warm && calKept && crc32c (s.sramRd calBase 84048) == s.cal.crc then
      some (forEach (List.range 128) (fun c s => s.calLoadChan c) s.calTemps)
    else (if warm then s else s.graveRecord).calColdLoad

/-! ### Step 6: DRAM (R373, R374, R387–R389) -/

/-- Gigabytes of one logical rank of a DIMM: sixteen x4 dies of the density (R373, R376). -/
def rankGB (dens : Nat) : Nat := 64 * dieRows dens / 131072

/-- Gigabytes of a DIMM: package ranks, stack height, density. -/
def dimmGB (d : Dimm) : Nat := rankGB d.dens * d.ranks * 2 ^ d.hlog

/-- A DIMM that the module supports at speed grade `g` (R373). -/
def dimmOk (g : Nat) (d : Dimm) : Bool :=
  d.rdimm && d.ecc && d.x4 && decide (1 ≤ d.dens) && decide (d.dens ≤ 3) && decide (d.hlog ≤ 3) &&
    (d.ranks == 1 || d.ranks == 2) && decide (16 ≤ dimmGB d) && decide (dimmGB d ≤ 256) &&
    decide (d.tRFCsb ≤ 190) && decide (d.tRFC1 ≤ 410) && decide (d.tRC.getD g 0 ≤ 48)

/-- Two DIMMs have the same density, rank structure, stack height and capacity (R374). -/
def dimmLike (x y : Dimm) : Bool := x.dens == y.dens && x.ranks == y.ranks && x.hlog == y.hlog

/-- The highest grade that every DIMM allows (R374). -/
def gradeOf (o : StartObs) : Nat := (o.dimms.flatten.map (·.grade)).foldl min 2

/-- The serial numbers of the DIMMs, in the order of their channels. -/
def serialsOf (o : StartObs) : List Nat := o.dimms.flatten.map (·.serial)

/-- The largest tRFCsb of the DIMMs. -/
def rfcOf (o : StartObs) : Nat := (o.dimms.flatten.map (·.tRFCsb)).foldl max 0

/-- The channels whose DIMMs R373 does not admit at grade `g`: an empty one, and one with more than two DIMMs or 16
logical ranks, among them. -/
def popBad (o : StartObs) (g : Nat) : List Nat :=
  (List.range 8).filter fun c =>
    let l := o.dimms.getD c []
    !(l.length == 1 || l.length == 2) || !l.all (dimmOk g) ||
      decide (16 < (l.map fun d => d.ranks * 2 ^ d.hlog).foldl (· + ·) 0)

/-- Every channel has as many DIMMs as the first, and all are alike (R374). -/
def popAlike (o : StartObs) : Bool :=
  match o.dimms.flatten with
  | [] => false
  | d :: l => l.all (dimmLike d) && o.dimms.all fun x => x.length == (o.dimms.headD []).length

/-- The population is one that the module supports (R373, R374). -/
def popSupported (o : StartObs) (g : Nat) : Bool := o.dimms.length == 8 && (popBad o g).isEmpty && popAlike o

/-- DRC_CFG of a supported population (R374, R395). -/
def popCfg (o : StartObs) : Nat :=
  let l := o.dimms.headD []
  let d := l.headD {}
  d.dens * 2 ^ 30 + d.hlog * 2 ^ 28 + b2n (d.ranks == 2) * 2 ^ 27 + b2n (l.length == 2) * 2 ^ 26 + 8 * l.length * dimmGB d

/-- The bytes of what is stored after training, over which its CRC-32C goes; their order is the model's (log entry
107). -/
def trainedBytes (temps : List Int) (supply : Nat) (serials : List Nat) (values : Nat) : List Byte :=
  temps.flatMap (fun t => leBytes 2 (ofInt 16 t)) ++ leBytes 4 supply ++ serials.flatMap (leBytes 4) ++ leBytes 4 values

/-- The stored trained values hold (R389): their CRC-32C, what the retention shows of it, the same DIMMs, each channel
within 10 °C and the supply within 2 % of its value at training. -/
def Trained.holds (t : Trained) (o : StartObs) : Bool :=
  o.trainKept && t.crc == crc32c (trainedBytes t.temps t.supply t.serials t.values) && t.serials == serialsOf o &&
    t.temps.length == o.temps.length && ((t.temps.zip o.temps).all fun x => decide ((x.1 - x.2).natAbs ≤ 80)) &&
    decide (50 * ((o.supply : Int) - t.supply).natAbs ≤ t.supply)

/-- A warm start keeps the DRAM (R389). -/
def State.dramStays (s : State) (o : StartObs) : Bool :=
  bit (s.rd Reg.PWR_STAT) 26 && match s.drc.trained with | some t => t.holds o | none => false

/-- DRAM exits self-refresh with its contents, and serves again (R389, R390). -/
def State.dramKept (s : State) : State :=
  let s := ((s.selfRefreshExit.wrF Reg.DRC_STAT 28 28 1).wrF Reg.DRC_STAT 31 31 1)
  ({ s with drc := { s.drc with closed := false } }).waitsServed

/-- Training in full begins at step 1; nothing that was stored with earlier values holds any longer (R387, R389). -/
def State.trainBegin (s : State) : State :=
  let s := s.selfRefreshExit.setTraining true 1
  { s with drc := { s.drc with closed := true, trainAt := s.mt, tries := false, trained := none } }

/-- The channel that the step in progress fails on: at step 1 the first whose DIMMs break R373; a population that only
R374 excludes fails on a channel that is open (log entry 5); at any other step the one observed (R387). -/
def State.trainFaulty (s : State) (o : StartObs) : Option Nat :=
  let g := min (gradeOf o) (s.drc.startReq.getD (gradeOf o))
  if s.trainStep ≠ 1 then o.trainFail.map (·.val)
  else if popSupported o g then none
  else some ((popBad o g).headD (s.freeNow % 8))

/-- Training has read a supported population (R374, R387): its configuration, and the grade in use. -/
def State.trainFound (s : State) (o : StartObs) : State :=
  let g := gradeOf o
  let req := s.drc.startReq.getD g
  let s := (s.wrN Reg.DRC_CFG (popCfg o)).wrN Reg.DRC_SPEED (2 ^ 16 * min g req + req)
  { s with drc := { s.drc with spdMax := g, tRFCsb := rfcOf o } }

/-- Training has ended well: trained values, temperature, supply and DIMMs are stored with their CRC-32C (R387). The
values are open (log entry 5). -/
def State.trainStored (s : State) (o : StartObs) : State :=
  let v := s.freeNow
  let kept : Trained := { temps := o.temps, supply := o.supply, serials := serialsOf o, values := v,
                          crc := crc32c (trainedBytes o.temps o.supply (serialsOf o) v) }
  let s := s.drawn.setTraining false 0
  let s := s.wrN Reg.DRC_TRAIN (2 ^ 31 + (s.mt - s.drc.trainAt) / 4000000 % 2 ^ 16)
  { s with drc := { s.drc with trained := some kept } }

/-- A new REQ that waited for the end of the training step: it is the speed from now on (R388). -/
def State.trainReq (s : State) (req : Nat) : State :=
  let s := s.wrF Reg.DRC_SPEED 17 16 (min s.drc.spdMax req)
  { s with drc := { s.drc with newReq := none, startReq := some req, tries := false } }

/-- The next step begins. -/
def State.stepTo (s : State) (k : Nat) : State :=
  { s.wrF Reg.PWR_STAT 3 0 k with pwr := { s.pwr with stepAt := s.mt } }

/-- The training step in progress ends (R387, R388): a new REQ has training go back to step 3, once it has come so far;
a step that fails is retried once; the last step ends training. -/
def State.trainNext (s : State) (o : StartObs) : State :=
  let k := s.trainStep
  match s.drc.newReq, decide (3 ≤ k) with
  | some req, true => (s.trainReq req).setTraining true 3
  | new, _ =>
    let s := match new with | some req => s.trainReq req | none => s
    match s.trainFaulty o with
    | some c =>
      if s.drc.tries then (s.drawn.trainFails c k).startFailed
      else { s.drawn with drc := { s.drc with tries := true } }
    | none =>
      let s := { s with drc := { s.drc with tries := false } }
      let s := if k = 1 then s.trainFound o else s
      if 7 ≤ k then (s.trainStored o).stepTo 7 else s.setTraining true (k + 1)

/-- Step 6: DRAM exits self-refresh with its contents, or it is trained, step by step (R387, R389). -/
def State.step6 (s : State) (o : StartObs) : State :=
  if s.trains then s.trainNext o
  else if s.dramStays o then s.dramKept.stepTo 7
  else s.trainBegin

/-- Step 7: the boot image, or the empty structure with a NOTE fault of the image check (R71, R541). -/
def State.step7 (s : State) : State :=
  match s.slotImage (s.rdF Reg.STI_BOOT 2 0) with
  | none => s.detect { src := blkSTI, chk := 3 }
  | some b =>
    match s.imgReject b 1 0 false with
    | some r => s.detect { src := blkSTI, chk := 3, code := r.reason }
    | none => s.applyImage b (List.range 16) (List.range 128)

/-- A register that step 8 gives its reset value: CHN_SER and CHN_IDLE (R161), and the per-channel PEL registers (R324)
but for PEL_REFL_OFS, which calibration gives. -/
def regStep8 (a : Nat) : Bool :=
  let n := a % 0x100000 / 0x1000
  if 0x600000 ≤ a ∧ a < 0x680000 then a == Reg.CHN_SER n || a == Reg.CHN_IDLE n
  else decide (0xC00000 ≤ a) && decide (a < 0xC80000) && decide (0x100 ≤ a % 0x1000) && a != Reg.PEL_REFL_OFS n

/-- Step 8: waveform tables and idle settings are cleared, PEL is reset by channel, and the Contact Sheet buffers are free
(R161, R235, R324). -/
def State.step8 (s : State) : State :=
  let keep := fun (a : Nat) => !regStep8 a
  let t := { s with regs := s.regs.filter fun x => keep x.1, applied := s.applied.filter fun x => keep x.1,
                    staged := s.staged.filter fun x => keep x.1, wold := [], wbuf := [],
                    sram := s.sram.filter fun x => decide (x.1 < 0x2400000) || decide (0x2680000 ≤ x.1) }
  let t := forEach (List.range 16) (fun n t => t.setSq n { t.sq n with sheet := {} }) t
  forEach ((List.range 128).filter fun c => t.pinOf c != s.pinOf c) (fun c t => t.pinChange c (s.pinOf c)) t

/-- Step 9: DRAM that was not kept is cleared; the step ends with the segment-table region clear, and what waits for that
region is served (R390). -/
def State.step9 (s : State) : State :=
  if bit (s.rd Reg.DRC_STAT) 28 then s
  else
    let s := { s with dram := [], drc := { s.drc with bad := [], closed := false, clr := segTop / 64 } }
    ((s.wrF Reg.DRC_STAT 31 31 1).wrF Reg.DRC_STAT 30 30 1).waitsServed

/-- SAFELIGHT runs, with its first edge at once, unless a MOD or GRAVE fault is held (R494). -/
def State.lightRuns (s : State) : State :=
  if s.modHeld then s
  else
    let l := !s.pwr.slLevel
    { (s.wrF Reg.FLT_STAT 29 29 1).send (.safelight l) with pwr := { s.pwr with slLevel := l } }

/-- Step 10: the start is complete (R454, R494, R508, R511). STEP reads a value the manual leaves open then. -/
def State.step10 (s : State) (ms : Nat) : State :=
  let s := (s.wrF Reg.PWR_STAT 31 31 1).wrF Reg.PWR_STAT 3 0 s.freeNow
  let s := ((s.drawn.wrN Reg.PWR_BOOT 0).wrN Reg.PWR_START_MS ms).irq Reg.PWR_ISTAT 1
  let s := { s with pwr := { s.pwr with starting := false }, cal := { s.cal with rotStart := s.mt },
                    sup := { s.sup with watch := some s.mt } }.lightRuns
  forEach ((List.range 4).filter fun p => (s.peerOf p).isSome) (fun p s => s.portUp p) s

/-- START_STEP_DONE: the step in progress completes, or is found to fail; step 6 runs through the steps of training
(R387). Under PFW_N a start waits before the NOR write of step 5 (R506). -/
def doStartStepDone (o : StartObs) (s : State) : State :=
  let k := s.startStep
  s.whenOn (s.startRuns && !s.startWaits) fun s =>
    match k with
    | 2 => s.step2.stepTo 3
    | 3 => match s.step3 o.digestKept with | some t => t.stepTo 4 | none => s.enterSafe 2
    | 4 => s.step4.stepTo 5
    | 5 =>
      match s.step5 o.calKept with
      | none => s.startFailed
      | some t => if bit (t.rd Reg.PWR_STAT) 26 then t.stepTo 6 else t.trainBegin.stepTo 6
    | 6 => s.step6 o
    | 7 => s.step7.stepTo 8
    | 8 => s.step8.stepTo 9
    | 9 => s.step9.stepTo 10
    | 10 => s.step10 o.startMs
    | _ => s.stepTo (k + 1)
/-- Meaning of START_STEP_DONE. -/
def execStartStepDone (o : StartObs) (s : State) : Host.Outcome State Fault Refusal := .next (doStartStepDone o s)

/-! ### What begins a start (R507, R529, R534) -/

/-- POWER_ON: VIN has risen; a cold start begins, and waits where RST_N is low (R529, R534). -/
def doPowerOn (rstLow : Bool) (s : State) : State :=
  if s.pwr.on then s
  else
    let t := s.coldKeep.wrN Reg.PWR_STAT (startWord 1 false 0)
    { t with pwr := { t.pwr with rstLow := rstLow } }
/-- Meaning of POWER_ON. -/
def execPowerOn (rstLow : Bool) (s : State) : Host.Outcome State Fault Refusal := .next (doPowerOn rstLow s)

/-- RAILS_FALL: HOLD has reached 12 V under PFW_N, and everything without power is lost (R528). -/
def doRailsFall (s : State) : State :=
  s.whenOn s.pfw fun s =>
    let t := s.norAbort.coldKeep
    { t with pwr := { t.pwr with on := false } }
/-- Meaning of RAILS_FALL. -/
def execRailsFall (s : State) : Host.Outcome State Fault Refusal := .next (doRailsFall s)

/-- RST_N is low from the present tick on. -/
def State.holdReset (s : State) : State := { s with pwr := { s.pwr with rstLow := true, startAt := s.mt } }

/-- RST_N_ASSERT: RST_N goes low for `ns` ns: below 100 ns it is ignored, from 1 µs on accepted, and between
either may happen (R534). -/
def doRstNAssert (ns : Nat) (s : State) : State :=
  s.whenOn (decide (100 ≤ ns) && !s.pwr.rstLow) fun s =>
    let open_ := decide (ns < 1000)
    let t := if open_ then s.drawn else s
    if open_ && s.freeNow % 2 == 0 then t
    else if t.graveHeld || t.safeMode then t
    else (t.resetFor 2).holdReset
/-- Meaning of RST_N_ASSERT. -/
def execRstNAssert (ns : Nat) (s : State) : Host.Outcome State Fault Refusal := .next (doRstNAssert ns s)

/-- RST_N_RELEASE: the start goes on; a warm one not before 10 µs after the falling edge (R534). -/
def doRstNRelease (s : State) : State :=
  s.whenOn s.pwr.rstLow fun s =>
    let t := if bit (s.rd Reg.PWR_STAT) 26 then max s.mt (s.pwr.startAt + 40000) else s.mt
    { s with pwr := { s.pwr with rstLow := false, startAt := t } }
/-- Meaning of RST_N_RELEASE. -/
def execRstNRelease (s : State) : Host.Outcome State Fault Refusal := .next (doRstNRelease s)

/-- PF_FUNCTION_LEVEL_RESET acts as the supervisor's reset, with cause 4 (R419). -/
def doPfFunctionLevelReset (s : State) : State := s.whenOn true fun s => s.resetFor 4
/-- Meaning of PF_FUNCTION_LEVEL_RESET. -/
def execPfFunctionLevelReset (s : State) : Host.Outcome State Fault Refusal := .next (doPfFunctionLevelReset s)

/-- SUP_RESET: SUP_CMD RESET begins a warm start. -/
def doSupReset (dom : Nat) (s : State) : State := s.hostWrite dom Reg.SUP_CMD fun s => s.resetFor 3
/-- Meaning of SUP_RESET. -/
def execSupReset (dom : Fin 16) (s : State) : Host.Outcome State Fault Refusal := .next (doSupReset dom.val s)

/-- RETRY: in Safe mode it clears the counts and starts cold; elsewhere a NOTE fault (R512, R522). -/
def doRetry (dom : Nat) (s : State) : State :=
  s.hostWrite dom Reg.PWR_CMD fun s => if s.safeMode then s.beginCold 7 false else s.noteReg dom Reg.PWR_CMD
/-- Meaning of RETRY. -/
def execRetry (dom : Fin 16) (s : State) : Host.Outcome State Fault Refusal := .next (doRetry dom.val s)

end Sys2Proof.Machine
end

