-- ==== Sys2Proof/Machine/Sup.lean ====
section
/-! DEFINITION. The supervisor core, the flash and the power-fail warning (R487, R504–R506, R514, R518–R520). -/

namespace Sys2Proof.Machine

open Sys2Proof

/-! ### Operations of the supervisor (R518–R520, R523) -/

/-- SUP_STAT: BUSY, PHASE and ERR. -/
def State.supStat (s : State) (busy : Bool) (phase err : Nat) : State :=
  s.wrN Reg.SUP_STAT (b2n busy * 2 ^ 31 + 2 ^ 28 * phase + err)

/-- An activation awaits CONFIRM. -/
def State.pending? (s : State) : Bool := bit (s.rd Reg.SUP_FW) 31

/-- The phase that no running operation leaves: 5 while CONFIRM is awaited. -/
def State.restPhase (s : State) : Nat := if s.pending? then 5 else 0

/-- An operation is refused or fails with an error code. -/
def State.supErr (s : State) (err : Nat) : State :=
  (if s.sup.op ≠ 0 then s.wrF Reg.SUP_STAT 7 0 err else s.supStat false s.restPhase err).irq Reg.SUP_ISTAT 2

/-- A SUP_CMD with operation `op`; one while another runs is refused with BUSY. -/
def State.supCmd (s : State) (dom op : Nat) (v : Word) (k : State → State) : State :=
  s.hostWrite dom Reg.SUP_CMD fun s =>
    if fld v 3 0 ≠ op then s else if s.sup.op ≠ 0 then s.supErr 8 else k s

/-- The image of a FW_STORE: none where it cannot be read (R404, R488, R518; log entry 45). DRAM does not run in Safe mode. -/
def State.fwFetch (s : State) (dram : Bool) (h : HostRead) : State × Option (List Byte) :=
  let n := s.rdF Reg.SUP_LEN 22 0
  if dram then
    if s.safeMode || s.rdF Reg.SUP_SRC_HI 31 10 != 0 then (s, none)
    else
      let a := s.rdWide Reg.SUP_SRC_LO 2
      let r := s.dramAsk { cls := 2, rkind := 7 } 0 a n
      (r.1, if r.2 then none else some (r.1.dramBytes a n))
  else
    let r : FaultRec := { src := 0x1200, chk := 3, addr := s.rdWide Reg.SUP_SRC_LO 2, access := 0, retried := true }
    if 2 ≤ h.fails then (s.detect r, none)
    else (if h.fails = 1 then s.detect { r with cls := 1 } else s, some (h.data.take n))

/-- A checked image goes to firmware slot `b`, whose trailer is erased first and written last (R515, R518). -/
def State.fwStore (s : State) (b : Nat) (img : List Byte) : State :=
  let s := ({ s with sup := { s.sup with op := 1, stored := none, digest := s.sup.digest.filter (·.1 != b) } }).supStat
    true 3 0
  let s := (s.wrF Reg.SUP_FW (29 + b) (29 + b) 0).wrN (Reg.SUP_FWVER_A + 4 * b) 0
  s.norPush
    { user := 3, region := 6 + b, erases := [(fwTrailer b, 65536), (norFw b, fwMax)],
      writes := [(norFw b, img), (fwTrailer b, leBytes 4 img.length ++ leBytes 4 (crc32c img))] }

/-- FW_STORE: `h` is what host memory answers where SPACE is 0. -/
def doFwStore (dom : Nat) (v : Word) (h : HostRead) (s : State) : State :=
  s.supCmd dom 1 v fun s =>
    if s.pfw then s.norPfw.supErr 7
    else if s.pending? then s.supErr 0xC
    else
      let r := s.fwFetch (bit v 8) h
      match r.2 with
      | none => r.1.supErr 9
      | some img =>
        let e := fwReject (s.rd Reg.STI_KEYS) s.keyOf img (s.rdF Reg.SUP_LEN 22 0)
        if e ≠ 0 then r.1.supErr e else r.1.fwStore (1 - s.rdF Reg.SUP_FW 0 0) img
/-- Meaning of FW_STORE. -/
def execFwStore (dom : Fin 16) (v : Word) (src : HostRead) (s : State) : Host.Outcome State Fault Refusal :=
  .next (doFwStore dom.val v src s)

/-- The core is switched to its other slot: the calibration slot ends, the watchdog rests (R519). -/
def State.supSwitchTo (s : State) (op : Nat) : State :=
  ({ s with sup := { s.sup with op := op, watch := none } }.supStat true 4 0).calAbort 6

/-- FW_ACTIVATE. -/
def doFwActivate (dom : Nat) (s : State) : State :=
  s.hostWrite dom Reg.SUP_CMD fun s =>
    if s.sup.op ≠ 0 then s.supErr 8
    else if s.pending? || s.safeMode then s.supErr 0xC
    else if !s.fwSlotOk (1 - s.rdF Reg.SUP_FW 0 0) then s.supErr 0xA
    else s.supSwitchTo 2
/-- Meaning of FW_ACTIVATE. -/
def execFwActivate (dom : Fin 16) (s : State) : Host.Outcome State Fault Refusal := .next (doFwActivate dom.val s)

/-- An operation of the supervisor completes. -/
def State.supDone (s : State) (isr : Nat) : State :=
  let s := { s with sup := { s.sup with op := 0, stored := none } }
  (s.supStat false s.restPhase 0).irq Reg.SUP_ISTAT isr

/-- CONFIRM: the running slot becomes the boot slot (R520). -/
def doConfirm (dom : Nat) (s : State) : State :=
  s.hostWrite dom Reg.SUP_CMD fun s =>
    if s.sup.op ≠ 0 then s.supErr 8
    else if !s.pending? then s.supErr 0xC
    else if s.pfw then s.norPfw.supErr 7
    else
      let b := s.rdF Reg.SUP_FW 0 0
      (((s.wrF Reg.SUP_FW 31 31 0).wrF Reg.SUP_FW 1 1 b).norPush (identityOp 3 norFwBoot b)).supDone 1
/-- Meaning of CONFIRM. -/
def execConfirm (dom : Fin 16) (s : State) : Host.Outcome State Fault Refusal := .next (doConfirm dom.val s)

/-- SUP_CMD_INVALID: an OP the table does not give (R523). -/
def doSupCmdInvalid (dom : Nat) (v : Word) (s : State) : State :=
  s.hostWrite dom Reg.SUP_CMD fun s =>
    if fld v 3 0 = 0 ∨ 5 ≤ fld v 3 0 then s.noteReg dom Reg.SUP_CMD else s
/-- Meaning of SUP_CMD_INVALID. -/
def execSupCmdInvalid (dom : Fin 16) (v : Word) (s : State) : Host.Outcome State Fault Refusal :=
  .next (doSupCmdInvalid dom.val v s)

/-- A calibration or image store runs (R519). -/
def State.storeRuns (s : State) : Bool :=
  s.cal.storing.isSome || (match s.sti with | some o => o.op == 4 | none => false)

/-- FW_OPERATION_DONE: a store has ended in the flash, or the new or previous firmware runs (R518–R520). -/
def doFwOperationDone (s : State) : State :=
  match s.sup.op, s.sup.stored with
  | 1, some code =>
    s.whenOn true fun s =>
      if code ≠ 0 then ({ s with sup := { s.sup with op := 0, stored := none } }).supErr code
      else (s.fwShow (1 - s.rdF Reg.SUP_FW 0 0)).supDone 1
  | 2, _ =>
    s.whenOn (!s.storeRuns) fun s =>
      let s := (s.fwRun (1 - s.rdF Reg.SUP_FW 0 0)).wrF Reg.SUP_FW 31 31 1
      { s with sup := { s.sup with activated := s.mt } }.supDone 5
  | 3, _ =>
    s.whenOn (!s.storeRuns) fun s =>
      (((s.fwRun (1 - s.rdF Reg.SUP_FW 0 0)).wrF Reg.SUP_FW 31 31 0).note 0x1200).supDone 8
  | _, _ => s
/-- Meaning of FW_OPERATION_DONE. -/
def execFwOperationDone (s : State) : Host.Outcome State Fault Refusal := .next (doFwOperationDone s)

/-- FW_CONFIRM_TIMEOUT: no CONFIRM within 10 s of the activation; the core switches back (R520). -/
def doFwConfirmTimeout (s : State) : State :=
  s.whenOn (s.pending? && s.sup.op == 0 && decide (s.sup.activated + 40000000000 ≤ s.mt)) fun s => s.supSwitchTo 3
/-- Meaning of FW_CONFIRM_TIMEOUT. -/
def execFwConfirmTimeout (s : State) : Host.Outcome State Fault Refusal := .next (doFwConfirmTimeout s)

/-- Firmware runs: past step 3 of a start, not while the core is switched, and not where only the ROM loader
runs (R508, R516, R519). -/
def State.fwRuns (s : State) : Bool :=
  decide (s.sup.op < 2) && !(s.pwr.starting && decide (s.startStep ≤ 3)) && s.rdF Reg.PWR_STAT 19 16 != 2

/-- SUP_HEARTBEAT (R487, R523). -/
def doSupHeartbeat (s : State) : State :=
  s.whenOn s.fwRuns fun s =>
    { s.wrN Reg.SUP_HBEAT ((s.rd Reg.SUP_HBEAT).toNat + 1) with sup := { s.sup with watch := some s.mt } }
/-- Meaning of SUP_HEARTBEAT. -/
def execSupHeartbeat (s : State) : Host.Outcome State Fault Refusal := .next (doSupHeartbeat s)

/-! ### The flash (R504, R514) -/

/-- The register that a setting of the identity region stands in shows what the flash holds. -/
def State.settingBack (s : State) (a : Nat) : State :=
  if a = norModule then s.wrRow Reg.GLB_MODULE (word (s.setting a))
  else if a = norBoot then s.wrRow Reg.STI_BOOT (word (s.setting a))
  else s.wrF Reg.SUP_FW 1 1 (s.setting a)

/-- What the block of a flash operation does with its end: `code` 0 done, 1 refused for PFW_N, 2 failed after its
retry. STI has no code for a failed flash write: the value of its reason is left open (R72, log entry 5). -/
def State.norEnd (s : State) (op : NorOp) (code : Nat) : State :=
  match op.user, op.region with
  | 1, 5 =>
    if code = 0 then s.stiDone
    else if code = 1 then s.stiReject 0 ⟨0x14, 0, 0⟩
    else s.drawn.stiReject 0 ⟨s.freeNow % 256, 0, 0⟩
  | 2, _ => { s with cal := { s.cal with stored := some (if code = 0 then 0 else if code = 1 then 1 else 4) } }
  | 3, 1 =>
    if code = 0 then s
    else
      let s := op.writes.foldl (fun s w => s.settingBack w.1) s
      if op.writes.any fun w => w.1 == norFwBoot then s.supErr (if code = 1 then 7 else 0xB)
      else if code = 1 then s.note 0 else s
  | 3, _ => { s with sup := { s.sup with stored := some (if code = 0 then 0 else if code = 1 then 7 else 0xB) } }
  | 4, _ => if code = 0 then s.wrWide Reg.CSH_ERES_LO 2 op.arg else s
  | _, 1 => if code = 1 then op.writes.foldl (fun s w => s.settingBack w.1) (s.note 0x100 0x14) else s
  | _, _ => if code = 1 then s.note blkFLT else s

/-- NOR_OP_DONE: the running operation ends; `fails` counts its failed attempts: 1 is CORR, 2 ends it with its
block's error code and NVM_ERR, and leaves an open number of its steps done (R488, R514). -/
def doNorOpDone (fails : Nat) (s : State) : State :=
  match s.norq with
  | [] => s
  | op :: l =>
    s.whenOn true fun s =>
      let s := { s with norq := l }.norShow
      if 2 ≤ fails then
        let s := s.drawn.norDo op (s.freeNow % (op.steps + 1))
        let s := s.detect { src := 0x1300, chk := 3, code := op.region, retried := true }
        (s.wrN Reg.NVM_ERR (2 ^ 31 + op.region)).norEnd op 2
      else
        let s := if fails = 1 then s.detect { src := 0x1300, cls := 1, chk := 3, code := op.region, retried := true } else s
        (s.norDo op op.steps).norEnd op 0
/-- Meaning of NOR_OP_DONE. -/
def execNorOpDone (fails : Fin 3) (s : State) : Host.Outcome State Fault Refusal := .next (doNorOpDone fails.val s)

/-! ### The power-fail warning (R504, R505) -/

/-- Flash operations that wait have not begun, and are refused (R504). -/
def State.norRefuseWaiting (s : State) : State :=
  match s.norq with
  | [] => s
  | op :: l => l.foldl (fun s x => s.norPfw.norEnd x 1) { s with norq := [op] }

/-- Sequencers in PRIMING, RUNNING or WAITING stop as by a STOP and an explicit apply command (R504). -/
def State.pfwStop (s : State) : State :=
  let g := s.applies + 1
  forEach ((List.range 16).filter s.seqRuns) (fun n s =>
    (s.setSq n { s.sq n with stopReq := true }).applyTo n g) { s with applies := g }

/-- PFW_ASSERT (R504). -/
def doPfwAssert (s : State) : State :=
  s.whenOn (!s.pfw) fun s =>
    let s := (s.wrF Reg.PWR_STAT 25 25 1).irq Reg.PWR_ISTAT 4
    let s := { s with pwr := { s.pwr with pfwAt := s.mt } }
    let s := ((s.count Reg.PWR_PFW_CNT 1).note blkPWR).norRefuseWaiting.masterFail
    if bit (s.rd Reg.PWR_CTL) 0 then s.pfwStop else s
/-- Meaning of PFW_ASSERT. -/
def execPfwAssert (s : State) : Host.Outcome State Fault Refusal := .next (doPfwAssert s)

/-- PFW_RELEASE: before the rails fall (R505). A start that waited for it at step 5 goes on, and the wait does not count
(R506). -/
def doPfwRelease (s : State) : State :=
  s.whenOn s.pfw fun s =>
    let w := if s.pwr.starting && s.startStep == 5 then s.mt - max s.pwr.stepAt s.pwr.pfwAt else 0
    let s := { s with pwr := { s.pwr with waited := s.pwr.waited + w } }
    (s.wrF Reg.PWR_STAT 25 25 0).irq Reg.PWR_ISTAT 8
/-- Meaning of PFW_RELEASE. -/
def execPfwRelease (s : State) : Host.Outcome State Fault Refusal := .next (doPfwRelease s)

end Sys2Proof.Machine
end

