-- ==== Sys2Proof/Machine/RegAccess.lean ====
section
/-! DEFINITION. Register access (R3–R6, R420): what a read of each register returns, a plain write by access code,
and the way from an address to the operation of a register that has a row of its own. -/

namespace Sys2Proof.Machine

open Sys2Proof

/-! ### What a register reads -/

/-- Bit `i` is 1 where the register `f i` is not zero (the ISUM registers), 32 instances from `base`. -/
def State.sumBits (s : State) (f : Nat → Nat) (base n : Nat) : Word :=
  word (maskOf ((List.range n).filter fun i => s.rd (f (base + i)) != 0))

/-- A register of SQn that is a view of its run (R115). SYNC_PEND shows once the sequencer is primed (R111). -/
def State.seqView (s : State) (n o a : Nat) : Word :=
  let u := s.sq n
  if o = 0x2C then
    let e := if s.seqStopped n then 0 else s.rdF (Reg.SEQ_SEL n) 19 16
    word ((384 * s.period n e + 65535) / 65536)
  else if a = Reg.SEQ_STAT n then setFld (s.rd a) 12 12 (b2n (s.syncPend n && s.primed n))
  else if o = 0x30 ∨ o = 0x34 then wordOf (maskOf (s.ownedSites n)) ((o - 0x30) / 4)
  else if o = 0x40 ∨ o = 0x44 then wordOf (maskOf (s.activeSites n)) ((o - 0x40) / 4)
  else if o = 0x48 ∨ o = 0x4C then s.rd a &&& wordOf (maskOf (s.ownedSites n)) ((o - 0x48) / 4)
  else if o = 0x68 then word u.prog.stack.length
  else if 0xD0 ≤ o ∧ o < 0xF0 then word (u.prog.lcAt ((o - 0xD0) / 4))
  else s.rd a

/-- Word `i` of a vector number, all ones where there is none. -/
def vecWord (v : Option Nat) (i : Nat) : Word :=
  match v with
  | some n => wordOf n i
  | none => 0xFFFFFFFF

/-- A register of channel `c` that is a view of its results (R168, R215). The comparator outputs are what the pin
shows at the read: open values (log entry 5). -/
def State.chnView (s : State) (c o a : Nat) : Word :=
  let r := (s.ch c).res
  if o = 4 then word (0x2400000 + 0x5000 * c)
  else if o = 0x14 then word r.coll
  else if o = 0x18 then word r.late
  else if o = 0x1C ∨ o = 0x20 then vecWord r.dropVec ((o - 0x1C) / 4)
  else if o = 0x4C then word ((s.rd a).toNat / 4 * 4 + (cmpState (s.crossed c) (Fin.ofNat 4 s.freeNow)).val)
  else if o = 0x50 ∨ o = 0x54 then wordOf r.fcnt ((o - 0x50) / 4)
  else if o = 0x58 ∨ o = 0x5C then wordOf r.ccnt ((o - 0x58) / 4)
  else if o = 0x60 then word r.mfcnt
  else if o = 0x64 ∨ o = 0x68 then vecWord r.ffv ((o - 0x64) / 4)
  else if o = 0x6C then word r.ffInfo
  else if o = 0x70 then word r.ffSeg
  else if o = 0x74 ∨ o = 0x78 then wordOf r.flogCnt ((o - 0x74) / 4)
  else if o = 0x7C ∨ o = 0x80 then wordOf r.flogLost ((o - 0x7C) / 4)
  else if o = 0x84 then word r.lreason
  else if o = 0x88 ∨ o = 0x8C then vecWord r.lvec ((o - 0x88) / 4)
  else s.rd a

/-- A register of CSH[n] that is a view of the buffers (R241). -/
def State.cshView (s : State) (n o a : Nat) : Word :=
  let u := s.sq n
  if o = 0x108 then
    word (u.epochs.length % 16 * 256 + b2n u.sheet.held.isSome * 128 + b2n u.sheet.newest.isSome * 64 +
      u.sheet.held.getD 0 * 16 + u.sheet.newest.getD 0 * 4)
  else if 0x124 ≤ o ∧ o < 0x130 then
    let c := s.carveOf n
    word (0x2C00000 + 1024 * (c.csBase + (o - 0x124) / 4 * c.csSize))
  else s.rd a

/-- The node that domain `dom` has selected: its graph and its index (R372). -/
def State.selNode (s : State) (dom : Nat) : Option (Graph × Nat) :=
  let k := fld (s.domSel dom Reg.ANE_NSEL) 9 0
  (s.str.graphs.flatMap fun g => (List.range g.nodes.length).map fun i => (g, i)).find? fun x =>
    s.nodeNumber x.1 x.2 == k

/-- A register of the ANE block (R372): the selects and windows are the domain's own. -/
def State.aneView (s : State) (dom o a : Nat) : Word :=
  let e := s.eng (o / 0x1000)
  if o = 0xC then
    (s.rd a &&& 0xFF800000) + word (2048 * (s.str.graphs.map fun g => g.nodes.length).sum + s.str.graphs.length)
  else if o = 0x10 then word (s.rdF a 31 16 * 65536 + s.poolFree)
  else if o = 0x24 ∨ o = 0x30 then s.domSel dom a
  else if o = 0x28 then
    match s.selNode dom with
    | some (g, i) =>
      let n := g.nodes.getD i {}
      word (2 ^ 31 + n.op % 16 * 2 ^ 24 + 2 ^ 16 * g.id + n.units)
    | none => 0
  else if o = 0x2C then
    match s.selNode dom with
    | some (g, i) => word (g.nodeAt i)
    | none => 0
  else if 0x34 ≤ o ∧ o < 0x8C then (s.aneWindow (fld (s.domSel dom Reg.ANE_FSEL) 13 0)).getD ((o - 0x34) / 4) 0
  else if o % 0x1000 = 0x100 then word (b2n e.offline * 2 ^ 30 + e.ready.length)
  else if o % 0x1000 = 0x104 then word (min e.rdyMax 65535)
  else if o % 0x1000 = 0x108 ∨ o % 0x1000 = 0x10C then wordOf e.ops ((o % 0x1000 - 0x108) / 4)
  else if o % 0x1000 = 0x110 then word (if e.ops = 0 then 0 else s.freeNow % 65536)
  else s.rd a

/-- Registers of the remaining blocks that are views: the ISUM registers, ages, the present Module Time, the
frame stride, the die temperatures and FLT_STAT. -/
def State.restView (s : State) (a : Nat) : Word :=
  if 0x800000 ≤ a ∧ a < 0xA00000 then
    if 0x800010 ≤ a ∧ a < 0x800020 then s.sumBits Reg.TMU_ISTAT ((a - 0x800010) / 4 * 32) 32
    else if a % 0x1000 = 0x184 then word (s.calAge ((a - 0x800000) / 0x1000))
    else s.rd a
  else if 0xA00000 ≤ a ∧ a < 0xC00000 then
    if 0xA00010 ≤ a ∧ a < 0xA00020 then s.sumBits Reg.ACQ_ISTAT ((a - 0xA00010) / 4 * 32) 32
    else if a % 0x1000 = 0x188 then word (fstride (s.aqLen ((a - 0xA00000) / 0x1000)))
    else s.rd a
  else if 0xC00004 ≤ a ∧ a < 0xC00014 then if s.unit 6 ((a - 0xC00004) / 4) = 3 then 0 else s.rd a
  else if 0xC00020 ≤ a ∧ a < 0xC00030 then s.sumBits Reg.PEL_ISTAT ((a - 0xC00020) / 4 * 32) 32
  else if 0xD00000 ≤ a ∧ a < 0xE00000 then
    if a % 0x1000 = 0x100 then word (s.calChAge ((a - 0xD00000) / 0x1000))
    else if a % 0x1000 = 0x108 then word (s.calDigAge ((a - 0xD00000) / 0x1000))
    else s.rd a
  else if a = Reg.TMG_PACE_MIN then word s.paceMin
  else if 0x400000 ≤ a ∧ a < 0x410000 ∧ a % 0x1000 = 0x18C then
    let n := (a - 0x400000) / 0x1000
    word (min (s.shown n) (s.shown (16 + n)))
  else if a = Reg.DMA_ISUM then s.sumBits Reg.DMA_ISTAT 0 16
  else if a = Reg.DMA_ACTIVE then
    word (maskOf ((List.range 16).filter fun n => s.dmaState n != 0 && s.dmaState n != 5))
  else if a = Reg.LNK_ISUM then s.sumBits Reg.LNK_ISTAT 0 6
  else if 0x1400010 ≤ a ∧ a < 0x140001C then wordOf (65536 * s.mt) ((a - 0x1400010) / 4)
  else if a = Reg.FLT_STAT then
    setFld (setFld (s.rd a) 28 28 (b2n s.pwr.slLevel)) 27 27 (b2n (bit (s.rd Reg.FLT_INJ) 31))
  else s.rd a

/-- The live value that a read of register `a` by domain `dom` returns: 0 for a write-only register and for an
offset with no register (R5, R420). -/
def State.regLive (s : State) (dom a : Nat) : Word :=
  match regRow a with
  | none => 0
  | some r =>
    if r.acc = .wo then 0
    else if 0x200000 ≤ a ∧ a < 0x400000 then s.seqView ((a - 0x200000) / 0x10000) (a % 0x10000) a
    else if 0x600000 ≤ a ∧ a < 0x800000 then s.chnView ((a - 0x600000) / 0x1000) (a % 0x1000) a
    else if 0xE00000 ≤ a ∧ a < 0xF00000 then s.cshView ((a - 0xE00000) / 0x1000) (a % 0x1000) a
    else if 0xF00000 ≤ a ∧ a < 0x1000000 then s.aneView dom (a - 0xF00000) a
    else s.restView a

/-- The value that a read returns: an upper word, or a word of a bank or window, that is latched for the domain
reads as it was latched (R6, R258, R372). -/
def State.regRead (s : State) (dom a : Nat) : Word :=
  match kget (fun _ => none) s.latch (latchKey dom a) with
  | some w => w
  | none => s.regLive dom a

/-- A read of this register draws a free value. -/
def drawsFree (a : Nat) : Bool :=
  (decide (0x600000 ≤ a ∧ a < 0x680000) && a % 0x1000 == 0x4C) || (decide (0xF00000 ≤ a ∧ a < 0xF20000) && a % 0x1000 == 0x110)

/-- A read at an address that no block has (R420). -/
def State.readNowhere (s : State) : State := s.answer [word 0xFFFFFFFF]

/-- The upper words that a read of the low word `a` latches: those of the value that the read returns, which a bank
or window may hold (R6, R258, R372). -/
def State.upWords (s : State) (dom a : Nat) : List Word :=
  (List.range (wideUps a)).map fun i =>
    let b := a + 4 * (i + 1)
    if (kget (fun _ => none) s.latch (latchKey dom a)).isSome then s.regRead dom b else s.regLive dom b

/-- A read of an aligned register: the upper words of a wide value are latched for the domain (R6). -/
def State.readPlain (s : State) (dom a : Nat) : State :=
  s.hostRead dom a fun s =>
    let v := s.regRead dom a
    let t := s.latchWords dom (a + 4) (s.upWords dom a)
    (if drawsFree a then t.drawn else t, [v])

/-! ### Misaligned accesses (R4) -/

/-- A module that has power and holds no GRAVE fault records the NOTE of an access that R4 does not allow. -/
def State.misaligned (s : State) (dom a : Nat) (wr : Bool) : State :=
  let s := if s.hostOn dom && !s.graveHeld then s.r4Note dom blkHIF a wr else s
  if wr then s else s.readNowhere

/-- MISALIGNED_ACCESS: an access of BAR0 or BAR4 that is not one aligned 32-bit word, by its address or by its
size. -/
def doMisalignedAccess (dom a : Nat) (wr : Bool) (s : State) : State := s.misaligned dom a wr
/-- Meaning of MISALIGNED_ACCESS. Both windows answer alike (R4, R424). -/
def execMisalignedAccess (dom : Fin 16) (_bar4 write : Bool) (addr : BitVec 26) (s : State) :
    Host.Outcome State Fault Refusal := .next (doMisalignedAccess dom.val addr.toNat write s)

/-! ### Reads -/

/-- A window word of a flow outside the domain's ranges is a denied read (R372). -/
def State.readWindow (s : State) (dom a : Nat) : State :=
  if s.flowMay dom (fld (s.domSel dom Reg.ANE_FSEL) 13 0) then s.readPlain dom a
  else s.hostRead dom a fun s => (s.deny 0 dom 0 false a, [word 0xFFFFFFFF])

/-- The channel of an address in a block of 128 instances at `base`, where `a` names its register at offset `o`. -/
def chanAt (base o a : Nat) : Option Nat :=
  if base ≤ a ∧ a < base + 0x80000 ∧ a % 0x1000 = o then some ((a - base) / 0x1000) else none

/-- A read of BAR0 by domain `dom`: the registers whose read acts have rows of their own. -/
def State.readBar0 (s : State) (dom a : Nat) : State :=
  if a % 4 ≠ 0 then s.misaligned dom a false
  else if 0x1900000 ≤ a then s.readNowhere
  else if 0xE00000 ≤ a ∧ a < 0xE10000 ∧ a % 0x1000 = 0x100 then doCshAcquire dom ((a - 0xE00000) / 0x1000) s
  else if a = Reg.ANE_F_STAT then doAneFStatRead dom s
  else if 0xF00034 ≤ a ∧ a < 0xF0008C then s.readWindow dom a
  else
    match chanAt 0x800000 0x200 a with
    | some c => doTmuRseqRead dom c s
    | none => s.readPlain dom a

/-- WIDE_LOW_WORD_READ: a read of a register; one of a low word latches the upper words. -/
def doWideLowWordRead (dom a : Nat) (s : State) : State := s.readBar0 dom a
/-- Meaning of WIDE_LOW_WORD_READ. -/
def execWideLowWordRead (dom : Fin 16) (addr : BitVec 26) (s : State) : Host.Outcome State Fault Refusal :=
  .next (doWideLowWordRead dom.val addr.toNat s)

/-! ### Writes -/

/-- A write that has reached its register takes effect by the access code (R5). -/
def State.writeByCode (s : State) (a : Nat) (v : Word) : State :=
  match regRow a with
  | none => s
  | some r =>
    let v := v &&& word r.mask
    match r.acc with
    | .rw => (s.wr a v).vecFall
    | .w1c => (s.clrBits a v.toNat).vecAgain a
    | .st => s.stageWrite a v
    | .ro => s
    | .wo => s

/-- A write of register `a` by its access code. -/
def State.writePlain (s : State) (dom a : Nat) (v : Word) : State := s.hostWrite dom a fun s => s.writeByCode a v

/-- A write to a register of SQn (R115): UR_POL alone of SEQ_CTL is staged, and drop-out enables of sites that SQn
does not own are ignored. -/
def State.writeSeq (s : State) (dom n o a : Nat) (v : Word) : State :=
  if o = 0 then s.hostWrite dom a fun s => (s.setApv a (setFld (s.apv a) 2 1 (fld v 2 1))).stageWrite a (v &&& 7)
  else if o = 4 then
    if fld v 2 0 = 1 then (if bit v 3 then doSeqStartSync dom n s else doSeqStart dom n s)
    else if fld v 2 0 = 2 then doSeqStop dom n s
    else doSeqCmdInvalid dom n v s
  else if o = 0x48 ∨ o = 0x4C then
    s.hostWrite dom a fun s => s.stageWrite a (v &&& wordOf (maskOf (s.ownedSites n)) ((o - 0x48) / 4))
  else if o = 0x50 ∨ o = 0x54 then doSeqDropreq dom n (o == 0x54) v s
  else if o = 0x60 then doSeqHtrig dom n v s
  else if o = 0xA0 then doSeqJreq dom n v s
  else s.writePlain dom a v

/-- A write to the TMG block: TMG_AVS_CTL.MODE 1 fixes VCORE at 0.85 V (R189), and a period pair is checked as its
high word comes (R174). -/
def State.writeTmg (s : State) (dom n o a : Nat) (v : Word) : State :=
  if a = Reg.TMG_CMD then (if bit v 0 then doPaceClr dom s else doTmgCmdInvalid dom v s)
  else if a = Reg.TMG_AVS_CTL then
    s.hostWrite dom a fun s =>
      let s := s.wrRow a v
      if bit v 0 then s.wrF Reg.TMG_VCORE 9 0 850 else s
  else if n < 16 ∧ 0x100 ≤ o ∧ o < 0x180 then
    if o % 8 = 4 then doTmgPerHiWrite dom n ((o - 0x100) / 8) v s else s.hostWrite dom a fun s => s.wr a v
  else s.writePlain dom a v

/-- A write to TMU[c]. -/
def State.writeTmu (s : State) (dom c o a : Nat) (v : Word) : State :=
  if 0x100 ≤ o ∧ o < 0x150 then doTmuConfigWrite dom c ((o - 0x100) / 4) v s
  else if o = 0x150 then
    if fld v 2 0 = 1 then doTmuArm dom c s else if fld v 2 0 = 2 then doTmuStop dom c s else doTmuCmdInvalid dom c v s
  else s.writePlain dom a v

/-- A write to ACQ[c]. -/
def State.writeAcq (s : State) (dom c o a : Nat) (v : Word) : State :=
  if 0x100 ≤ o ∧ o < 0x160 then doAcqConfigWrite dom c ((o - 0x100) / 4) v s
  else if o = 0x160 then
    if fld v 2 0 = 1 then doAcqArm dom c s
    else if fld v 2 0 = 2 then doAcqStop dom c s
    else if fld v 2 0 = 3 then doAcqSoft dom c s
    else if fld v 2 0 = 4 then doAcqMonitor dom c s
    else doAcqCmdInvalid dom c v s
  else s.writePlain dom a v

/-- A write to PEL[c]. -/
def State.writePel (s : State) (dom c o a : Nat) (v : Word) : State :=
  if 0x100 ≤ o ∧ o < 0x13C then doPelValueWrite dom c ((o - 0x100) / 4) v s
  else if o = 0x144 then
    if fld v 1 0 = 1 then doClearTrip dom c s else if fld v 1 0 = 2 then doRefl dom c s else doPelCmdInvalid dom c v s
  else s.writePlain dom a v

/-- A write to the ANE block: each domain has its own selects (R372). -/
def State.writeAne (s : State) (dom a : Nat) (v : Word) : State :=
  if a = Reg.ANE_CMD then
    if fld v 3 0 = 1 then doClrGraph dom (fld v 15 8) s
    else if fld v 3 0 = 2 then doClrmap dom (fld v 15 8) s
    else if fld v 3 0 = 3 then doAnePeakClr dom s
    else doAneCmdInvalid dom v s
  else if a = Reg.ANE_NSEL then s.hostWrite dom a fun s => s.setDomSel dom a (v &&& 0x3FF)
  else if a = Reg.ANE_FSEL then s.hostWrite dom a fun s => s.setDomSel dom a (v &&& 0x3FFF)
  else s.writePlain dom a v

/-- A write to the DRC block. -/
def State.writeDrc (s : State) (dom d o a : Nat) (v : Word) : State :=
  if a = Reg.DRC_CMD then
    if fld v 3 0 = 1 then doPwrdn dom (fld v 15 8) s
    else if fld v 3 0 = 2 then doPwrup dom (fld v 15 8) s
    else if fld v 3 0 = 3 then doDrcPeakClr dom s
    else doDrcCmdInvalid dom v s
  else if a = Reg.DRC_SPEED then doDrcSpeedWrite dom v s
  else if d < 8 ∧ o = 0x12C then doDrcInjWrite dom d v s
  else s.writePlain dom a v

/-- A write to DMA[n]: DMA_CTL and DMA_HEAD only in IDLE and HALTED (R410). -/
def State.writeDma (s : State) (dom n o a : Nat) (v : Word) : State :=
  if o = 0x104 then
    if fld v 2 0 = 1 then doDmaStart dom n s
    else if fld v 2 0 = 2 then doDmaStop dom n s
    else if fld v 2 0 = 3 then doDoorbell dom n s
    else if fld v 2 0 = 4 then doFlush dom n s
    else doDmaCmdInvalid dom n v s
  else if o = 0x100 ∨ o = 0x10C ∨ o = 0x110 then
    s.hostWrite dom a fun s => if s.dmaState n = 0 ∨ s.dmaState n = 5 then s.wrRow a v else s.noteReg dom a
  else s.writePlain dom a v

/-- A write to LNK[p]. -/
def State.writeLnk (s : State) (dom p o a : Nat) (v : Word) : State :=
  if p < 4 ∧ o = 0x104 then
    match fld v 3 0 with
    | 1 => doUp dom p s
    | 2 => doDown dom p s
    | 3 => doTxSleep dom p s
    | 4 => doTxWake dom p s
    | 5 => doXfer dom p s
    | 6 => doXabort dom p s
    | _ => doLnkCmdInvalid dom p v s
  else s.writePlain dom a v

/-- STI_CMD by its OP, the source read without a failure (R68 is the operand of the rows of its own). -/
def State.writeStiCmd (s : State) (dom : Nat) (v : Word) : State :=
  match fld v 3 0 with
  | 1 => doStiLoadWhole dom v 0 s
  | 2 => doStiLoadTile dom v 0 s
  | 3 => doStiCheck dom v 0 s
  | 4 => doStiStore dom v 0 s
  | 6 => if 4 ≤ fld v 14 12 then doStiBadCmd dom v s else doRevoke dom v s
  | _ => doStiBadCmd dom v s

/-- What host memory holds where a command of this row does not say: open bytes (log entry 5). -/
def State.freeHost (s : State) (n : Nat) : HostRead :=
  { data := (List.range n).map fun i => BitVec.ofNat 8 (Config.freeValue (s.free + i)) }

/-- SUP_CMD by its OP. -/
def State.writeSupCmd (s : State) (dom : Nat) (v : Word) : State :=
  match fld v 3 0 with
  | 1 =>
    let n := if bit v 8 then 0 else s.rdF Reg.SUP_LEN 22 0
    doFwStore dom v (s.freeHost n) { s with free := s.free + n }
  | 2 => doFwActivate dom s
  | 3 => doConfirm dom s
  | 4 => doSupReset dom s
  | _ => doSupCmdInvalid dom v s

/-- PWR_CMD by its OP. -/
def State.writePwrCmd (s : State) (dom : Nat) (v : Word) : State :=
  match fld v 3 0 with
  | 1 => doRailsOff dom v s
  | 2 => doRailsOn dom v s
  | 3 => doPllOff dom s
  | 4 => doPllOn dom s
  | 5 => doRetry dom s
  | _ => doPwrCmdInvalid dom v s

/-- FLT_CMD by its OP. -/
def State.writeFltCmd (s : State) (dom : Nat) (v : Word) : State :=
  match fld v 3 0 with
  | 1 => doRaiseMod dom s
  | 2 => doClrFirst dom s
  | 3 => doClrCount dom s
  | 4 => doClrPgrave dom s
  | _ => doFltCmdInvalid dom v s

/-- CAL_CMD by its OP. -/
def State.writeCalCmd (s : State) (dom : Nat) (v : Word) : State :=
  match fld v 1 0 with
  | 1 => doCalStore dom s
  | 2 => doSaveRej dom s
  | 3 => doClrSuspect dom s
  | _ => doCalCmdInvalid dom v s

/-- MTB_CMD by its OP. -/
def State.writeMtbCmd (s : State) (dom : Nat) (v : Word) : State :=
  match fld v 1 0 with
  | 1 => doTakeover dom s
  | 2 => doYield dom s
  | _ => doMtbCmdInvalid dom v s

/-- A write of GLB_STG_HOLD: it acts on the bits of the sequencers that the writing domain owns, D0 owning every
one; the other bits keep their values (R220). -/
def State.writeStgHold (s : State) (dom : Nat) (v : Word) : State :=
  let m := word (maskOf ((List.range 16).filter fun n => s.owns dom 1 n))
  s.wr Reg.GLB_STG_HOLD ((s.rd Reg.GLB_STG_HOLD &&& ~~~ m) ||| (v &&& m))

/-- A write to a block that has one instance, or to a register of the whole module. -/
def State.writeOne (s : State) (dom a : Nat) (v : Word) : State :=
  if a = Reg.GLB_APPLY then doGlbApply dom v s
  else if a = Reg.GLB_MODULE then doGlbModuleWrite dom v s
  else if a = Reg.STI_CMD then s.writeStiCmd dom v
  else if a = Reg.STI_BOOT then doStiBootWrite dom v s
  else if a = Reg.CAL_CMD then s.writeCalCmd dom v
  else if a = Reg.HIF_DENY_CNT then doHifDenyCntClear dom v s
  else if a = Reg.MTB_CTL then doMtbCtlWrite dom v s
  else if a = Reg.MTB_CMD then s.writeMtbCmd dom v
  else if a = Reg.FLT_CMD then s.writeFltCmd dom v
  else if a = Reg.FLT_INJ then doFltInjWrite dom v s
  else if a = Reg.PWR_CMD then s.writePwrCmd dom v
  else if a = Reg.SUP_CMD then s.writeSupCmd dom v
  else if a = Reg.GLB_STG_HOLD then s.hostWrite dom Reg.GLB_STG_HOLD fun s => s.writeStgHold dom v
  else s.writePlain dom a v

/-- A write to the protection table (R432). -/
def State.writePt (s : State) (dom a : Nat) (v : Word) : State :=
  let i := (a - 0x1201000) / 16
  let w := (a - 0x1201000) % 16 / 4
  if w = 0 then doHifPtCommit dom i v s else doHifPtWordWrite dom i w v s

/-- A write of BAR0 by domain `dom`. -/
def State.writeBar0 (s : State) (dom a : Nat) (v : Word) : State :=
  let o := a % 0x1000
  let c := a % 0x200000 / 0x1000
  if a % 4 ≠ 0 then s.misaligned dom a true
  else if 0x1900000 ≤ a then s.misaligned dom a true
  else if 0x200000 ≤ a ∧ a < 0x300000 then s.writeSeq dom ((a - 0x200000) / 0x10000) (a % 0x10000) a v
  else if 0x400000 ≤ a ∧ a < 0x600000 then s.writeTmg dom c o a v
  else if 0x600000 ≤ a ∧ a < 0x680000 ∧ o = 0x200 then doChnDskPathWrite dom c v s
  else if 0x800000 ≤ a ∧ a < 0x880000 then s.writeTmu dom c o a v
  else if 0xA00000 ≤ a ∧ a < 0xA80000 then s.writeAcq dom c o a v
  else if 0xC00000 ≤ a ∧ a < 0xC80000 then s.writePel dom c o a v
  else if 0xE00000 ≤ a ∧ a < 0xE10000 ∧ o = 0x104 then doCshRelease dom (c % 256) v s
  else if 0xE00000 ≤ a ∧ a < 0xE10000 ∧ o = 0x130 then doCshForcedRelease dom (c % 256) v s
  else if 0xF00000 ≤ a ∧ a < 0x1000000 then s.writeAne dom a v
  else if 0x1000000 ≤ a ∧ a < 0x1100000 then s.writeDrc dom ((a - 0x1000000) / 0x10000) (a % 0x10000) a v
  else if 0x1100000 ≤ a ∧ a < 0x1110000 then s.writeDma dom ((a - 0x1100000) / 0x1000) o a v
  else if 0x1201000 ≤ a ∧ a < 0x1202300 then s.writePt dom a v
  else if 0x1300000 ≤ a ∧ a < 0x1400000 then s.writeLnk dom ((a - 0x1300000) / 0x1000) o a v
  else s.writeOne dom a v

/-- REGISTER_WRITE: by the access code; a register with a row of its own acts as that row says. One that arrives poisoned
is discarded (R417). -/
def doRegisterWrite (dom a : Nat) (v : Word) (poison : Bool) (s : State) : State :=
  if poison then s.poisoned dom a else s.writeBar0 dom a v
/-- Meaning of REGISTER_WRITE. -/
def execRegisterWrite (dom : Fin 16) (addr : BitVec 26) (v : HostWord) (s : State) :
    Host.Outcome State Fault Refusal := .next (doRegisterWrite dom.val addr.toNat v.val v.poison s)

end Sys2Proof.Machine
end

