-- ==== Sys2Proof/Machine/Dispatch.lean ====
section
/-! DEFINITION. One arm per command: each is one direct call of the command's meaning. -/

namespace Sys2Proof.Machine

open Sys2Proof

/-- What command `i` does to the state (all of it but the queue). -/
def exec (i : Instr) (s : State) : Host.Outcome State Fault Refusal :=
  match i with
  | .registerWrite dom addr v => Sys2Proof.Machine.execRegisterWrite dom addr v s
  | .misalignedAccess dom bar4 write addr => Sys2Proof.Machine.execMisalignedAccess dom bar4 write addr s
  | .wideLowWordRead dom addr => Sys2Proof.Machine.execWideLowWordRead dom addr s
  | .stiLoadWhole dom v fails => Sys2Proof.Machine.execStiLoadWhole dom v fails s
  | .stiLoadTile dom v fails => Sys2Proof.Machine.execStiLoadTile dom v fails s
  | .stiCheck dom v fails => Sys2Proof.Machine.execStiCheck dom v fails s
  | .stiStore dom v fails => Sys2Proof.Machine.execStiStore dom v fails s
  | .revoke dom v => Sys2Proof.Machine.execRevoke dom v s
  | .stiBadCmd dom v => Sys2Proof.Machine.execStiBadCmd dom v s
  | .stiStopStep => Sys2Proof.Machine.execStiStopStep s
  | .stiDrainDone => Sys2Proof.Machine.execStiDrainDone s
  | .stiDrainExpiry => Sys2Proof.Machine.execStiDrainExpiry s
  | .stiConfigureDone => Sys2Proof.Machine.execStiConfigureDone s
  | .stiBootWrite dom v => Sys2Proof.Machine.execStiBootWrite dom v s
  | .seqStart dom n => Sys2Proof.Machine.execSeqStart dom n s
  | .seqStartSync dom n => Sys2Proof.Machine.execSeqStartSync dom n s
  | .seqStop dom n => Sys2Proof.Machine.execSeqStop dom n s
  | .seqCmdInvalid dom n v => Sys2Proof.Machine.execSeqCmdInvalid dom n v s
  | .playBegin n => Sys2Proof.Machine.execPlayBegin n s
  | .syncStartBegin => Sys2Proof.Machine.execSyncStartBegin s
  | .seqHtrig dom n v => Sys2Proof.Machine.execSeqHtrig dom n v s
  | .seqJreq dom n v => Sys2Proof.Machine.execSeqJreq dom n v s
  | .seqDropreq dom n hi v => Sys2Proof.Machine.execSeqDropreq dom n hi v s
  | .nop n => Sys2Proof.Machine.execNop n s
  | .halt n => Sys2Proof.Machine.execHalt n s
  | .jmp n => Sys2Proof.Machine.execJmp n s
  | .jcc n => Sys2Proof.Machine.execJcc n s
  | .call n => Sys2Proof.Machine.execCall n s
  | .rtn n => Sys2Proof.Machine.execRtn n s
  | .loop n => Sys2Proof.Machine.execLoop n s
  | .endl n => Sys2Proof.Machine.execEndl n s
  | .sett n => Sys2Proof.Machine.execSett n s
  | .setm n => Sys2Proof.Machine.execSetm n s
  | .setp n => Sys2Proof.Machine.execSetp n s
  | .flag n => Sys2Proof.Machine.execFlag n s
  | .sig n => Sys2Proof.Machine.execSig n s
  | .epoch n => Sys2Proof.Machine.execEpoch n s
  | .waitt n => Sys2Proof.Machine.execWaitt n s
  | .play n => Sys2Proof.Machine.execPlay n s
  | .playl n => Sys2Proof.Machine.execPlayl n s
  | .spool n => Sys2Proof.Machine.execSpool n s
  | .leader n => Sys2Proof.Machine.execLeader n s
  | .matchSeg n => Sys2Proof.Machine.execMatchSeg n s
  | .illegalOp n => Sys2Proof.Machine.execIllegalOp n s
  | .runaway n => Sys2Proof.Machine.execRunaway n s
  | .segmentEnd n => Sys2Proof.Machine.execSegmentEnd n s
  | .waittTimeout n => Sys2Proof.Machine.execWaittTimeout n s
  | .matchEnd n => Sys2Proof.Machine.execMatchEnd n s
  | .siteDropout n => Sys2Proof.Machine.execSiteDropout n s
  | .spoolCheckPoint n => Sys2Proof.Machine.execSpoolCheckPoint n s
  | .spoolReadyPoll n => Sys2Proof.Machine.execSpoolReadyPoll n s
  | .runEndComplete n => Sys2Proof.Machine.execRunEndComplete n s
  | .vectorFormat n fills => Sys2Proof.Machine.execVectorFormat n fills s
  | .paceFault n ch => Sys2Proof.Machine.execPaceFault n ch s
  | .vectorResult ch obs => Sys2Proof.Machine.execVectorResult ch obs s
  | .wftWordWrite dom ch tset code w v => Sys2Proof.Machine.execWftWordWrite dom ch tset code w v s
  | .wftCommit dom ch tset code v => Sys2Proof.Machine.execWftCommit dom ch tset code v s
  | .wftEntryTakesEffect ch tset code => Sys2Proof.Machine.execWftEntryTakesEffect ch tset code s
  | .glbApply dom v => Sys2Proof.Machine.execGlbApply dom v s
  | .explicitApply n => Sys2Proof.Machine.execExplicitApply n s
  | .tmgPerHiWrite dom n e v => Sys2Proof.Machine.execTmgPerHiWrite dom n e v s
  | .paceClr dom => Sys2Proof.Machine.execPaceClr dom s
  | .tmgCmdInvalid dom v => Sys2Proof.Machine.execTmgCmdInvalid dom v s
  | .chnDskPathWrite dom ch v => Sys2Proof.Machine.execChnDskPathWrite dom ch v s
  | .pllLockLoss => Sys2Proof.Machine.execPllLockLoss s
  | .pllRelock => Sys2Proof.Machine.execPllRelock s
  | .dllUnlock g => Sys2Proof.Machine.execDllUnlock g s
  | .dllRelockResult g ok => Sys2Proof.Machine.execDllRelockResult g ok s
  | .paceMonitorUpdate m margin => Sys2Proof.Machine.execPaceMonitorUpdate m margin s
  | .avsLower => Sys2Proof.Machine.execAvsLower s
  | .epochPublish n => Sys2Proof.Machine.execEpochPublish n s
  | .epochReserveExtend => Sys2Proof.Machine.execEpochReserveExtend s
  | .cshAcquire dom n => Sys2Proof.Machine.execCshAcquire dom n s
  | .cshRelease dom n v => Sys2Proof.Machine.execCshRelease dom n v s
  | .cshForcedRelease dom n v => Sys2Proof.Machine.execCshForcedRelease dom n v s
  | .tmuArm dom ch => Sys2Proof.Machine.execTmuArm dom ch s
  | .tmuStop dom ch => Sys2Proof.Machine.execTmuStop dom ch s
  | .tmuCmdInvalid dom ch v => Sys2Proof.Machine.execTmuCmdInvalid dom ch v s
  | .tmuConfigWrite dom ch r v => Sys2Proof.Machine.execTmuConfigWrite dom ch r v s
  | .tmuRdWrite dom ch v => Sys2Proof.Machine.execTmuRdWrite dom ch v s
  | .tmuRseqRead dom ch => Sys2Proof.Machine.execTmuRseqRead dom ch s
  | .tmuShutterOpen ch => Sys2Proof.Machine.execTmuShutterOpen ch s
  | .tmuShutterClose ch => Sys2Proof.Machine.execTmuShutterClose ch s
  | .tmuFreqLimit ch => Sys2Proof.Machine.execTmuFreqLimit ch s
  | .tmuBankLatch ch => Sys2Proof.Machine.execTmuBankLatch ch s
  | .tdcHit ch src edge code => Sys2Proof.Machine.execTdcHit ch src edge code s
  | .tdcBinTableBuild ch path counts => Sys2Proof.Machine.execTdcBinTableBuild ch path counts s
  | .tdcCalStale ch => Sys2Proof.Machine.execTdcCalStale ch s
  | .stampRecordMove ch => Sys2Proof.Machine.execStampRecordMove ch s
  | .acqArm dom ch => Sys2Proof.Machine.execAcqArm dom ch s
  | .acqStop dom ch => Sys2Proof.Machine.execAcqStop dom ch s
  | .acqSoft dom ch => Sys2Proof.Machine.execAcqSoft dom ch s
  | .acqMonitor dom ch => Sys2Proof.Machine.execAcqMonitor dom ch s
  | .acqCmdInvalid dom ch v => Sys2Proof.Machine.execAcqCmdInvalid dom ch v s
  | .acqConfigWrite dom ch r v => Sys2Proof.Machine.execAcqConfigWrite dom ch r v s
  | .acqStartTick ch => Sys2Proof.Machine.execAcqStartTick ch s
  | .acqConversion ch code clip => Sys2Proof.Machine.execAcqConversion ch code clip s
  | .acqSampleStored ch lost => Sys2Proof.Machine.execAcqSampleStored ch lost s
  | .acqPrefillEnd ch => Sys2Proof.Machine.execAcqPrefillEnd ch s
  | .acqAnalogHit ch trig edge code => Sys2Proof.Machine.execAcqAnalogHit ch trig edge code s
  | .acqTriggerDecision ch => Sys2Proof.Machine.execAcqTriggerDecision ch s
  | .acqFrameComplete ch => Sys2Proof.Machine.execAcqFrameComplete ch s
  | .acqRearm ch => Sys2Proof.Machine.execAcqRearm ch s
  | .acqTimeout ch => Sys2Proof.Machine.execAcqTimeout ch s
  | .pelValueWrite dom ch r v => Sys2Proof.Machine.execPelValueWrite dom ch r v s
  | .clearTrip dom ch => Sys2Proof.Machine.execClearTrip dom ch s
  | .refl dom ch => Sys2Proof.Machine.execRefl dom ch s
  | .pelCmdInvalid dom ch v => Sys2Proof.Machine.execPelCmdInvalid dom ch v s
  | .pelReflDone ch obs => Sys2Proof.Machine.execPelReflDone ch obs s
  | .pelTrip ch => Sys2Proof.Machine.execPelTrip ch s
  | .pmuClampEntry ch => Sys2Proof.Machine.execPmuClampEntry ch s
  | .pelTempCrossing tile t => Sys2Proof.Machine.execPelTempCrossing tile t s
  | .calSlotStart => Sys2Proof.Machine.execCalSlotStart s
  | .calPhaseEnd obs => Sys2Proof.Machine.execCalPhaseEnd obs s
  | .calSwitchPoint => Sys2Proof.Machine.execCalSwitchPoint s
  | .calSlotEnd => Sys2Proof.Machine.execCalSlotEnd s
  | .calTempCorrection tile => Sys2Proof.Machine.execCalTempCorrection tile s
  | .calAgeLimit ch => Sys2Proof.Machine.execCalAgeLimit ch s
  | .calStore dom => Sys2Proof.Machine.execCalStore dom s
  | .saveRej dom => Sys2Proof.Machine.execSaveRej dom s
  | .clrSuspect dom => Sys2Proof.Machine.execClrSuspect dom s
  | .calCmdInvalid dom v => Sys2Proof.Machine.execCalCmdInvalid dom v s
  | .calStoreDone => Sys2Proof.Machine.execCalStoreDone s
  | .aneItemAdmit n => Sys2Proof.Machine.execAneItemAdmit n s
  | .aneSpillReturn f => Sys2Proof.Machine.execAneSpillReturn f s
  | .aneOperation e fail => Sys2Proof.Machine.execAneOperation e fail s
  | .aneMarkerPass g node => Sys2Proof.Machine.execAneMarkerPass g node s
  | .aneCompressTimeout g node => Sys2Proof.Machine.execAneCompressTimeout g node s
  | .clrGraph dom g => Sys2Proof.Machine.execClrGraph dom g s
  | .clrmap dom g => Sys2Proof.Machine.execClrmap dom g s
  | .anePeakClr dom => Sys2Proof.Machine.execAnePeakClr dom s
  | .aneCmdInvalid dom v => Sys2Proof.Machine.execAneCmdInvalid dom v s
  | .aneClrmapDone => Sys2Proof.Machine.execAneClrmapDone s
  | .aneFStatRead dom => Sys2Proof.Machine.execAneFStatRead dom s
  | .dramRequest cls id wr line err ns => Sys2Proof.Machine.execDramRequest cls id wr line err ns s
  | .dramRefresh rank ns => Sys2Proof.Machine.execDramRefresh rank ns s
  | .dramTempPoll d t => Sys2Proof.Machine.execDramTempPoll d t s
  | .dramSelfRefreshEntry d => Sys2Proof.Machine.execDramSelfRefreshEntry d s
  | .dramScrub err => Sys2Proof.Machine.execDramScrub err s
  | .dramClearDone => Sys2Proof.Machine.execDramClearDone s
  | .pwrdn dom mask => Sys2Proof.Machine.execPwrdn dom mask s
  | .pwrup dom mask => Sys2Proof.Machine.execPwrup dom mask s
  | .drcPeakClr dom => Sys2Proof.Machine.execDrcPeakClr dom s
  | .drcCmdInvalid dom v => Sys2Proof.Machine.execDrcCmdInvalid dom v s
  | .drcSpeedWrite dom v => Sys2Proof.Machine.execDrcSpeedWrite dom v s
  | .drcSpeedDone => Sys2Proof.Machine.execDrcSpeedDone s
  | .drcInjWrite dom d v => Sys2Proof.Machine.execDrcInjWrite dom d v s
  | .dmaStart dom n => Sys2Proof.Machine.execDmaStart dom n s
  | .dmaStop dom n => Sys2Proof.Machine.execDmaStop dom n s
  | .doorbell dom n => Sys2Proof.Machine.execDoorbell dom n s
  | .flush dom n => Sys2Proof.Machine.execFlush dom n s
  | .dmaCmdInvalid dom n v => Sys2Proof.Machine.execDmaCmdInvalid dom n v s
  | .dmaDescFetch n src => Sys2Proof.Machine.execDmaDescFetch n src s
  | .dmaPiece n src => Sys2Proof.Machine.execDmaPiece n src s
  | .dmaPacedBurst n => Sys2Proof.Machine.execDmaPacedBurst n s
  | .dmaPaceWithdraw n valid => Sys2Proof.Machine.execDmaPaceWithdraw n valid s
  | .dmaDescComplete n rb wb => Sys2Proof.Machine.execDmaDescComplete n rb wb s
  | .dmaPoll n => Sys2Proof.Machine.execDmaPoll n s
  | .dmaResume n => Sys2Proof.Machine.execDmaResume n s
  | .bar2Access dom off acc => Sys2Proof.Machine.execBar2Access dom off acc s
  | .bar4Access dom off wr => Sys2Proof.Machine.execBar4Access dom off wr s
  | .hifPtWordWrite dom slot w v => Sys2Proof.Machine.execHifPtWordWrite dom slot w v s
  | .hifPtCommit dom slot v => Sys2Proof.Machine.execHifPtCommit dom slot v s
  | .hifDenyCntClear dom v => Sys2Proof.Machine.execHifDenyCntClear dom v s
  | .glbModuleWrite dom v => Sys2Proof.Machine.execGlbModuleWrite dom v s
  | .flrVf k => Sys2Proof.Machine.execFlrVf k s
  | .msixMessage fn vec => Sys2Proof.Machine.execMsixMessage fn vec s
  | .pcieLinkDown => Sys2Proof.Machine.execPcieLinkDown s
  | .pcieLinkUp speed host => Sys2Proof.Machine.execPcieLinkUp speed host s
  | .perst => Sys2Proof.Machine.execPerst s
  | .laneBlockReceived p l block => Sys2Proof.Machine.execLaneBlockReceived p l block s
  | .align p blocks => Sys2Proof.Machine.execAlign p blocks s
  | .lnkAlignSend p => Sys2Proof.Machine.execLnkAlignSend p s
  | .lnkFrameSend p => Sys2Proof.Machine.execLnkFrameSend p s
  | .item p head arg rest => Sys2Proof.Machine.execItem p head arg rest s
  | .write p head arg data tail => Sys2Proof.Machine.execWrite p head arg data tail s
  | .ack p head rest => Sys2Proof.Machine.execAck p head rest s
  | .nak p frame => Sys2Proof.Machine.execNak p frame s
  | .credit p head rest => Sys2Proof.Machine.execCredit p head rest s
  | .hello p frame => Sys2Proof.Machine.execHello p frame s
  | .frameBad rx => Sys2Proof.Machine.execFrameBad rx s
  | .lnkAckTimer p => Sys2Proof.Machine.execLnkAckTimer p s
  | .lnkCreditTimer p => Sys2Proof.Machine.execLnkCreditTimer p s
  | .lnkReplayTimeout p => Sys2Proof.Machine.execLnkReplayTimeout p s
  | .lnkLastingFailure p => Sys2Proof.Machine.execLnkLastingFailure p s
  | .lnkEyeUpdate lane l eye eq => Sys2Proof.Machine.execLnkEyeUpdate lane l eye eq s
  | .lnkEyeRetrain p => Sys2Proof.Machine.execLnkEyeRetrain p s
  | .lnkTrainDone p => Sys2Proof.Machine.execLnkTrainDone p s
  | .lnkTrainTimeout p => Sys2Proof.Machine.execLnkTrainTimeout p s
  | .up dom p => Sys2Proof.Machine.execUp dom p s
  | .down dom p => Sys2Proof.Machine.execDown dom p s
  | .txSleep dom p => Sys2Proof.Machine.execTxSleep dom p s
  | .txWake dom p => Sys2Proof.Machine.execTxWake dom p s
  | .xfer dom p => Sys2Proof.Machine.execXfer dom p s
  | .xabort dom p => Sys2Proof.Machine.execXabort dom p s
  | .lnkCmdInvalid dom p v => Sys2Proof.Machine.execLnkCmdInvalid dom p v s
  | .lnkSleepAp2 p => Sys2Proof.Machine.execLnkSleepAp2 p s
  | .lnkSleepAp2Timeout p => Sys2Proof.Machine.execLnkSleepAp2Timeout p s
  | .sleep p => Sys2Proof.Machine.execSleep p s
  | .lnkWakeBurst p => Sys2Proof.Machine.execLnkWakeBurst p s
  | .tlAlignment l symbols => Sys2Proof.Machine.execTlAlignment l symbols s
  | .tlMessageBad l symbols => Sys2Proof.Machine.execTlMessageBad l symbols s
  | .mtbTimeSend l => Sys2Proof.Machine.execMtbTimeSend l s
  | .mtbEchoSend l => Sys2Proof.Machine.execMtbEchoSend l s
  | .time l tick arr => Sys2Proof.Machine.execTime l tick arr s
  | .echoRequest l seq arr => Sys2Proof.Machine.execEchoRequest l seq arr s
  | .echoReply l t2 seq b arr => Sys2Proof.Machine.execEchoReply l t2 seq b arr s
  | .mirror tick flags arr => Sys2Proof.Machine.execMirror tick flags arr s
  | .mtbMirrorSend => Sys2Proof.Machine.execMtbMirrorSend s
  | .mtbMirrorTimeout => Sys2Proof.Machine.execMtbMirrorTimeout s
  | .mtbMasterElect => Sys2Proof.Machine.execMtbMasterElect s
  | .mtbUpstreamLoss => Sys2Proof.Machine.execMtbUpstreamLoss s
  | .mtbHoldoverLimit => Sys2Proof.Machine.execMtbHoldoverLimit s
  | .takeover dom => Sys2Proof.Machine.execTakeover dom s
  | .yield dom => Sys2Proof.Machine.execYield dom s
  | .mtbCmdInvalid dom v => Sys2Proof.Machine.execMtbCmdInvalid dom v s
  | .mtbCtlWrite dom v => Sys2Proof.Machine.execMtbCtlWrite dom v s
  | .sync l v => Sys2Proof.Machine.execSync l v s
  | .trig l v => Sys2Proof.Machine.execTrig l v s
  | .mtbSyncDeliver => Sys2Proof.Machine.execMtbSyncDeliver s
  | .xtInputEdge x rising stamp => Sys2Proof.Machine.execXtInputEdge x rising stamp s
  | .xtPulseEnd x => Sys2Proof.Machine.execXtPulseEnd x s
  | .faultReport f => Sys2Proof.Machine.execFaultReport f s
  | .faultRound => Sys2Proof.Machine.execFaultRound s
  | .raiseMod dom => Sys2Proof.Machine.execRaiseMod dom s
  | .clrFirst dom => Sys2Proof.Machine.execClrFirst dom s
  | .clrCount dom => Sys2Proof.Machine.execClrCount dom s
  | .clrPgrave dom => Sys2Proof.Machine.execClrPgrave dom s
  | .fltCmdInvalid dom v => Sys2Proof.Machine.execFltCmdInvalid dom v s
  | .fltInjWrite dom v => Sys2Proof.Machine.execFltInjWrite dom v s
  | .supWatchdogExpiry => Sys2Proof.Machine.execSupWatchdogExpiry s
  | .railFault => Sys2Proof.Machine.execRailFault s
  | .junctionTempCrossing c120 rising => Sys2Proof.Machine.execJunctionTempCrossing c120 rising s
  | .pwrIdleEntry kind idx => Sys2Proof.Machine.execPwrIdleEntry kind idx s
  | .pwrEntryAp2 kind idx => Sys2Proof.Machine.execPwrEntryAp2 kind idx s
  | .pwrEntryAp3 kind idx => Sys2Proof.Machine.execPwrEntryAp3 kind idx s
  | .pwrWake kind idx source => Sys2Proof.Machine.execPwrWake kind idx source s
  | .pwrWakeDone kind idx => Sys2Proof.Machine.execPwrWakeDone kind idx s
  | .railsOff dom v => Sys2Proof.Machine.execRailsOff dom v s
  | .railsOn dom v => Sys2Proof.Machine.execRailsOn dom v s
  | .pllOff dom => Sys2Proof.Machine.execPllOff dom s
  | .pllOn dom => Sys2Proof.Machine.execPllOn dom s
  | .retry dom => Sys2Proof.Machine.execRetry dom s
  | .pwrCmdInvalid dom v => Sys2Proof.Machine.execPwrCmdInvalid dom v s
  | .pwrCmdDone => Sys2Proof.Machine.execPwrCmdDone s
  | .pfwAssert => Sys2Proof.Machine.execPfwAssert s
  | .pfwRelease => Sys2Proof.Machine.execPfwRelease s
  | .railsFall => Sys2Proof.Machine.execRailsFall s
  | .powerOn rstLow => Sys2Proof.Machine.execPowerOn rstLow s
  | .rstNAssert ns => Sys2Proof.Machine.execRstNAssert ns s
  | .startStepDone o => Sys2Proof.Machine.execStartStepDone o s
  | .startFail train => Sys2Proof.Machine.execStartFail train s
  | .fwStore dom v src => Sys2Proof.Machine.execFwStore dom v src s
  | .fwActivate dom => Sys2Proof.Machine.execFwActivate dom s
  | .confirm dom => Sys2Proof.Machine.execConfirm dom s
  | .supReset dom => Sys2Proof.Machine.execSupReset dom s
  | .supCmdInvalid dom v => Sys2Proof.Machine.execSupCmdInvalid dom v s
  | .fwOperationDone => Sys2Proof.Machine.execFwOperationDone s
  | .fwConfirmTimeout => Sys2Proof.Machine.execFwConfirmTimeout s
  | .norOpDone fails => Sys2Proof.Machine.execNorOpDone fails s
  | .pfFunctionLevelReset => Sys2Proof.Machine.execPfFunctionLevelReset s
  | .rstNRelease => Sys2Proof.Machine.execRstNRelease s
  | .supHeartbeat => Sys2Proof.Machine.execSupHeartbeat s
  | .safelightToggle => Sys2Proof.Machine.execSafelightToggle s
  | .pmuClampExit ch => Sys2Proof.Machine.execPmuClampExit ch s
  | .permanentSpareAssignment ch => Sys2Proof.Machine.execPermanentSpareAssignment ch s

end Sys2Proof.Machine
end

