-- ==== Sys2Proof/Machine/Step.lean ====
section
/-! DEFINITION. One step of the module: the command at the front of the queue, or one tick of Module Time. -/

namespace Sys2Proof.Machine

open Sys2Proof

/-- One step: the front command acts on the state with the queue's rest; on an empty queue Module Time goes on
(log entry 4). -/
def step (s : State) : Host.Outcome State Fault Refusal :=
  match s.pending with
  | [] => .next s.tick
  | c :: q => exec c { s with pending := q }

/-- `s` with the command that a word spells put at the front of its queue; `s` itself where it spells none. -/
def State.withFetchWord (s : State) (nbits w : Nat) : State :=
  match decodeTableWord nbits w with
  | some c => { s with pending := c :: s.pending }
  | none => s

end Sys2Proof.Machine
end

