-- ==== Sys2Proof/Machine/Jtag.lean ====
section
/-! DEFINITION. The JTAG port (R539): the TAP controller of IEEE 1149.1, its instructions and the boundary register.
The table of commands has no row for an edge of TCK, so State.tck is an operation of the port that no command calls (log
entry 100). -/

namespace Sys2Proof.Machine

open Sys2Proof

/-- The state that follows in the TAP controller at a rising edge of TCK, by TMS. -/
def Tap.next (t : Tap) (tms : Bool) : Tap :=
  match t, tms with
  | .reset, true => .reset
  | .reset, false => .idle
  | .idle, true => .selDr
  | .idle, false => .idle
  | .selDr, true => .selIr
  | .selDr, false => .capDr
  | .capDr, true => .ex1Dr
  | .capDr, false => .shDr
  | .shDr, true => .ex1Dr
  | .shDr, false => .shDr
  | .ex1Dr, true => .updDr
  | .ex1Dr, false => .pauDr
  | .pauDr, true => .ex2Dr
  | .pauDr, false => .pauDr
  | .ex2Dr, true => .updDr
  | .ex2Dr, false => .shDr
  | .updDr, true => .selDr
  | .updDr, false => .idle
  | .selIr, true => .reset
  | .selIr, false => .capIr
  | .capIr, true => .ex1Ir
  | .capIr, false => .shIr
  | .shIr, true => .ex1Ir
  | .shIr, false => .shIr
  | .ex1Ir, true => .updIr
  | .ex1Ir, false => .pauIr
  | .pauIr, true => .ex2Ir
  | .pauIr, false => .pauIr
  | .ex2Ir, true => .updIr
  | .ex2Ir, false => .shIr
  | .updIr, true => .selDr
  | .updIr, false => .idle

/-- The instruction that a code selects: with the lock fuse blown, only BYPASS and IDCODE (R539). -/
def Jtag.select (j : Jtag) (code : Nat) : Nat := if code = 1 ∨ (!j.lock ∧ (code = 2 ∨ code = 3)) then code else 0

/-- What the selected data register captures: the identification code, the levels at the lands that the boundary
register covers, or the one bit of BYPASS. -/
def Jtag.capture (j : Jtag) (lands : List Bool) : List Bool :=
  if j.ir = 1 then (List.range 32).map fun i => Config.jtagIdcode.getLsbD i
  else if j.ir = 2 ∨ j.ir = 3 then lands
  else [false]

/-- A shift path with a bit entering at its end. -/
def shiftIn (l : List Bool) (tdi : Bool) : List Bool := l.drop 1 ++ [tdi]

/-- An edge of TCK with the levels of TMS and TDI, and those at the lands of the boundary register. -/
def Jtag.edge (j : Jtag) (tms tdi : Bool) (lands : List Bool) : Jtag :=
  let k :=
    match j.tap with
    | .capDr => { j with drShift := j.capture lands }
    | .shDr => { j with drShift := shiftIn j.drShift tdi, tdo := j.drShift.headD true }
    | .capIr => { j with irShift := true :: List.replicate (Config.jtagIrLen - 1) false }
    | .shIr => { j with irShift := shiftIn j.irShift tdi, tdo := j.irShift.headD true }
    | _ => j
  let t := j.tap.next tms
  match t with
  | .reset => { k with tap := t, ir := 1 }
  | .updIr => { k with tap := t, ir := k.select (Config.jtagCode k.irShift) }
  | .updDr => { k with tap := t, cells := if k.ir = 2 ∨ k.ir = 3 then k.drShift else k.cells }
  | _ => { k with tap := t }

/-- An edge of TCK at the port. -/
def State.tck (s : State) (tms tdi : Bool) (lands : List Bool) : State := { s with jtag := s.jtag.edge tms tdi lands }

/-- TRST_N is low. -/
def State.trst (s : State) : State := { s with jtag := { s.jtag with tap := .reset, ir := 1 } }

/-- The levels that EXTEST drives onto the lands: it acts only while RST_N is held low (R539). -/
def State.boundaryDrive (s : State) : Option (List Bool) :=
  if s.jtag.ir = 3 ∧ !s.jtag.lock ∧ s.pwr.rstLow then some s.jtag.cells else none

end Sys2Proof.Machine
end

