-- ==== Sys2Proof/Safety.lean ====
section
/-! DEFINITION. What counts as a safe run, in the terms that claims use: the canonical form of the memories, which
every step keeps, and the conditions under which a host access reaches its register. -/

namespace Sys2Proof.Machine

open Sys2Proof

/-- The contents of DRAM, on-chip SRAM and NOR flash are in canonical form: addresses rise strictly, and no entry
repeats what an unlisted address reads as. -/
abbrev MemOk (dram sram nor : KMap Byte) : Prop :=
  kwf dramFill dram = true ∧ kwf sramFill sram = true ∧ kwf norFill nor = true

/-- The byte memories of a state are in canonical form. -/
abbrev Memory.wf (s : State) : Prop := MemOk s.dram s.sram s.nor

/-- Every byte of DRAM, on-chip SRAM and NOR flash reads as before. -/
def MemKept (s t : State) : Prop :=
  (∀ a, kget dramFill t.dram a = kget dramFill s.dram a) ∧ (∀ a, kget sramFill t.sram a = kget sramFill s.sram a) ∧
    ∀ a, kget norFill t.nor a = kget norFill s.nor a

/-- Every register outside the list reads as before. -/
def RegsKept (l : List Nat) (s t : State) : Prop := ∀ a, a ∉ l → t.rd a = s.rd a

/-- Only registers of the list may have changed: every other register reads as before, and everything in the state
that is no register — the units, the memories, the faults on their way, what was sent out — is as it was. -/
def RegsOnly (l : List Nat) (s t : State) : Prop := RegsKept l s t ∧ t = { s with regs := t.regs }

/-- Only registers of the list may have changed, and one fault has been detected. -/
def RegsAndFault (l : List Nat) (r : FaultRec) (s t : State) : Prop :=
  RegsKept l s t ∧ t = { s with regs := t.regs, detected := s.detected ++ [r] }

/-- A run of a machine is safe while it answers next states: no fault, no refusal. -/
def Safe (s : State) : Prop := ∃ t, step s = .next t

/-- A host write of domain `dom` to the register at `a` reaches it, and the register's block was awake: no rule of
R434–R436, R485 or R512 answers in its place. -/
def State.Writes (s : State) (dom a : Nat) : Prop := s.access dom a true = .serve s

/-- The same of a host read. -/
def State.Reads (s : State) (dom a : Nat) : Prop := s.access dom a false = .serve s

/-- The decode front of SQn works and has room, stands in its carve at the instruction `i`, which is defined, has a
condition and operands that it may have, and is not the 4,096th instruction without a play (R73, R77–R81). -/
def State.Decodes (s : State) (n : Nat) (i : SInstr) : Prop :=
  s.decodeDue n = true ∧ s.pcInRange n (s.sq n).prog.pc = true ∧ s.fetchSeq n (s.sq n).prog.pc = i ∧
    s.staticFault n i = 0 ∧ (isPlayOp i.op = true ∨ (s.sq n).sincePlay + 1 < runawayLimit)

/-- A host write of domain `dom` through BAR4 to what it may write (`may`) and what rests on power unit `u` of block `blk`
reaches its place, and the unit was awake and is not about to sleep (R417, R418, R434–R436, R485, R501, R512). -/
def State.Writes4 (s : State) (dom : Nat) (may : Bool) (u : Nat × Nat) (blk : Nat) : Prop :=
  s.hostOn dom = true ∧ s.graveHeld = false ∧ may = true ∧ s.safeMode = false ∧
    s.reach (some u) (bit (s.rd Reg.HIF_WOA) (blk / 256)) = .awake s

/-- A write of the register at `a` has a row of its own in the command table, or is one whose effect its access code
alone does not give (R5, R174, R189, R220, R372, R410, R432). -/
def ownWrite (a : Nat) : Prop :=
  let o := a % 0x1000
  let k := a % 0x10000
  (0x200000 ≤ a ∧ a < 0x300000 ∧ k ∈ [0, 4, 0x48, 0x4C, 0x50, 0x54, 0x60, 0xA0]) ∨
  (0x400000 ≤ a ∧ a < 0x410000 ∧ 0x100 ≤ o ∧ o < 0x180) ∨
  (0x600000 ≤ a ∧ a < 0x680000 ∧ o = 0x200) ∨
  (0x800000 ≤ a ∧ a < 0x880000 ∧ 0x100 ≤ o ∧ o ≤ 0x150) ∨
  (0xA00000 ≤ a ∧ a < 0xA80000 ∧ 0x100 ≤ o ∧ o ≤ 0x160) ∨
  (0xC00000 ≤ a ∧ a < 0xC80000 ∧ 0x100 ≤ o ∧ o ≤ 0x144) ∨
  (0xE00000 ≤ a ∧ a < 0xE10000 ∧ o ∈ [0x104, 0x130]) ∨
  (0x1000000 ≤ a ∧ a < 0x1080000 ∧ k = 0x12C) ∨
  (0x1100000 ≤ a ∧ a < 0x1110000 ∧ o ∈ [0x100, 0x104, 0x10C, 0x110]) ∨
  (0x1201000 ≤ a ∧ a < 0x1202300) ∨
  (0x1300000 ≤ a ∧ a < 0x1304000 ∧ o = 0x104) ∨
  a ∈ [Reg.TMG_CMD, Reg.TMG_AVS_CTL, Reg.ANE_CMD, Reg.ANE_NSEL, Reg.ANE_FSEL, Reg.DRC_CMD, Reg.DRC_SPEED,
    Reg.GLB_APPLY, Reg.GLB_MODULE, Reg.STI_CMD, Reg.STI_BOOT, Reg.CAL_CMD, Reg.HIF_DENY_CNT, Reg.MTB_CTL, Reg.MTB_CMD,
    Reg.FLT_CMD, Reg.FLT_INJ, Reg.PWR_CMD, Reg.SUP_CMD, Reg.GLB_STG_HOLD]

/-- A read of the register at `a` has a row of its own in the command table, or is one of the window of ANE
(R232, R258, R372). -/
def ownRead (a : Nat) : Prop :=
  (0xE00000 ≤ a ∧ a < 0xE10000 ∧ a % 0x1000 = 0x100) ∨ (0xF00034 ≤ a ∧ a < 0xF0008C) ∨
  (0x800000 ≤ a ∧ a < 0x880000 ∧ a % 0x1000 = 0x200)

end Sys2Proof.Machine
end

