-- ==== Sys2Proof/Certificates/Slice0/Obligations.lean ====
section
/-! DEFINITION. The statements about the model, for the provers. Each statement's docstring says which rules of the
specification it formalises; a completion statement says from which states a command has its own effect. -/

open Sys2Proof Sys2Proof.Machine

/-- O1. For every command c, every queue q and every state whose queue is c followed by q, the step is exec of c on that
state with q as its queue. [spec/95_what_each_step_holds.md] -/
def Obligations.StepRunsFrontCommand : Prop :=
  ∀ (s : State) (c : Instr) (q : List Instr), s.pending = c :: q → step s = exec c { s with pending := q }

/-- O2. The model's choice (log entry 4): a step on an empty queue is the passing of time. Module Time grows by one tick
while the timing PLL is locked and by 40, one REFCLK cycle, while it is not; without power nothing is counted. The
placed drive events whose launch tick has come reach the lands, which the channels' drive units and the output show;
every other part of the state, registers and memories among them, is as it was, and all of it where no such event
waits. [spec/18_time_distribution.md; spec/06_edge_timing.md] -/
def Obligations.IdleStepCountsOneTick : Prop :=
  ∀ s : State, s.pending = [] →
    ∃ t, step s = .next t ∧ t = { s with mt := t.mt, chn := t.chn, out := t.out } ∧
      ((∀ c e l, (s.ch c).drvQ = e :: l → t.mt < e.launch.coarse) → t = { s with mt := t.mt }) ∧
      (s.pwr.on = false → t = s) ∧
      (s.pwr.on = true → bit (s.rd Reg.TMG_CLK_STAT) 31 = true → t.mt = (s.mt + 1) % 2 ^ 64) ∧
      (s.pwr.on = true → bit (s.rd Reg.TMG_CLK_STAT) 31 = false → t.mt = (s.mt + 40) % 2 ^ 64)

/-- O3. For every command and every state, exec answers a next state: a command that is not due, or that its block turns
away, leaves or notes what its rules say and the module goes on (log entry 4 says what an event that is not due does).
[spec/95_what_each_step_holds.md] -/
def Obligations.EveryCommandAnswersNext : Prop :=
  ∀ (c : Instr) (s : State), ∃ t, exec c s = .next t

/-- O4. For every command c and state s, the state that exec answers has the queue that s had: the queue is changed only
by the step that takes its front. [spec/95_what_each_step_holds.md] -/
def Obligations.CommandsLeaveTheQueue : Prop :=
  ∀ (c : Instr) (s t : State), exec c s = .next t → t.pending = s.pending

/-- O5. Right after reset the module is at step 1 of a cold start (the cause POWER is the model's value for a first start,
log entry 2), no fault is held, and these registers of the blocks read the values their tables give: the
identification registers, the drain limit, the VCORE set-point of 850 mV, the pace margins, the period pairs, the edge
status and FIFO fill, the first-failure and drop vectors, the calibration ages, the driver options, the pool, the
scrub control and the wake-on-access mask. [spec/02_structure_image.md (R72); spec/05_waveforms.md (R168);
spec/06_edge_timing.md (R191, R192); spec/07_compare_fail.md (R215); spec/11_pin_electronics.md (R324);
spec/12_calibration.md (R350); spec/13_analysis_engines.md (R372); spec/14_dram.md (R395); spec/16_host_protection.md
(R422, R437); spec/19_faults.md (R496); spec/20_power_start.md (R508, R522)] -/
def Obligations.ResetRegisters : Prop :=
  State.reset.rdF Reg.PWR_STAT 3 0 = 1 ∧
  State.reset.rd Reg.FLT_STAT = 0 ∧
  (∀ a ∈ [Reg.STI_ID, Reg.TMG_ID, Reg.CSH_ID, Reg.TMU_ID, Reg.ACQ_ID, Reg.PEL_ID, Reg.CAL_ID, Reg.ANE_ID, Reg.DRC_ID,
      Reg.DMA_ID, Reg.GLB_ID, Reg.HIF_ID, Reg.LNK_ID, Reg.MTB_ID, Reg.FLT_ID, Reg.PWR_ID, Reg.SUP_ID, Reg.NVM_ID],
    State.reset.rd a = 0x000100B1) ∧
  State.reset.rd Reg.STI_DRAIN = 0x3E8 ∧
  State.reset.rd Reg.TMG_VCORE = 0x352 ∧
  State.reset.rd Reg.TMG_PACE_MIN = 0x00FFFFFF ∧ State.reset.rd Reg.TMG_PACE_LOW = 0x00FFFFFF ∧
  (∀ n e : Fin 16, State.reset.rd (Reg.TMG_PER_LO n e) = 0x00040000 ∧ State.reset.rd (Reg.TMG_PER_HI n e) = 0) ∧
  (∀ c : Fin 128, State.reset.rd (Reg.CHN_EDGE_STAT c) = 0x80000000 ∧ State.reset.rd (Reg.CHN_FIFO c) = 0x00400000 ∧
    State.reset.rd (Reg.CHN_FFV_LO c) = 0xFFFFFFFF ∧ State.reset.rd (Reg.CHN_DROP_VEC_LO c) = 0xFFFFFFFF ∧
    State.reset.rd (Reg.TMU_CAL_AGE c) = 0xFFFFFFFF ∧ State.reset.rd (Reg.CAL_CH_AGE c) = 0xFFFFFFFF ∧
    State.reset.rd (Reg.PEL_DRV_CTL c) = 0x20000000) ∧
  State.reset.rd Reg.ANE_POOL = 0x80008000 ∧
  State.reset.rd Reg.DRC_SCRUB = 0x80000018 ∧
  State.reset.rd Reg.HIF_WOA = 0x000FFFFF

/-- O6. Right after reset no channel is in a site and D0 owns every resource, no sequencer, measurement, acquisition, copy
or calibration slot is in progress, the queue is empty, Module Time is 0, and DRAM, on-chip SRAM and flash list
nothing: an unlisted byte reads 0 in DRAM (R390) and 0 in SRAM, by the model's choice (log entry 3). The flash holds
what the factory wrote: both copies of the epoch reserve with R = 0 (R229) and a valid calibration set F (R326; its
measured values are the model's, log entry 3); every other byte of it is erased, 0xFF. [spec/02_structure_image.md
(R71); spec/08_contact_sheet.md (R229); spec/12_calibration.md (R326); spec/14_dram.md (R390); spec/20_power_start.md
(R508)] -/
def Obligations.ResetMachine : Prop :=
  (∀ c : Fin 128, State.reset.seqOfCh c = none) ∧
  (∀ (k : Fin 4) (i : Fin 16), State.reset.ptOwner (k + 1) i = 0) ∧
  (∀ n : Fin 16, State.reset.seqState n = 0 ∧ State.reset.dmaState n = 0) ∧
  (∀ c : Fin 128, State.reset.tmState c = 0 ∧ State.reset.aqState c = 0) ∧
  State.reset.cal.slot = none ∧ State.reset.pending = [] ∧ State.reset.mt = 0 ∧
  (∀ a, kget dramFill State.reset.dram a = 0) ∧ (∀ a, kget sramFill State.reset.sram a = 0) ∧
  State.reset.nor = [] ∧ State.reset.reserveCopy 0 = some 0 ∧ State.reset.reserveCopy 1 = some 0 ∧
  State.reset.setValid 0 = true ∧
  (∀ a, (∀ x ∈ factorySpans, a < x.1 ∨ x.1 + x.2 ≤ a) → kget norFill State.reset.nor a = 0xFF)

/-- O7. At reset the byte memories meet Memory.wf: addresses strictly rising and no entry equal to what an unlisted
address reads as (the form is the model's own). [spec/14_dram.md (R376); spec/16_host_protection.md (R424);
spec/20_power_start.md (R513)] -/
def Obligations.ResetMemoryForm : Prop :=
  Memory.wf State.reset

/-- O8. From every state whose DRAM, SRAM and flash are in canonical form, whatever command stands at the front of its
queue, or none, a step that answers a next state answers one whose memories are in canonical form: equal memories stay
equal data through every store, erase, scrub, reset and load. [spec/14_dram.md (R376, R390);
spec/16_host_protection.md (R424); spec/20_power_start.md (R507, R509, R513)] -/
def Obligations.EveryStepKeepsMemoryForm : Prop :=
  ∀ s t : State, Memory.wf s → step s = .next t → Memory.wf t

/-- O9. For every state, every address a and every list of bytes, storing the bytes in SRAM (or flash) from a makes a read
of that many bytes from a return them, and a byte outside the range reads as before; registers are not touched.
[spec/16_host_protection.md (R424); spec/20_power_start.md (R513)] -/
def Obligations.StoredBytesReadBack : Prop :=
  ∀ (s : State) (a : Nat) (bs : List Byte),
    ((s.sramWr a bs).sramRd a bs.length = bs ∧
      ∀ b, b < a ∨ a + bs.length ≤ b → kget sramFill (s.sramWr a bs).sram b = kget sramFill s.sram b) ∧
    ((s.norWr a bs).norRd a bs.length = bs ∧
      ∀ b, b < a ∨ a + bs.length ≤ b → kget norFill (s.norWr a bs).nor b = kget norFill s.nor b) ∧
    ∀ r, (s.sramWr a bs).rd r = s.rd r ∧ (s.norWr a bs).rd r = s.rd r

/-- O10. In every state, setting the register at a makes it read the value, leaves every other register as it was and
changes nothing that is no register; setting bits hi to lo of it makes the field read the value cut to its width and
leaves every field apart from it. The other statements name the registers that a command changes in these terms.
[spec/01_module_overview.md; spec/00_scope.md (R3)] -/
def Obligations.RegisterUpdateFrame : Prop :=
  ∀ (s : State) (a : Nat) (v : Word) (hi lo x : Nat),
    (s.wr a v).rd a = v ∧ RegsOnly [a] s (s.wr a v) ∧ RegsOnly [a] s (s.wrF a hi lo x) ∧
    (lo ≤ hi → hi < 32 → (s.wrF a hi lo x).rdF a hi lo = x % 2 ^ (hi + 1 - lo)) ∧
    ∀ hi2 lo2, lo ≤ hi → hi < 32 → hi2 < lo ∨ hi < lo2 → (s.wrF a hi lo x).rdF a hi2 lo2 = s.rdF a hi2 lo2

/-- O11. Where a host write reaches the register: the write of TMG_PERn_HI with a pair of 2.5 ns (163,840) to 2^38 units
stages the pair and shows its high word, and any other pair is discarded: the registers show the pair that was staged
or applied before, TMG_ERR and TMG_ISTAT record it and a NOTE fault is detected. PACE_CLR copies TMG_PACE_MIN to
TMG_PACE_LOW. A TMG_CMD with PACE_CLR 0 does nothing but detect a NOTE fault. CHN_DSK_PATH takes 16 bits while the
channel's sequencer is stopped. Each state is given whole: nothing else changes. [spec/06_edge_timing.md (R171, R174,
R182, R191)] -/
def Obligations.TmgCommandsComplete : Prop :=
  ∀ (s : State) (d n e : Fin 16) (c : Fin 128) (v : Word),
    let lo := (s.rd (Reg.TMG_PER_LO n e)).toNat
    let hi := v.toNat % 128
    let shown := s.periodPair n e
    (s.Writes d (Reg.TMG_PER_HI n e) → 163840 ≤ lo + 2 ^ 32 * hi → lo + 2 ^ 32 * hi ≤ 2 ^ 38 →
      exec (.tmgPerHiWrite d n e v) s = .next
        { s.wrN (Reg.TMG_PER_HI n e) hi with perStg := kset (fun _ => none) s.perStg (16 * n + e) (some (lo, hi)) }) ∧
    (s.Writes d (Reg.TMG_PER_HI n e) → lo + 2 ^ 32 * hi < 163840 ∨ 2 ^ 38 < lo + 2 ^ 32 * hi →
      exec (.tmgPerHiWrite d n e v) s = .next
        (((((s.wrN (Reg.TMG_PER_LO n e) shown.1).wrN (Reg.TMG_PER_HI n e) shown.2).wrN Reg.TMG_ERR
          (2 ^ 31 + e * 16 + n)).irq Reg.TMG_ISTAT 16).noteReg d (Reg.TMG_PER_HI n e))) ∧
    (s.Writes d Reg.TMG_CMD →
      exec (.paceClr d) s = .next (s.wrN Reg.TMG_PACE_LOW s.paceMin) ∧ s.regLive d Reg.TMG_PACE_MIN = word s.paceMin) ∧
    (s.Writes d Reg.TMG_CMD → bit v 0 = false → exec (.tmgCmdInvalid d v) s = .next (s.noteReg d Reg.TMG_CMD)) ∧
    (s.Writes d (Reg.CHN_DSK_PATH c) → s.chStopped c = true →
      exec (.chnDskPathWrite d c v) s = .next (s.wrN (Reg.CHN_DSK_PATH c) (v.toNat % 2 ^ 16)))

/-- O12. In a module that runs: the locked timing PLL, its unit ACTIVE, loses lock: TMG_CLK_STAT shows it and counts it,
TMG_ISTAT, a MOD-class fault and a discontinuity follow, runs and measurements end with cause FAULT and an active
master fails; a PLL out of lock whose unit is ACTIVE locks again. A locked delay line of a channel unlocks: a
SITE-class fault of its sequencer, or a NOTE fault where no sequencer owns it. A relock that succeeds shows LOCK
again; one that fails marks the generator failed. A failed generator whose tile's spare is free and whole gets the
spare for good, after any slot of the tile has ended, with a NOTE fault. [spec/01_module_overview.md (R22);
spec/06_edge_timing.md (R170, R177, R178, R179); spec/18_time_distribution.md (R461)] -/
def Obligations.TmgEventsComplete : Prop :=
  ∀ (s : State) (c : Fin 128), s.runs = true →
    (bit (s.rd Reg.TMG_CLK_STAT) 31 = true → s.unit 7 0 = 0 →
      exec .pllLockLoss s = .next
        ((((((((s.wrF Reg.TMG_CLK_STAT 31 31 0).countF Reg.TMG_CLK_STAT 15 0 1).irq Reg.TMG_ISTAT 8).modFault
          0x300 0).discontinuity).endAllRuns causeFAULT).endMeasures).masterFail)) ∧
    (bit (s.rd Reg.TMG_CLK_STAT) 31 = false → s.unit 7 0 = 0 →
      exec .pllRelock s = .next s.pllLock) ∧
    (bit (s.rd (Reg.CHN_EDGE_STAT c)) 31 = true → bit (s.rd (Reg.CHN_EDGE_STAT c)) 30 = false →
      (∀ n, s.seqOfCh c = some n → exec (.dllUnlock ⟨c, by omega⟩) s = .next
        ((s.wrF (Reg.CHN_EDGE_STAT c) 31 31 0).detect { src := 0x400 + c, cls := 2, seqNamed := some n })) ∧
      (s.seqOfCh c = none → exec (.dllUnlock ⟨c, by omega⟩) s = .next
        ((s.wrF (Reg.CHN_EDGE_STAT c) 31 31 0).note (0x400 + c)))) ∧
    (bit (s.rd (Reg.CHN_EDGE_STAT c)) 31 = false → bit (s.rd (Reg.CHN_EDGE_STAT c)) 30 = false →
      exec (.dllRelockResult ⟨c, by omega⟩ true) s = .next (s.wrF (Reg.CHN_EDGE_STAT c) 31 31 1) ∧
      exec (.dllRelockResult ⟨c, by omega⟩ false) s = .next
        ((((s.irq Reg.TMG_ISTAT 4).wrF (Reg.CHN_EDGE_STAT c) 30 30 1).wrF (Reg.TMG_DLL_FAIL (c / 32)) (c % 32)
          (c % 32) 1).calLockHook c)) ∧
    (bit (s.rd (Reg.CHN_EDGE_STAT c)) 30 = true → bit (s.rd Reg.TMG_DLL_FAIL_SP) (c / 32) = false →
      bit (s.rd Reg.CAL_TILE) (8 * (c / 32)) = false →
      exec (.permanentSpareAssignment c) s = .next
        ((((s.tileSlotEnds (c / 32) fun _ => true).wrF (Reg.CHN_EDGE_STAT c) 29 28 3).wrF Reg.CAL_TILE (8 * (c / 32)) (8 * (c / 32)) 1).note
          0x800 0 (c / 32)))

/-- O13. In a module that runs, a pace monitor's margin is stored, as 0xFFFF where its pipeline has no demand, and nothing
of the memories changes; a monitor whose pipeline has demand reads the stored margin, one without reads 0xFFFF. While
the loop is on and every monitor has read 1.40 (0x0167) or more for a millisecond, VCORE falls by 5 mV down to 650 mV,
and beside the start of the next millisecond nothing else changes. Where the lowest margin is below 1.25 (0x0140), the
loop raises VCORE by 5 mV up to 850 mV; at the ceiling, where MODE 1 holds VCORE too, it records the low margin once.
[spec/01_module_overview.md (R31); spec/06_edge_timing.md (R187, R188, R189)] -/
def Obligations.PaceLoopComplete : Prop :=
  ∀ (s : State) (m : Fin 67) (x : BitVec 16), s.runs = true →
    (∃ t, exec (.paceMonitorUpdate m x) s = .next t ∧ 
      t.pace = kset (fun _ => 0xFFFF) s.pace m (if s.demand m then x.toNat else 0xFFFF) ∧
      MemKept s t ∧ (∀ k : Fin 67, t.margin k = if k = m then (if s.demand m then x.toNat else 0xFFFF) else s.margin k) ∧
      ∀ k : Fin 67, t.shown k = if t.demand k then t.margin k else 0xFFFF) ∧
    (bit (s.rd Reg.TMG_AVS_CTL) 0 = false → (∀ k : Fin 67, 0x167 ≤ s.shown k) → 650 < s.rdF Reg.TMG_VCORE 9 0 →
      s.avsFrom + 4000000 ≤ s.mt →
      ∃ t, exec .avsLower s = .next t ∧ t.rdF Reg.TMG_VCORE 9 0 = max 650 (s.rdF Reg.TMG_VCORE 9 0 - 5) ∧ t.avsFrom = s.mt ∧
        RegsOnly [Reg.TMG_VCORE] { s with avsFrom := s.mt } t) ∧
    (∀ low, low < 0x140 →
      (bit (s.rd Reg.TMG_AVS_CTL) 0 = false → s.rdF Reg.TMG_VCORE 9 0 < 850 →
        s.avsRaise low = s.wrF Reg.TMG_VCORE 9 0 (min 850 (s.rdF Reg.TMG_VCORE 9 0 + 5))) ∧
      (bit (s.rd Reg.TMG_AVS_CTL) 0 = false → 850 ≤ s.rdF Reg.TMG_VCORE 9 0 → s.paceNoted = false →
        s.avsRaise low = ({ s with paceNoted := true }.irq Reg.TMG_ISTAT 2).note 0x300 2) ∧
      (bit (s.rd Reg.TMG_AVS_CTL) 0 = true → s.paceNoted = false →
        s.avsRaise low = ({ s.wrF Reg.TMG_VCORE 9 0 850 with paceNoted := true }.irq Reg.TMG_ISTAT 2).note 0x300 2))

/-- O14. A write of ones to HIF_DENY_CNT clears the count and the record's valid bit, any other write nothing. GLB_MODULE
takes 16 bits at once and its flash write joins the queue; under PFW_N it is refused, counted and noted. A vector
whose summary rises sends a message where the host does not mask it and sets its Pending Bit where it does; a vector
whose Pending Bit is set sends once it is not masked, and one whose summary is noted as on, with no Pending Bit, sends
none. FLR of function k stops the DMA channels of domain k, releases the sheets it holds, and clears its latches and
MSI-X state. The link shows the speed and width with which it comes up (codes 3 to 5, widths 1, 2, 4 and 8) and 0
while it is down, and virtual functions are enabled only where it is up, after a start, outside Safe mode; PERST takes
it down and clears the MSI-X state. Each state is given whole: nothing else changes. [spec/16_host_protection.md
(R415, R419, R420, R422, R428, R429, R437); spec/20_power_start.md (R524); spec/21_electrical.md (R534)] -/
def Obligations.HostInterfaceComplete : Prop :=
  ∀ (s : State) (d fn k : Fin 16) (vec : Fin 64) (v : Word) (speed width vfs : Fin 16),
    let f := s.vecFall
    let key := vecKey fn vec
    let off : Nat → Bool := fun _ => false
    let stopped := forEach ((List.range 16).filter fun n => s.ptOwner 3 n == k) (fun n s => s.dmaStopNow n) s
    let held := (List.range 16).filter fun n => (stopped.sq n).sheet.held.isSome && (stopped.sq n).sheet.heldBy == k
    (s.Writes d Reg.HIF_DENY_CNT →
      exec (.hifDenyCntClear d 0xFFFFFFFF) s = .next ((s.wrN Reg.HIF_DENY_CNT 0).wrF Reg.HIF_DENY_INFO 31 31 0) ∧
      (v ≠ 0xFFFFFFFF → exec (.hifDenyCntClear d v) s = .next s)) ∧
    (s.Writes d Reg.GLB_MODULE →
      (s.pfw = false → exec (.glbModuleWrite d v) s = .next
        ((s.wrN Reg.GLB_MODULE (v.toNat % 2 ^ 16)).norPush (identityOp 3 norModule (v.toNat % 2 ^ 16)))) ∧
      (s.pfw = true → exec (.glbModuleWrite d v) s = .next (s.norPfw.noteReg d Reg.GLB_MODULE))) ∧
    (s.hostOn fn = true → f.summary fn vec = true →
      (f.vecOn key = false → exec (.msixMessage fn ⟨vec, false⟩) s = .next
        ({ f with
            msixMask := kset off f.msixMask key false, msixOn := kset off f.msixOn key true,
            msixPend := kset off f.msixPend key false }.send (.msix fn vec))) ∧
      (f.vecOn key = false → exec (.msixMessage fn ⟨vec, true⟩) s = .next
        { f with
          msixMask := kset off f.msixMask key true, msixOn := kset off f.msixOn key true,
          msixPend := kset off f.msixPend key true }) ∧
      (f.vecOn key = true → kget off f.msixPend key = true → exec (.msixMessage fn ⟨vec, false⟩) s = .next
        ({ f with msixMask := kset off f.msixMask key false, msixPend := kset off f.msixPend key false }.send
          (.msix fn vec))) ∧
      (f.vecOn key = true → kget off f.msixPend key = false → exec (.msixMessage fn ⟨vec, false⟩) s = .next
        { f with msixMask := kset off f.msixMask key false })) ∧
    (s.hostOn k = true → k ≠ 0 →
      exec (.flrVf k) s = .next (((forEach held (fun n s => s.releaseHeld n) stopped).latchClear k).msixReset k)) ∧
    (s.pwr.on = true → bit (s.rd Reg.HIF_LINK) 0 = true → exec .pcieLinkDown s = .next
      { s.wrN Reg.HIF_LINK 0 with vfs := 0 }) ∧
    (s.pwr.on = true → 3 ≤ speed.val → speed.val ≤ 5 → width = 1 ∨ width = 2 ∨ width = 4 ∨ width = 8 →
      exec (.pcieLinkUp speed ⟨width, vfs⟩) s = .next
        { s.wrN Reg.HIF_LINK (2 ^ 16 * speed + 2 ^ 8 * width + 1) with
          vfs := if s.pwr.starting ∨ s.safeMode then 0 else vfs }) ∧
    (s.pwr.on = true →
      exec .perst s = .next { s.wrN Reg.HIF_LINK 0 with vfs := 0, msixOn := [], msixMask := [], msixPend := [] })

/-- O15. In a module that runs: an idle unit of kinds 1 to 3 whose timer is set, and has run since its last work or the
start, enters low power at AP1, or abandons the entry where a wake source reached it in the same round; it reaches AP2
when it has drained and is LOW at AP3, where a tile's rails or the timing PLL are down; a DRAM channel's entry is
abandoned where a sequencer has left STOPPED. A wake source of R497 that reaches a unit wakes it or abandons its
entry; a unit in WAKING is ACTIVE when its wake completes. RAILS_OFF begins the fall of every named tile where R499
allows it for all of them and is refused with a NOTE fault elsewhere; RAILS_ON wakes them; PLL_OFF and PLL_ON do so
for the timing PLL; PWR_CMD with an OP outside the table is refused with a NOTE fault; a command is done when no unit
of it is on its way down. Each state is given whole: nothing else changes. [spec/20_power_start.md (R497, R499, R500,
R501, R502, R503, R522)] -/
def Obligations.PowerUnitsComplete : Prop :=
  ∀ (s : State) (d : Fin 16) (kind : Fin 8) (i : Fin 128) (src : Fin 5) (v : Word),
    let tiles := bitsOf 4 (v.toNat / 2 ^ 8 % 2 ^ 4)
    let up := forEach ((List.range 4).filter fun t => s.unit 6 t == 4) (fun t s => s.railsUpOf t) s
    let src? := (kget (fun _ => none) s.pwr.srcAt (unitKey kind i)).filter fun x => x.1 / 16 == s.mt / 16
    (s.runs = true →
      (s.unitIdle kind i = true → s.idleTimer kind ≠ 0 → s.unit kind i = 0 →
        max s.pwr.startAt (kget (fun _ => 0) s.pwr.workAt (unitKey kind i)) + 4000 * s.idleTimer kind ≤ s.mt →
        (src? = none → exec (.pwrIdleEntry kind i) s = .next
          (let t := s.setUnit kind i 1
           { t with pwr := { t.pwr with entryAt := kset (fun _ => 0) t.pwr.entryAt (unitKey kind i) t.mt } })) ∧
        (∀ x, src? = some x → exec (.pwrIdleEntry kind i) s = .next ((s.workNow kind i).wakeRecord kind i x.2 1))) ∧
      (s.wakeSource kind i src = true → exec (.pwrWake kind i src) s = .next (s.wakeUnit kind i src))) ∧
    (s.pwr.on = true →
      (kind ≠ 5 → s.unit kind i = 1 → exec (.pwrEntryAp2 kind i) s = .next
        (if s.entryBroken kind i then s.wakeUnit kind i 1 else s.setUnit kind i 2)) ∧
      (s.unit kind i = 2 → s.entryBroken kind i = true → exec (.pwrEntryAp3 kind i) s = .next (s.wakeUnit kind i 1)) ∧
      (s.unit kind i = 2 → s.entryBroken kind i = false → exec (.pwrEntryAp3 kind i) s = .next
        (if kind = 6 then s.railsDownOf i
         else if kind = 7 then ((s.setUnit 7 0 3).wrF Reg.PWR_STAT 24 24 1).pllDown else s.setUnit kind i 3)) ∧
      (kind ≠ 4 → s.entryBroken kind i = false) ∧
      (kind.val < 6 → s.unit kind i = 4 → exec (.pwrWakeDone kind i) s = .next (s.setUnit kind i 0)) ∧
      (s.pwrCmdDue = true → exec .pwrCmdDone s = .next
        (((if up.unit 7 0 = 4 then up.pllUp.pllLock else up).setPwrCmd 0 0).irq Reg.PWR_ISTAT 16))) ∧
    (s.Writes d Reg.PWR_CMD →
      (v.toNat % 16 = 1 → (∀ t ∈ tiles, s.railsMayFall t = true) →
        exec (.railsOff d v) s = .next
          ((forEach tiles (fun t s => s.railsFallOf t) s).setPwrCmd 1 (v.toNat / 2 ^ 8 % 2 ^ 4))) ∧
      (v.toNat % 16 = 1 → (∃ t ∈ tiles, s.railsMayFall t = false) →
        exec (.railsOff d v) s = .next (s.noteReg d Reg.PWR_CMD)) ∧
      (v.toNat % 16 = 2 → exec (.railsOn d v) s = .next
        ((forEach tiles (fun t s => if s.unit 6 t = 0 then s.sourceNow 6 t 3 else s.wakeUnit 6 t 3) s).setPwrCmd 2
          (v.toNat / 2 ^ 8 % 2 ^ 4))) ∧
      (s.pllMayFall = true → s.unit 7 0 = 0 → exec (.pllOff d) s = .next ((s.enterUnit 7 0).setPwrCmd 3 0)) ∧
      (s.pllMayFall = false → exec (.pllOff d) s = .next (s.noteReg d Reg.PWR_CMD)) ∧
      (s.pllMayFall = true → s.unit 7 0 ≠ 0 → exec (.pllOff d) s = .next (s.setPwrCmd 3 0)) ∧
      exec (.pllOn d) s = .next
        ((if s.unit 7 0 = 0 then s.sourceNow 7 0 3 else s.wakeUnit 7 0 3).setPwrCmd 4 0) ∧
      (v.toNat % 16 = 0 ∨ 6 ≤ v.toNat % 16 → exec (.pwrCmdInvalid d v) s = .next (s.noteReg d Reg.PWR_CMD)))

/-- O16. In a module with power a fault that waits, a checker's fault that no injection meets (CORR where it is corrected
or its retry succeeds, else lasting in the class of its block; a lasting one of capture memory loses the record or
sample that it met) and an AER error reach the collector, and a round that has ended is ordered, recorded and reacted
to. RAISE_MOD detects a MOD-class fault of the domain; CLR_FIRST clears the first record, and the worst one unless a
MOD fault is held; CLR_COUNT clears the five counts; CLR_PGRAVE clears the stored record and erases it, or is refused
under PFW_N; an FLT_CMD with an OP outside the table is refused with a NOTE fault. FLT_INJ takes a value whose checker
exists. The watchdog, a rail out of range (not under PFW_N), a rising junction temperature (NOTE at 110 degrees, MOD
at 120) detect their faults, and SAFELIGHT toggles while it runs. Each state is given whole: nothing else changes.
[spec/16_host_protection.md (R417); spec/19_faults.md (R482, R487, R488, R490, R491, R492, R493, R494, R495, R496);
spec/20_power_start.md (R504)] -/
def Obligations.FaultCommandsComplete : Prop :=
  ∀ (s : State) (d : Fin 16) (v : Word),
    (s.pwr.on = true →
      (∀ r l, s.detected = r :: l →
        exec (.faultReport .detected) s = .next (({ s with detected := l }).collect r)) ∧
      (∀ src chk code addr rkind access rid, hasChecker src chk = true → s.injArmed src chk = false →
        let r : FaultRec :=
          { src := src, cls := 1, chk := chk, code := code, addr := addr, rkind := rkind, access := access, rid := rid }
        exec (.faultReport (.checker src chk code addr rkind access rid .corrected)) s = .next (s.collect r) ∧
        exec (.faultReport (.checker src chk code addr rkind access rid .transient)) s = .next
          (s.collect { r with retried := true }) ∧
        exec (.faultReport (.checker src chk code addr rkind access rid .lasting)) s = .next
          ((if src / 256 = 6 ∧ chk = 0 then s.captureLoss (src % 256) addr else s).collect
            { r with cls := lastingClass src chk, retried := true, seqNamed := s.faultSite src chk })) ∧
      exec (.faultReport (.aer false)) s = .next
        (((s.countF Reg.HIF_AER_CNT 15 0 1).irq Reg.HIF_ISTAT 8).collect { src := blkHIF, cls := 1 }) ∧
      exec (.faultReport (.aer true)) s = .next
        (((s.countF Reg.HIF_AER_CNT 31 16 1).irq Reg.HIF_ISTAT 8).collect { src := blkHIF }) ∧
      (∀ r l, s.round = r :: l → r.mt / 16 ≠ s.mt / 16 → exec .faultRound s = .next s.closeRound) ∧
      (∀ t, s.sup.watch = some t → t + 4000000 ≤ s.mt →
        exec .supWatchdogExpiry s = .next ({ s with sup := { s.sup with watch := none } }.modFault 0x1000 3)) ∧
      (s.pfw = false → exec .railFault s = .next (s.detect { src := 0x1000, cls := 4, code := 2 })) ∧
      (s.pwr.jt110 = false → exec (.junctionTempCrossing false true) s = .next
        ({ s with pwr := { s.pwr with jt110 := true } }.detect { src := 0x1000, cls := 0, code := 4 })) ∧
      (s.pwr.jt120 = false → exec (.junctionTempCrossing true true) s = .next
        ({ s with pwr := { s.pwr with jt120 := true } }.detect { src := 0x1000, cls := 3, code := 4 })) ∧
      (s.pwr.jt110 = true → exec (.junctionTempCrossing false false) s = .next
        { s with pwr := { s.pwr with jt110 := false } }) ∧
      (s.pwr.jt120 = true → exec (.junctionTempCrossing true false) s = .next
        { s with pwr := { s.pwr with jt120 := false } }) ∧
      (bit (s.rd Reg.FLT_STAT) 29 = true → exec .safelightToggle s = .next
        ({ s with pwr := { s.pwr with slLevel := !s.pwr.slLevel } }.send (.safelight (!s.pwr.slLevel))))) ∧
    (s.Writes d Reg.FLT_CMD →
      exec (.raiseMod d) s = .next
        (s.detect { src := 0x1000, cls := 3, code := 1, addr := Reg.FLT_CMD, rkind := 1, access := 1, rid := d }) ∧
      (s.modHeld = true → exec (.clrFirst d) s = .next (s.putWords (Reg.FLT_FIRST 0) (List.replicate 8 0))) ∧
      (s.clearRecord (Reg.FLT_FIRST 0)).modHeld = s.modHeld ∧
      (s.modHeld = false → exec (.clrFirst d) s = .next
        ((s.putWords (Reg.FLT_FIRST 0) (List.replicate 8 0)).putWords (Reg.FLT_WORST 0) (List.replicate 8 0))) ∧
      (∃ t, exec (.clrCount d) s = .next t ∧ (∀ c : Fin 5, t.rd (Reg.FLT_CNT c) = 0) ∧
        RegsOnly ((List.range 5).map Reg.FLT_CNT) s t) ∧
      (s.pfw = false → exec (.clrPgrave d) s = .next
        (((s.putWords (Reg.FLT_PGRAVE 0) (List.replicate 8 0)).wrF Reg.FLT_STAT 26 26 0).norPush
          { user := 5, region := 3, erases := [(0x20000, 4096)] })) ∧
      (s.pfw = true → exec (.clrPgrave d) s = .next (s.norPfw.noteReg d Reg.FLT_CMD)) ∧
      (v.toNat % 16 = 0 ∨ 5 ≤ v.toNat % 16 → exec (.fltCmdInvalid d v) s = .next (s.noteReg d Reg.FLT_CMD))) ∧
    (s.Writes d Reg.FLT_INJ →
      (fld v 26 24 < 4 → bit v 31 = false ∨ hasChecker (fld v 15 0) (fld v 26 24) = true →
        exec (.fltInjWrite d v) s = .next (s.wrRow Reg.FLT_INJ v)) ∧
      (4 ≤ fld v 26 24 → exec (.fltInjWrite d v) s = .next (s.noteReg d Reg.FLT_INJ)))

/-- O17. A module without power keeps its flash and fuses only and begins a cold start with cause 1 when VIN rises. Under
PFW_N the fall of the rails takes the power away. RST_N low for 1 us or longer begins a start again or a warm start
and holds it, one shorter than 100 ns is ignored; its release lets the start go on. A reset by the supervisor (cause
3) or of the physical function (cause 4) does so too. RETRY starts cold in Safe mode and is refused elsewhere with a
NOTE fault. A start's steps without work of their own go on to the next step, with the tick noted. Step 6 takes the
DRAM out of self-refresh where a warm start keeps it, and trains it elsewhere, step by step: a step that fails is
retried once, then the channel is FAILED and so is the start; a population that is not supported fails step 1 on its
first unsupported channel, or, where only R374 excludes it, on one that log entry 5 leaves open; the last step stores
the trained values and goes on to step 7. A start waits at step 5 under PFW_N; one that is late fails; a failed start
is counted and begun again or ended in Safe mode. While GRAVE is held or in Safe mode no reset acts. At the JTAG port
EXTEST drives the lands of the boundary register only with RST_N held low and the lock fuse whole, a blown lock fuse
leaves BYPASS and IDCODE alone, and five edges with TMS high bring the port to its reset state with IDCODE selected,
whatever it did. [spec/14_dram.md (R374, R387, R389); spec/16_host_protection.md (R419); spec/19_faults.md (R485);
spec/20_power_start.md (R507, R508, R511, R512, R522); spec/21_electrical.md (R528, R529, R534, R539)] -/
def Obligations.StartCommandsComplete : Prop :=
  ∀ (s : State) (d : Fin 16) (ns : Nat) (low : Bool) (o : StartObs),
    (s.pwr.on = false →
      exec (.powerOn low) s = .next
        { s.coldKeep.wrN Reg.PWR_STAT (2 ^ 27 + 1) with pwr := { rstLow := low } }) ∧
    (∀ k, s.stepTo k = { s.wrF Reg.PWR_STAT 3 0 k with pwr := { s.pwr with stepAt := s.mt } }) ∧
    (s.pwr.on = true →
      (s.pfw = true → exec .railsFall s = .next { s.norAbort.coldKeep with pwr := { on := false } }) ∧
      (ns < 100 → exec (.rstNAssert ns) s = .next s) ∧
      (1000 ≤ ns → s.pwr.rstLow = false → s.graveHeld = false → s.safeMode = false →
        exec (.rstNAssert ns) s = .next (s.resetFor 2).holdReset) ∧
      (s.graveHeld = true ∨ s.safeMode = true → ∀ cause, s.resetFor cause = s) ∧
      (s.graveHeld = false → s.safeMode = false → s.pwr.starting = false → ∀ cause, s.resetFor cause = s.beginWarm cause) ∧
      (s.pwr.rstLow = true → bit (s.rd Reg.PWR_STAT) 26 = false → exec .rstNRelease s = .next
        { s with pwr := { s.pwr with rstLow := false, startAt := s.mt } }) ∧
      (s.pwr.rstLow = true → bit (s.rd Reg.PWR_STAT) 26 = true → exec .rstNRelease s = .next
        { s with pwr := { s.pwr with rstLow := false, startAt := max s.mt (s.pwr.startAt + 40000) } }) ∧
      exec .pfFunctionLevelReset s = .next (s.resetFor 4) ∧
      (s.startRuns = true → s.startWaits = false →
        (s.startStep = 1 → exec (.startStepDone o) s = .next (s.stepTo 2)) ∧
        (s.startStep = 2 → exec (.startStepDone o) s = .next (s.step2.stepTo 3)) ∧
        (s.startStep = 3 → s.step3 o.digestKept = none → exec (.startStepDone o) s = .next (s.enterSafe 2)) ∧
        (∀ t, s.startStep = 3 → s.step3 o.digestKept = some t → exec (.startStepDone o) s = .next (t.stepTo 4)) ∧
        (s.startStep = 4 → exec (.startStepDone o) s = .next (s.step4.stepTo 5)) ∧
        (s.startStep = 5 → s.step5 o.calKept = none → exec (.startStepDone o) s = .next s.startFailed) ∧
        (∀ t, s.startStep = 5 → s.step5 o.calKept = some t → exec (.startStepDone o) s = .next
          (if bit (t.rd Reg.PWR_STAT) 26 then t.stepTo 6 else t.trainBegin.stepTo 6)) ∧
        (s.startStep = 6 → s.trains = false → s.dramStays o = true →
          exec (.startStepDone o) s = .next (s.dramKept.stepTo 7)) ∧
        (s.startStep = 6 → s.trains = false → s.dramStays o = false →
          exec (.startStepDone o) s = .next s.trainBegin) ∧
        (s.startStep = 6 → s.trains = true → s.drc.newReq = none →
          (∀ c, s.trainFaulty o = some c → s.drc.tries = false →
            exec (.startStepDone o) s = .next { s.drawn with drc := { s.drc with tries := true } }) ∧
          (∀ c, s.trainFaulty o = some c → s.drc.tries = true →
            exec (.startStepDone o) s = .next (s.drawn.trainFails c s.trainStep).startFailed) ∧
          (s.trainFaulty o = none → s.trainStep = 1 → exec (.startStepDone o) s = .next
            (({ s with drc := { s.drc with tries := false } }.trainFound o).setTraining true 2)) ∧
          (s.trainFaulty o = none → 1 ≠ s.trainStep → s.trainStep < 7 → exec (.startStepDone o) s = .next
            ({ s with drc := { s.drc with tries := false } }.setTraining true (s.trainStep + 1))) ∧
          (s.trainFaulty o = none → s.trainStep = 7 → exec (.startStepDone o) s = .next
            (({ s with drc := { s.drc with tries := false } }.trainStored o).stepTo 7))) ∧
        (∀ req, s.startStep = 6 → s.trains = true → s.drc.newReq = some req → 3 ≤ s.trainStep →
          exec (.startStepDone o) s = .next ((s.trainReq req).setTraining true 3)) ∧
        (s.startStep = 7 → exec (.startStepDone o) s = .next (s.step7.stepTo 8)) ∧
        (s.startStep = 8 → exec (.startStepDone o) s = .next (s.step8.stepTo 9)) ∧
        (s.startStep = 9 → exec (.startStepDone o) s = .next (s.step9.stepTo 10)) ∧
        (s.startStep = 10 → exec (.startStepDone o) s = .next (s.step10 o.startMs))) ∧
      (s.trainStep = 1 → ∀ g, g = min (gradeOf o) (s.drc.startReq.getD (gradeOf o)) →
        (popSupported o g = true → s.trainFaulty o = none) ∧
        (∀ c l, popSupported o g = false → popBad o g = c :: l → s.trainFaulty o = some c)) ∧
      (s.startWaits = true → exec (.startStepDone o) s = .next s ∧ exec (.startFail none) s = .next s) ∧
      (s.startRuns = true → s.startLate = true → exec (.startFail none) s = .next s.startFailed) ∧
      (∀ c k : Fin 8, s.startRuns = true → s.trains = true → s.trainStep = k → s.drc.tries = true →
        exec (.startFail (some (c, k))) s = .next (s.trainFails c k).startFailed) ∧
      (bit (s.rd Reg.PWR_STAT) 26 = false → 3 ≤ s.rdF Reg.PWR_BOOT 15 8 + 1 →
        s.startFailed = (s.wrF Reg.PWR_BOOT 15 8 (s.rdF Reg.PWR_BOOT 15 8 + 1)).enterSafe 1)) ∧
    (s.Writes d Reg.SUP_CMD → exec (.supReset d) s = .next (s.resetFor 3)) ∧
    (s.Writes d Reg.PWR_CMD →
      (s.safeMode = true → exec (.retry d) s = .next (s.beginCold 7 false)) ∧
      (s.safeMode = false → exec (.retry d) s = .next (s.noteReg d Reg.PWR_CMD))) ∧
    (∀ l, s.boundaryDrive = some l ↔ s.jtag.ir = 3 ∧ s.jtag.lock = false ∧ s.pwr.rstLow = true ∧ l = s.jtag.cells) ∧
    (∀ code, (s.jtag.lock = true → 1 < code → s.jtag.select code = 0) ∧
      (s.jtag.lock = false → code ≤ 3 → s.jtag.select code = code) ∧ s.jtag.select 1 = 1) ∧
    (∀ a b c e f : Bool × List Bool,
      let t := ((((s.tck true a.1 a.2).tck true b.1 b.2).tck true c.1 c.2).tck true e.1 e.2).tck true f.1 f.2
      t.jtag.tap = .reset ∧ t.jtag.ir = 1 ∧ t = { s with jtag := t.jtag })

/-- O18. Where SUP_CMD is reached and no operation runs: FW_STORE of an image that is fetched and passes its checks is
stored in the slot that does not run; FW_ACTIVATE switches to a sound other slot; CONFIRM of a pending activation
makes the running slot the boot slot, in the register and, behind what the flash still has to do, in the flash.
Another command while an operation runs is refused with BUSY (8). A store, an activation and a switch back complete
with their status; an activation without CONFIRM for 10 s is switched back; the heartbeat is counted while firmware
runs. The flash's running operation ends done, done after a retry with a CORR fault, or failed with a NOTE fault and
NVM_ERR. PFW_N asserted is shown, counted and noted, waiting flash operations are refused, an active master fails, and
runs stop where PWR_CTL asks for it; released, it is shown, and a start that waited for it at step 5 does not count
the wait. [spec/19_faults.md (R487, R488); spec/20_power_start.md (R504, R505, R514, R518, R519, R520, R523, R524)] -/
def Obligations.SupervisorCommandsComplete : Prop :=
  ∀ (s : State) (d : Fin 16) (v : Word) (h : HostRead),
    let b := s.rdF Reg.SUP_FW 0 0
    (s.Writes d Reg.SUP_CMD → s.sup.op = 0 →
      (∀ img, v.toNat % 16 = 1 → s.pfw = false → bit (s.rd Reg.SUP_FW) 31 = false →
        (s.fwFetch (bit v 8) h).2 = some img → fwReject (s.rd Reg.STI_KEYS) s.keyOf img (s.rdF Reg.SUP_LEN 22 0) = 0 →
        exec (.fwStore d v h) s = .next ((s.fwFetch (bit v 8) h).1.fwStore (1 - b) img)) ∧
      (bit (s.rd Reg.SUP_FW) 31 = false → s.safeMode = false → s.fwSlotOk (1 - b) = true →
        exec (.fwActivate d) s = .next (s.supSwitchTo 2)) ∧
      (bit (s.rd Reg.SUP_FW) 31 = true → s.pfw = false →
        exec (.confirm d) s = .next
          ((((s.wrF Reg.SUP_FW 31 31 0).wrF Reg.SUP_FW 1 1 b).norPush (identityOp 3 norFwBoot b)).supDone 1))) ∧
    (s.Writes d Reg.SUP_CMD →
      (s.sup.op ≠ 0 → exec (.fwActivate d) s = .next (s.supErr 8) ∧ exec (.confirm d) s = .next (s.supErr 8)) ∧
      (v.toNat % 16 = 0 ∨ 5 ≤ v.toNat % 16 → exec (.supCmdInvalid d v) s = .next (s.noteReg d Reg.SUP_CMD))) ∧
    (s.pwr.on = true →
      (s.sup.op = 1 → s.sup.stored = some 0 →
        exec .fwOperationDone s = .next ((s.fwShow (1 - b)).supDone 1)) ∧
      (s.sup.op = 2 → s.storeRuns = false →
        let u := (s.fwRun (1 - b)).wrF Reg.SUP_FW 31 31 1
        exec .fwOperationDone s = .next ({ u with sup := { u.sup with activated := u.mt } }.supDone 5)) ∧
      (s.sup.op = 3 → s.storeRuns = false → exec .fwOperationDone s = .next
        ((((s.fwRun (1 - b)).wrF Reg.SUP_FW 31 31 0).note 0x1200).supDone 8)) ∧
      (bit (s.rd Reg.SUP_FW) 31 = true → s.sup.op = 0 → s.sup.activated + 40000000000 ≤ s.mt →
        exec .fwConfirmTimeout s = .next (s.supSwitchTo 3)) ∧
      (s.fwRuns = true → exec .supHeartbeat s = .next
        { s.wrN Reg.SUP_HBEAT ((s.rd Reg.SUP_HBEAT).toNat + 1) with sup := { s.sup with watch := some s.mt } }) ∧
      (∀ op l, s.norq = op :: l →
        exec (.norOpDone 0) s = .next (((({ s with norq := l }).norShow).norDo op op.steps).norEnd op 0) ∧
        exec (.norOpDone 1) s = .next
          ((((({ s with norq := l }).norShow).detect
            { src := 0x1300, cls := 1, chk := 3, code := op.region, retried := true }).norDo op op.steps).norEnd
            op 0) ∧
        exec (.norOpDone 2) s = .next
          (((((({ s with norq := l }).norShow).drawn.norDo op (Config.freeValue s.free % (op.steps + 1))).detect
            { src := 0x1300, chk := 3, code := op.region, retried := true }).wrN Reg.NVM_ERR
            (2 ^ 31 + op.region)).norEnd op 2)) ∧
      (s.pfw = true →
        let w := if s.pwr.starting && s.startStep == 5 then s.mt - max s.pwr.stepAt s.pwr.pfwAt else 0
        exec .pfwRelease s = .next (({ s with pwr := { s.pwr with waited := s.pwr.waited + w } }.wrF Reg.PWR_STAT 25 25
          0).irq Reg.PWR_ISTAT 8)) ∧
      (s.pfw = false →
        let u := (s.wrF Reg.PWR_STAT 25 25 1).irq Reg.PWR_ISTAT 4
        let t := (({ u with pwr := { u.pwr with pfwAt := u.mt } }.count Reg.PWR_PFW_CNT 1).note
          0x1100).norRefuseWaiting.masterFail
        exec .pfwAssert s = .next (if bit (t.rd Reg.PWR_CTL) 0 then t.pfwStop else t)))

/-- O19. Where a host write reaches the register: START and START SYNC of a sequencer that is STOPPED, owns a site, is in
no stopped set, whose sheet fits, none of whose channels launches a reflectometry step, with no MOD fault held and the
PLL not down by command, clear the run's state, apply what is staged, prime it, and wait for an apply command where
SYNC asks for it; any other START is discarded with a NOTE fault, and so is an OP other than START and STOP. STOP is
noted for the next apply point while the sequencer runs and does nothing elsewhere. GLB_APPLY sends one apply command
to every named sequencer the domain owns. SEQ_HTRIG bit 0 sets the host trigger. SEQ_JREQ takes the enabled vectors,
of which those not already requested wait to be sampled; SEQ_DROPREQ takes the owned sites. Each state is given whole.
[spec/03_sequencer.md (R90, R98, R103, R105, R107, R110, R111, R112, R115); spec/08_contact_sheet.md (R217, R219)] -/
def Obligations.SequencerCommandsComplete : Prop :=
  ∀ (s : State) (d n : Fin 16) (hi : Bool) (v : Word),
    let asked := maskOf ((bitsOf 4 v.toNat).filter fun k => bit (s.apv (Reg.SEQ_JVEC n k)) 31)
    let drops := maskOf ((bitsOf 32 v.toNat).map fun t => if hi then t + 32 else t) &&& maskOf (s.ownedSites n)
    (s.Writes d (Reg.SEQ_CMD n) →
      (s.startOk n = true → exec (.seqStart d n) s = .next (s.startRun n false) ∧
        exec (.seqStartSync d n) s = .next (s.startRun n true)) ∧
      (s.startOk n = false → exec (.seqStart d n) s = .next (s.noteReg d (Reg.SEQ_CMD n)) ∧
        exec (.seqStartSync d n) s = .next (s.noteReg d (Reg.SEQ_CMD n))) ∧
      (s.seqState n = 1 ∨ s.seqState n = 2 ∨ s.seqState n = 3 →
        exec (.seqStop d n) s = .next (s.setSq n { s.sq n with stopReq := true })) ∧
      (s.seqState n = 0 ∨ s.seqState n = 4 → exec (.seqStop d n) s = .next s) ∧
      (v.toNat % 8 ≠ 1 → v.toNat % 8 ≠ 2 → exec (.seqCmdInvalid d n v) s = .next (s.noteReg d (Reg.SEQ_CMD n)))) ∧
    (s.Writes d Reg.GLB_APPLY →
      exec (.glbApply d v) s = .next
        (forEach ((bitsOf 16 v.toNat).filter fun n => s.owns d 1 n) (fun n t => t.applyTo n (s.applies + 1))
          { s with applies := s.applies + 1 })) ∧
    (s.Writes d (Reg.SEQ_HTRIG n) →
      exec (.seqHtrig d n v) s = .next (if bit v 0 then s.pendTrig n (2 ^ 24) else s)) ∧
    (s.Writes d (Reg.SEQ_JREQ n) →
      exec (.seqJreq d n v) s = .next
        ((s.setBits (Reg.SEQ_JPEND n) asked).setSq n { s.sq n with
          jreq := (s.sq n).jreq ||| asked &&& 15 - s.rdF (Reg.SEQ_JPEND n) 3 0 })) ∧
    (s.Writes d (if hi then Reg.SEQ_DROPREQ_HI n else Reg.SEQ_DROPREQ_LO n) →
      exec (.seqDropreq d n hi v) s = .next (s.setSq n { s.sq n with dropReq := (s.sq n).dropReq ||| drops }))

/-- O20. In a module that runs: while the timing PLL is locked a primed sequencer that waits for no apply command begins
its play on the present tick, and the sequencers that wait for one GLB_APPLY, all primed and reached, begin together;
an explicit apply command that is on its way takes effect; a sequencer in STOPPING whose epochs and compares are done
is STOPPED, with its interrupt bit set, and its state shows it. [spec/03_sequencer.md (R110, R111, R112, R113);
spec/08_contact_sheet.md (R217)] -/
def Obligations.SequencerEventsComplete : Prop :=
  ∀ (s : State) (n : Fin 16), s.runs = true →
    (s.primed n = true → bit (s.rd (Reg.SEQ_STAT n)) 12 = false → bit (s.rd Reg.TMG_CLK_STAT) 31 = true →
      exec (.playBegin n) s = .next (s.playStart n)) ∧
    (∀ g, s.syncReady = some g → bit (s.rd Reg.TMG_CLK_STAT) 31 = true →
      exec .syncStartBegin s = .next (forEach (s.syncMembers g) (fun n s => s.playStart n) s)) ∧
    ((s.sq n).applyReq = true → exec (.explicitApply n) s = .next (s.applyReached n)) ∧
    (s.seqState n = 4 → (s.sq n).epochs = [] ∨ s.epochStop = true → s.resultsBefore n ((s.sq n).vcnt + 1) = true →
      let t := ((s.skipHeld n).seqRests n).irq (Reg.SEQ_ISTAT n) 1
      exec (.runEndComplete n) s = .next (forEach (t.ownedChans n) (fun c s => s.calStopHook c) t) ∧ t.seqState n = 0)

/-- O21. In a module that runs, where the instruction at a sequencer's decode front is decoded: NOP goes on with the next
instruction; JMP and a JCC whose condition holds go to A[19:0]; CALL pushes the next address and goes to A[19:0], or
faults with 16 return addresses held; RTN goes to the newest return address and drops it, or faults with none; HALT
queues the end of the run at its play point and stops decode; a conditional one whose Program-class condition is false
goes on; a Late-class or Trigger-class condition is decided by the play front; LOOP sets counter A[2:0] to B and its
start to the next address; ENDL counts its counter down and goes to the start, or on at 1, or faults at 0. Each state
is given whole: but for the fault, the play point and the late decision, the program state and the count of
instructions without a play are all that changes. [spec/03_sequencer.md (R75, R77, R80, R82, R87, R88, R97)] -/
def Obligations.SequencerProgramSteps : Prop :=
  ∀ (s : State) (n : Fin 16) (i : SInstr), s.runs = true → s.Decodes n i →
    let u := s.sq n
    let p := u.prog
    let on := fun q => Host.Outcome.next (s.setSq n { u with prog := q, sincePlay := u.sincePlay + 1 })
    let bad := fun code => Host.Outcome.next (s.selfFault n code p.pc)
    let prg := condClass i.cond = .program
    let c := condProgram i.cond i.b p
    (i.op = 0x00 → exec (.nop n) s = on { p with pc := p.pc + 1 }) ∧
    (i.op = 0x02 → exec (.jmp n) s = on { p with pc := bits i.a 19 0 }) ∧
    (i.op = 0x03 → prg → exec (.jcc n) s = on { p with pc := if c then bits i.a 19 0 else p.pc + 1 }) ∧
    (i.op = 0x04 → prg →
      (c = false → exec (.call n) s = on { p with pc := p.pc + 1 }) ∧
      (c = true → p.stack.length < 16 →
        exec (.call n) s = on { p with pc := bits i.a 19 0, stack := (p.pc + 1) :: p.stack }) ∧
      (c = true → 16 ≤ p.stack.length → exec (.call n) s = bad 0x05)) ∧
    (i.op = 0x05 → prg →
      (c = false → exec (.rtn n) s = on { p with pc := p.pc + 1 }) ∧
      (∀ r st, c = true → p.stack = r :: st → exec (.rtn n) s = on { p with pc := r, stack := st }) ∧
      (c = true → p.stack = [] → exec (.rtn n) s = bad 0x06)) ∧
    (i.op = 0x01 → prg →
      (c = false → exec (.halt n) s = on { p with pc := p.pc + 1 }) ∧
      (c = true → exec (.halt n) s =
        .next ((s.setSq n { u with queue := u.queue ++ [.point .halt p.pc], decodeHalt := true }).front n))) ∧
    (¬ prg →
      (i.op = 0x01 → exec (.halt n) s = .next (s.condBranch n i)) ∧
      (i.op = 0x03 → exec (.jcc n) s = .next (s.condBranch n i)) ∧
      (i.op = 0x04 → exec (.call n) s = .next (s.condBranch n i)) ∧
      (i.op = 0x05 → exec (.rtn n) s = .next (s.condBranch n i))) ∧
    (i.op = 0x06 → exec (.loop n) s =
      on { p with pc := p.pc + 1, lc := kset (fun _ => 0) p.lc (bits i.a 2 0) i.b,
                  lcStart := kset (fun _ => 0) p.lcStart (bits i.a 2 0) (p.pc + 1) }) ∧
    (i.op = 0x07 →
      let k := bits i.a 2 0
      let left := kset (fun _ => 0) p.lc k (p.lcAt k - 1)
      (p.lcAt k = 0 → exec (.endl n) s = bad 0x07) ∧
      (p.lcAt k = 1 → exec (.endl n) s = on { p with pc := p.pc + 1, lc := left }) ∧
      (1 < p.lcAt k → exec (.endl n) s = on { p with pc := kget (fun _ => 0) p.lcStart k, lc := left }))

/-- O22. In a module that runs, where the instruction at a sequencer's decode front is decoded, SETT, SETM, SETP, FLAG,
SIG and EPOCH queue their action, with the instruction's operand, for the play front; decode goes on with the next
instruction (FLAG changes the program's flags at once, for the conditions), and a play front that has nothing before
the action does it. [spec/03_sequencer.md (R74, R75, R86, R94, R95, R96)] -/
def Obligations.SequencerPointActions : Prop :=
  ∀ (s : State) (n : Fin 16) (i : SInstr), s.runs = true → s.Decodes n i →
    let u := s.sq n
    let p := u.prog
    let queued := fun op => s.setSq n { u with queue := u.queue ++ [.point op p.pc] }
    let queue := fun op q => Host.Outcome.next
      (((queued op).setSq n { (queued op).sq n with prog := q, sincePlay := u.sincePlay + 1 }).front n)
    let q := { p with pc := p.pc + 1 }
    (i.op = 0x08 → exec (.sett n) s = queue (.sett (bits i.a 4 0)) q) ∧
    (i.op = 0x09 → exec (.setm n) s = queue (.setm (bits i.a 3 0)) q) ∧
    (i.op = 0x0A → exec (.setp n) s = queue (.setp (bits i.a 3 0)) q) ∧
    (i.op = 0x0B → exec (.flag n) s = queue (.flag (bits i.a 15 8) (bits i.a 7 0))
      { q with flags := (p.flags &&& (255 - bits i.a 15 8)) ||| bits i.a 7 0 }) ∧
    (i.op = 0x0C → exec (.sig n) s = queue (.sig i.a) q) ∧
    (i.op = 0x0D → exec (.epoch n) s = queue (.epoch i.b) q)

/-- O23. In a module that runs, where the instruction at a sequencer's decode front is decoded and no jump vector has just
been taken to an instruction it may not reach: a SPOOL with a ring, and a WAITT, PLAY, PLAYL, LEADER or MATCH whose
segment-table entry is a valid descriptor of the kind it plays (in DRAM for PLAY, in the vector buffer for the
others), as copied while the entry is active and else as read now, is queued for the play front with its operands;
decode goes on with the next instruction, and the count of instructions without a play starts again. A descriptor of
the other kind, a descriptor that is not valid, a SPOOL without a ring and a LEADER without a leader segment end the
run with their fault code. [spec/03_sequencer.md (R83, R84, R85, R91, R92, R104); spec/04_vector_segments.md (R122,
R123)] -/
def Obligations.SequencerPlayInstructions : Prop :=
  ∀ (s : State) (n : Fin 16) (i : SInstr), s.runs = true → s.Decodes n i →
    (s.sq n).jtaken = false ∨ jumpPlayOp i.op = true →
    let l := s.apv (Reg.SEQ_LEADER n)
    let seg := if i.op = 0x13 then fld l 15 0 else bits i.a 15 0
    let loc := !decide (i.op = 0x10)
    let r := s.entryDesc n seg
    let bad := fun (t : State) code => Host.Outcome.next (t.selfFault n code (t.sq n).prog.pc)
    let plays := fun (c : Instr) (p : PlayItem) =>
      (∀ d, r.2 = some d → d.loc = loc → exec c s = .next (r.1.queuePlay n { p with seg := seg, desc := d })) ∧
      (∀ d, r.2 = some d → d.loc ≠ loc → exec c s = bad r.1 0x08) ∧
      (r.2 = none → exec c s = bad r.1 0x09)
    (i.op = 0x0E → plays (.waitt n)
      { kind := .waitt, reps := bits i.b 23 0, tset := bits i.b 31 29, all := bits i.b 28 28 == 1,
        clr := bits i.b 27 27 == 1 }) ∧
    (i.op = 0x10 → plays (.play n) { kind := .play, reps := i.b }) ∧
    (i.op = 0x11 → plays (.playl n) { kind := .playl, reps := i.b }) ∧
    (i.op = 0x14 → plays (.matchSeg n) { kind := .matching, reps := i.b }) ∧
    (i.op = 0x13 →
      (bit l 31 = true → plays (.leader n) { kind := .leader, reps := i.b }) ∧
      (bit l 31 = false → exec (.leader n) s = bad s 0x08)) ∧
    (i.op = 0x12 →
      ((s.ringOf n).2 ≠ 0 → exec (.spool n) s = .next (s.queuePlay n { kind := .spool, reps := i.b })) ∧
      ((s.ringOf n).2 = 0 → exec (.spool n) s = bad s 0x0E))

/-- O24. In a module that runs, where a sequencer's decode front works and has room and stands in its carve: an opcode
that the spec does not define ends the run with fault 1 at its address, and an instruction that is right as it stands,
plays nothing and is the 4,096th without a play ends it with fault 0xC. An instruction of an opcode that is wrong as
it stands ends the run with the code of what is wrong, and a program counter outside the carve with code 4. The fault
code and its address are recorded, the fault is detected with class SITE, and the run ends with cause FAULT.
[spec/03_sequencer.md (R73, R77, R78, R79, R81, R113, R114)] -/
def Obligations.SequencerDecodeFaults : Prop :=
  ∀ (s : State) (n : Fin 16), s.runs = true → s.decodeDue n = true →
    let pc := (s.sq n).prog.pc
    let i := s.fetchSeq n pc
    let stops := fun code =>
      (((s.wr (Reg.SEQ_FCODE n) (word code)).wr (Reg.SEQ_FPC n) (word (pc % 2 ^ 20))).detect
        { src := 0x200 + n.val, cls := 2, code := code, seqNamed := some n.val, selfRaised := true }).endRun n causeFAULT
    (s.pcInRange n pc = true → opDefined i.op = false → exec (.illegalOp n) s = .next (stops 0x01)) ∧
    (s.pcInRange n pc = true → s.staticFault n i = 0 → isPlayOp i.op = false → 4096 ≤ (s.sq n).sincePlay + 1 →
      exec (.runaway n) s = .next (stops 0x0C)) ∧
    (s.pcInRange n pc = false → exec (.nop n) s = .next (stops 0x04)) ∧
    (s.pcInRange n pc = true → i.op = 0x02 → s.staticFault n i ≠ 0 → exec (.jmp n) s = .next (stops (s.staticFault n i)))

/-- O25. In a module that runs, where a sequencer's play front stands at the end of a segment repeat with every drop-out
and result due there done: the last repeat of a WAITT without its trigger is WAITT_TIMEOUT's, a MATCH that ends is
MATCH_END's, and any other end SEGMENT_END's. Each does, in this order: a spool entry is written back, host drop
requests and then, unless held, staged writes take effect, requests of jump vectors that are not enabled are
discarded; then a STOP ends the run with cause HOST_STOP, else no site left active ends it with cause ALL_DROPPED,
else the lowest jump vector requested is taken, else the instruction goes on. [spec/03_sequencer.md (R91, R93, R103,
R104, R105, R107, R108, R113); spec/04_vector_segments.md (R132, R142)] -/
def Obligations.SegmentEndsComplete : Prop :=
  ∀ (s : State) (n : Fin 16) (c : CurPlay), s.runs = true → s.atSegmentEnd n = some c →
    let t := (s.writeBackCur n).hostDrops n
    let t := (if t.stgHold n then t else t.applyStaged n).jumpsDiscard n
    let rest := t.clearCur n
    let timeout := c.item.kind = .waitt ∧ waittEnds c = some true
    let matched := c.item.kind = .matching ∧ (matchEnds c).isSome
    let out :=
      if (t.sq n).stopReq then rest.endRun n causeHOST
      else if t.allDropped n then rest.endRun n causeALLDROPPED
      else match t.jumpsDue n with
        | k :: _ => t.takeJump n k c
        | [] => t.continuePlay n c
    (¬ timeout → ¬ matched → exec (.segmentEnd n) s = .next out) ∧
    (timeout → exec (.waittTimeout n) s = .next out) ∧
    (matched → exec (.matchEnd n) s = .next out)

/-- O26. In a module that runs, while a sequencer plays: at a granule boundary the failing sites due drop out. The next
vector of a segment repeat, with no spool check point or calibration switch due first, the timing PLL locked, the
arming instants of its channels come and the boundary's drop-outs and results done, is formatted: the entries that the
pipeline has delivered enter the edge FIFOs, a full one holding it back, and the fills are recorded with the credits
of R542; a slot's vector b is fixed where its time has come; the vector's entries leave the FIFOs; at a granule
boundary triggers and requests are sampled; the events of every owned channel are placed with the period and sets in
force; the next start time is the vector's plus its period, the vector count and the place in the segment go up by
one, and the registers show them. Where an edge FIFO is empty at its arming instant the lowest channel so found stops
the sequencer as a pace fault; a vector whose line is lost stops it so on its lowest channel; and a pace fault on the
lowest channel that is dry, where a vector follows, stops it with fault 0xD. [spec/01_module_overview.md (R33);
spec/03_sequencer.md (R90, R102, R103, R106); spec/05_waveforms.md (R152); spec/06_edge_timing.md (R172, R185, R186,
R542); spec/12_calibration.md (R331); spec/14_dram.md (R391)] -/
def Obligations.VectorEventsComplete : Prop :=
  ∀ (s : State) (n : Fin 16) (ch : Fin 128) (news : List Nat), s.runs = true → s.seqPlays n = true →
    (s.atGranule n = true → s.dropDue n ≠ [] → exec (.siteDropout n) s =
      .next (forEach (s.dropDue n) (fun t s => s.dropSite n t false) s)) ∧
    (s.dryChan n = some ch.val → (s.nextPlay n).isSome = true → exec (.paceFault n ch) s =
      .next ((s.recordFill n ch (match (s.sq n).cur with | some k => s.fifoCredits n k | none => 0)).paceStop n ch
        { src := 0x200 + n.val, code := 0x0D })) ∧
    (∀ c, (s.sq n).cur = some c → c.pos < c.desc.nvec → s.checkDue n = false → s.switchDue n = false →
      bit (s.rd Reg.TMG_CLK_STAT) 31 = true → (∀ k ∈ s.ownedChans n, s.armed n k = true) →
      (c.pos % 64 ≠ 0 ∨ s.dropDue n = [] ∧ s.resultsBefore n ((s.sq n).vcnt - 383) = true) →
      let r := s.askVector n c.desc c.pos
      let owned := r.1.ownedChans n
      let f := r.1.fifoFills n (r.1.fifoCredits n c) owned news
      let a := forEach (f.ownedChans n) (fun c s => s.setFifo c ((s.ch c).fifo.drop 1)) (f.fixVecB n)
      let t := if c.pos % 64 = 0 then a.granuleSample n c else a
      let u := t.sq n
      let sel := t.rd (Reg.SEQ_SEL n)
      let p := t.period n (fld sel 19 16)
      let v : VecCtx :=
        { n := n, vec := u.vcnt, start := u.acc, p := p, tset := fld sel 4 0, mset := fld sel 11 8,
          inMatch := if c.item.kind = .matching then some c.rep else none, segpos := c.pos, seg := c.seg,
          ldr := c.item.kind == .urLeader, lcs := c.item.prog.lc }
      let w := t.playChannels v (t.vecRecord n c.desc c.pos) 0 (t.ownedChans n)
      let x := w.setSq n { w.sq n with acc := (w.sq n).acc + p, vcnt := (w.sq n).vcnt + 1,
                                       cur := (w.sq n).cur.map fun c => { c with pos := c.pos + 1 } }
      (r.2 = false → f.dryChan n = none → exec (.vectorFormat n news) s =
        .next ((x.wrWide (Reg.SEQ_VCNT_LO n) 2 (u.vcnt + 1)).wrWide (Reg.TMG_ACC0 n) 3 u.acc)) ∧
      (∀ k, r.2 = false → f.dryChan n = some k → exec (.vectorFormat n news) s =
        .next (f.paceStop n k { src := 0x200 + n.val, code := 0x0D })) ∧
      (r.2 = true → exec (.vectorFormat n news) s =
        .next (r.1.paceStop n (owned.headD 0) (r.1.lostRecord n c.desc c.pos))))

/-- O27. In a module that runs: while a sequencer runs and the ring in use is polled (a SPOOL plays on it, or one waits
and no ring applied since does), a poll reads the next entry's descriptor, and a READY mark read makes the entry
active from the present vector count and keeps its descriptor, or the copy that it plays from already; a ring that a
waiting SPOOL will take up is polled after it, in the same way and on its own entries; where the next spool entry is
due within 1,024 vectors, the first entry seen ready on the ring that it comes from, if any, was not seen in time for
that boundary, and no warning was given for it, the check point counts an underrun warning and sets its interrupt bit.
[spec/04_vector_segments.md (R123, R126, R131, R134, R136, R137, R138)] -/
def Obligations.SpoolEventsComplete : Prop :=
  ∀ (s : State) (n : Fin 16), s.runs = true →
    let u := s.sq n
    let e := s.nextUnseen n
    let r := s.dramAsk { cls := 5, id := n, rkind := 3 } 0 (segEntry n e) 16
    let out := if r.2 = false ∧ r.1.readyMark n e = true then
        r.1.setSq n { r.1.sq n with
          ready := (r.1.sq n).ready ++ [e], readyAt := kset (fun _ => 0) (r.1.sq n).readyAt e (r.1.sq n).vcnt,
          copies := kset (fun _ => none) (r.1.sq n).copies e (some (r.1.seenDesc n e)) }
      else r.1
    (s.seqRuns n = true → s.pollsRing n = true →
      (out.pollsNext n = false → exec (.spoolReadyPoll n) s = .next out) ∧
      (out.pollsNext n = true → exec (.spoolReadyPoll n) s =
        .next (markNext n (out.nextOfNew n) (out.pollEntry n (out.nextOfNew n))))) ∧
    (s.seqRuns n = true → s.pollsRing n = false → s.pollsNext n = true → exec (.spoolReadyPoll n) s =
      .next (markNext n (s.nextOfNew n) (s.pollEntry n (s.nextOfNew n)))) ∧
    (∀ b, s.seqPlays n = true → u.warned = false → s.spoolDue n = some b → b ≤ u.vcnt + 1024 →
      let seen := s.seenNext n (s.spoolGoesOn n)
      (∀ x l, seen.1 = x :: l → kget (fun _ => 0) seen.2 x ≠ 0 ∧ b < kget (fun _ => 0) seen.2 x + 1024) →
      exec (.spoolCheckPoint n) s =
        .next (((s.setSq n { u with warned := true }).count (Reg.SEQ_UR_WARN n) 1).irq (Reg.SEQ_ISTAT n) 2))

/-- O28. In a module that runs, the oldest vector of an owned channel whose compares wait gets its result once they are
sampled at the land (Both can show only where, under the thresholds in force for that vector, the low one lies above
the high one, and Mid-band only where it does not): the comparator's last state is shown, and the verdict on the
vector enters the channel's counters, the site's fail state, held epochs that closed after it and the fail log, and
the vector waits no more. A verdict adds the compares counted and the masked fails, saturating at 48 and 32 bits; one
with a failing compare adds one failing vector, and sets the first-fail registers only where they are empty; one
without leaves them. [spec/06_edge_timing.md (R181); spec/07_compare_fail.md (R194, R195, R198, R201, R202, R203,
R205)] -/
def Obligations.VectorResultCompletes : Prop :=
  ∀ (s : State) (ch : Fin 128) (obs : List Obs) (n : Nat) (v : CmpVec) (rest : List CmpVec), s.runs = true →
    (s.ch ch).cmpQ = v :: rest → s.seqOfCh ch = some n → v.landed s.mt = true →
    let shows := fun st : Fin 4 => if v.crossed ∧ st = 0 then 3 else if ¬ v.crossed ∧ st = 3 then 0 else st
    let seen := obs.map fun o => o.map fun x => (shows x.1, x.2)
    let d := verdict s.free v seen
    let t := { s.setCh ch { s.ch ch with cmpQ := rest } with free := s.free + 64 }
    let t := match seen.getLast?.bind List.getLast? with
      | some (st, _) => t.wrF (Reg.CHN_CMP_STAT ch) 1 0 st.val
      | none => t
    let r := (s.ch ch).res
    let r' := r.add ch v d
    exec (.vectorResult ch obs) s = .next (t.applyVerdict n ch v d) ∧
    r'.ccnt = min (r.ccnt + d.counted) (2 ^ 48 - 1) ∧ r'.mfcnt = min (r.mfcnt + d.masked) (2 ^ 32 - 1) ∧
    (d.failed = 0 → r'.fcnt = r.fcnt ∧ r'.ffv = r.ffv ∧ r'.ffInfo = r.ffInfo ∧ r'.ffSeg = r.ffSeg) ∧
    (d.failed ≠ 0 → r'.fcnt = min (r.fcnt + 1) (2 ^ 48 - 1) ∧ r'.ffv = some (r.ffv.getD v.vec) ∧
      (∀ x, r.ffv = some x → r'.ffInfo = r.ffInfo ∧ r'.ffSeg = r.ffSeg))

/-- O29. Where a write reaches the tables of a channel its domain owns: words 0 to 8 of an entry are held in the domain's
buffer, and a buffer open for another entry is abandoned and recorded with code 7; word 9 commits the entry: with the
held words in place of stored ones, an entry without an error is stored, and one with an error is recorded with its
code and its requester and not stored; the buffer is empty. In a module that runs, where commits of an entry are
listed because a run may still use the bytes before them, the oldest leaves the list when it takes effect, which it
may at any vector. [spec/05_waveforms.md (R145, R158, R159, R160, R161)] -/
def Obligations.WaveformTableCommandsComplete : Prop :=
  ∀ (s : State) (d : Fin 16) (ch : Fin 128) (tset : Fin 32) (code : Fin 16) (w : Fin 9) (v : Word),
    let a := wftAddr ch tset code
    let b := s.wftAbandon d a
    let bs := b.wftBytes d a v
    let e := wftEntry a
    let err := entryError bs (e.2.2 == 0 && bit ((b.setWftBuf d none).apv (Reg.CHN_SER e.1)) e.2.1)
    (s.Writes4 d (s.owns d 2 ch) (1, ch.val) (0x400 + ch) →
      exec (.wftWordWrite d ch tset code w v) s =
        .next (b.setWftBuf d (some ⟨a, kset (fun _ => none) (b.wftHeld d) w (some v)⟩)) ∧
      (err = 0 → exec (.wftCommit d ch tset code v) s = .next ((b.setWftBuf d none).wftStore a bs)) ∧
      (err ≠ 0 → exec (.wftCommit d ch tset code v) s = .next ((b.setWftBuf d none).wftRefuse d a err))) ∧
    (s.runs = true → s.wftDue a = true →
      exec (.wftEntryTakesEffect ch tset code) s =
        .next { s with wold := kset (fun _ => []) s.wold a ((kget (fun _ => []) s.wold a).drop 1) })

/-- O30. Where the access reaches the register: a read of CSH_ACQ with a buffer HELD answers it again with the repeat bit;
with none HELD it makes the NEWEST buffer HELD by the domain, puts its epoch number in CSH_AEPOCH, and answers it;
with neither it answers 0. A release or a forced release that names the HELD buffer leaves none HELD and CSH_AEPOCH 0;
one that names another buffer changes nothing but a NOTE fault. Each state and each answer is given whole.
[spec/08_contact_sheet.md (R231, R232, R233, R241)] -/
def Obligations.ContactSheetCommandsComplete : Prop :=
  ∀ (s : State) (d n : Fin 16) (v : Word),
    let u := s.sq n
    let h := u.sheet
    let e := fun b => kget (fun _ => 0) h.epochOf b
    (s.Reads d (Reg.CSH_ACQ n) →
      (∀ b, h.held = some b → exec (.cshAcquire d n) s =
        .next ((s.setSq n { u with sheet := { h with lastAcq := some (e b) } }).answer [word (acqWord h b true)])) ∧
      (∀ b, h.held = none → h.newest = some b → exec (.cshAcquire d n) s =
        .next (((s.setSq n { u with sheet := { h with held := some b, heldBy := d, lastAcq := some (e b) } }).wrWide
          (Reg.CSH_AEPOCH_LO n) 2 (e b)).answer [word (acqWord h b false)])) ∧
      (h.held = none → h.newest = none → exec (.cshAcquire d n) s = .next (s.answer [0]))) ∧
    (s.Writes d (Reg.CSH_REL n) →
      (h.held = some (fld v 1 0) → exec (.cshRelease d n v) s =
        .next ((s.setSq n { u with sheet := { h with held := none } }).wrWide (Reg.CSH_AEPOCH_LO n) 2 0)) ∧
      (h.held ≠ some (fld v 1 0) → exec (.cshRelease d n v) s = .next (s.noteReg d (Reg.CSH_REL n)))) ∧
    (s.Writes d (Reg.CSH_FREL n) →
      (h.held = some (fld v 1 0) → exec (.cshForcedRelease d n v) s =
        .next ((s.setSq n { u with sheet := { h with held := none } }).wrWide (Reg.CSH_AEPOCH_LO n) 2 0)) ∧
      (h.held ≠ some (fld v 1 0) → exec (.cshForcedRelease d n v) s = .next (s.noteReg d (Reg.CSH_FREL n))))

/-- O31. In a module that runs: the newest of a sequencer's complete epochs, with no incomplete one before it, is
published into a free buffer, and each older one held counts as skipped, while publication has not stopped; the next
number within 2^31 of the reserve, with no reserve write waiting, starts the write of a reserve 2^32 higher into the
copy that is not the newest, or is counted as refused while power fails. [spec/08_contact_sheet.md (R225, R226, R228);
spec/20_power_start.md (R504)] -/
def Obligations.EpochEventsComplete : Prop :=
  ∀ (s : State) (n : Fin 16), s.runs = true →
    (∀ e, s.newestComplete n = some e → s.epochStop = false →
      let older := ((s.sq n).epochs.filter fun x => decide (x.num < e.num)).length
      exec (.epochPublish n) s = .next ((forEach (List.range older) (fun _ s => s.skipOne n) s).publish n e)) ∧
    (s.eres ≤ s.enext + 2 ^ 31 → s.norHas 4 = false →
      (s.pfw = true → exec .epochReserveExtend s = .next s.norPfw) ∧
      (s.pfw = false → s.graveHeld = false → exec .epochReserveExtend s =
        .next (s.norPush (reserveOp s.reserveOther (s.eres + 2 ^ 32)))))

/-- O32. Where the access reaches the register: ARM of an idle unit, with no reflectometry step on the channel, no MOD
fault held and the PLL not down by command, arms it where no error applies, and else shows the error's code and sets
the interrupt bit, and any other ARM is discarded with a NOTE fault; STOP ends an armed or open shutter at the present
tick with cause STOP; another OP is discarded with a NOTE fault; a configuration write to an idle unit completes a
shutter that has ended, moves the records that wait and sets the register's bits, and to another unit it only sets
CFG_LOCKED and records a NOTE fault; a read index of at most TMU_WR and no more than the ring behind it is taken
unless the ring paces a DMA channel, and any other is discarded with a NOTE fault; a read of TMU_RSEQ latches the 48
registers of the bank for its domain and answers TMU_RSEQ. Each state is given whole. [spec/09_time_measurement.md
(R245, R253, R254, R258, R259, R270, R273, R274, R276); spec/15_dma.md (R407, R408)] -/
def Obligations.TmuCommandsComplete : Prop :=
  ∀ (s : State) (d : Fin 16) (ch : Fin 128) (r : Fin 20) (v : Word),
    let busy := s.tmState ch ≠ 0 ∨ (s.ch ch).refl = true ∨ s.modHeld = true ∨ s.pllOff = true
    let cmd := Reg.TMU_CMD ch
    let a := Reg.TMU_CTL ch + 4 * r.val
    let behind := ((s.rd (Reg.TMU_WR ch)).toNat + 2 ^ 32 - v.toNat) % 2 ^ 32
    let fits := s.pacedBy 1 ch = false ∧ behind ≤ (s.rd (Reg.TMU_RSIZE ch)).toNat
    (s.Writes d cmd →
      (¬ busy → s.armError ch = 0 → exec (.tmuArm d ch) s = .next (s.armTmu ch)) ∧
      (¬ busy → s.armError ch ≠ 0 → exec (.tmuArm d ch) s =
        .next ((s.wr (Reg.TMU_ERR ch) (word (s.armError ch))).irq (Reg.TMU_ISTAT ch) 2)) ∧
      (busy → exec (.tmuArm d ch) s = .next (s.noteReg d cmd)) ∧
      exec (.tmuStop d ch) s = .next (s.tmuEnd ch 2) ∧
      (v.toNat % 8 ≠ 1 → v.toNat % 8 ≠ 2 → exec (.tmuCmdInvalid d ch v) s = .next (s.noteReg d cmd))) ∧
    (s.Writes d a → r.val ≠ 18 →
      (s.tmState ch = 0 → exec (.tmuConfigWrite d ch r v) s = .next
        ((((if a = Reg.TMU_CTL ch ∨ a = Reg.TMU_RSIZE ch ∨ a = Reg.TMU_DR_BASE_LO ch ∨ a = Reg.TMU_DR_BASE_HI ch
          then s.ringCut ch else s).tmuSettle ch).stampFlush ch).wrRow a v)) ∧
      (s.tmState ch ≠ 0 → exec (.tmuConfigWrite d ch r v) s =
        .next ((s.wrF (Reg.TMU_STAT ch) 9 9 1).noteReg d a))) ∧
    (s.Writes d (Reg.TMU_RD ch) →
      (fits → exec (.tmuRdWrite d ch v) s = .next (s.wr (Reg.TMU_RD ch) v)) ∧
      (¬ fits → exec (.tmuRdWrite d ch v) s = .next (s.noteReg d (Reg.TMU_RD ch)))) ∧
    (s.Reads d (Reg.TMU_RSEQ ch) → exec (.tmuRseqRead d ch) s =
      .next ((s.latchRegs d (Reg.TMU_RSEQ ch) 48).answer [s.rd (Reg.TMU_RSEQ ch)]))

/-- O33. In a module that runs: an armed shutter whose open time has come opens; an open shutter whose end has come ends,
with cause CLOSE or, for a frequency measure, LIMIT, and is IDLE, and one that another follows under CONT closes and
opens anew once no stamp of it can come any more; the results of a shutter that has closed, or that has ended and
taken its last stamps, are latched into the bank; the channel whose turn it is has its oldest record moved; a bin
table that is older than its limit while a shutter is open sets CAL_STALE and the interrupt bit; a hit that the TDC
samples while the unit is not idle, or has an ended shutter whose hits may still come, is taken, and a source hit of
an idle unit that collects is counted by its code; and enough collected hits on a path of an idle unit give a new bin
table and begin anew, adopted at the present tick, where every bin's width is within its bounds, and a NOTE fault
where one is not. [spec/09_time_measurement.md (R247, R248, R249, R250, R254, R255, R257, R258, R264, R268, R272)] -/
def Obligations.TmuEventsComplete : Prop :=
  ∀ (s : State) (ch : Fin 128), s.runs = true →
    (s.tmuOpenDue ch = true → exec (.tmuShutterOpen ch) s = .next (s.tmuOpen ch)) ∧
    (s.tmuEndDue ch 1 = true → s.tmReopens ch 1 = false →
      exec (.tmuShutterClose ch) s = .next (s.tmuEnding ch ((s.tm ch).closeT.getD 0, 1))) ∧
    (s.tmuEndDue ch 1 = true → s.tmReopens ch 1 = true → s.stampsPast ch ((s.tm ch).closeT.getD 0) = true →
      exec (.tmuShutterClose ch) s = .next (s.tmuClose ch 1 ((s.tm ch).closeT.getD 0))) ∧
    (s.tmuEndDue ch 4 = true → exec (.tmuFreqLimit ch) s =
      .next (s.tmuEnding ch ((s.tm ch).openT.getD 0 + freqLimit, 4))) ∧
    (∀ e : Nat × Nat, (s.tmuEnding ch e).tmState ch = 0 ∧ ((s.tmuEnding ch e).tm ch).ending = some e) ∧
    ((s.tm ch).done.isSome = true → (s.tm ch).ending = none →
      exec (.tmuBankLatch ch) s = .next (s.tmuLatch ch)) ∧
    (∀ e, (s.tm ch).ending = some e → s.stampsPast ch e.1 = true →
      exec (.tmuBankLatch ch) s = .next ((s.tmuSettle ch).tmuLatch ch)) ∧
    ((s.tm ch).hold ≠ [] → s.nextServed = some ch.val → exec (.stampRecordMove ch) s = .next (s.stampMove ch)) ∧
    (s.tmState ch = 2 → 100 * s.rdF Reg.TMU_CAL_CTL 15 1 < s.calAge ch → exec (.tdcCalStale ch) s =
      .next ((s.wrF (Reg.TMU_STAT ch) 10 10 1).irq (Reg.TMU_ISTAT ch) 16)) ∧
    (∀ (src : Fin 7) (edge : Nat) (code : Fin 144), edge ≤ s.mt → 16 ≤ code.val →
      (s.tmState ch ≠ 0 ∨ (s.tm ch).ending.isSome = true →
        exec (.tdcHit ch src edge code) s = .next (s.hit ch src edge code)) ∧
      (s.tmState ch = 0 → (s.tm ch).ending = none → src = 6 → s.binCollect ch = true →
        exec (.tdcHit ch src edge code) s = .next (s.binHit ch edge code))) ∧
    (∀ (p : Fin 2) (more : List Nat), s.binCollect ch = true → more.length = 128 →
      2 ^ 20 ≤ (List.zipWith (· + ·) ((s.tm ch).codeCounts p) more).sum →
      let u := s.tm ch
      let h := List.zipWith (· + ·) (u.codeCounts p) more
      let c := s.setTm ch { u with codes := u.codes.filter fun x => x.1 / 128 != p.val }
      let t := c.putBins (if p.val = 0 then Reg.TMU_BIN0 ch 0 else Reg.TMU_BIN1 ch 0) (binTable h.sum 0 h)
      (binsOk h = true → exec (.tdcBinTableBuild ch p more) s =
        .next (t.setTm ch { c.tm ch with adopt := kset (fun _ => none) u.adopt p (some s.mt) })) ∧
      (binsOk h = false → exec (.tdcBinTableBuild ch p more) s = .next (c.note (0x500 + ch.val) p (Reg.TMU_CTL ch))))

/-- O34. Where the write reaches the register: ARM of a unit that can take it, with no error of its configuration, begins
a record set, and with one is refused with the error's code; MONITOR of such a unit, with a conversion configuration
that is right, sets conversions from the next tick and shows MONITOR; either is discarded with a NOTE fault where the
unit cannot take it, and ARM also while a MOD-class fault is held; an ARM that gets as far as the mask table reads it;
STOP ends the set with cause STOP; SOFT begins a set whose start tick has come and fires the enabled triggers with
source 3 at the present tick, which are ignored while the unit is ARMED, and does nothing in IDLE; another OP is
discarded with a NOTE fault; a configuration write sets the register's bits while the state is IDLE, and else only
sets CFG_LOCKED and records a NOTE fault. Each state is given whole. [spec/10_acquisition.md (R283, R284, R290, R291,
R296, R303, R304, R306)] -/
def Obligations.AcqCommandsComplete : Prop :=
  ∀ (s : State) (d : Fin 16) (ch : Fin 128) (r : Fin 24) (v : Word),
    let cmd := Reg.ACQ_CMD ch
    let a := Reg.ACQ_CTL ch + 4 * r.val
    let t := if s.acqStartDue ch then s.acqBegin ch else s
    (s.Writes d cmd →
      (s.acqCannot ch = false → s.modHeld = false →
        (s.acqError ch = 0 → exec (.acqArm d ch) s = .next (s.armAcq ch)) ∧
        (s.acqError ch ≠ 0 → s.acqError ch < 5 → exec (.acqArm d ch) s = .next (s.acqRefuse ch (s.acqError ch))) ∧
        (5 ≤ s.acqError ch → exec (.acqArm d ch) s = .next ((s.maskRead ch).1.acqRefuse ch (s.acqError ch)))) ∧
      (s.acqCannot ch = true ∨ s.modHeld = true → exec (.acqArm d ch) s = .next (s.noteReg d cmd)) ∧
      (s.acqCannot ch = true → exec (.acqMonitor d ch) s = .next (s.noteReg d cmd)) ∧
      (s.acqCannot ch = false → s.convBad ch = false → exec (.acqMonitor d ch) s =
        .next (((s.setAq ch { start := some (s.mt + 1) }).wrF (Reg.ACQ_STAT ch) 11 11 1).calDigHook ch)) ∧
      (s.acqCannot ch = false → s.convBad ch = true → exec (.acqMonitor d ch) s = .next (s.acqRefuse ch 3)) ∧
      exec (.acqStop d ch) s = .next (s.acqEnd ch 2) ∧
      (2 ≤ t.aqState ch → exec (.acqSoft d ch) s = .next
        (forEach [0, 1] (fun x u => if t.trigOn ch x 3 then u.fire ch x (65536 * t.mt) else u) t)) ∧
      (s.aqState ch = 1 → s.acqStartDue ch = false → exec (.acqSoft d ch) s = .next
        (forEach [0, 1] (fun x u => if s.trigOn ch x 3 then u.ignoreFiring ch (65536 * s.mt) else u) s)) ∧
      (s.aqState ch = 0 → exec (.acqSoft d ch) s = .next s) ∧
      (v.toNat % 8 = 0 ∨ 4 < v.toNat % 8 → exec (.acqCmdInvalid d ch v) s = .next (s.noteReg d cmd))) ∧
    (s.Writes d a →
      (s.aqState ch = 0 → exec (.acqConfigWrite d ch r v) s = .next (s.wrRow a v)) ∧
      (s.aqState ch ≠ 0 → exec (.acqConfigWrite d ch r v) s =
        .next ((s.wrF (Reg.ACQ_STAT ch) 7 7 1).noteReg d a)))

/-- O35. In a module that runs: a set whose start tick has come begins; a conversion whose tick has come is limited to
-131071 with CLIP, corrected by the gain and offset of channel and range, and enters the sum of the sample in progress
(the product's fraction is rounded either way, log entry 99); enough conversions of a unit that converts make a
sample, the new sum starts at 0, ACQ_LAST shows it, and a record set takes it; a prefill whose samples are stored and
whose time has come ends in WAITING; an edge on an enabled analog trigger fires it at its stamp, through a free path,
or with no path free is marked to be ignored at its place in time order; the firings of the first sample that every
source could have reported are decided; the oldest complete frame is entered, and the set ends with its last frame or
the one that a violation ended it on; a re-arm instant that has come returns to WAITING; and a wait without a firing
past the time limit ends the set with cause TIMEOUT. [spec/10_acquisition.md (R278, R280, R286, R291, R293, R294,
R296, R298, R301, R302, R303)] -/
def Obligations.AcqEventsComplete : Prop :=
  ∀ (s : State) (ch : Fin 128), s.runs = true →
    let u := s.aq ch
    (s.acqStartDue ch = true → exec (.acqStartTick ch) s = .next (s.acqBegin ch)) ∧
    (∀ (code : BitVec 18) (clip : Bool), s.converts ch = true → s.aqStart ch + u.conv * s.aqTC ch ≤ s.mt →
      u.nC < s.aqA ch →
      let x := if code.toInt < -131071 then (-131071, true) else (code.toInt, clip)
      exec (.acqConversion ch code clip) s = .next (s.setAq ch
        { u with conv := u.conv + 1, sumC := u.sumC + s.digCorrect ch x.1, nC := u.nC + 1, clipC := u.clipC || x.2 }).drawn) ∧
    (∀ lost : Bool, s.converts ch = true → s.aqA ch ≤ u.nC →
      let v := sampleOf u.sumC u.nC
      let t := (s.setAq ch { u with sumC := 0, nC := 0, clipC := false }).wr (Reg.ACQ_LAST ch) (word (ofInt 32 v))
      (t.aqState ch = 0 → exec (.acqSampleStored ch lost) s = .next t) ∧
      (t.aqState ch ≠ 0 → exec (.acqSampleStored ch lost) s =
        .next ((t.lateDecisions ch (u.firings.length + 1)).sample ch v u.clipC lost))) ∧
    (s.aqState ch = 2 → s.aqPre ch ≤ u.nextJ → s.aqT ch (s.aqPre ch) ≤ s.mt →
      exec (.acqPrefillEnd ch) s = .next (s.setAqState ch 3)) ∧
    (∀ (x : Fin 2) (e : Nat) (code : Fin 144), 2 ≤ s.aqState ch → s.trigOn ch x 1 = true → e ≤ s.mt →
      16 ≤ code.val →
      let gd := (s.rd (Reg.ACQ_GDLY ch)).toNat
      (∀ p, (s.tm ch).freePath e code = some p → exec (.acqAnalogHit ch x e code) s =
        .next ((s.setTm ch ((s.tm ch).take p e)).fire ch x (s.stampOf ch p e code - gd))) ∧
      ((s.tm ch).freePath e code = none → exec (.acqAnalogHit ch x e code) s =
        .next (s.fire ch x (s.stampOf ch (s.tm ch).path e code - gd) true))) ∧
    (∀ j, 2 ≤ s.aqState ch → s.dueSample ch = some j → s.allReported ch j = true →
      exec (.acqTriggerDecision ch) s = .next (s.decideFirst ch)) ∧
    (∀ f rest, u.complete = f :: rest →
      let t := (s.setAq ch { u with complete := rest }).frameDone ch f
      exec (.acqFrameComplete ch) s = .next
        (if (f.stopv && (t.aq ch).ending.isSome) = true then t.setEnd ch 3
         else if f.idx + 1 = t.rdF (Reg.ACQ_NFRAME ch) 16 0 then t.setEnd ch 1 else t)) ∧
    (∀ t, s.rearmAt ch = some t → s.aqState ch = 5 → t ≤ 65536 * s.mt → exec (.acqRearm ch) s =
      .next ((s.setAq ch { u with waitFrom := (t + 65535) / 65536 }).setAqState ch 3)) ∧
    (let tmo := (s.rd (Reg.ACQ_TMO ch)).toNat
     s.aqState ch = 3 → tmo ≠ 0 → u.waitFrom + 4000 * tmo ≤ s.mt → u.firings = [] →
      exec (.acqTimeout ch) s = .next (s.acqEnd ch 4))

/-- O36. Where the write reaches the register: a value in the range of its register, with the PMU mode that PEL_PMU_CTL
holds, is staged in the register's bits, and one out of range sets PEL_ERR and the interrupt bit and records a NOTE
fault with code 1. CLEAR_TRIP of a channel whose owner is stopped, or that is in no site, ends a trip and puts the
driver and the load as its present drive type says; with the owner running it is refused with code 7. REFL of a
channel that can be measured wakes the sensor's receiver, takes the channel's own driver and load off the land and
starts the measurement, which drives its launches from 0 V to 1.0 V (in steps of 0.25 mV), 640 ns apart on a grid that
all channels share (log entry 102) and 20 ns later from channel to channel of a tile, and of another ends at once with
REFUSED, VALID and the interrupt. Another OP is discarded with a NOTE fault. Each state is given whole.
[spec/11_pin_electronics.md (R308, R310, R313, R320, R321, R322, R324)] -/
def Obligations.PinCommandsComplete : Prop :=
  ∀ (s : State) (d : Fin 16) (ch : Fin 128) (r : Fin 15) (v : Word),
    let cmd := Reg.PEL_CMD ch
    let a := Reg.PEL_DRV_CTL ch + 4 * r.val
    let err := fun a code =>
      ((s.wr (Reg.PEL_ERR ch) (word (2 ^ 31 + a % 256 * 256 + code))).irq (Reg.PEL_ISTAT ch) 1).noteReg d a code
    let woken := (s.wakeNow 1 ch 1).landOff ch (1024 * s.mt)
    (s.Writes d a →
      (∀ row, regRow a = some row → s.pelAccepts ch (4 * r.val) v = true →
        exec (.pelValueWrite d ch r v) s = .next (s.stageWrite a (v &&& word row.mask))) ∧
      (s.pelAccepts ch (4 * r.val) v = false → exec (.pelValueWrite d ch r v) s = .next (err a 1))) ∧
    (s.Writes d cmd →
      (s.chStopped ch = true → s.tripped ch = true → exec (.clearTrip d ch) s =
        .next ((s.wrF (Reg.PEL_STAT ch) 31 31 0).landSet ch s.now1024 (s.ch ch).drv)) ∧
      (s.chStopped ch = true → s.tripped ch = false → exec (.clearTrip d ch) s = .next s) ∧
      (s.chStopped ch = false → exec (.clearTrip d ch) s = .next (err cmd 7)) ∧
      (s.reflOk ch = true → exec (.refl d ch) s =
        .next (((woken.setCh ch { woken.ch ch with refl := true }).wrF (Reg.PEL_STAT ch) 28 28 1).send
          (.reflDrive ch ((woken.mt + 2559) / 2560 * 2560 + 80 * (ch % 32)) 2560 (woken.rdF (Reg.PEL_REFL_CTL ch) 12 0) 0 4000 1000 3000))) ∧
      (s.reflOk ch = false → exec (.refl d ch) s =
        .next ((s.wr (Reg.PEL_REFL_RES ch) (word (2 ^ 31 + 2 ^ 28 * 4))).irq (Reg.PEL_ISTAT ch) 4)) ∧
      (v.toNat % 4 ≠ 1 → v.toNat % 4 ≠ 2 → exec (.pelCmdInvalid d ch v) s = .next (s.noteReg d cmd)))

/-- O37. In a module that runs: an overcurrent trips a channel that is not tripped; a PMU that owns the land enters a
clamp, with the first entry's interrupt, one more entry counted and CLAMP shown, and leaves it; a reflection
measurement with what each of its launches gave ends with NO_LAUNCH status where a launch has no stamp, with NO_RETURN
where a return is missing or late, with SPREAD where the intervals spread or the delay is out of range, and else with
the delay, the mean interval shown (a fraction of it rounded either way); a tile's new temperature is shown, one past
110 °C records a NOTE fault, and one past 120 °C trips every channel of the tile, puts its PMU to OFF, and raises a
MOD fault. [spec/11_pin_electronics.md (R313, R316, R319, R321, R322)] -/
def Obligations.PinEventsComplete : Prop :=
  ∀ (s : State) (ch : Fin 128), s.runs = true →
    (s.tripped ch = false → exec (.pelTrip ch) s = .next (s.pelTrip ch)) ∧
    (ownsLand (s.pmuMode ch) = true → bit (s.rd (Reg.PEL_STAT ch)) 30 = false →
      let t := if s.rd (Reg.PEL_CLAMP_CNT ch) = 0 then s.irq (Reg.PEL_ISTAT ch) 2 else s
      exec (.pmuClampEntry ch) s = .next ((t.count (Reg.PEL_CLAMP_CNT ch) 1).wrF (Reg.PEL_STAT ch) 30 30 1)) ∧
    (bit (s.rd (Reg.PEL_STAT ch)) 30 = true → exec (.pmuClampExit ch) s = .next (s.wrF (Reg.PEL_STAT ch) 30 30 0)) ∧
    (∀ obs, (s.ch ch).refl = true → obs.length = s.rdF (Reg.PEL_REFL_CTL ch) 12 0 →
      let xs := obs.filterMap reflX
      let raw := xs.sum / xs.length + (if xs.sum % xs.length = 0 then 0 else s.freeNow % 2)
      let t := (s.wr (Reg.PEL_REFL_RAW ch) (word raw)).drawn
      let tau := reflTau xs.length xs.sum (t.rd (Reg.PEL_REFL_OFS ch)).toNat
      let bad := reflSpread xs.length xs.sum (xs.map fun x => x * x).sum = true ∨ tau < 0 ∨ 65535 < tau
      (none ∈ obs → exec (.pelReflDone ch obs) s = .next (s.reflEnd ch 2 0)) ∧
      (none ∉ obs → xs.length < obs.length → exec (.pelReflDone ch obs) s = .next (s.reflEnd ch 1 0)) ∧
      (none ∉ obs → xs.length = obs.length → bad → exec (.pelReflDone ch obs) s = .next (t.reflEnd ch 3 0)) ∧
      (none ∉ obs → xs.length = obs.length → ¬ bad →
        exec (.pelReflDone ch obs) s = .next (t.reflEnd ch 0 tau.toNat))) ∧
    (∀ (tile : Fin 4) (deg : BitVec 16),
      let a := Reg.PEL_TEMP tile
      let old := code16 (s.rd a)
      let new := code16 (deg.zeroExtend 32)
      let shown := s.wr a (word (fld (deg.zeroExtend 32) 15 0))
      let noted := if old < 880 ∧ 880 ≤ new then shown.note (0x700 + 32 * tile.val) 0 a else shown
      exec (.pelTempCrossing tile deg) s = .next
        (if old < 960 ∧ 960 ≤ new then
          (forEach (tileChans tile) (fun c s => (if s.tripped c then s else s.pelTrip c).pmuOff c) noted).modFault
            (0x700 + 32 * tile.val) 0
         else noted))

/-- O38. Where the write reaches CAL_CMD: STORE and SAVE_REJ are discarded with a NOTE fault while a MOD fault is held;
else STORE is taken as its bar has it, and a BUSY one records a NOTE fault too; SAVE_REJ puts the latest rejected
candidate into the reject slot where nothing bars it, with the sequence number that the sets' check words give, with
no candidate it is discarded with a NOTE fault, and barred it ends with the bar's error; CLR_SUSPECT clears every
spare's suspect mark, and each spare so cleared is due for its own slot; OP 0 is discarded with a NOTE fault. In a
module that runs, a store that the flash has ended stops showing STORING, a written bank shows its sequence number,
and it ends with its error, or with the interrupt bit for a bank. [spec/12_calibration.md (R337, R345, R349, R350);
spec/19_faults.md (R484); spec/20_power_start.md (R514)] -/
def Obligations.CalibrationCommandsComplete : Prop :=
  ∀ (s : State) (d : Fin 16) (v : Word),
    let a := Reg.CAL_CMD
    (s.Writes d a →
      (s.modHeld = true → exec (.calStore d) s = .next (s.noteReg d a) ∧
        exec (.saveRej d) s = .next (s.noteReg d a)) ∧
      (s.modHeld = false →
        (s.storeBar = 2 → exec (.calStore d) s = .next ((s.noteReg d a 2).calStore 2) ∧
          exec (.saveRej d) s = .next ((s.noteReg d a 2).storeErr 2)) ∧
        (s.storeBar ≠ 2 → exec (.calStore d) s = .next (s.calStore s.storeBar)) ∧
        (∀ r body, s.storeBar = 0 → s.cal.reject = some (r, body) →
          exec (.saveRej d) s = .next (s.setCheck.1.setStore 3 (s.setCheck.1.storeTarget s.setCheck.2).2 r body) ∧
            (s.injTake 0x800 3 = (s, false) → s.setCheck = (s, false))) ∧
        (s.storeBar = 0 → s.cal.reject = none → exec (.saveRej d) s = .next (s.noteReg d a)) ∧
        (s.storeBar ≠ 0 → s.storeBar ≠ 2 → exec (.saveRej d) s = .next (s.norPfw.storeErr s.storeBar))) ∧
      exec (.clrSuspect d) s = .next (forEach (List.range 4) (fun t s =>
        if bit (s.rd Reg.CAL_TILE) (8 * t + 2) then
          { s.wrF Reg.CAL_TILE (8 * t + 2) (8 * t + 2) 0 with
            cal := { s.cal with spareDue := s.cal.spareDue ||| 2 ^ t } }
        else s) s) ∧
      (v.toNat % 4 = 0 → exec (.calCmdInvalid d v) s = .next (s.noteReg d a))) ∧
    (∀ b code, s.runs = true → s.cal.storing = some b → s.cal.stored = some code →
      let t := { s with cal := { s.cal with storing := none, stored := none } }.wrF Reg.CAL_STAT 31 31 0
      let t := if b = 1 then t.wrN Reg.CAL_SEQ_A (t.bankSeq 1)
        else if b = 2 then t.wrN Reg.CAL_SEQ_B (t.bankSeq 2) else t
      exec .calStoreDone s = .next
        (if code ≠ 0 then t.storeErr code
         else if b < 3 then { t with cal := { t.cal with lastStore := t.mt } }.irq Reg.CAL_ISTAT 16 else t))

/-- O39. In a module that runs: where background calibration is enabled, no slot is in progress, no MOD fault is held, the
start is complete and the supervisor is not being switched, the next target of the rotation begins its slot or is
skipped; each phase of a slot ends as its phase and what it measured have it: a check that passes goes on, one that
fails ends the slot with result 4 or rejects the candidate with reason 7, and a verification that passes stores the
values in the working set, whose CRC follows; at a switch point, at vector b or 1 µs after the check where no vector
is played, the spare takes over or hands back; a slot's end stores what a slot without substitution has verified,
records the slot's result and moves the rotation on; a tile whose temperature has changed by 0.5 °C since the last
correction has the zeros of its 32 channels formed anew; and a channel whose age passes 10,000 ms sets the interrupt
bit, once. [spec/12_calibration.md (R325, R327, R328, R330, R331, R332, R333, R334, R337, R340, R341, R348)] -/
def Obligations.CalibrationEventsComplete : Prop :=
  ∀ (s : State), s.runs = true →
    (bit (s.rd Reg.CAL_CTL) 0 = true → s.cal.slot = none → s.modHeld = false → bit (s.rd Reg.PWR_STAT) 31 = true →
      s.supSwitch = false →
      (s.slotSkipped s.cal.target = true → exec .calSlotStart s = .next (s.slotSkip s.cal.target)) ∧
      (s.slotSkipped s.cal.target = false → exec .calSlotStart s = .next (s.slotBegin s.cal.target))) ∧
    (∀ x (o : CalObs), s.cal.slot = some x →
      let failed := (s.setSlot (some { x with result := some 4 })).calPhase 8
      let checked := { x with passAt := s.mt, vecB := none }
      (s.slotPhase = 1 → exec (.calPhaseEnd o) s = .next (s.calPhase 2)) ∧
      (s.slotPhase = 2 → exec (.calPhaseEnd o) s = .next 
        (if pairsPass o 3000 then (s.setSlot (some checked)).calPhase 3 else failed)) ∧
      (s.slotPhase = 4 → exec (.calPhaseEnd o) s = .next (s.calPhase 5)) ∧
      (s.slotPhase = 5 → exec (.calPhaseEnd o) s = .next (s.slotCompute x o.bytes)) ∧
      (s.slotPhase = 6 → exec (.calPhaseEnd o) s = .next
        (if pairsPass o 1500 then
          ((s.sramWr (calBase + recOfs x.target) x.vals).calSeal.setSlot
            (some { checked with verified := true, result := some 0 })).calPhase 7
         else s.slotReject x 3 7 x.vals)) ∧
      (s.slotPhase = 3 → s.switchReady x = true → exec .calSwitchPoint s = .next
        ((((s.wrF (Reg.CHN_EDGE_STAT x.target) 29 29 1).wrF (Reg.CAL_CH_STAT x.target) 31 31 1).setSlot
          (some { x with spareIn := true })).calPhase 4)) ∧
      (s.slotPhase = 7 → s.switchReady x = true → exec .calSwitchPoint s = .next
        (((s.spareOut x).setSlot (some { x with spareIn := false })).calPhase 8)) ∧
      (s.slotPhase = 8 →
        let r := x.result.getD 0
        let t := if x.verified && !x.subst then s.slotAccept x.target x.vals else s
        let t := if x.target < 128 then t.wrF (Reg.CAL_CH_STAT x.target) 3 0 r else t
        let t := ((((t.wrF Reg.CAL_STAT 30 30 0).calPhase 0).wrF Reg.CAL_STAT 7 0 0xFF).slotRests x).shadowTrack x r
        let was := kget (fun _ => 0) t.cal.failed x.target
        let t := { t with cal := t.cal.passed }
        let due := t.cal.spareDue &&& (15 ^^^ 2 ^ (x.target - 128))
        let spare := if x.target < 128 then t else { t with cal := { t.cal with spareDue := due } }
        exec .calSlotEnd s = .next
          (if r = 0 then
            if was ≠ 0 then spare.detect { src := 0x800 + x.target % 128, cls := 1, chk := 3, code := was - 1, retried := true }
            else spare
           else if 5 ≤ r ∧ r ≤ 7 then
            if (s.cal.firstTurn && decide (x.target < 128)) = true then
              { t with cal := { t.cal with again := t.cal.again ++ [x.target] } } else t
           else t.slotFailed x.target r).rotateCheck)) ∧
    (∀ (tile : Fin 4),
      let now := s.rdF (Reg.PEL_TEMP tile) 15 0
      let d := sext 16 now - sext 16 (kget (fun _ => 0) s.cal.temps tile)
      4 ≤ d ∨ d ≤ -4 →
      exec (.calTempCorrection tile) s = .next
        (forEach ((List.range 32).map (32 * tile.val + ·)) (fun c s => (s.wrN (Reg.TMU_ZERO c) (s.zeroAt c)).drawn)
          { s with cal := { s.cal with temps := kset (fun _ => 0) s.cal.temps tile now } })) ∧
    (∀ (ch : Fin 128), (kget (fun _ => none) s.cal.ageFrom ch).isSome = true → kget (fun _ => false) s.cal.aged ch = false →
      10000 < s.calChAge ch → exec (.calAgeLimit ch) s = .next
        ({ s with cal := { s.cal with aged := kset (fun _ => false) s.cal.aged ch true } }.irq Reg.CAL_ISTAT 4))

/-- O40. Where the access reaches the register: CLR_GRAPH and CLRMAP of a loaded graph whose sequencer, if it has one, is
stopped clear the state of its nodes and begin to clear its maps; of another graph, or CLRMAP while one runs, they set
the error interrupt bit and record a NOTE fault. PEAK_CLR begins the peak figures of every flow and engine and of the
pool again from the present ones. Another OP is discarded with a NOTE fault. A read of ANE_F_STAT latches the window
of the flow that the domain has selected, and answers its status, where the domain may see the flow, and is denied
elsewhere. Each state and answer is given whole. [spec/13_analysis_engines.md (R358, R360, R372)] -/
def Obligations.EngineCommandsComplete : Prop :=
  ∀ (s : State) (d : Fin 16) (id : Fin 256) (v : Word),
    let a := Reg.ANE_CMD
    let refused := (s.irq Reg.ANE_ISTAT 8).noteReg d a
    let may := fun (g : Graph) => ∀ n, g.owner = some n → s.seqStopped n = true
    let f := fld (s.domSel d Reg.ANE_FSEL) 13 0
    let now := forEach (s.ane.flows.map Prod.fst)
      (fun f s => s.setFw f { s.fw f with spmax := itemsIn (s.fw f).spill, waitMax := 0 }) s
    let now := forEach (List.range 32) (fun e s => s.setEng e { s.eng e with rdyMax := (s.eng e).ready.length }) now
    (s.Writes d a →
      (∀ g, s.graphNum id = some g → may g →
        exec (.clrGraph d id) s = .next
          (forEach (List.range g.nodes.length) (fun i s => s.setRunAt (g.nodeAt i) 0) (s.clearNodes g)) ∧
        (s.ane.clearing = none →
          let t := (s.wrF Reg.ANE_STAT 31 31 1).wrF Reg.ANE_STAT 30 23 id
          exec (.clrmap d id) s = .next { t with ane := { t.ane with clearing := some g.id } }) ∧
        (s.ane.clearing ≠ none → exec (.clrmap d id) s = .next refused)) ∧
      (s.graphNum id = none ∨ (∃ g, s.graphNum id = some g ∧ ¬ may g) →
        exec (.clrGraph d id) s = .next refused ∧ exec (.clrmap d id) s = .next refused) ∧
      exec (.anePeakClr d) s = .next (now.wrF Reg.ANE_POOL 31 16 now.poolFree) ∧
      (v.toNat % 16 = 0 ∨ 4 ≤ v.toNat % 16 → exec (.aneCmdInvalid d v) s = .next (s.noteReg d a))) ∧
    (s.Reads d Reg.ANE_F_STAT →
      (s.flowMay d f = true → exec (.aneFStatRead d) s =
        .next ((s.latchWords d Reg.ANE_F_STAT (s.aneWindow f)).answer [s.flowStat f])) ∧
      (s.flowMay d f = false → exec (.aneFStatRead d) s =
        .next ((s.deny 0 d 0 false Reg.ANE_F_STAT).answer [word 0xFFFFFFFF])))

/-- O41. In a module that runs: the next record of a sequencer's CAP carve that is due enters its flow, and else the next
marker that is due enters the fail-log flows; the head of a flow's spill ring returns to the pool as a credit frees
and the DRAM serves its lines, or is lost where its line is lost, and the graph is scheduled; an engine in use serves
the head of its ready list, counting one operation where the first try or the second succeeds, goes offline where both
fail, and waits where the DRAM holds back the plane byte of a BITMAP; a node that holds one epoch's marker on every
input, with no open run or room for it, passes the marker; a COMPRESS run 10 µs after its last item is emitted where
its outputs have room; and a map whose clearing has ended is cleared, with the interrupt bit, and the graph is
scheduled. [spec/07_compare_fail.md (R211); spec/13_analysis_engines.md (R358, R359, R360, R361, R364, R367, R370,
R371, R372)] -/
def Obligations.EngineEventsComplete : Prop :=
  ∀ (s : State), s.runs = true →
    (∀ (n : Fin 16),
      let u := s.sq n
      let enters := fun (m : Nat × Nat) ms =>
        let t := s.setSq n { u with marks := ms }
        forEach (t.inputFlows n true) (fun f s => s.putMarker f m.1) t
      (∀ r, u.nextRec = some r → s.recDue n r = true →
        let x := (s.setSq n { u with capq := u.capq.erase r }).takeIn r.flow 1 (some n.val) r.data
        exec (.aneItemAdmit n) s = .next (x.1.flogLosses x.2)) ∧
      (∀ m ms, u.marks = m :: ms → s.markDue n m = true → (∀ r, u.nextRec = some r → s.recDue n r = false) →
        exec (.aneItemAdmit n) s = .next (enters m ms))) ∧
    (∀ (f : Fin 16384) g rest, s.graphOf f = some g →
      let u := s.fw f
      let x := g.entry f
      (∀ e, u.spill = .marker e :: rest → exec (.aneSpillReturn f) s =
        .next ((s.setFw f { u with spill := rest, pool := u.pool ++ [.marker e] }).schedule g)) ∧
      (∀ i o, u.spill = .item i o :: rest → s.hasCredit g f = true →
        let at' := x.spillBase + u.spHead % x.cap * 64
        s.dramHeld at' i.length = false →
        let r := s.dramAsk { cls := 1, id := f, rkind := 4 } 0 at' i.length
        let data := r.1.dramBytes at' i.length
        let t := r.1.setFw f { r.1.fw f with
          spill := rest, spHead := (u.spHead + 1) % x.cap, s75 := u.s75 && decide (x.cap ≤ 2 * itemsIn rest) }
        (r.2 = false → exec (.aneSpillReturn f) s = .next ((t.poolPush f (.item data o)).schedule g)) ∧
        (r.2 = true → exec (.aneSpillReturn f) s = .next
          ((if x.kind = 1 then (t.loseItem f 2 data).flogLosses [(2, data)] else t.loseItem f 2 data).schedule g)))) ∧
    (∀ (e : Fin 32) (fail : Fin 3) f fs g i n, (s.eng e).ready = f :: fs → (s.eng e).offline = false →
      s.unit 3 e = 0 → s.graphOf f = some g → g.consumer f = some (i, n) → s.nodeReady g n = true →
      exec (.aneOperation e fail) s = .next
        (if s.bitmapHeld n then s
         else if 2 ≤ fail.val then s.engineOff e
         else
          let t := if fail.val = 1 then
            s.detect { src := 0xA00 + e.val, cls := 1, chk := 2, rkind := 6, rid := e, retried := true } else s
          ((t.unready e f).serve e f g i n).schedule g)) ∧
    (∀ (id : Fin 256) (node : Fin 1024) g n, s.graphNum id = some g → g.nodes[node.val]? = some n →
      (∀ e, s.markerAt n = some e → s.openRun g node n = none ∨ s.outsFree g n = true →
        exec (.aneMarkerPass id node) s = .next (s.passMarker g node n e)) ∧
      (s.openRun g node n ≠ none → s.runAt (g.nodeAt node) ≠ 0 → s.runAt (g.nodeAt node) + 40000 ≤ s.mt + 1 →
        s.outsFree g n = true → exec (.aneCompressTimeout id node) s = .next ((s.emitRun g node n).schedule g))) ∧
    (∀ id, s.ane.clearing = some id →
      let t := { s with ane := { s.ane with clearing := none } }
      let t := ((t.wrF Reg.ANE_STAT 31 31 0).wrF Reg.ANE_STAT 30 23 0).irq Reg.ANE_ISTAT 4
      exec .aneClrmapDone s = .next
        (match t.graphNum id with
         | some g => (g.nodes.foldl (fun s n => s.clearPlanes n) t).schedule g
         | none => t))

/-- O42. Where the write reaches the register: PWRDN is refused with a NOTE fault while a sequencer is not stopped or a
masked channel is waking, and else puts down every masked channel that is not down: one in self-refresh stays where it
is, one in use begins to enter; PWRUP wakes the masked channels that PWRDN put down, or are about to be; PEAK_CLR
clears the largest refresh delay and prefetch latency of every channel; another OP is discarded with a NOTE fault; a
speed request of 3 is discarded with a NOTE fault, one while training runs waits for the end of the step in progress,
one with every sequencer stopped puts the channels into self-refresh, has requests wait and starts a training at step
3, and any other is discarded with a NOTE fault; an injection write sets its register's bits. Each state is given
whole. [spec/14_dram.md (R386, R388, R394, R395); spec/20_power_start.md (R500, R501, R502)] -/
def Obligations.MemoryCommandsComplete : Prop :=
  ∀ (s : State) (d : Fin 16) (c : Fin 8) (mask : BitVec 8) (v : Word),
    let l := bitsOf 8 mask.toNat
    let a := Reg.DRC_CMD
    let req := v.toNat % 4
    let busy := s.allStopped = false ∨ ∃ i ∈ l, s.unit 4 i = 4
    (s.Writes d a →
      (busy → exec (.pwrdn d mask) s = .next (s.noteReg d a)) ∧
      (¬ busy → exec (.pwrdn d mask) s = .next (forEach l (fun i s =>
        if kget (fun _ => false) s.drc.pdown i then s
        else
          let t := { s with drc := { s.drc with pdown := kset (fun _ => false) s.drc.pdown i true } }
          if t.unit 4 i = 3 then t.setUnit 4 i 3 else if t.unit 4 i = 0 then t.enterUnit 4 i else t) s)) ∧
      exec (.pwrup d mask) s = .next
        (forEach l (fun i s =>
          if s.unit 4 i = 0 then s.sourceNow 4 i 3
          else if kget (fun _ => false) s.drc.pdown i then s.wakeUnit 4 i 3 else s) s) ∧
      exec (.drcPeakClr d) s = .next
        (forEach (List.range 8) (fun i s => (s.wrN (Reg.DRC_REF_MAX i) 0).wrN (Reg.DRC_PF_LAT i) 0) s) ∧
      (v.toNat % 16 = 0 ∨ 4 ≤ v.toNat % 16 → exec (.drcCmdInvalid d v) s = .next (s.noteReg d a))) ∧
    (s.Writes d Reg.DRC_SPEED →
      let asked := s.wrF Reg.DRC_SPEED 1 0 req
      let up := (List.range 8).filter fun i => !kget (fun _ => false) asked.drc.pdown i
      let begun := (forEach up (fun i s => s.setUnit 4 i 3) asked).setTraining true 3
      (req = 3 → exec (.drcSpeedWrite d v) s = .next (s.noteReg d Reg.DRC_SPEED)) ∧
      (req ≠ 3 → bit (s.rd Reg.DRC_STAT) 29 = true → exec (.drcSpeedWrite d v) s =
        .next { asked with drc := { asked.drc with newReq := some req } }) ∧
      (req ≠ 3 → bit (s.rd Reg.DRC_STAT) 29 = false → s.allStopped = false →
        exec (.drcSpeedWrite d v) s = .next (s.noteReg d Reg.DRC_SPEED)) ∧
      (req ≠ 3 → bit (s.rd Reg.DRC_STAT) 29 = false → s.allStopped = true →
        exec (.drcSpeedWrite d v) s = .next
          { begun with drc := { begun.drc with speed := some req, closed := true } })) ∧
    (s.Writes d (Reg.DRC_INJ c) → exec (.drcInjWrite d c v) s = .next (s.wrRow (Reg.DRC_INJ c) v))

/-- O43. In a module that runs, once the DRAM is trained: a request of a line that the DRAM serves now is served, and one
that a speed change, a start or the clearing holds back waits behind those before it; while the clearing runs, a write
of class 4 is its progress; a write request inside the memory keeps its line's bytes, one past its end is noted; a
read request is answered with the checks of its lines, and a pattern prefetch longer than any before shows its
latency. A refresh of a logical rank of a subchannel of a channel in use, the one before ended, moves its bank index
on, lasts tRFCsb and shows a longer delay; a temperature is shown with its warning bit above 85 °C, and passing 95 °C
sets the interrupt bit with a NOTE fault; a channel that had no request for its idle time begins to enter self-refresh
while every sequencer is stopped; the scrub, where enabled, checks its line unless this pass has read it clean, waking
its channel, and moves on. A clearing that has ended shows cleared and its size with the interrupt bit, and a speed
change that has ended shows the grade in use with its interrupt bit, or begins again where a new request waits; after
each, the requests that wait are served. [spec/14_dram.md (R374, R378, R382, R383, R384, R385, R388, R390, R391,
R393)] -/
def Obligations.MemoryEventsComplete : Prop :=
  ∀ (s : State), s.runs = true →
    (s.dramUp = true →
      (∀ (cls : Fin 6) (id : Fin 64) (wr : Bool) (line : BitVec 36) (err : Fin 4) (ns : Word),
        let n := line.toNat
        let q : DramReq := { cls := cls, id := id, typ := b2n wr, rkind := classKind cls }
        let away := s.dramSize < 64 * n + 64 ∨ s.lineDown n = true
        let t := ((if away then s else s.devShows q n err).dramAsk q 0 (64 * n) 64).1
        let put := s.dramPutNow q 0 (64 * n) (s.dramRd (64 * n) 64) false
        let clears := cls.val = 4 ∧ wr = true ∧ bit (s.rd Reg.DRC_STAT) 30 = true
        (clears → 64 * n + 64 ≤ s.dramSize → exec (.dramRequest cls id wr line err ns) s = .next
          (({ s with drc := { s.drc with clr := max s.drc.clr (n + 1) } }.wrN Reg.DRC_CLR
            (64 * max s.drc.clr (n + 1) / 2 ^ 30)).waitsServed)) ∧
        (¬ clears → s.dramHeld (64 * n) 64 = true → exec (.dramRequest cls id wr line err ns) s = .next
          { s with drc := { s.drc with waiting := s.drc.waiting ++ [.req q n err ns.toNat] } }) ∧
        (¬ clears → s.dramHeld (64 * n) 64 = false →
          (wr = true → exec (.dramRequest cls id wr line err ns) s = .next
            (if s.lineBad n = 3 ∧ put.lineBad n = 0 then put.setBad n 3 else put)) ∧
          (wr = false → exec (.dramRequest cls id wr line err ns) s = .next
            (if cls.val = 0 ∧ ¬ away ∧ (t.rd (Reg.DRC_PF_LAT (n % 8))).toNat < ns.toNat then
              t.wrN (Reg.DRC_PF_LAT (n % 8)) ns.toNat else t)))) ∧
      (∀ (d : Fin 8) (sub : Fin 2) (rank : Fin 16) (ns : Word),
        let k := 32 * (2 * d.val + sub.val) + rank.val
        s.unit 4 d < 3 → bit (s.rd Reg.DRC_STAT) 29 = false → rank < s.logicalRanks →
        kget (fun _ => 0) s.drc.refBusy k ≤ s.mt →
        let i := kget (fun _ => 0) s.drc.refIdx k
        let t := { s with drc := { s.drc with
          refIdx := kset (fun _ => 0) s.drc.refIdx k ((i + 1) % 4),
          refBusy := kset (fun _ => 0) s.drc.refBusy k (s.mt + 4 * s.drc.tRFCsb) } }
        exec (.dramRefresh ⟨d, sub, rank⟩ ns) s = .next
          (if (t.rd (Reg.DRC_REF_MAX d)).toNat < ns.toNat then t.wrN (Reg.DRC_REF_MAX d) ns.toNat else t)) ∧
      (∀ (d : Fin 8) (deg : BitVec 16),
        let x := sext 16 deg.toNat
        let t := (s.wrN (Reg.DRC_CH_TEMP d) deg.toNat).wrF (Reg.DRC_CH_STAT d) 28 28 (b2n (decide (680 < x)))
        let was := kget (fun _ => false) t.drc.hot95 d
        let t := { t with drc := { t.drc with hot95 := kset (fun _ => false) t.drc.hot95 d (decide (760 < x)) } }
        exec (.dramTempPoll d deg) s = .next
          (if 760 < x ∧ was = false then (t.irq (Reg.DRC_CH_ISTAT d) 4).note (0xB00 + d.val) else t)) ∧
      (∀ (d : Fin 8), s.allStopped = true → s.unit 4 d = 0 → s.rdF (Reg.DRC_CH_STAT d) 31 29 = 0 →
        s.idleFor 4 d (max 10 (s.rdF Reg.DRC_SR_IDLE 15 0)) = true →
        exec (.dramSelfRefreshEntry d) s = .next (s.enterUnit 4 d)) ∧
      (∀ (err : Fin 4), bit (s.rd Reg.DRC_SCRUB) 31 = true →
        let n := s.drc.scrubLine
        s.dramHeld (64 * n) 64 = false → s.lineDown n = false →
        let q : DramReq := { cls := 4, typ := 3 }
        exec (.dramScrub err) s = .next
          (if s.drc.clean.contains n then s
           else (((s.dramWake (64 * n) 64).devShows q n err).eccLine q n).1).scrubNext)) ∧
    (bit (s.rd Reg.DRC_STAT) 30 = true →
      let t := (s.wrF Reg.DRC_STAT 30 30 0).wrF Reg.DRC_STAT 31 31 1
      exec .dramClearDone s = .next
        ((t.wrN Reg.DRC_CLR (t.rdF Reg.DRC_CFG 12 0)).irq Reg.DRC_ISTAT 16).waitsServed) ∧
    (∀ req, s.drc.speed = some req →
      let up := (List.range 8).filter fun i => !kget (fun _ => false) s.drc.pdown i
      let t := (forEach up (fun i s => s.setUnit 4 i 0) s).setTraining false 0
      let t := t.wrF Reg.DRC_SPEED 17 16 (min req s.drc.spdMax)
      (s.drc.newReq = none → exec .drcSpeedDone s = .next
        (({ t with drc := { t.drc with speed := none, closed := false } }.irq Reg.DRC_ISTAT 32).waitsServed)) ∧
      (∀ new, s.drc.newReq = some new → exec .drcSpeedDone s = .next
        { s.setTraining true 3 with drc := { s.drc with speed := some new, newReq := none } }))

/-- O44. Where the write reaches DMA_CMD of a channel: START of an idle or halted channel whose descriptors lie in host
memory or DRAM, with no MOD fault held, clears its progress and errors and begins at DMA_HEAD, and any other START is
discarded with a NOTE fault; STOP lets a descriptor in service end with code ABORTED, and a channel without one is
idle at once; DOORBELL makes a channel that waits for ownership read its descriptor again, and does nothing elsewhere;
FLUSH of a descriptor paced by a ring, in service, asks it to take what is left, and any other FLUSH, and another OP,
is discarded with a NOTE fault. Each state is given whole. [spec/15_dma.md (R409, R410, R414); spec/19_faults.md
(R484)] -/
def Obligations.DmaCommandsComplete : Prop :=
  ∀ (s : State) (d n : Fin 16) (v : Word), s.Writes d (Reg.DMA_CMD n) →
    let u := s.dc n
    let note := Host.Outcome.next (s.noteReg d (Reg.DMA_CMD n))
    let ok := s.modHeld = false ∧ (s.dmaState n = 0 ∨ s.dmaState n = 5) ∧ s.descSpace n < 2
    let t := (s.setDc n {}).wrWide (Reg.DMA_CUR_LO n) 2 ((s.setDc n {}).rdWide (Reg.DMA_HEAD_LO n) 2)
    let t := ((t.wr (Reg.DMA_PIDX n) (word 0)).wrWide (Reg.DMA_BYTES_LO n) 2 0).wr (Reg.DMA_DONE_CNT n) (word 0)
    let t := (t.wr (Reg.DMA_ERR n) (word 0)).wrWide (Reg.DMA_ERR_ADDR_LO n) 2 0
    let serves := u.desc.isSome = true ∧ (s.dmaState n = 1 ∨ s.dmaState n = 3 ∨ s.dmaState n = 4)
    let ends := s.setDc n { u with stopReq := true, code := some (u.code.getD 3) }
    (ok → exec (.dmaStart d n) s = .next (t.setDmaState n 1)) ∧
    (¬ ok → exec (.dmaStart d n) s = note) ∧
    (serves → exec (.dmaStop d n) s = .next (if ends.dmaState n = 3 then ends.setDmaState n 1 else ends)) ∧
    (¬ serves → exec (.dmaStop d n) s = .next (((s.setDc n {}).setDmaState n 0).irq (Reg.DMA_ISTAT n) 1)) ∧
    (s.dmaState n = 2 → exec (.doorbell d n) s = .next (s.setDmaState n 1)) ∧
    (s.dmaState n ≠ 2 → exec (.doorbell d n) s = .next s) ∧
    (u.paceKind = 1 → u.code = none → exec (.flush d n) s = .next (s.setDc n { u with flushReq := true })) ∧
    (u.paceKind ≠ 1 ∨ u.code ≠ none → exec (.flush d n) s = note) ∧
    (v.toNat % 8 = 0 ∨ 4 < v.toNat % 8 → exec (.dmaCmdInvalid d n v) s = note)

/-- O45. In a module that runs, where the DRAM serves what the command needs there: a running channel without a descriptor
reads the one at DMA_CUR, from host memory whole or after its tries, or from DRAM; one given to it is taken, one not
given is waited for, and one that cannot be read halts the channel; the poll period reads it again; after a warm start
a channel marked to resume goes on while no MOD fault is held, or halts where its descriptors lie in DRAM and its
contents are lost. A piece of an unpaced descriptor is read and then written, and counted, or ends the descriptor with
its code; a burst whose request is asserted moves, and after a FLUSH what the ring still holds, or the descriptor
ends; a withdrawn request ends it with code 1 after the bytes that were valid, each checked as any other access. A
completed descriptor is handed back after its read-backs, of the last 4 bytes written where any were and of the
descriptor, the interrupts are given, and the channel is idle, halted or goes on. [spec/15_dma.md (R398, R400, R402,
R403, R404, R405, R406, R407, R408, R409, R410, R411)] -/
def Obligations.DmaEventsComplete : Prop :=
  ∀ (s : State) (n : Fin 16), s.runs = true →
    let u := s.dc n
    let host := s.descSpace n = 0
    let moves := s.dmaState n = 1 ∨ s.dmaState n = 3
    (∀ (src : HostRead), s.dmaState n = 1 → u.desc = none → (host → 2 ≤ src.fails ∨ src.data.length = 64) →
      s.dmaHeld (if host then 0 else 1) (s.dmaCur n) 64 = false →
      let r := s.dmaRead n (if host then 0 else 1) (s.dmaCur n) 64 src
      let ws := descWords r.2.2
      exec (.dmaDescFetch n src) s = .next
        (if r.2.1 ≠ 0 then r.1.dmaLost n r.2.1
         else if bit (ws.getD 0 0) 31 then r.1.dmaTake n ws u.resume else r.1.dmaNotGiven n ws)) ∧
    (let p := s.rdF (Reg.DMA_CTL n) 15 8
     s.dmaState n = 2 → p ≠ 0 → u.readAt + 4000 * p ≤ s.mt → exec (.dmaPoll n) s = .next (s.setDmaState n 1)) ∧
    (u.resume = true → s.dmaState n = 0 → s.pwr.starting = false → s.modHeld = false →
      let lost := (s.wrN (Reg.DMA_ERR n) (2 ^ 31 + 0x10)).wrWide (Reg.DMA_ERR_ADDR_LO n) 2 (s.dmaCur n)
      exec (.dmaResume n) s = .next
        (if s.descSpace n = 1 ∧ bit (s.rd Reg.DRC_STAT) 28 = false then
          ((lost.setDc n {}).setDmaState n 5).irq (Reg.DMA_ISTAT n) 16
         else s.setDmaState n 1)) ∧
    (∀ (src : HostRead), s.dmaState n = 1 → u.desc.isSome = true → u.code = none → u.paceKind = 0 →
      (u.sspace = 0 → 2 ≤ src.fails ∨ src.data.length = u.piece.1) →
      s.dmaHeld u.sspace (u.src + u.piece.2) u.piece.1 = false →
      let r := s.dmaRead n u.sspace (u.src + u.piece.2) u.piece.1 src
      let w := r.1.dmaWrite n u.dspace (u.dst + u.piece.2) r.2.2
      exec (.dmaPiece n src) s = .next
        (if r.2.1 ≠ 0 then r.1.dmaEnds n r.2.1
         else if w.2 ≠ 0 then w.1.dmaEnds n w.2
         else w.1.dmaMoved n u.piece.1
           (u.dst + u.piece.2 + if u.descends then 0 else u.piece.1 - 4) (if u.moved + u.piece.1 = u.len then some 0 else none))) ∧
    (moves → u.desc.isSome = true → u.code = none → u.paceKind ≠ 0 → u.paused = none → u.cut = none →
      let k := if s.paceAsked n u then 4 * u.paceBurst else s.ringHeld u.paceCh
      s.placesHeld (s.burstPlaces n k) = false →
      (s.paceAsked n u = true → exec (.dmaPacedBurst n) s = .next (s.burst n (4 * u.paceBurst) none)) ∧
      (s.paceAsked n u = false → u.flushReq = true →
        (s.ringHeld u.paceCh = 0 → exec (.dmaPacedBurst n) s = .next (s.dmaEnds n 2)) ∧
        (s.ringHeld u.paceCh ≠ 0 → exec (.dmaPacedBurst n) s =
          .next (s.burst n (s.ringHeld u.paceCh) (some 2))))) ∧
    (∀ (valid : BitVec 32) places bytes, moves → u.code = none → u.cut = some (places, bytes) →
      valid.toNat ≤ bytes.length → s.placesHeld (cutPlaces valid.toNat places) = false →
      let t := if u.paceKind = 2 then s.wrN (Reg.DMA_PIDX n) 0 else s
      let r := t.dmaGather n (cutPlaces valid.toNat places)
      let w := r.1.dmaWrite n u.dspace (u.dst + u.moved)
        (bytes.take valid.toNat ++ List.replicate (u.stride - valid.toNat) 0)
      exec (.dmaPaceWithdraw n valid) s = .next
        (if r.2.1 ≠ 0 then r.1.dmaEnds n r.2.1
         else if w.2 ≠ 0 then w.1.dmaEnds n w.2
         else (w.1.dmaMoved n valid.toNat (u.dst + u.moved + u.stride - 4) (some 1)).setDmaState n 1)) ∧
    (∀ (rb wb : Fin 4) code, moves → u.desc.isSome = true → u.code = some code →
      (∀ back, u.wrote = some back → s.dmaHeld u.dspace back 4 = false) →
      s.dmaHeld (s.descSpace n) (s.dmaCur n) 64 = false →
      let r := match u.wrote with | none => (s, 0) | some back => s.dmaReadBack n u.dspace back rb
      let r := (r.1.backFault n code r.2, r.2)
      let bad := r.2 ≠ 0 ∧ code < 0x10
      let code := if bad then r.2 else code
      let done := if bad then r.1.freeNow % (u.moved / 4 + 1) * 4 else u.moved
      let h := (if bad then r.1.drawn else r.1).dmaHandBack n code done
      let b := if h.2 ≠ 0 then h else h.1.dmaReadBack n (h.1.descSpace n) (h.1.dmaCur n) wb
      let b := (b.1.backFault n code b.2, b.2)
      let code := if code < 0x10 ∧ b.2 ≠ 0 then b.2 else code
      let t := b.1.wrF (Reg.DMA_STAT n) 15 8 code
      let t := (t.wrN (Reg.DMA_DONE_CNT n) ((b.1.rd (Reg.DMA_DONE_CNT n)).toNat + 1)).dmaIrqs n u
      let t := if 0x10 ≤ code then t.dmaError n code else t
      exec (.dmaDescComplete n rb wb) s = .next
        (if u.stopReq = true then t.dmaIdle n
         else if 0x10 ≤ code ∧ bit (t.rd (Reg.DMA_CTL n)) 2 = false then (t.setDc n {}).setDmaState n 5
         else if u.isEnd = true then t.dmaIdle n
         else t.dmaGoOn n u.next))

/-- O46. Where the host reaches the module in an enabled function (power, link, domain), with no GRAVE fault held, out of
Safe mode: a BAR2 read whose every byte its domain may read asks for the lines and answers its bytes as words,
poisoned where a line is lost, or waits where the DRAM does not serve them now, and one with a byte it may not read is
denied and answers ones; a BAR2 write whose every enabled byte its domain may write puts the runs of enabled bytes,
after the old bytes of lines with data of active entries are kept for the bursts that may still play them, and one
with a byte it may not write is denied. A BAR4 read of a word that its domain may read and that no sleeping unit keeps
away answers it, a word of the scheduler's own state a free value (log entry 105); a BAR4 write of a word that its
domain may write, of no sleeping unit, stores its four bytes, or enters the waveform tables. An access of BAR4 that
the domain may not make is denied, and an unaligned or reserved one is noted; a read of either answers ones. A write
that arrives poisoned is discarded, as an uncorrectable error that AER counts. [spec/00_scope.md (R4);
spec/04_vector_segments.md (R128); spec/05_waveforms.md (R158); spec/16_host_protection.md (R417, R418, R423, R424,
R434)] -/
def Obligations.WindowAccessesComplete : Prop :=
  ∀ (s : State) (d : Fin 16), s.hostOn d = true → s.graveHeld = false → s.safeMode = false →
    (∀ (off : BitVec 36),
      let o := off.toNat
      let a := s.bar2Addr d o
      (∀ n,
        let may := ∀ i < n, s.byteMay d false (a + i) = true
        let q := bar2Req d false
        let r := s.dramAsk q d a n
        let g := r.1.dramGive a n
        (may → s.dramHeld a n = false →
          exec (.bar2Access d off ⟨.read n, false⟩) s = .next { g.1.answer (toWords g.2) with rpoison := r.2 }) ∧
        (may → s.dramHeld a n = true → exec (.bar2Access d off ⟨.read n, false⟩) s = .next
          { s with drc := { s.drc with waiting := s.drc.waiting ++ [.read q d a n] } }) ∧
        (¬ may → exec (.bar2Access d off ⟨.read n, false⟩) s =
          .next ((s.deny 1 d 0 false o).answer (fillWords n 0xFFFFFFFF)))) ∧
      (∀ bs,
        let runs := enabledRuns a bs
        let may := ∀ r ∈ runs, ∀ i < r.2.length, s.byteMay d true (r.1 + i) = true
        (may → exec (.bar2Access d off ⟨.write bs, false⟩) s =
          .next (if runs = [] then s else (s.keepOld a bs.length).dramPutRuns (bar2Req d true) d runs)) ∧
        (¬ may → exec (.bar2Access d off ⟨.write bs, false⟩) s = .next (s.deny 1 d 0 true o)) ∧
        exec (.bar2Access d off ⟨.write bs, true⟩) s = .next (s.poisoned d o))) ∧
    (∀ (off : BitVec 26),
      let o := off.toNat
      let there := o % 4 = 0 ∧ bar4Reserved o = false
      let awake := ∀ u, bar4Unit o = some u → s.reach (some u) (bit (s.rd Reg.HIF_WOA) (bar4Block o / 256)) = .awake s
      (there → awake → s.bar4MayRead d o = true → exec (.bar4Access d off none) s = .next
        (if 0x2680000 ≤ o ∧ o < 0x2B00000 then s.drawn.answer [word s.freeNow] else s.answer [s.sramW o])) ∧
      (there → s.bar4MayRead d o = false → exec (.bar4Access d off none) s =
        .next ((s.deny 2 d 0 false o).answer [word 0xFFFFFFFF])) ∧
      (¬ there → exec (.bar4Access d off none) s =
        .next ((s.r4Note d blkHIF o false).answer [word 0xFFFFFFFF])) ∧
      (∀ v,
        (there → awake → s.bar4MayWrite d o = true → exec (.bar4Access d off (some ⟨v, false⟩)) s = .next
          (if 0x2400000 ≤ o ∧ o < 0x2680000 then s.wftWrite d o v else s.sramWr o (leBytes 4 v.toNat))) ∧
        (there → s.bar4MayWrite d o = false → exec (.bar4Access d off (some ⟨v, false⟩)) s = .next (s.deny 2 d 0 true o)) ∧
        (¬ there → exec (.bar4Access d off (some ⟨v, false⟩)) s = .next (s.r4Note d blkHIF o true)) ∧
        exec (.bar4Access d off (some ⟨v, true⟩)) s = .next (s.poisoned d o)))

/-- O47. Where the write reaches the table: words 1 to 3 of a slot are held in the entry buffer, and words held for
another slot are abandoned and recorded with code 5; word 0 commits the slot with the words held, in place of the
stored ones, and empties the buffer: an entry that is wrong on its own account is recorded with its code, one that
overlaps a stored entry with code 2, and any other entry is stored. [spec/16_host_protection.md (R430, R431, R432)] -/
def Obligations.ProtectionTableCommandsComplete : Prop :=
  ∀ (s : State) (d : Fin 16) (i : Fin 304) (w : Fin 3) (v : Word),
    let t := s.ptAbandon i
    let e := t.ptMade i v
    let t' := { t with ptbuf := none }
    (s.Writes d (ptAddr i (w.val + 1)) → exec (.hifPtWordWrite d i w v) s =
      .next { t with ptbuf := some ⟨i, kset (fun _ => none) t.ptHeld (w.val + 1) (some v)⟩ }) ∧
    (s.Writes d (ptAddr i 0) →
      (ptCheck i e ≠ 0 → exec (.hifPtCommit d i v) s = .next (t'.ptRefuse i (ptCheck i e))) ∧
      (ptCheck i e = 0 → t'.ptOverlap i e = true → exec (.hifPtCommit d i v) s = .next (t'.ptRefuse i 2)) ∧
      (ptCheck i e = 0 → t'.ptOverlap i e = false → exec (.hifPtCommit d i v) s = .next (t'.setPt i e)))

/-- O48. Where a write reaches an aligned register that no row of the table names and whose access code alone gives its
effect, bits outside the register are dropped, and: a read-write register takes the value, and an MSI-X vector whose
summary falls by it is noted as fallen; a write-1-to-clear register loses the bits written as 1, and the vectors whose
request it holds are sent again; a staged register stages the value; a read-only and a write-only register, and an
offset without a register, keep what they hold. Where a read reaches an aligned register whose read has no row of its
own, it answers what the register reads for the domain, and latches the upper words of that wide value for the domain:
the live ones, or those of a bank or window that is latched already. A write of GLB_STG_HOLD acts on the bits of the
sequencers that the writing domain owns, and the other bits keep their values. A write of SUP_CMD, HIF_DENY_CNT and
GLB_APPLY, and a read of CSH_ACQ, ANE_F_STAT and TMU_RSEQ, act as their own rows. An access of BAR0 or BAR4 that is
not one aligned word, where the host reaches the module in an enabled function with no GRAVE fault held, is noted, and
a read of it answers ones. A write that arrives poisoned is discarded, as an uncorrectable error that AER counts and a
NOTE fault. [spec/00_scope.md (R3, R4, R5, R6); spec/08_contact_sheet.md (R220); spec/16_host_protection.md (R417,
R418, R420, R429)] -/
def Obligations.RegisterAccessesComplete : Prop :=
  ∀ (s : State) (d : Fin 16) (addr : BitVec 26) (v : Word),
    let a := addr.toNat
    let held := (kget (fun _ => none) s.latch (latchKey d a)).isSome
    let t := s.latchWords d (a + 4) ((List.range (wideUps a)).map fun i =>
      if held then s.regRead d (a + 4 * (i + 1)) else s.regLive d (a + 4 * (i + 1)))
    let noted := fun wr => if s.hostOn d = true ∧ s.graveHeld = false then s.r4Note d blkHIF a wr else s
    (s.Writes d a → a % 4 = 0 → a < 0x1900000 → ¬ ownWrite a →
      (regRow a = none → exec (.registerWrite d addr ⟨v, false⟩) s = .next s) ∧
      (∀ r, regRow a = some r →
        let x := v &&& word r.mask
        (r.acc = .rw → exec (.registerWrite d addr ⟨v, false⟩) s = .next (s.wr a x).vecFall) ∧
        (r.acc = .w1c → exec (.registerWrite d addr ⟨v, false⟩) s = .next ((s.clrBits a x.toNat).vecAgain a)) ∧
        (r.acc = .st → exec (.registerWrite d addr ⟨v, false⟩) s = .next (s.stageWrite a x)) ∧
        (r.acc = .ro ∨ r.acc = .wo → exec (.registerWrite d addr ⟨v, false⟩) s = .next s))) ∧
    (s.Reads d a → a % 4 = 0 → a < 0x1900000 → ¬ ownRead a →
      exec (.wideLowWordRead d addr) s = .next ((if drawsFree a then t.drawn else t).answer [s.regRead d a])) ∧
    (a = Reg.GLB_APPLY → exec (.registerWrite d addr ⟨v, false⟩) s = exec (.glbApply d v) s) ∧
    (a = Reg.GLB_STG_HOLD → s.Writes d a → ∃ x, exec (.registerWrite d addr ⟨v, false⟩) s = .next (s.wr a x) ∧
      ∀ k < 32, x.getLsbD k = if k < 16 ∧ s.owns d 1 k = true then v.getLsbD k else (s.rd a).getLsbD k) ∧
    (a = Reg.HIF_DENY_CNT → exec (.registerWrite d addr ⟨v, false⟩) s = exec (.hifDenyCntClear d v) s) ∧
    (a = Reg.SUP_CMD → v.toNat % 16 = 2 → exec (.registerWrite d addr ⟨v, false⟩) s = exec (.fwActivate d) s) ∧
    (a = Reg.ANE_F_STAT → exec (.wideLowWordRead d addr) s = exec (.aneFStatRead d) s) ∧
    (∀ n : Fin 16, a = Reg.CSH_ACQ n → exec (.wideLowWordRead d addr) s = exec (.cshAcquire d n) s) ∧
    (∀ c : Fin 128, a = Reg.TMU_RSEQ c → exec (.wideLowWordRead d addr) s = exec (.tmuRseqRead d c) s) ∧
    (∀ bar4 : Bool, exec (.misalignedAccess d bar4 true addr) s = .next (noted true) ∧
      exec (.misalignedAccess d bar4 false addr) s = .next ((noted false).answer [word 0xFFFFFFFF])) ∧
    exec (.registerWrite d addr ⟨v, true⟩) s = .next (if s.hostOn d = true then
      ((s.countF Reg.HIF_AER_CNT 31 16 1).irq Reg.HIF_ISTAT 8).detect
        { src := blkHIF, addr := a, rkind := 1, access := 1, rid := d } else s)

/-- O49. Where the write reaches LNK_CMD of a port: UP of a port whose LANE entry names a peer begins its training, and of
another is discarded with a NOTE fault; DOWN of a port that is not DOWN takes it down; TX_SLEEP of a port that is UP
and not waking begins to enter, unless it has begun; any other is discarded with a NOTE fault; TX_WAKE wakes the
direction, and counts against the entry of an ACTIVE one in its round; XFER while one is busy is discarded with a NOTE
fault, with the port not UP or a length that is no multiple of 64 it ends BAD, with length 0 it ends DONE, and else it
is busy from its source to its target; XABORT ends a busy one ABORTED; another OP is discarded with a NOTE fault. Each
state is given whole. [spec/17_falin_lanes.md (R447, R453, R454, R455, R456, R459); spec/20_power_start.md (R502)] -/
def Obligations.PortCommandsComplete : Prop :=
  ∀ (s : State) (d : Fin 16) (p : Fin 4) (v : Word), s.Writes d (Reg.LNK_CMD p) →
    let note := Host.Outcome.next (s.noteReg d (Reg.LNK_CMD p))
    let len := (s.rd (Reg.LNK_XLEN p)).toNat
    let busy := bit (s.rd (Reg.LNK_XSTAT p)) 31
    let begun := s.wr (Reg.LNK_XSTAT p) (word (2 ^ 31))
    let begun := begun.setFp p { begun.fp p with
      xfer := some (s.rdWide (Reg.LNK_XSRC_LO p) 2, s.rdWide (Reg.LNK_XDST_LO p) 2, len),
      xferDrop0 := (begun.fp p).peerDrop }
    ((s.peerOf p).isSome = true → exec (.up d p) s = .next (s.portUp p)) ∧
    ((s.peerOf p).isSome = false → exec (.up d p) s = note) ∧
    (s.lnkState p ≠ 0 → exec (.down d p) s = .next (s.goDown p)) ∧
    (s.lnkState p = 0 → exec (.down d p) s = .next s) ∧
    (s.lnkState p = 3 → s.unit 5 p ≠ 4 → exec (.txSleep d p) s =
      .next (if s.unit 5 p = 0 then s.enterUnit 5 p else s)) ∧
    (s.lnkState p ≠ 3 ∨ s.unit 5 p = 4 → exec (.txSleep d p) s = note) ∧
    exec (.txWake d p) s = .next (if s.unit 5 p = 0 then s.sourceNow 5 p 3 else s.txWake p 3) ∧
    (busy = true → exec (.xfer d p) s = note ∧ exec (.xabort d p) s = .next (s.xferEnd p 1)) ∧
    (busy = false → exec (.xabort d p) s = .next s ∧
      (s.lnkState p ≠ 3 ∨ len % 64 ≠ 0 → exec (.xfer d p) s =
        .next ((s.wr (Reg.LNK_XSTAT p) (word 0)).xferEnd p 3)) ∧
      (s.lnkState p = 3 → len = 0 → exec (.xfer d p) s = .next (begun.xferEnd p 0)) ∧
      (s.lnkState p = 3 → len % 64 = 0 → len ≠ 0 → exec (.xfer d p) s =
        .next (if bit (begun.rd (Reg.LNK_CTL p)) 1 = true then begun.txWake p 1 else begun))) ∧
    (v.toNat % 16 = 0 ∨ 7 ≤ v.toNat % 16 → exec (.lnkCmdInvalid d p v) s = note)

/-- O50. In a module that runs: a port whose lanes have locked and aligned shows HELLO and sends its own; the peer's HELLO
frame brings the port UP, with its interrupt and its frames replayed, where it names the module expected, and records
a mismatch elsewhere; a training longer than 10 ms is tried again, and takes the port down with a NOTE fault at the
third failure; a received block is descrambled, and it and an ALIGN row pass their headers to the lanes of a port that
is not DOWN and whose receiver is powered, and such a port that is not asleep sends its ALIGN rows every 16,384 rows;
an eye figure is shown with its lowest, and a new fall below the warning sets the interrupt bit with a NOTE fault; a
figure that stays below RETRAIN for 1 ms retrains a port that is UP; a direction that has drained sleeps, one that has
not within 100 µs abandons its entry; and the peer's sleep and wake are shown. [spec/17_falin_lanes.md (R439, R441,
R442, R444, R447, R454, R455, R456)] -/
def Obligations.PortStateEventsComplete : Prop :=
  ∀ (s : State) (p : Fin 4), s.runs = true →
    let u := s.fp p
    let st := Reg.LNK_STAT p
    let locked := s.wrF st 31 29 2
    let hello := leBytes 2 (locked.rdF Reg.GLB_MODULE 15 0) ++ leBytes 2 0xB1 ++
      leBytes 12 (locked.fp p).rate
    (s.lnkState p = 1 → s.rdF st 25 22 = 15 → u.aligned = true → exec (.lnkTrainDone p) s = .next (locked.sendVc0 p 6 0 hello)) ∧
    (∀ (b : List Byte) (f : Frame), Frame.read b = some f → f.typ = 6 → s.lnkState p = 2 →
      let mod := getLE f.data 0 2
      let t := s.wrF st 15 0 mod
      let up := (t.wrF st 31 29 3).irq (Reg.LNK_ISTAT p) 1
      exec (.hello p b) s = .next
        (if t.peerOf p = some mod then (up.setFp p { up.fp p with tries := 0, mismatch := false }).replayAll p
         else ((t.setFp p { t.fp p with mismatch := true }).irq (Reg.LNK_ISTAT p) 4).note (blkLNK p) 0 mod)) ∧
    (s.lnkState p = 1 ∨ s.lnkState p = 2 → u.mismatch = false → u.trainFrom + 40000000 ≤ s.mt →
      exec (.lnkTrainTimeout p) s = .next
        (if 3 ≤ u.tries + 1 then (s.goDown p).note (blkLNK p)
         else (s.trainPort p).setFp p { (s.trainPort p).fp p with tries := u.tries + 1 })) ∧
    (1 ≤ s.lnkState p →
      (bit (s.rd st) 26 = false →
        (∀ (l : Fin 4) (header : BitVec 2) (payload : BitVec 64),
          let r := scramble true (kget (fun _ => 0) u.rxScr l) payload.toNat
          exec (.laneBlockReceived p l ⟨header, payload⟩) s =
            .next ((s.setFp p { u with rxScr := kset (fun _ => 0) u.rxScr l r.1 }).header p l
              (validBlock header.toNat r.2))) ∧
        (∀ blocks : List AlignBlock,
          let t := forEach (List.range 4) (fun l s => s.header p l (!misplaced blocks l)) s
          exec (.align p blocks) s =
            .next (if (List.range 4).any (misplaced blocks) = true then t
              else t.setFp p { t.fp p with
                aligned := true, order := blocks.map fun b => b.lane.toNat,
                skew := blocks.map fun b => b.arrival - firstArrival blocks }))) ∧
      (s.unit 5 p ≤ 2 → u.rowFrom + 16384 * 704 * (1 + u.rate) ≤ 75 * s.mt →
        let n := (u.rows + 16384) % 2 ^ 32
        exec (.lnkAlignSend p) s = .next ((s.setFp p { u with
          rows := n, rowFrom := u.rowFrom + 16384 * 704 * (1 + u.rate) }).sendControl p 0x4B n))) ∧
    (∀ (i : Fin 6) (l : Fin 4) (eye : BitVec 8) (eq : BitVec 30),
      let e := eye.toNat
      let ra := if i.val < 4 then Reg.LNK_L_EYE i l else Reg.LNK_TL_EYE i
      let t := s.wrN (if i.val < 4 then Reg.LNK_L_EQ i l else Reg.LNK_TL_EQ i) eq.toNat
      let t := t.wrN ra (256 * (if t.rd ra = 0 then e else min e (t.rdF ra 15 8)) + e)
      let x := t.fp i
      let warn := t.rdF Reg.LNK_EYE_CTL 7 0
      let was := kget (fun _ => false) x.eyeLow l
      let now := if warn < e then false else was || decide (e < warn)
      let from' := kget (fun _ => 0) x.eyeFrom l
      let since := if i.val < 4 ∧ e < t.rdF Reg.LNK_EYE_CTL 15 8 then (if from' = 0 then t.mt + 1 else from') else 0
      let t := t.setFp i { x with
        eyeLow := kset (fun _ => false) x.eyeLow l now, eyeFrom := kset (fun _ => 0) x.eyeFrom l since }
      exec (.lnkEyeUpdate i l eye eq) s = .next
        (if now = true ∧ was = false then (t.irq (Reg.LNK_ISTAT i) 8).note (blkLNK i) 0 l else t)) ∧
    (∀ l < 4, s.lnkState p = 3 → kget (fun _ => 0) u.eyeFrom l ≠ 0 →
      kget (fun _ => 0) u.eyeFrom l + 4000000 ≤ s.mt + 1 →
      exec (.lnkEyeRetrain p) s = .next (s.lastingFail p false)) ∧
    (s.unit 5 p = 1 → u.drained = true → exec (.lnkSleepAp2 p) s =
      .next ((s.setUnit 5 p 2).sendControl p 0x2D 0)) ∧
    (s.unit 5 p = 1 → kget (fun _ => 0) s.pwr.entryAt (unitKey 5 p) + 400000 ≤ s.mt →
      exec (.lnkSleepAp2Timeout p) s = .next ((s.setUnit 5 p 0).note (blkLNK p))) ∧
    (s.lnkState p = 3 → exec (.sleep p) s = .next (s.wrF st 26 26 1)) ∧
    (bit (s.rd st) 26 = true → exec (.lnkWakeBurst p) s = .next (s.wrF st 26 26 0))

/-- O51. In a module that runs: a port that is UP and awake sends its next frame: an ACK, NAK or CREDIT that has waited
for the wake first, then a replayed one, then a queued copy that credit and the replay buffer allow, then a frame of
the transfer. A port that can receive takes, of the frames whose bytes pass their CRC, a sequenced ITEM into its flow
and a sequenced WRITE into its window, or drops and counts it, and grants the rows back; bytes that fail it, or a
sequenced frame out of sequence, ask for the sequence again; an ACK frees the frames it names, tells the peer's drops
and may end a transfer; a NAK of a frame held replays from it; a CREDIT sets the grants. A port that is UP
acknowledges after 1 µs, tells changed grants, replays everything 4 µs after the last acknowledgement, and retrains
after a lasting failure. [spec/17_falin_lanes.md (R444, R445, R446, R447, R449, R451, R452, R453)] -/
def Obligations.FrameEventsComplete : Prop :=
  ∀ (s : State) (p : Fin 4), s.runs = true →
    let u := s.fp p
    (s.lnkState p = 3 →
      (s.unit 5 p ≤ 1 →
        (∀ f fs, u.vc0 = f :: fs →
          exec (.lnkFrameSend p) s = .next ((s.setFp p { u with vc0 := fs }).putFrame p f)) ∧
        (∀ f fs, u.vc0 = [] → u.again = f :: fs →
          exec (.lnkFrameSend p) s = .next ((s.setFp p { u with again := fs }).putFrame p f)) ∧
        (∀ f fs, u.vc0 = [] → u.again = [] → u.txq = f :: fs → f.rows ≤ creditLeft u.grant1 u.sent1 → u.replayFits f = true →
          exec (.lnkFrameSend p) s = .next ((s.setFp p { u with txq := fs }).sendNew p f)) ∧
        (u.vc0 = [] → u.again = [] → (∀ f fs, u.txq = f :: fs → ¬ (f.rows ≤ creditLeft u.grant1 u.sent1 ∧ u.replayFits f = true)) →
          exec (.lnkFrameSend p) s = .next (s.xferSend p))) ∧
      (0 < u.ackDue → exec (.lnkAckTimer p) s = .next (s.sendAck p)) ∧
      (u.rgrant1 ≠ u.told1 ∨ u.rgrant2 ≠ u.told2 → exec (.lnkCreditTimer p) s =
        .next ((s.setFp p { u with told1 := u.rgrant1, told2 := u.rgrant2 }).sendVc0 p 5 0
          (leBytes 4 u.rgrant1 ++ leBytes 4 u.rgrant2 ++ leBytes 8 0))) ∧
      (u.replay ≠ [] → u.ackFrom + 16000 ≤ s.mt → exec (.lnkReplayTimeout p) s =
        .next ((s.setFp p (u.fails (u.replay.headD {}).seq)).replayAll p)) ∧
      (u.lasting = true → exec (.lnkLastingFailure p) s = .next (s.lastingFail p true))) ∧
    (s.rxOn p = true →
      (∀ b : List Byte, s.frameFails p b = true → exec (.frameBad ⟨p, b⟩) s = .next (s.badFrame p)) ∧
      (∀ (b : List Byte) (f : Frame), Frame.read b = some f →
        (f.typ = 1 → ∀ head arg rest, rxFrame head arg rest = b → exec (.item p head arg rest) s = .next (s.sequenced p f.seq fun s =>
          let t := (s.takeIn (f.arg % 16384) 4 none f.data).1
          t.setFp p { t.fp p with rgrant1 := ((t.fp p).rgrant1 + f.rows) % 2 ^ 32 })) ∧
        (f.typ = 2 → ∀ head arg data tail, rxFrame head arg (data ++ tail) = b →
          exec (.write p head arg data tail) s = .next (s.sequenced p f.seq fun s =>
          let t := if s.writeDropped p f.arg f.data.length then s.count (Reg.LNK_RDROP p) 1
            else s.laneWrite p (2 ^ 20 * s.rdF (Reg.LNK_RWIN_BASE p) 21 0 + f.arg) f.poison f.data
          t.setFp p { t.fp p with rgrant2 := ((t.fp p).rgrant2 + f.rows) % 2 ^ 32 })) ∧
        (f.typ = 3 → ∀ head rest, rxBytes head rest = b →
          let left := ackFrames (f.arg % 65536) u.replay
          exec (.ack p head rest) s = .next ((s.setFp p { u with
            replay := left, again := u.again.filter fun f => left.contains f, ackFrom := s.mt,
            peerDrop := f.arg / 65536 % 2 ^ 32,
            nakSeq := u.nakSeq.filter fun n => left.any fun f => f.seq == n }).xferDone p)) ∧
        (f.typ = 4 →
          let n := f.arg % 65536
          let second := u.nakSeq == some n && !(u.again.any fun f => f.seq == n)
          ((∃ g ∈ u.replay, g.seq = n) → exec (.nak p b) s = .next ((s.setFp p { u with
            again := u.replay.dropWhile fun f => f.seq != n, nakSeq := some n,
            lasting := u.lasting || second }).count (Reg.LNK_REPLAY p) 1)) ∧
          ((∀ g ∈ u.replay, g.seq ≠ n) → exec (.nak p b) s = .next s)) ∧
        (f.typ = 5 → ∀ head rest, rxBytes head rest = b → exec (.credit p head rest) s =
          .next (s.setFp p { u with grant1 := getLE f.data 0 4, grant2 := getLE f.data 4 4 }))))

/-- O52. Where the write reaches the register: TAKEOVER of a standby takes over with cause COMMAND, and of another module
is discarded with a NOTE fault; YIELD of the active master with its standby aligned makes it fail as master, and any
other is discarded with a NOTE fault, as is another OP; a write of MTB_CTL sets its bits, one that changes the role or
a lane enable gives up the upstream lane and begins at FREE, or OFF, and TMG_CLK_STAT shows the PLL's source in force.
In a module that runs: a lane that is used and free sends, from its next tick-aligned symbol, TIME, where it is a time
lane, an ECHO request with the next number, and a pair's MIRROR; a MASTER at its start that sees no active peer
becomes active; a lost upstream lane is given up; a holdover longer than its limit ends FREE with its interrupt and a
NOTE fault; a standby whose pair lane has been silent for 1 µs takes over; the first delivery whose tick has come is
delivered; and an XT pulse ends. [spec/06_edge_timing.md (R169); spec/18_time_distribution.md (R464, R465, R468, R469,
R471, R472, R477, R479, R480)] -/
def Obligations.TimeBaseCommandsComplete : Prop :=
  ∀ (s : State) (d : Fin 16) (v : Word),
    let note := Host.Outcome.next (s.noteReg d Reg.MTB_CMD)
    let wr := s.wrRow Reg.MTB_CTL v
    let fresh := { wr with mtb := { wr.mtb with failSent := false, slewOnly := false, standbyAligned := false, atStart := true, causeNoted := 0 } }
    let old := s.rd Reg.MTB_CTL
    let new := wr.rd Reg.MTB_CTL
    (s.Writes d Reg.MTB_CMD →
      (s.standby = true → exec (.takeover d) s = .next (s.takeover 4)) ∧
      (s.standby = false → exec (.takeover d) s = note) ∧
      (s.mtbState = 5 → s.mtb.standbyAligned = true → exec (.yield d) s = .next s.masterFail) ∧
      (s.mtbState ≠ 5 ∨ s.mtb.standbyAligned = false → exec (.yield d) s = note) ∧
      (v.toNat % 4 ≠ 1 → v.toNat % 4 ≠ 2 → exec (.mtbCmdInvalid d v) s = note)) ∧
    (s.Writes d Reg.MTB_CTL → exec (.mtbCtlWrite d v) s = .next
      (if fld old 31 30 = fld new 31 30 ∧ fld old 25 24 = fld new 25 24 then wr.clockShow
       else ((fresh.dropUp.clearTheta).setMtbState (if fresh.role = 0 then 0 else 1)).clockShow)) ∧
    (s.runs = true →
      (∀ l : Fin 2, s.canLaunch l = true →
        let u := s.tl l
        let q := (u.reqSeq + 1) % 65536
        let keep := u.reqs.filter fun r => decide (65536 * s.mt ≤ r.2 + 16000 * 65536)
        (s.timeLane l = true → exec (.mtbTimeSend l) s = .next (s.launch l symTIME (leBytes 8 (s.launchTick l)))) ∧
        exec (.mtbEchoSend l) s =
          .next ((s.setTl l { u with reqSeq := q, reqs := keep ++ [(q, 65536 * s.launchTick l)] }).launch l symECHO
            (leBytes 8 (s.launchTick l) ++ leBytes 2 q ++ leBytes 2 0))) ∧
      (s.canLaunch 1 = true → s.pairRole = true →
        let m := s.mtb
        let f := b2n (s.mtbState == 5) + 2 * b2n m.failSent + 4 * b2n (s.role == 1) + 8 * b2n (s.mtbState == 3)
        exec .mtbMirrorSend s = .next ({ s with mtb := { m with hbeat := (m.hbeat + 1) % 2 ^ 32 } }.launch 1 symMIRROR
          (leBytes 8 (s.launchTick 1) ++ leBytes 4 m.hbeat ++ leBytes 1 f ++ leBytes 3 0))) ∧
      (s.role = 1 → s.mtbState = 1 → s.mtb.atStart = true →
        s.laneUp 1 = false ∨ (s.tl 1).alignedAt + 40000 ≤ s.mt →
        exec .mtbMasterElect s = .next
          (({ s with mtb := { s.mtb with atStart := false } }.setMtbState 5).wrF Reg.MTB_STAT 21 16 0)) ∧
      (s.upLostNow = true → exec .mtbUpstreamLoss s = .next s.upstreamLost) ∧
      (s.mtbState = 4 → s.mtb.holdFrom + 4000000 * s.rdF Reg.MTB_HOLD_MAX 15 0 < s.mt →
        let t := if s.role = 3 then { s with mtb := { s.mtb with slewOnly := false } } else s
        exec .mtbHoldoverLimit s = .next (((t.setMtbState 1).irq Reg.MTB_ISTAT 8).note blkMTB)) ∧
      (s.standby = true → s.mtbState ≠ 1 ∨ s.mtb.causeNoted ≠ 1 →
        s.upv = true ∨ s.mtbState = 4 ∨ s.laneUp 1 = true → s.silentFor 1 4000 = true → exec .mtbMirrorTimeout s = .next (s.takeover 1)) ∧
      (∀ x, s.mtb.deliver.find? (fun x => decide (x.2.2 ≤ s.mt)) = some x →
        exec .mtbSyncDeliver s = .next
          ({ s with mtb := { s.mtb with deliver := s.mtb.deliver.erase x } }.syncEvent x.1 x.2.1 x.2.2)) ∧
      (∀ x : Fin 8, kget (fun _ => 0) s.mtb.xtEnd x ≠ 0 → kget (fun _ => 0) s.mtb.xtEnd x ≤ s.mt →
        exec (.xtPulseEnd x) s = .next
          ({ s with mtb := { s.mtb with xtEnd := kset (fun _ => 0) s.mtb.xtEnd x 0 } }.send (.xt x (kget (fun _ => 0) s.mtb.xtEnd x) false))))

/-- O53. In a module that runs: a TIME message on a lane that is used is kept with its arrival; an ECHO request is
answered with its arrival and what the module is; an ECHO reply that answers a request of the last 4 µs gives its
flags and, with the lane's TIME of the last 4 µs, a measurement; a MIRROR of a pair is kept, its FAIL reaches a
standby that has not noted it, and its ACTIVE tells of an active peer; a SYNC or TRIG on a lane that is used is taken
in; a time-lane receiver takes its symbols one by one, those of a bad message too, which is counted: the third comma
at one bit position with no violation between aligns it, with its interrupt, begins its lowest eye anew and forgets
what it knew of the lane, the 16th violation among 64 symbols ends its alignment, and each violation is counted; and
the configured edge of an XT input, not within 2 ns of the one before, is stamped and raises its sync event, at once
or over the lanes. [spec/17_falin_lanes.md (R457, R458); spec/18_time_distribution.md (R463, R464, R465, R468, R469,
R472, R476, R478)] -/
def Obligations.TimeBaseEventsComplete : Prop :=
  ∀ (s : State), s.runs = true →
    (∀ (l : Fin 2) (tick : BitVec 64) (arr : Nat), s.laneUp l = true → arr ≤ 65536 * s.mt →
      exec (.time l tick arr) s = .next (s.setTl l { s.tl l with time := some (tick.toNat, arr) })) ∧
    (∀ (l : Fin 2) (seq : BitVec 16) (arr : Nat), s.laneUp l = true → arr ≤ 65536 * s.mt →
      let b := b2n s.srcOk * 128 + b2n (s.viaOn l) * 64 + (if s.mtbState = 5 then 0 else s.hops)
      exec (.echoRequest l seq arr) s = .next (s.launch l symECHO
        (leBytes 8 (arr / 65536) ++ leBytes 2 arr ++ leBytes 1 seq.toNat ++ leBytes 1 b))) ∧
    (∀ (l : Fin 2) (t2 : BitVec 80) (seq b : BitVec 8) (arr : Nat) r, s.laneUp l = true → arr ≤ 65536 * s.mt →
      (s.tl l).reqs.find? (fun r => r.1 % 256 == seq.toNat && decide (arr ≤ r.2 + 16000 * 65536)) = some r →
      let t := s.replyFlags l b.toNat
      (∀ tk t4, (t.tl l).time = some (tk, t4) → exec (.echoReply l t2 seq b arr) s = .next
        (if arr ≤ t4 + 16000 * 65536 then t.measureReply l r.2 t2.toNat tk t4 else t)) ∧
      ((t.tl l).time = none → exec (.echoReply l t2 seq b arr) s = .next t)) ∧
    (∀ (tick : BitVec 64) (flags : BitVec 8) (arr : Nat), s.laneUp 1 = true → s.pairRole = true →
      arr ≤ 65536 * s.mt →
      let b := flags.toNat
      let t := s.setTl 1 { s.tl 1 with time := some (tick.toNat, arr) }
      let t := { t with mtb := { t.mtb with standbyAligned := bits b 3 3 == 1 } }
      exec (.mirror tick flags arr) s = .next
        (if bits b 1 1 = 1 ∧ t.newCause 3 = true then t.takeover 3
         else if bits b 0 0 = 1 then t.peerActive else t)) ∧
    (∀ (l : Fin 2) (v : Word), s.laneUp l = true →
      exec (.sync l v) s = .next (s.syncIn l 0 (v.toNat % 16) (v.toNat / 256)) ∧
      exec (.trig l v) s = .next (s.syncIn l 1 (v.toNat % 8) (v.toNat / 256))) ∧
    (∀ (l : Fin 2) (xs : List TlSymbol),
      exec (.tlAlignment l xs) s = .next (s.tlSymbols l xs) ∧
      exec (.tlMessageBad l xs) s = .next ((s.count (Reg.LNK_TL_SETERR (4 + l.val)) 1).tlSymbols l xs)) ∧
    (∀ l : Fin 2,
      let a := Reg.LNK_TL_STAT (4 + l.val)
      let e := Reg.LNK_TL_EYE (4 + l.val)
      let u := s.tl l
      let up0 := s.wrF a 31 31 1
      let up := up0.wrF e 15 8 (s.rdF e 7 0)
      (∀ (x : TlSymbol) xs, s.tlSymbols l (x :: xs) = (s.tlSymbol l x).tlSymbols l xs) ∧
      s.tlSymbols l [] = s ∧
      (bit (s.rd a) 31 = false → ∀ p : Fin 10,
        (u.commas.1 = p.val → 2 ≤ u.commas.2 → s.tlSymbol l (.comma p) =
          (up.irq (Reg.LNK_ISTAT (4 + l.val)) 1).setTl l
            { up.tl l with alignedAt := s.mt, rttBad := false, time := none, replied := false, cvs := [], commas := (0, 0) }) ∧
        (u.commas.1 = p.val → u.commas.2 < 2 → s.tlSymbol l (.comma p) =
          s.setTl l { u with commas := (p.val, u.commas.2 + 1) }) ∧
        (u.commas.1 ≠ p.val → s.tlSymbol l (.comma p) = s.setTl l { u with commas := (p.val, 1) })) ∧
      (bit (s.rd a) 31 = false → s.tlSymbol l .other = s ∧
        (let t := s.countF a 15 0 1
         bit (t.rd a) 31 = false → s.tlSymbol l .violation = t.setTl l { t.tl l with commas := (0, 0) })) ∧
      (bit (s.rd a) 31 = true → ∀ x : TlSymbol, x ≠ .violation →
        (u.cvs.take 63).count true < 16 → s.tlSymbol l x = s.setTl l { u with cvs := (false :: u.cvs).take 64 }) ∧
      (let t := s.countF a 15 0 1
       bit (t.rd a) 31 = true →
        s.tlSymbol l .violation = if 15 ≤ ((t.tl l).cvs.take 63).count true then (t.setTl l { t.tl l with cvs := [] }).alignLost l
          else t.setTl l { t.tl l with cvs := (true :: (t.tl l).cvs).take 64 })) ∧
    (∀ (x : Fin 8) (rising : Bool) (arr : Nat),
      let last := kget (fun _ => 0) s.mtb.xtLast x
      let cfg := s.rd (Reg.MTB_XT_CFG x)
      bit cfg 31 = false → s.xtEdge x rising = true → arr ≤ 65536 * s.mt →
      last = 0 ∨ last - 1 + 8 * 65536 ≤ arr →
      let t := { s with mtb := { s.mtb with xtLast := kset (fun _ => 0) s.mtb.xtLast x (arr + 1) } }
      let t := t.wrWide (Reg.MTB_XT_STAMP0 x) 3 arr
      let te := arr / 65536 + t.syncLat
      exec (.xtInputEdge x rising arr) s = .next
        (if bit cfg 30 = true then (t.ownMessage 1 x te).deliverAt 1 x te
         else t.syncSoon 1 x ((arr + 65535) / 65536)))

/-- O54. Where the write reaches STI_CMD, with its OP: any while an operation runs is discarded with error 0x11; else,
with a MOD fault held, any but CHECK is rejected with reason 0x1C. A command whose source cannot be read is rejected
with reason 0x13; an image that its checks reject is rejected with their reason, section and offset; one that they
accept begins LOAD_WHOLE or LOAD_TILE in its stop phase with its reload marks cleared, ends CHECK, and is handed to
the flash by STORE, which is refused during a supervisor switch and rejected with reason 0x14 while power fails;
REVOKE of a key slot that may be revoked sets its bit and ends, and another is rejected with its reason; an OP that
the table does not give, or a REVOKE of slots 4 to 7, is rejected with reason 0x12. A write of STI_BOOT is stored and
handed to the flash, and while power fails it is refused with code 0x14 and the register keeps its value.
[spec/02_structure_image.md (R56, R57, R58, R67, R68, R70, R72); spec/20_power_start.md (R504, R514)] -/
def Obligations.StructureCommandsComplete : Prop :=
  ∀ (s : State) (d : Fin 16) (v : Word) (fails : Fin 3),
    let op := v.toNat % 16
    let k := fld v 14 12
    let tile := fld v 9 8
    let free := s.sti = none ∧ s.modHeld = false
    let f := fun nor => s.stiFetch nor k fails
    let hit := fun nor b o t => if (headReject b o t).isSome then ((f nor).1, false) else (f nor).1.injTake blkSTI 3
    let ends := fun (c : Instr) nor o t (good : List Byte → State → State) =>
      ((f nor).2 = none → exec c s = .next ((f nor).1.stiReject d ⟨0x13, 0, 0⟩ 3 false true)) ∧
      (∀ b, (f nor).2 = some b →
        let i := hit nor b o t
        (∀ r, i.1.imgReject b o t i.2 = some r → exec c s = .next (i.1.stiReject d r 3 i.2)) ∧
        (i.1.imgReject b o t i.2 = none → exec c s = .next (good b i.1)))
    let begins := fun o b (t : State) => t.stiBegin { op := o, tile := tile, image := b } 4
    let store := fun b (t : State) => (t.stiBegin { op := 4, slot := k } 6).norPush
      { user := 1, region := 5, erases := [(norTrailer k, 65536), (norImage k, 0x100000)],
        writes := [(norImage k, b), (norTrailer k, leBytes 4 b.length ++ leBytes 4 (crc32c b))] }
    (s.Writes d Reg.STI_CMD →
      (op = 1 → free → ends (.stiLoadWhole d v fails) (bit v 11) 1 tile (begins 1)) ∧
      (op = 2 → free → ends (.stiLoadTile d v fails) (bit v 11) 2 tile (begins 2)) ∧
      (op = 3 → s.sti = none → ends (.stiCheck d v fails) (bit v 11) 0 0 fun _ t => t.stiDone) ∧
      (op = 4 → free → s.supSwitch = false → s.pfw = false → ends (.stiStore d v fails) false 0 0 store) ∧
      (op = 4 → free → s.supSwitch = true → exec (.stiStore d v fails) s = .next (s.stiBusy d)) ∧
      (op = 4 → free → s.supSwitch = false → s.pfw = true → exec (.stiStore d v fails) s =
        .next (s.norPfw.stiReject d ⟨0x14, 0, 0⟩)) ∧
      (op = 6 → k < 4 → free →
        (s.revokeBar k = 0 → exec (.revoke d v) s = .next ((s.setBits Reg.STI_KEYS (2 ^ (4 + k))).stiDone)) ∧
        (s.revokeBar k ≠ 0 → exec (.revoke d v) s = .next (s.stiReject d ⟨s.revokeBar k, 0, 0⟩))) ∧
      (op = 0 ∨ op = 5 ∨ 7 ≤ op ∨ op = 6 ∧ 4 ≤ k → s.sti = none →
        exec (.stiBadCmd d v) s = .next (s.stiReject d ⟨0x12, 0, 0⟩)) ∧
      (op = 1 → s.sti ≠ none → exec (.stiLoadWhole d v fails) s = .next (s.stiBusy d)) ∧
      (op = 1 → s.sti = none → s.modHeld = true → exec (.stiLoadWhole d v fails) s =
        .next (s.stiReject d ⟨0x1C, 0, 0⟩))) ∧
    (s.Writes d Reg.STI_BOOT →
      (s.pfw = true → exec (.stiBootWrite d v) s = .next (s.norPfw.noteReg d Reg.STI_BOOT 0x14)) ∧
      (s.pfw = false → exec (.stiBootWrite d v) s =
        .next ((s.wrRow Reg.STI_BOOT v).norPush (identityOp 1 norBoot (fld v 2 0)))))

/-- O55. In a module that runs: the stop step of a load marks its stopped set, ends the runs in it with cause STRUCTURE,
stops what its channels measure and its tiles calibrate, pauses the DMA channels in a whole load, and drains the
graphs in scope; when everything in scope has drained, and before the limit the moved sheets are not held, the
configure step begins; at the limit what is left is lost or released; and the configure step puts the image in force,
brings the changed ports, the tiles and the DMA channels back, and the operation is done. [spec/02_structure_image.md
(R62, R63, R64, R65, R71); spec/08_contact_sheet.md (R235)] -/
def Obligations.StructureLoadCompletes : Prop :=
  ∀ (s : State) (o : StiOp), s.runs = true →
    (s.stiAt 0 = some o →
      let seqs := if o.op = 1 then List.range 16 else s.tileSet o.tile
      let o' := { o with phase := 1, stopped := maskOf seqs, stopAt := s.mt }
      let t := { s with sti := some o' }.wrN Reg.STI_STOPPED o'.stopped
      let t := (t.wrN Reg.STI_LOST 0).clrBits Reg.STI_STAT 256
      let t := forEach seqs (fun n s => if s.seqRuns n then s.endRun n causeSTRUCTURE else s) t
      let t := forEach o'.chans (fun c s => s.stiStopChan c) t
      let t := forEach o'.tiles (fun i s => (s.wrF Reg.CAL_TILE (8 * i + 1) (8 * i + 1) 1).calTileStop i) t
      let t := if o.op = 1 then forEach (List.range 16) (fun n s => s.dmaPause n) t else t
      exec .stiStopStep s = .next
        { t with ane := { t.ane with draining := (s.graphsInScope o.image).map (·.id) } }) ∧
    (s.stiAt 1 = some o →
      (s.drained o = true → (∀ n ∈ s.csMoved o, (s.sq n).sheet.held = none) → exec .stiDrainDone s =
        .next ({ s with sti := some { o with phase := 3 } }.wrF Reg.STI_STAT 3 1 5)) ∧
      (o.stopAt + s.drainLimit ≤ s.mt →
        let t := forEach s.drainFlows (fun f s => s.drainLose f) s
        let t := forEach (t.csMoved o) (fun n s => s.heldFree n) t
        exec .stiDrainExpiry s = .next { t with sti := some { o with phase := 2 } })) ∧
    (s.stiAt 2 = some o → s.drained o = true → exec .stiDrainDone s =
      .next ({ s with sti := some { o with phase := 3 } }.wrF Reg.STI_STAT 3 1 5)) ∧
    (s.stiAt 3 = some o →
      let t := (s.applyImage o.image o.seqs o.chans).lanesLoad s.str
      let t := forEach o.tiles (fun i s => s.wrF Reg.CAL_TILE (8 * i + 1) (8 * i + 1) 0) t
      let t := if o.op = 1 then forEach (List.range 16) (fun n s => s.dmaUnpause n) t else t
      exec .stiConfigureDone s = .next t.stiDone)

/-- O56. In a module that runs, where the instruction at a sequencer's decode front is decoded, LOOP loads counter A[2:0]
with B and records the address after it as the counter's start, and goes on; ENDL on a counter at 0 ends the run with
LOOP_ZERO (code 7), and on another counter decrements it, goes to the start address where the result is not 0, and on
where it is 0. A LOOP with B = 0 ends the run with BAD_OPERAND (code 3). And whatever a body does that starts at the
start address, comes to the ENDL and leaves the counter and its start: from a LOOP with B > 0 the body runs exactly B
times, with the counter at B, B - 1 down to 1, and the ENDL of the last run leaves the counter at 0 and goes on behind
itself. [spec/03_sequencer.md (R88)] -/
def Obligations.LoopBodyRunsCountTimes : Prop :=
  (∀ (s : State) (n : Fin 16) (i : SInstr), s.runs = true →
    let u := s.sq n
    let p := u.prog
    let k := bits i.a 2 0
    let on := fun q => Host.Outcome.next (s.setSq n { u with prog := q, sincePlay := u.sincePlay + 1 })
    let left := kset (fun _ => 0) p.lc k (p.lcAt k - 1)
    (s.Decodes n i → i.op = 0x06 → exec (.loop n) s =
      on { p with pc := p.pc + 1, lc := kset (fun _ => 0) p.lc k i.b,
                  lcStart := kset (fun _ => 0) p.lcStart k (p.pc + 1) }) ∧
    (s.Decodes n i → i.op = 0x07 →
      (p.lcAt k = 0 → exec (.endl n) s = .next (s.selfFault n 0x07 p.pc)) ∧
      (p.lcAt k ≠ 0 → p.lcAt k - 1 ≠ 0 →
        exec (.endl n) s = on { p with pc := kget (fun _ => 0) p.lcStart k, lc := left }) ∧
      (p.lcAt k ≠ 0 → p.lcAt k - 1 = 0 → exec (.endl n) s = on { p with pc := p.pc + 1, lc := left })) ∧
    (s.decodeDue n = true → s.pcInRange n p.pc = true → s.fetchSeq n p.pc = i → i.op = 0x06 → i.cond = 0 → i.b = 0 →
      exec (.loop n) s = .next (s.selfFault n 0x03 p.pc))) ∧
  ∀ (l e : SInstr) (p : Prog) (body : Prog → Prog) (at' : Nat),
    let k := bits l.a 2 0
    l.op = 0x06 → e.op = 0x07 → bits e.a 2 0 = k → 0 < l.b →
    (∀ q, q.pc = p.pc + 1 → (body q).pc = at' ∧ (body q).lcAt k = q.lcAt k ∧
      kget (fun _ => 0) (body q).lcStart k = kget (fun _ => 0) q.lcStart k) →
    ∃ run : Nat → Prog,
      progStep l true p = .next (run 0) ∧
      (∀ m < l.b, (run m).pc = p.pc + 1 ∧ (run m).lcAt k = l.b - m ∧
        progStep e true (body (run m)) = .next (run (m + 1))) ∧
      (run l.b).pc = at' + 1 ∧ (run l.b).lcAt k = 0

/-- O57. With a buffer's role HELD, else NEWEST where it holds the newest published epoch, else FREE: a write of CSH_REL
by a domain that may write it, and one of CSH_FREL by D0, that names the HELD buffer makes it NEWEST where it still
holds the newest epoch and FREE otherwise; no other buffer changes its role, and no other sequencer's sheet changes.
One that names a buffer that is not HELD changes nothing but that one NOTE fault is detected, with the register's
address and the domain. [spec/08_contact_sheet.md (R233)] -/
def Obligations.SheetReleaseFreesOnlyTheHeldBuffer : Prop :=
  ∀ (s : State) (d n : Fin 16) (forced : Bool) (v : Word),
    let a := if forced then Reg.CSH_FREL n else Reg.CSH_REL n
    let c := if forced then Instr.cshForcedRelease d n v else .cshRelease d n v
    let b := v.toNat % 4
    let role := fun (s : State) (m : Fin 16) b =>
      if (s.sq m).sheet.held = some b then 2 else if (s.sq m).sheet.newest = some b then 1 else 0
    (forced = true → d = 0) → s.Writes d a →
    ∃ t, exec c s = .next t ∧
      (role s n b = 2 →
        role t n b = (if (s.sq n).sheet.newest = some b then 1 else 0) ∧
        (∀ x, x ≠ b → role t n x = role s n x) ∧ (∀ m, m ≠ n → t.sq m = s.sq m) ∧
        RegsKept [Reg.CSH_AEPOCH_LO n, Reg.CSH_AEPOCH_HI n] s t ∧ t = { s with seq := t.seq, regs := t.regs }) ∧
      (role s n b ≠ 2 →
        t = { s with detected := s.detected ++ [{ src := blockNum a, addr := a, rkind := 1, access := 1, rid := d }] })

/-- O58. Where the host reaches the module in an enabled function and no GRAVE fault is held, a read of a register that
its domain may not read, and a write of a register without a row of its own that its domain may not write, are denied:
the read answers ones; whatever the register is, no register changes but HIF_DENY_CNT, which counts the access and
stays at 0xFFFF_FFFF once there, HIF_ISTAT, whose bit 0 is set, and, where no denied access was recorded,
HIF_DENY_INFO, which shows a BAR0 access, its direction and its domain, and HIF_DENY_ADDR, which shows its address;
one fault of class NOTE with the address and the domain is detected; nothing else changes. The windows BAR2 and BAR4
have the statement WindowAccessesComplete. [spec/16_host_protection.md (R434, R437)] -/
def Obligations.DeniedAccessesAreCountedAndNoted : Prop :=
  ∀ (s : State) (d : Fin 16) (addr : BitVec 26) (v : Word), s.hostOn d = true → s.graveHeld = false →
    let a := addr.toNat
    a % 4 = 0 → a < 0x1900000 →
    let denied := fun (wr : Bool) (t : State) =>
      RegsAndFault [Reg.HIF_DENY_CNT, Reg.HIF_DENY_INFO, Reg.HIF_DENY_ADDR_LO, Reg.HIF_DENY_ADDR_HI, Reg.HIF_ISTAT]
        { src := blkHIF, cls := 0, addr := a, rkind := 1, access := if wr then 1 else 0, rid := d } s t ∧
      (t.rd Reg.HIF_DENY_CNT).toNat = min ((s.rd Reg.HIF_DENY_CNT).toNat + 1) 0xFFFFFFFF ∧
      (t.rd Reg.HIF_ISTAT = s.rd Reg.HIF_ISTAT ||| 1) ∧
      (bit (s.rd Reg.HIF_DENY_INFO) 31 = true →
        ∀ r ∈ [Reg.HIF_DENY_INFO, Reg.HIF_DENY_ADDR_LO, Reg.HIF_DENY_ADDR_HI], t.rd r = s.rd r) ∧
      (bit (s.rd Reg.HIF_DENY_INFO) 31 = false →
        t.rd Reg.HIF_DENY_INFO = word (2 ^ 31 + (if wr then 2 ^ 27 else 0) + 2 ^ 20 * d.val) ∧
        t.rd Reg.HIF_DENY_ADDR_LO = word a ∧ t.rd Reg.HIF_DENY_ADDR_HI = 0)
    (s.regMayRead d a = false → ¬ ownRead a →
      ∃ t, denied false t ∧ exec (.wideLowWordRead d addr) s = .next (t.answer [word 0xFFFFFFFF])) ∧
    (s.regMayWrite d a = false → ¬ ownWrite a →
      ∃ t, denied true t ∧ exec (.registerWrite d addr ⟨v, false⟩) s = .next t)

/-- O59. In every state in which a GRAVE fault is held: a write of any address of BAR0, aligned or not, by any domain,
with any value, that does not arrive poisoned, and whatever row of its own the register has, leaves the whole state as
it was, but that a write of SUP_CMD may count on the open bytes of host memory (log entry 5); a write through BAR2 of
any length and byte enables, and one of any word of BAR4, leave it as it was; a read of BAR2 or of BAR4 and a read of
a register outside GLB, FLT and PWR answer ones and change nothing else. [spec/19_faults.md (R485)] -/
def Obligations.GraveHeldDiscardsHostWrites : Prop :=
  ∀ (s : State) (d : Fin 16), s.graveHeld = true →
    (∀ addr v, ∃ t, exec (.registerWrite d addr ⟨v, false⟩) s = .next t ∧ t = { s with free := t.free }) ∧
    (∀ off bs, exec (.bar2Access d off ⟨.write bs, false⟩) s = .next s) ∧
    (∀ off v, exec (.bar4Access d off (some ⟨v, false⟩)) s = .next s) ∧
    (∀ off k, exec (.bar2Access d off ⟨.read k, false⟩) s = .next (s.answer (fillWords k 0xFFFFFFFF))) ∧
    (∀ off, exec (.bar4Access d off none) s = .next (s.answer [word 0xFFFFFFFF])) ∧
    (∀ addr : BitVec 26,
      let a := addr.toNat
      ¬ (a < 0x100000 ∨ 0x1500000 ≤ a ∧ a < 0x1700000) →
      exec (.wideLowWordRead d addr) s = .next (s.answer [word 0xFFFFFFFF]))

/-- O60. Where the write is served, no operation runs and no injection waits: LOAD_WHOLE, LOAD_TILE and STORE, no MOD
fault held, and CHECK, of an image that is read from its source and that the checks accept, run: a load begins in its
stop phase, a CHECK is done, and a STORE, power good and no supervisor switch, goes to the flash. REVOKE of a
programmed key slot that is not revoked, another usable slot being left and power good, sets its bit and is done. An
OP that the table does not give, or a REVOKE of slots 4 to 7, is answered with BAD_CMD. A write of STI_BOOT is stored
and goes to the flash while power is good. FW_STORE of firmware that is read and that the checks accept is stored in
the slot that does not run, and FW_ACTIVATE, the other slot being valid, switches to it. [spec/02_structure_image.md
(R56, R57, R58, R67, R68, R70, R72); spec/20_power_start.md (R515, R516, R518, R519, R523)] -/
def Obligations.ImageCommandsRun : Prop :=
  ∀ (s t : State) (d : Fin 16) (v : Word) (fails : Fin 3) (h : HostRead) (img : List Byte),
    let op := fld v 3 0
    let k := fld v 14 12
    let tile := fld v 9 8
    let b := s.rdF Reg.SUP_FW 0 0
    let accepted := fun nor o i => s.stiFetch nor k fails = (t, some img) ∧ t.injArmed blkSTI 3 = false ∧
      t.imgReject img o i false = none
    (s.Writes d Reg.STI_CMD → s.sti = none →
      (op = 1 → s.modHeld = false → accepted (bit v 11) 1 tile → exec (.stiLoadWhole d v fails) s =
        .next (t.stiBegin { op := 1, tile := tile, image := img } 4)) ∧
      (op = 2 → s.modHeld = false → accepted (bit v 11) 2 tile → exec (.stiLoadTile d v fails) s =
        .next (t.stiBegin { op := 2, tile := tile, image := img } 4)) ∧
      (op = 3 → accepted (bit v 11) 0 0 → exec (.stiCheck d v fails) s = .next t.stiDone) ∧
      (op = 4 → s.modHeld = false → s.supSwitch = false → s.pfw = false → accepted false 0 0 →
        exec (.stiStore d v fails) s = .next ((t.stiBegin { op := 4, slot := k } 6).norPush
          { user := 1, region := 5, erases := [(norTrailer k, 65536), (norImage k, 0x100000)],
            writes := [(norImage k, img), (norTrailer k, leBytes 4 img.length ++ leBytes 4 (crc32c img))] })) ∧
      (op = 6 → k < 4 → s.modHeld = false → s.pfw = false →
        bit (s.rd Reg.STI_KEYS) k = true → bit (s.rd Reg.STI_KEYS) (4 + k) = false →
        (∃ j, j < 4 ∧ j ≠ k ∧ bit (s.rd Reg.STI_KEYS) j = true ∧ bit (s.rd Reg.STI_KEYS) (4 + j) = false) →
        exec (.revoke d v) s = .next ((s.setBits Reg.STI_KEYS (2 ^ (4 + k))).stiDone)) ∧
      (op = 0 ∨ op = 5 ∨ 7 ≤ op ∨ op = 6 ∧ 4 ≤ k → exec (.stiBadCmd d v) s =
        .next (s.stiReject d ⟨0x12, 0, 0⟩))) ∧
    (s.Writes d Reg.STI_BOOT → s.pfw = false → exec (.stiBootWrite d v) s =
      .next ((s.wrRow Reg.STI_BOOT v).norPush (identityOp 1 norBoot (fld v 2 0)))) ∧
    (s.Writes d Reg.SUP_CMD → s.sup.op = 0 → bit (s.rd Reg.SUP_FW) 31 = false →
      (op = 1 → s.pfw = false → s.fwFetch (bit v 8) h = (t, some img) →
        fwReject (s.rd Reg.STI_KEYS) s.keyOf img (s.rdF Reg.SUP_LEN 22 0) = 0 →
        exec (.fwStore d v h) s = .next (t.fwStore (1 - b) img)) ∧
      (s.safeMode = false → s.fwSlotOk (1 - b) = true → exec (.fwActivate d) s = .next (s.supSwitchTo 2)))
end

