-- ==== Sys2Proof/Laws/Maps.lean ====
section
/-! SUPPORT. Laws of the sparse maps and of the byte memories: a read after a write, at the same place and at
another, and the canonical form, which every operation keeps. -/

namespace Sys2Proof.Machine

open Sys2Proof

section maps
variable {α : Type}

theorem kfind_kput_same (k : Nat) (v : α) (m : KMap α) : kfind (kput k v m) k = some v := by
  induction m with
  | nil => simp [kput, kfind]
  | cons p m ih =>
    obtain ⟨j, w⟩ := p
    simp only [kput]
    split
    · simp [kfind]
    · split
      · simp [kfind]
      · simp [kfind, *]

theorem kfind_kput_other {k j : Nat} (h : j ≠ k) (v : α) (m : KMap α) : kfind (kput k v m) j = kfind m j := by
  induction m with
  | nil => simp [kput, kfind, h]
  | cons p m ih =>
    obtain ⟨i, w⟩ := p
    simp only [kput]
    split
    · simp [kfind, h]
    · split
      · rename_i hk
        subst hk
        simp [kfind, h]
      · simp [kfind, ih]

theorem kfind_kdel_same (k : Nat) (m : KMap α) : kfind (kdel k m) k = none := by
  induction m with
  | nil => rfl
  | cons p m ih =>
    obtain ⟨j, w⟩ := p
    simp only [kdel]
    split
    · exact ih
    · simp [kfind, *]

theorem kfind_kdel_other {k j : Nat} (h : j ≠ k) (m : KMap α) : kfind (kdel k m) j = kfind m j := by
  induction m with
  | nil => rfl
  | cons p m ih =>
    obtain ⟨i, w⟩ := p
    simp only [kdel]
    split
    · rename_i hk
      subst hk
      simp [kfind, h, ih]
    · simp [kfind, ih]

variable [DecidableEq α]

/-- A read of the key just written gives the value written. -/
@[simp] theorem kget_kset_same (d : Nat → α) (m : KMap α) (k : Nat) (v : α) : kget d (kset d m k v) k = v := by
  by_cases hv : v = d k <;> simp [kset, kget, hv, kfind_kdel_same, kfind_kput_same]

/-- A write leaves every other key alone. -/
theorem kget_kset_other (d : Nat → α) (m : KMap α) {k j : Nat} (v : α) (h : j ≠ k) :
    kget d (kset d m k v) j = kget d m j := by
  by_cases hv : v = d k <;> simp [kset, kget, hv, kfind_kdel_other h, kfind_kput_other h]

/-- A read after a write, at any key. -/
theorem kget_kset (d : Nat → α) (m : KMap α) (k j : Nat) (v : α) :
    kget d (kset d m k v) j = if j = k then v else kget d m j := by
  by_cases h : j = k
  · subst h; simp
  · simp [h, kget_kset_other d m v h]

/-! ### The canonical form -/

theorem kwf_nil (d : Nat → α) : kwf d ([] : KMap α) = true := rfl

theorem kwf_iff (d : Nat → α) (m : KMap α) :
    kwf d m = true ↔ (m.map Prod.fst).Pairwise (· < ·) ∧ ∀ p ∈ m, p.2 ≠ d p.1 := by
  simp [kwf, List.all_eq_true]

omit [DecidableEq α] in
theorem kdel_sublist (k : Nat) (m : KMap α) : List.Sublist (kdel k m) m := by
  induction m with
  | nil => exact List.Sublist.refl _
  | cons p m ih =>
    obtain ⟨j, w⟩ := p
    simp only [kdel]
    split
    · exact ih.cons _
    · exact ih.cons_cons _

/-- A part of a map in canonical form is in canonical form. -/
theorem kwf_sublist {d : Nat → α} {m l : KMap α} (h : kwf d m = true) (hs : List.Sublist l m) : kwf d l = true := by
  rw [kwf_iff] at h ⊢
  exact ⟨h.1.sublist (hs.map _), fun p hp => h.2 p (hs.subset hp)⟩

omit [DecidableEq α] in
theorem mem_kput {k : Nat} {v : α} {m : KMap α} {p : Nat × α} (h : p ∈ kput k v m) : p = (k, v) ∨ p ∈ m := by
  induction m with
  | nil => simpa [kput] using h
  | cons q m ih =>
    obtain ⟨j, w⟩ := q
    simp only [kput] at h
    split at h
    · simpa using h
    · split at h
      · simp only [List.mem_cons] at h ⊢
        tauto
      · simp only [List.mem_cons] at h ⊢
        rcases h with h | h
        · exact .inr (.inl h)
        · rcases ih h with h | h
          · exact .inl h
          · exact .inr (.inr h)

omit [DecidableEq α] in
theorem kput_rising {k : Nat} (v : α) {m : KMap α} (h : (m.map Prod.fst).Pairwise (· < ·)) :
    ((kput k v m).map Prod.fst).Pairwise (· < ·) := by
  induction m with
  | nil => simp [kput]
  | cons q m ih =>
    obtain ⟨j, w⟩ := q
    simp only [List.map_cons, List.pairwise_cons] at h
    simp only [kput]
    split
    · rename_i hk
      simp only [List.map_cons, List.pairwise_cons]
      refine ⟨?_, h⟩
      intro x hx
      rcases List.mem_cons.1 hx with rfl | hx
      · exact hk
      · exact hk.trans (h.1 x hx)
    · split
      · rename_i hk
        subst hk
        simpa [List.pairwise_cons] using h
      · rename_i h1 h2
        simp only [List.map_cons, List.pairwise_cons]
        refine ⟨?_, ih h.2⟩
        intro x hx
        obtain ⟨p, hp, rfl⟩ := List.mem_map.1 hx
        rcases mem_kput hp with rfl | hp
        · show j < k
          omega
        · exact h.1 _ (List.mem_map_of_mem hp)

/-- Setting a key keeps the canonical form. -/
theorem kwf_kset {d : Nat → α} {m : KMap α} (h : kwf d m = true) (k : Nat) (v : α) : kwf d (kset d m k v) = true := by
  unfold kset
  split
  · exact kwf_sublist h (kdel_sublist k m)
  · rename_i hv
    rw [kwf_iff] at h ⊢
    refine ⟨kput_rising v h.1, fun p hp => ?_⟩
    rcases mem_kput hp with rfl | hp
    · exact hv
    · exact h.2 p hp

/-- A filtered map keeps the canonical form. -/
theorem kwf_filter {d : Nat → α} {m : KMap α} (h : kwf d m = true) (p : Nat × α → Bool) : kwf d (m.filter p) = true :=
  kwf_sublist h List.filter_sublist

end maps

/-! ### Byte memories -/

theorem memEntries_mem {d : Nat → Byte} {a : Nat} {bs : List Byte} {p : Nat × Byte} (h : p ∈ memEntries d a bs) :
    a ≤ p.1 ∧ p.1 < a + bs.length ∧ p.2 ≠ d p.1 := by
  induction bs generalizing a with
  | nil => simp [memEntries] at h
  | cons b bs ih =>
    simp only [memEntries] at h
    split at h
    · have := ih h
      simp only [List.length_cons]
      exact ⟨by omega, by omega, this.2.2⟩
    · rename_i hb
      rcases List.mem_cons.1 h with rfl | h
      · exact ⟨le_refl _, by simp, hb⟩
      · have := ih h
        simp only [List.length_cons]
        exact ⟨by omega, by omega, this.2.2⟩

theorem memEntries_rising (d : Nat → Byte) (a : Nat) (bs : List Byte) :
    ((memEntries d a bs).map Prod.fst).Pairwise (· < ·) := by
  induction bs generalizing a with
  | nil => simp [memEntries]
  | cons b bs ih =>
    simp only [memEntries]
    split
    · exact ih _
    · simp only [List.map_cons, List.pairwise_cons]
      refine ⟨?_, ih _⟩
      intro x hx
      obtain ⟨p, hp, rfl⟩ := List.mem_map.1 hx
      have := (memEntries_mem hp).1
      omega

/-- A write keeps the canonical form of a memory. -/
theorem kwf_memWrite {d : Nat → Byte} {m : KMap Byte} (h : kwf d m = true) (a : Nat) (bs : List Byte) :
    kwf d (memWrite d m a bs) = true := by
  rw [kwf_iff] at h ⊢
  unfold memWrite
  constructor
  · rw [List.map_append, List.map_append, List.append_assoc, List.pairwise_append, List.pairwise_append]
    refine ⟨h.1.sublist (List.filter_sublist.map _), ⟨memEntries_rising d a bs,
      h.1.sublist (List.filter_sublist.map _), ?_⟩, ?_⟩
    · intro x hx y hy
      obtain ⟨p, hp, rfl⟩ := List.mem_map.1 hx
      obtain ⟨q, hq, rfl⟩ := List.mem_map.1 hy
      have h1 := memEntries_mem hp
      have h2 : a + bs.length ≤ q.1 := by simpa using (List.mem_filter.1 hq).2
      show p.1 < q.1
      omega
    · intro x hx y hy
      obtain ⟨p, hp, rfl⟩ := List.mem_map.1 hx
      have h1 : p.1 < a := by simpa using (List.mem_filter.1 hp).2
      rcases List.mem_append.1 hy with hy | hy
      · obtain ⟨q, hq, rfl⟩ := List.mem_map.1 hy
        have h2 := memEntries_mem hq
        show p.1 < q.1
        omega
      · obtain ⟨q, hq, rfl⟩ := List.mem_map.1 hy
        have h2 : a + bs.length ≤ q.1 := by simpa using (List.mem_filter.1 hq).2
        show p.1 < q.1
        omega
  · intro p hp
    rcases List.mem_append.1 hp with hp | hp
    · rcases List.mem_append.1 hp with hp | hp
      · exact h.2 p (List.mem_filter.1 hp).1
      · exact (memEntries_mem hp).2.2
    · exact h.2 p (List.mem_filter.1 hp).1

theorem kfind_append {α : Type} (m l : KMap α) (k : Nat) :
    kfind (m ++ l) k = match kfind m k with | some v => some v | none => kfind l k := by
  induction m with
  | nil => rfl
  | cons p m ih =>
    obtain ⟨j, w⟩ := p
    simp only [List.cons_append, kfind]
    split
    · rfl
    · exact ih

theorem kfind_filter_in {α : Type} (m : KMap α) (q : Nat → Bool) {k : Nat} (h : q k = true) :
    kfind (m.filter fun p => q p.1) k = kfind m k := by
  induction m with
  | nil => rfl
  | cons p m ih =>
    obtain ⟨j, w⟩ := p
    by_cases hj : q j = true
    · simp [List.filter, hj, kfind, ih]
    · have : k ≠ j := fun e => hj (e ▸ h)
      simp [List.filter, hj, kfind, ih, this]

theorem kfind_filter_out {α : Type} (m : KMap α) (q : Nat → Bool) {k : Nat} (h : q k = false) :
    kfind (m.filter fun p => q p.1) k = none := by
  induction m with
  | nil => rfl
  | cons p m ih =>
    obtain ⟨j, w⟩ := p
    by_cases hj : q j = true
    · have : k ≠ j := fun e => by subst e; simp [hj] at h
      simp [List.filter, hj, kfind, ih, this]
    · simp [List.filter, hj, ih]

theorem kfind_memEntries_out (d : Nat → Byte) (a : Nat) (bs : List Byte) {k : Nat} (h : k < a ∨ a + bs.length ≤ k) :
    kfind (memEntries d a bs) k = none := by
  induction bs generalizing a with
  | nil => rfl
  | cons b bs ih =>
    simp only [List.length_cons] at h
    simp only [memEntries]
    split
    · exact ih (a + 1) (by omega)
    · have : k ≠ a := by omega
      simp [kfind, this, ih (a + 1) (by omega)]

theorem kget_memEntries_in (d : Nat → Byte) (a : Nat) (bs : List Byte) {i : Nat} (h : i < bs.length) :
    kget d (memEntries d a bs) (a + i) = bs[i] := by
  induction bs generalizing a i with
  | nil => simp at h
  | cons b bs ih =>
    simp only [memEntries]
    cases i with
    | zero =>
      split
      · rename_i hb
        simp [kget, kfind_memEntries_out d (a + 1) bs (k := a) (by omega), hb]
      · simp [kget, kfind]
    | succ i =>
      have hi : i < bs.length := by simpa using h
      have e : a + (i + 1) = a + 1 + i := by omega
      split
      · rw [e, ih (a + 1) hi]; rfl
      · have : a + (i + 1) ≠ a := by omega
        have hk := ih (a + 1) hi
        unfold kget at hk ⊢
        simp only [kfind, this, if_false]
        rw [e]
        simpa using hk

/-- A byte outside the written ones reads as before. -/
theorem kget_memWrite_other (d : Nat → Byte) (m : KMap Byte) (a : Nat) (bs : List Byte) {k : Nat}
    (h : k < a ∨ a + bs.length ≤ k) : kget d (memWrite d m a bs) k = kget d m k := by
  unfold kget memWrite
  rw [kfind_append, kfind_append, kfind_memEntries_out d a bs h]
  rcases h with h | h
  · rw [kfind_filter_in m (fun x => decide (x < a)) (by simpa using h),
      kfind_filter_out m (fun x => decide (a + bs.length ≤ x)) (by simp; omega)]
    cases kfind m k <;> rfl
  · rw [kfind_filter_out m (fun x => decide (x < a)) (by simp; omega),
      kfind_filter_in m (fun x => decide (a + bs.length ≤ x)) (by simpa using h)]

/-- A written byte reads as it was written. -/
theorem kget_memWrite_in (d : Nat → Byte) (m : KMap Byte) (a : Nat) (bs : List Byte) {i : Nat} (h : i < bs.length) :
    kget d (memWrite d m a bs) (a + i) = bs[i] := by
  have e := kget_memEntries_in d a bs h
  unfold kget memWrite at *
  rw [kfind_append, kfind_append, kfind_filter_out m (fun x => decide (x < a)) (by simp),
    kfind_filter_out m (fun x => decide (a + bs.length ≤ x)) (by simp; omega)]
  revert e
  cases kfind (memEntries d a bs) (a + i) <;> simp

@[simp] theorem memRead_length (d : Nat → Byte) (m : KMap Byte) (a n : Nat) : (memRead d m a n).length = n := by
  induction n generalizing a with
  | zero => rfl
  | succ n ih => simp [memRead, ih]

theorem memRead_getElem (d : Nat → Byte) (m : KMap Byte) (a n i : Nat) (h : i < (memRead d m a n).length) :
    (memRead d m a n)[i] = kget d m (a + i) := by
  induction n generalizing a i with
  | zero => simp at h
  | succ n ih =>
    cases i with
    | zero => rfl
    | succ i =>
      simp only [memRead, List.getElem_cons_succ]
      rw [ih]
      congr 1
      omega

/-- Reading the bytes just written gives them. -/
@[simp] theorem memRead_memWrite (d : Nat → Byte) (m : KMap Byte) (a : Nat) (bs : List Byte) :
    memRead d (memWrite d m a bs) a bs.length = bs := by
  apply List.ext_getElem
  · simp
  · intro i h1 h2
    rw [memRead_getElem, kget_memWrite_in d m a bs h2]

end Sys2Proof.Machine
end

