-- ==== Sys2Proof/Laws/State.lean ====
section
/-! SUPPORT. What each update of a state does to each field, field by field: only the one named changes. -/

namespace Sys2Proof.Machine

open Sys2Proof

variable (s : State) (a n k : Nat) (v : Word) (bs : List Byte) (uSq : SeqUnit) (uCh : ChUnit) (uTm : TmuUnit)
  (uAq : AcqUnit) (uDc : DmaUnit) (uFp : Port) (uTl : Lane) (uFw : FlowSt) (uEng : EngSt) (o : Output) (r : FaultRec)
  (ws : List Word)

/-! ### wr -/

@[simp] theorem State.wr_pending : (s.wr a v).pending = s.pending := rfl
@[simp] theorem State.wr_mt : (s.wr a v).mt = s.mt := rfl
@[simp] theorem State.wr_regs : (s.wr a v).regs = kset regReset s.regs a v := rfl
@[simp] theorem State.wr_applied : (s.wr a v).applied = s.applied := rfl
@[simp] theorem State.wr_staged : (s.wr a v).staged = s.staged := rfl
@[simp] theorem State.wr_perStg : (s.wr a v).perStg = s.perStg := rfl
@[simp] theorem State.wr_latch : (s.wr a v).latch = s.latch := rfl
@[simp] theorem State.wr_dram : (s.wr a v).dram = s.dram := rfl
@[simp] theorem State.wr_sram : (s.wr a v).sram = s.sram := rfl
@[simp] theorem State.wr_nor : (s.wr a v).nor = s.nor := rfl
@[simp] theorem State.wr_str : (s.wr a v).str = s.str := rfl
@[simp] theorem State.wr_sti : (s.wr a v).sti = s.sti := rfl
@[simp] theorem State.wr_seq : (s.wr a v).seq = s.seq := rfl
@[simp] theorem State.wr_chn : (s.wr a v).chn = s.chn := rfl
@[simp] theorem State.wr_wbuf : (s.wr a v).wbuf = s.wbuf := rfl
@[simp] theorem State.wr_ptbuf : (s.wr a v).ptbuf = s.ptbuf := rfl
@[simp] theorem State.wr_wold : (s.wr a v).wold = s.wold := rfl
@[simp] theorem State.wr_epochStop : (s.wr a v).epochStop = s.epochStop := rfl
@[simp] theorem State.wr_tmu : (s.wr a v).tmu = s.tmu := rfl
@[simp] theorem State.wr_stampQ : (s.wr a v).stampQ = s.stampQ := rfl
@[simp] theorem State.wr_acq : (s.wr a v).acq = s.acq := rfl
@[simp] theorem State.wr_cal : (s.wr a v).cal = s.cal := rfl
@[simp] theorem State.wr_ane : (s.wr a v).ane = s.ane := rfl
@[simp] theorem State.wr_drc : (s.wr a v).drc = s.drc := rfl
@[simp] theorem State.wr_dma : (s.wr a v).dma = s.dma := rfl
@[simp] theorem State.wr_port : (s.wr a v).port = s.port := rfl
@[simp] theorem State.wr_lane : (s.wr a v).lane = s.lane := rfl
@[simp] theorem State.wr_mtb : (s.wr a v).mtb = s.mtb := rfl
@[simp] theorem State.wr_detected : (s.wr a v).detected = s.detected := rfl
@[simp] theorem State.wr_round : (s.wr a v).round = s.round := rfl
@[simp] theorem State.wr_fltNum : (s.wr a v).fltNum = s.fltNum := rfl
@[simp] theorem State.wr_norq : (s.wr a v).norq = s.norq := rfl
@[simp] theorem State.wr_erases : (s.wr a v).erases = s.erases := rfl
@[simp] theorem State.wr_sup : (s.wr a v).sup = s.sup := rfl
@[simp] theorem State.wr_keys : (s.wr a v).keys = s.keys := rfl
@[simp] theorem State.wr_recov : (s.wr a v).recov = s.recov := rfl
@[simp] theorem State.wr_applies : (s.wr a v).applies = s.applies := rfl
@[simp] theorem State.wr_pwr : (s.wr a v).pwr = s.pwr := rfl
@[simp] theorem State.wr_vfs : (s.wr a v).vfs = s.vfs := rfl
@[simp] theorem State.wr_msixOn : (s.wr a v).msixOn = s.msixOn := rfl
@[simp] theorem State.wr_msixMask : (s.wr a v).msixMask = s.msixMask := rfl
@[simp] theorem State.wr_msixPend : (s.wr a v).msixPend = s.msixPend := rfl
@[simp] theorem State.wr_pace : (s.wr a v).pace = s.pace := rfl
@[simp] theorem State.wr_paceNoted : (s.wr a v).paceNoted = s.paceNoted := rfl
@[simp] theorem State.wr_avsFrom : (s.wr a v).avsFrom = s.avsFrom := rfl
@[simp] theorem State.wr_spareUnlock : (s.wr a v).spareUnlock = s.spareUnlock := rfl
@[simp] theorem State.wr_jtag : (s.wr a v).jtag = s.jtag := rfl
@[simp] theorem State.wr_free : (s.wr a v).free = s.free := rfl
@[simp] theorem State.wr_rdata : (s.wr a v).rdata = s.rdata := rfl
@[simp] theorem State.wr_rpoison : (s.wr a v).rpoison = s.rpoison := rfl
@[simp] theorem State.wr_out : (s.wr a v).out = s.out := rfl

/-! ### setApv -/

@[simp] theorem State.setApv_pending : (s.setApv a v).pending = s.pending := rfl
@[simp] theorem State.setApv_mt : (s.setApv a v).mt = s.mt := rfl
@[simp] theorem State.setApv_regs : (s.setApv a v).regs = s.regs := rfl
@[simp] theorem State.setApv_applied : (s.setApv a v).applied = kset regReset s.applied a v := rfl
@[simp] theorem State.setApv_staged : (s.setApv a v).staged = s.staged := rfl
@[simp] theorem State.setApv_perStg : (s.setApv a v).perStg = s.perStg := rfl
@[simp] theorem State.setApv_latch : (s.setApv a v).latch = s.latch := rfl
@[simp] theorem State.setApv_dram : (s.setApv a v).dram = s.dram := rfl
@[simp] theorem State.setApv_sram : (s.setApv a v).sram = s.sram := rfl
@[simp] theorem State.setApv_nor : (s.setApv a v).nor = s.nor := rfl
@[simp] theorem State.setApv_str : (s.setApv a v).str = s.str := rfl
@[simp] theorem State.setApv_sti : (s.setApv a v).sti = s.sti := rfl
@[simp] theorem State.setApv_seq : (s.setApv a v).seq = s.seq := rfl
@[simp] theorem State.setApv_chn : (s.setApv a v).chn = s.chn := rfl
@[simp] theorem State.setApv_wbuf : (s.setApv a v).wbuf = s.wbuf := rfl
@[simp] theorem State.setApv_ptbuf : (s.setApv a v).ptbuf = s.ptbuf := rfl
@[simp] theorem State.setApv_wold : (s.setApv a v).wold = s.wold := rfl
@[simp] theorem State.setApv_epochStop : (s.setApv a v).epochStop = s.epochStop := rfl
@[simp] theorem State.setApv_tmu : (s.setApv a v).tmu = s.tmu := rfl
@[simp] theorem State.setApv_stampQ : (s.setApv a v).stampQ = s.stampQ := rfl
@[simp] theorem State.setApv_acq : (s.setApv a v).acq = s.acq := rfl
@[simp] theorem State.setApv_cal : (s.setApv a v).cal = s.cal := rfl
@[simp] theorem State.setApv_ane : (s.setApv a v).ane = s.ane := rfl
@[simp] theorem State.setApv_drc : (s.setApv a v).drc = s.drc := rfl
@[simp] theorem State.setApv_dma : (s.setApv a v).dma = s.dma := rfl
@[simp] theorem State.setApv_port : (s.setApv a v).port = s.port := rfl
@[simp] theorem State.setApv_lane : (s.setApv a v).lane = s.lane := rfl
@[simp] theorem State.setApv_mtb : (s.setApv a v).mtb = s.mtb := rfl
@[simp] theorem State.setApv_detected : (s.setApv a v).detected = s.detected := rfl
@[simp] theorem State.setApv_round : (s.setApv a v).round = s.round := rfl
@[simp] theorem State.setApv_fltNum : (s.setApv a v).fltNum = s.fltNum := rfl
@[simp] theorem State.setApv_norq : (s.setApv a v).norq = s.norq := rfl
@[simp] theorem State.setApv_erases : (s.setApv a v).erases = s.erases := rfl
@[simp] theorem State.setApv_sup : (s.setApv a v).sup = s.sup := rfl
@[simp] theorem State.setApv_keys : (s.setApv a v).keys = s.keys := rfl
@[simp] theorem State.setApv_recov : (s.setApv a v).recov = s.recov := rfl
@[simp] theorem State.setApv_applies : (s.setApv a v).applies = s.applies := rfl
@[simp] theorem State.setApv_pwr : (s.setApv a v).pwr = s.pwr := rfl
@[simp] theorem State.setApv_vfs : (s.setApv a v).vfs = s.vfs := rfl
@[simp] theorem State.setApv_msixOn : (s.setApv a v).msixOn = s.msixOn := rfl
@[simp] theorem State.setApv_msixMask : (s.setApv a v).msixMask = s.msixMask := rfl
@[simp] theorem State.setApv_msixPend : (s.setApv a v).msixPend = s.msixPend := rfl
@[simp] theorem State.setApv_pace : (s.setApv a v).pace = s.pace := rfl
@[simp] theorem State.setApv_paceNoted : (s.setApv a v).paceNoted = s.paceNoted := rfl
@[simp] theorem State.setApv_avsFrom : (s.setApv a v).avsFrom = s.avsFrom := rfl
@[simp] theorem State.setApv_spareUnlock : (s.setApv a v).spareUnlock = s.spareUnlock := rfl
@[simp] theorem State.setApv_jtag : (s.setApv a v).jtag = s.jtag := rfl
@[simp] theorem State.setApv_free : (s.setApv a v).free = s.free := rfl
@[simp] theorem State.setApv_rdata : (s.setApv a v).rdata = s.rdata := rfl
@[simp] theorem State.setApv_rpoison : (s.setApv a v).rpoison = s.rpoison := rfl
@[simp] theorem State.setApv_out : (s.setApv a v).out = s.out := rfl

/-! ### setSq -/

@[simp] theorem State.setSq_pending : (s.setSq n uSq).pending = s.pending := rfl
@[simp] theorem State.setSq_mt : (s.setSq n uSq).mt = s.mt := rfl
@[simp] theorem State.setSq_regs : (s.setSq n uSq).regs = s.regs := rfl
@[simp] theorem State.setSq_applied : (s.setSq n uSq).applied = s.applied := rfl
@[simp] theorem State.setSq_staged : (s.setSq n uSq).staged = s.staged := rfl
@[simp] theorem State.setSq_perStg : (s.setSq n uSq).perStg = s.perStg := rfl
@[simp] theorem State.setSq_latch : (s.setSq n uSq).latch = s.latch := rfl
@[simp] theorem State.setSq_dram : (s.setSq n uSq).dram = s.dram := rfl
@[simp] theorem State.setSq_sram : (s.setSq n uSq).sram = s.sram := rfl
@[simp] theorem State.setSq_nor : (s.setSq n uSq).nor = s.nor := rfl
@[simp] theorem State.setSq_str : (s.setSq n uSq).str = s.str := rfl
@[simp] theorem State.setSq_sti : (s.setSq n uSq).sti = s.sti := rfl
@[simp] theorem State.setSq_seq : (s.setSq n uSq).seq = kset (fun _ => {}) s.seq n uSq := rfl
@[simp] theorem State.setSq_chn : (s.setSq n uSq).chn = s.chn := rfl
@[simp] theorem State.setSq_wbuf : (s.setSq n uSq).wbuf = s.wbuf := rfl
@[simp] theorem State.setSq_ptbuf : (s.setSq n uSq).ptbuf = s.ptbuf := rfl
@[simp] theorem State.setSq_wold : (s.setSq n uSq).wold = s.wold := rfl
@[simp] theorem State.setSq_epochStop : (s.setSq n uSq).epochStop = s.epochStop := rfl
@[simp] theorem State.setSq_tmu : (s.setSq n uSq).tmu = s.tmu := rfl
@[simp] theorem State.setSq_stampQ : (s.setSq n uSq).stampQ = s.stampQ := rfl
@[simp] theorem State.setSq_acq : (s.setSq n uSq).acq = s.acq := rfl
@[simp] theorem State.setSq_cal : (s.setSq n uSq).cal = s.cal := rfl
@[simp] theorem State.setSq_ane : (s.setSq n uSq).ane = s.ane := rfl
@[simp] theorem State.setSq_drc : (s.setSq n uSq).drc = s.drc := rfl
@[simp] theorem State.setSq_dma : (s.setSq n uSq).dma = s.dma := rfl
@[simp] theorem State.setSq_port : (s.setSq n uSq).port = s.port := rfl
@[simp] theorem State.setSq_lane : (s.setSq n uSq).lane = s.lane := rfl
@[simp] theorem State.setSq_mtb : (s.setSq n uSq).mtb = s.mtb := rfl
@[simp] theorem State.setSq_detected : (s.setSq n uSq).detected = s.detected := rfl
@[simp] theorem State.setSq_round : (s.setSq n uSq).round = s.round := rfl
@[simp] theorem State.setSq_fltNum : (s.setSq n uSq).fltNum = s.fltNum := rfl
@[simp] theorem State.setSq_norq : (s.setSq n uSq).norq = s.norq := rfl
@[simp] theorem State.setSq_erases : (s.setSq n uSq).erases = s.erases := rfl
@[simp] theorem State.setSq_sup : (s.setSq n uSq).sup = s.sup := rfl
@[simp] theorem State.setSq_keys : (s.setSq n uSq).keys = s.keys := rfl
@[simp] theorem State.setSq_recov : (s.setSq n uSq).recov = s.recov := rfl
@[simp] theorem State.setSq_applies : (s.setSq n uSq).applies = s.applies := rfl
@[simp] theorem State.setSq_pwr : (s.setSq n uSq).pwr = s.pwr := rfl
@[simp] theorem State.setSq_vfs : (s.setSq n uSq).vfs = s.vfs := rfl
@[simp] theorem State.setSq_msixOn : (s.setSq n uSq).msixOn = s.msixOn := rfl
@[simp] theorem State.setSq_msixMask : (s.setSq n uSq).msixMask = s.msixMask := rfl
@[simp] theorem State.setSq_msixPend : (s.setSq n uSq).msixPend = s.msixPend := rfl
@[simp] theorem State.setSq_pace : (s.setSq n uSq).pace = s.pace := rfl
@[simp] theorem State.setSq_paceNoted : (s.setSq n uSq).paceNoted = s.paceNoted := rfl
@[simp] theorem State.setSq_avsFrom : (s.setSq n uSq).avsFrom = s.avsFrom := rfl
@[simp] theorem State.setSq_spareUnlock : (s.setSq n uSq).spareUnlock = s.spareUnlock := rfl
@[simp] theorem State.setSq_jtag : (s.setSq n uSq).jtag = s.jtag := rfl
@[simp] theorem State.setSq_free : (s.setSq n uSq).free = s.free := rfl
@[simp] theorem State.setSq_rdata : (s.setSq n uSq).rdata = s.rdata := rfl
@[simp] theorem State.setSq_rpoison : (s.setSq n uSq).rpoison = s.rpoison := rfl
@[simp] theorem State.setSq_out : (s.setSq n uSq).out = s.out := rfl

/-! ### setCh -/

@[simp] theorem State.setCh_pending : (s.setCh n uCh).pending = s.pending := rfl
@[simp] theorem State.setCh_mt : (s.setCh n uCh).mt = s.mt := rfl
@[simp] theorem State.setCh_regs : (s.setCh n uCh).regs = s.regs := rfl
@[simp] theorem State.setCh_applied : (s.setCh n uCh).applied = s.applied := rfl
@[simp] theorem State.setCh_staged : (s.setCh n uCh).staged = s.staged := rfl
@[simp] theorem State.setCh_perStg : (s.setCh n uCh).perStg = s.perStg := rfl
@[simp] theorem State.setCh_latch : (s.setCh n uCh).latch = s.latch := rfl
@[simp] theorem State.setCh_dram : (s.setCh n uCh).dram = s.dram := rfl
@[simp] theorem State.setCh_sram : (s.setCh n uCh).sram = s.sram := rfl
@[simp] theorem State.setCh_nor : (s.setCh n uCh).nor = s.nor := rfl
@[simp] theorem State.setCh_str : (s.setCh n uCh).str = s.str := rfl
@[simp] theorem State.setCh_sti : (s.setCh n uCh).sti = s.sti := rfl
@[simp] theorem State.setCh_seq : (s.setCh n uCh).seq = s.seq := rfl
@[simp] theorem State.setCh_chn : (s.setCh n uCh).chn = kset (fun _ => {}) s.chn n uCh := rfl
@[simp] theorem State.setCh_wbuf : (s.setCh n uCh).wbuf = s.wbuf := rfl
@[simp] theorem State.setCh_ptbuf : (s.setCh n uCh).ptbuf = s.ptbuf := rfl
@[simp] theorem State.setCh_wold : (s.setCh n uCh).wold = s.wold := rfl
@[simp] theorem State.setCh_epochStop : (s.setCh n uCh).epochStop = s.epochStop := rfl
@[simp] theorem State.setCh_tmu : (s.setCh n uCh).tmu = s.tmu := rfl
@[simp] theorem State.setCh_stampQ : (s.setCh n uCh).stampQ = s.stampQ := rfl
@[simp] theorem State.setCh_acq : (s.setCh n uCh).acq = s.acq := rfl
@[simp] theorem State.setCh_cal : (s.setCh n uCh).cal = s.cal := rfl
@[simp] theorem State.setCh_ane : (s.setCh n uCh).ane = s.ane := rfl
@[simp] theorem State.setCh_drc : (s.setCh n uCh).drc = s.drc := rfl
@[simp] theorem State.setCh_dma : (s.setCh n uCh).dma = s.dma := rfl
@[simp] theorem State.setCh_port : (s.setCh n uCh).port = s.port := rfl
@[simp] theorem State.setCh_lane : (s.setCh n uCh).lane = s.lane := rfl
@[simp] theorem State.setCh_mtb : (s.setCh n uCh).mtb = s.mtb := rfl
@[simp] theorem State.setCh_detected : (s.setCh n uCh).detected = s.detected := rfl
@[simp] theorem State.setCh_round : (s.setCh n uCh).round = s.round := rfl
@[simp] theorem State.setCh_fltNum : (s.setCh n uCh).fltNum = s.fltNum := rfl
@[simp] theorem State.setCh_norq : (s.setCh n uCh).norq = s.norq := rfl
@[simp] theorem State.setCh_erases : (s.setCh n uCh).erases = s.erases := rfl
@[simp] theorem State.setCh_sup : (s.setCh n uCh).sup = s.sup := rfl
@[simp] theorem State.setCh_keys : (s.setCh n uCh).keys = s.keys := rfl
@[simp] theorem State.setCh_recov : (s.setCh n uCh).recov = s.recov := rfl
@[simp] theorem State.setCh_applies : (s.setCh n uCh).applies = s.applies := rfl
@[simp] theorem State.setCh_pwr : (s.setCh n uCh).pwr = s.pwr := rfl
@[simp] theorem State.setCh_vfs : (s.setCh n uCh).vfs = s.vfs := rfl
@[simp] theorem State.setCh_msixOn : (s.setCh n uCh).msixOn = s.msixOn := rfl
@[simp] theorem State.setCh_msixMask : (s.setCh n uCh).msixMask = s.msixMask := rfl
@[simp] theorem State.setCh_msixPend : (s.setCh n uCh).msixPend = s.msixPend := rfl
@[simp] theorem State.setCh_pace : (s.setCh n uCh).pace = s.pace := rfl
@[simp] theorem State.setCh_paceNoted : (s.setCh n uCh).paceNoted = s.paceNoted := rfl
@[simp] theorem State.setCh_avsFrom : (s.setCh n uCh).avsFrom = s.avsFrom := rfl
@[simp] theorem State.setCh_spareUnlock : (s.setCh n uCh).spareUnlock = s.spareUnlock := rfl
@[simp] theorem State.setCh_jtag : (s.setCh n uCh).jtag = s.jtag := rfl
@[simp] theorem State.setCh_free : (s.setCh n uCh).free = s.free := rfl
@[simp] theorem State.setCh_rdata : (s.setCh n uCh).rdata = s.rdata := rfl
@[simp] theorem State.setCh_rpoison : (s.setCh n uCh).rpoison = s.rpoison := rfl
@[simp] theorem State.setCh_out : (s.setCh n uCh).out = s.out := rfl

/-! ### setTm -/

@[simp] theorem State.setTm_pending : (s.setTm n uTm).pending = s.pending := rfl
@[simp] theorem State.setTm_mt : (s.setTm n uTm).mt = s.mt := rfl
@[simp] theorem State.setTm_regs : (s.setTm n uTm).regs = s.regs := rfl
@[simp] theorem State.setTm_applied : (s.setTm n uTm).applied = s.applied := rfl
@[simp] theorem State.setTm_staged : (s.setTm n uTm).staged = s.staged := rfl
@[simp] theorem State.setTm_perStg : (s.setTm n uTm).perStg = s.perStg := rfl
@[simp] theorem State.setTm_latch : (s.setTm n uTm).latch = s.latch := rfl
@[simp] theorem State.setTm_dram : (s.setTm n uTm).dram = s.dram := rfl
@[simp] theorem State.setTm_sram : (s.setTm n uTm).sram = s.sram := rfl
@[simp] theorem State.setTm_nor : (s.setTm n uTm).nor = s.nor := rfl
@[simp] theorem State.setTm_str : (s.setTm n uTm).str = s.str := rfl
@[simp] theorem State.setTm_sti : (s.setTm n uTm).sti = s.sti := rfl
@[simp] theorem State.setTm_seq : (s.setTm n uTm).seq = s.seq := rfl
@[simp] theorem State.setTm_chn : (s.setTm n uTm).chn = s.chn := rfl
@[simp] theorem State.setTm_wbuf : (s.setTm n uTm).wbuf = s.wbuf := rfl
@[simp] theorem State.setTm_ptbuf : (s.setTm n uTm).ptbuf = s.ptbuf := rfl
@[simp] theorem State.setTm_wold : (s.setTm n uTm).wold = s.wold := rfl
@[simp] theorem State.setTm_epochStop : (s.setTm n uTm).epochStop = s.epochStop := rfl
@[simp] theorem State.setTm_tmu : (s.setTm n uTm).tmu = kset (fun _ => {}) s.tmu n uTm := rfl
@[simp] theorem State.setTm_stampQ : (s.setTm n uTm).stampQ = s.stampQ := rfl
@[simp] theorem State.setTm_acq : (s.setTm n uTm).acq = s.acq := rfl
@[simp] theorem State.setTm_cal : (s.setTm n uTm).cal = s.cal := rfl
@[simp] theorem State.setTm_ane : (s.setTm n uTm).ane = s.ane := rfl
@[simp] theorem State.setTm_drc : (s.setTm n uTm).drc = s.drc := rfl
@[simp] theorem State.setTm_dma : (s.setTm n uTm).dma = s.dma := rfl
@[simp] theorem State.setTm_port : (s.setTm n uTm).port = s.port := rfl
@[simp] theorem State.setTm_lane : (s.setTm n uTm).lane = s.lane := rfl
@[simp] theorem State.setTm_mtb : (s.setTm n uTm).mtb = s.mtb := rfl
@[simp] theorem State.setTm_detected : (s.setTm n uTm).detected = s.detected := rfl
@[simp] theorem State.setTm_round : (s.setTm n uTm).round = s.round := rfl
@[simp] theorem State.setTm_fltNum : (s.setTm n uTm).fltNum = s.fltNum := rfl
@[simp] theorem State.setTm_norq : (s.setTm n uTm).norq = s.norq := rfl
@[simp] theorem State.setTm_erases : (s.setTm n uTm).erases = s.erases := rfl
@[simp] theorem State.setTm_sup : (s.setTm n uTm).sup = s.sup := rfl
@[simp] theorem State.setTm_keys : (s.setTm n uTm).keys = s.keys := rfl
@[simp] theorem State.setTm_recov : (s.setTm n uTm).recov = s.recov := rfl
@[simp] theorem State.setTm_applies : (s.setTm n uTm).applies = s.applies := rfl
@[simp] theorem State.setTm_pwr : (s.setTm n uTm).pwr = s.pwr := rfl
@[simp] theorem State.setTm_vfs : (s.setTm n uTm).vfs = s.vfs := rfl
@[simp] theorem State.setTm_msixOn : (s.setTm n uTm).msixOn = s.msixOn := rfl
@[simp] theorem State.setTm_msixMask : (s.setTm n uTm).msixMask = s.msixMask := rfl
@[simp] theorem State.setTm_msixPend : (s.setTm n uTm).msixPend = s.msixPend := rfl
@[simp] theorem State.setTm_pace : (s.setTm n uTm).pace = s.pace := rfl
@[simp] theorem State.setTm_paceNoted : (s.setTm n uTm).paceNoted = s.paceNoted := rfl
@[simp] theorem State.setTm_avsFrom : (s.setTm n uTm).avsFrom = s.avsFrom := rfl
@[simp] theorem State.setTm_spareUnlock : (s.setTm n uTm).spareUnlock = s.spareUnlock := rfl
@[simp] theorem State.setTm_jtag : (s.setTm n uTm).jtag = s.jtag := rfl
@[simp] theorem State.setTm_free : (s.setTm n uTm).free = s.free := rfl
@[simp] theorem State.setTm_rdata : (s.setTm n uTm).rdata = s.rdata := rfl
@[simp] theorem State.setTm_rpoison : (s.setTm n uTm).rpoison = s.rpoison := rfl
@[simp] theorem State.setTm_out : (s.setTm n uTm).out = s.out := rfl

/-! ### setAq -/

@[simp] theorem State.setAq_pending : (s.setAq n uAq).pending = s.pending := rfl
@[simp] theorem State.setAq_mt : (s.setAq n uAq).mt = s.mt := rfl
@[simp] theorem State.setAq_regs : (s.setAq n uAq).regs = s.regs := rfl
@[simp] theorem State.setAq_applied : (s.setAq n uAq).applied = s.applied := rfl
@[simp] theorem State.setAq_staged : (s.setAq n uAq).staged = s.staged := rfl
@[simp] theorem State.setAq_perStg : (s.setAq n uAq).perStg = s.perStg := rfl
@[simp] theorem State.setAq_latch : (s.setAq n uAq).latch = s.latch := rfl
@[simp] theorem State.setAq_dram : (s.setAq n uAq).dram = s.dram := rfl
@[simp] theorem State.setAq_sram : (s.setAq n uAq).sram = s.sram := rfl
@[simp] theorem State.setAq_nor : (s.setAq n uAq).nor = s.nor := rfl
@[simp] theorem State.setAq_str : (s.setAq n uAq).str = s.str := rfl
@[simp] theorem State.setAq_sti : (s.setAq n uAq).sti = s.sti := rfl
@[simp] theorem State.setAq_seq : (s.setAq n uAq).seq = s.seq := rfl
@[simp] theorem State.setAq_chn : (s.setAq n uAq).chn = s.chn := rfl
@[simp] theorem State.setAq_wbuf : (s.setAq n uAq).wbuf = s.wbuf := rfl
@[simp] theorem State.setAq_ptbuf : (s.setAq n uAq).ptbuf = s.ptbuf := rfl
@[simp] theorem State.setAq_wold : (s.setAq n uAq).wold = s.wold := rfl
@[simp] theorem State.setAq_epochStop : (s.setAq n uAq).epochStop = s.epochStop := rfl
@[simp] theorem State.setAq_tmu : (s.setAq n uAq).tmu = s.tmu := rfl
@[simp] theorem State.setAq_stampQ : (s.setAq n uAq).stampQ = s.stampQ := rfl
@[simp] theorem State.setAq_acq : (s.setAq n uAq).acq = kset (fun _ => {}) s.acq n uAq := rfl
@[simp] theorem State.setAq_cal : (s.setAq n uAq).cal = s.cal := rfl
@[simp] theorem State.setAq_ane : (s.setAq n uAq).ane = s.ane := rfl
@[simp] theorem State.setAq_drc : (s.setAq n uAq).drc = s.drc := rfl
@[simp] theorem State.setAq_dma : (s.setAq n uAq).dma = s.dma := rfl
@[simp] theorem State.setAq_port : (s.setAq n uAq).port = s.port := rfl
@[simp] theorem State.setAq_lane : (s.setAq n uAq).lane = s.lane := rfl
@[simp] theorem State.setAq_mtb : (s.setAq n uAq).mtb = s.mtb := rfl
@[simp] theorem State.setAq_detected : (s.setAq n uAq).detected = s.detected := rfl
@[simp] theorem State.setAq_round : (s.setAq n uAq).round = s.round := rfl
@[simp] theorem State.setAq_fltNum : (s.setAq n uAq).fltNum = s.fltNum := rfl
@[simp] theorem State.setAq_norq : (s.setAq n uAq).norq = s.norq := rfl
@[simp] theorem State.setAq_erases : (s.setAq n uAq).erases = s.erases := rfl
@[simp] theorem State.setAq_sup : (s.setAq n uAq).sup = s.sup := rfl
@[simp] theorem State.setAq_keys : (s.setAq n uAq).keys = s.keys := rfl
@[simp] theorem State.setAq_recov : (s.setAq n uAq).recov = s.recov := rfl
@[simp] theorem State.setAq_applies : (s.setAq n uAq).applies = s.applies := rfl
@[simp] theorem State.setAq_pwr : (s.setAq n uAq).pwr = s.pwr := rfl
@[simp] theorem State.setAq_vfs : (s.setAq n uAq).vfs = s.vfs := rfl
@[simp] theorem State.setAq_msixOn : (s.setAq n uAq).msixOn = s.msixOn := rfl
@[simp] theorem State.setAq_msixMask : (s.setAq n uAq).msixMask = s.msixMask := rfl
@[simp] theorem State.setAq_msixPend : (s.setAq n uAq).msixPend = s.msixPend := rfl
@[simp] theorem State.setAq_pace : (s.setAq n uAq).pace = s.pace := rfl
@[simp] theorem State.setAq_paceNoted : (s.setAq n uAq).paceNoted = s.paceNoted := rfl
@[simp] theorem State.setAq_avsFrom : (s.setAq n uAq).avsFrom = s.avsFrom := rfl
@[simp] theorem State.setAq_spareUnlock : (s.setAq n uAq).spareUnlock = s.spareUnlock := rfl
@[simp] theorem State.setAq_jtag : (s.setAq n uAq).jtag = s.jtag := rfl
@[simp] theorem State.setAq_free : (s.setAq n uAq).free = s.free := rfl
@[simp] theorem State.setAq_rdata : (s.setAq n uAq).rdata = s.rdata := rfl
@[simp] theorem State.setAq_rpoison : (s.setAq n uAq).rpoison = s.rpoison := rfl
@[simp] theorem State.setAq_out : (s.setAq n uAq).out = s.out := rfl

/-! ### setDc -/

@[simp] theorem State.setDc_pending : (s.setDc n uDc).pending = s.pending := rfl
@[simp] theorem State.setDc_mt : (s.setDc n uDc).mt = s.mt := rfl
@[simp] theorem State.setDc_regs : (s.setDc n uDc).regs = s.regs := rfl
@[simp] theorem State.setDc_applied : (s.setDc n uDc).applied = s.applied := rfl
@[simp] theorem State.setDc_staged : (s.setDc n uDc).staged = s.staged := rfl
@[simp] theorem State.setDc_perStg : (s.setDc n uDc).perStg = s.perStg := rfl
@[simp] theorem State.setDc_latch : (s.setDc n uDc).latch = s.latch := rfl
@[simp] theorem State.setDc_dram : (s.setDc n uDc).dram = s.dram := rfl
@[simp] theorem State.setDc_sram : (s.setDc n uDc).sram = s.sram := rfl
@[simp] theorem State.setDc_nor : (s.setDc n uDc).nor = s.nor := rfl
@[simp] theorem State.setDc_str : (s.setDc n uDc).str = s.str := rfl
@[simp] theorem State.setDc_sti : (s.setDc n uDc).sti = s.sti := rfl
@[simp] theorem State.setDc_seq : (s.setDc n uDc).seq = s.seq := rfl
@[simp] theorem State.setDc_chn : (s.setDc n uDc).chn = s.chn := rfl
@[simp] theorem State.setDc_wbuf : (s.setDc n uDc).wbuf = s.wbuf := rfl
@[simp] theorem State.setDc_ptbuf : (s.setDc n uDc).ptbuf = s.ptbuf := rfl
@[simp] theorem State.setDc_wold : (s.setDc n uDc).wold = s.wold := rfl
@[simp] theorem State.setDc_epochStop : (s.setDc n uDc).epochStop = s.epochStop := rfl
@[simp] theorem State.setDc_tmu : (s.setDc n uDc).tmu = s.tmu := rfl
@[simp] theorem State.setDc_stampQ : (s.setDc n uDc).stampQ = s.stampQ := rfl
@[simp] theorem State.setDc_acq : (s.setDc n uDc).acq = s.acq := rfl
@[simp] theorem State.setDc_cal : (s.setDc n uDc).cal = s.cal := rfl
@[simp] theorem State.setDc_ane : (s.setDc n uDc).ane = s.ane := rfl
@[simp] theorem State.setDc_drc : (s.setDc n uDc).drc = s.drc := rfl
@[simp] theorem State.setDc_dma : (s.setDc n uDc).dma = kset (fun _ => {}) s.dma n uDc := rfl
@[simp] theorem State.setDc_port : (s.setDc n uDc).port = s.port := rfl
@[simp] theorem State.setDc_lane : (s.setDc n uDc).lane = s.lane := rfl
@[simp] theorem State.setDc_mtb : (s.setDc n uDc).mtb = s.mtb := rfl
@[simp] theorem State.setDc_detected : (s.setDc n uDc).detected = s.detected := rfl
@[simp] theorem State.setDc_round : (s.setDc n uDc).round = s.round := rfl
@[simp] theorem State.setDc_fltNum : (s.setDc n uDc).fltNum = s.fltNum := rfl
@[simp] theorem State.setDc_norq : (s.setDc n uDc).norq = s.norq := rfl
@[simp] theorem State.setDc_erases : (s.setDc n uDc).erases = s.erases := rfl
@[simp] theorem State.setDc_sup : (s.setDc n uDc).sup = s.sup := rfl
@[simp] theorem State.setDc_keys : (s.setDc n uDc).keys = s.keys := rfl
@[simp] theorem State.setDc_recov : (s.setDc n uDc).recov = s.recov := rfl
@[simp] theorem State.setDc_applies : (s.setDc n uDc).applies = s.applies := rfl
@[simp] theorem State.setDc_pwr : (s.setDc n uDc).pwr = s.pwr := rfl
@[simp] theorem State.setDc_vfs : (s.setDc n uDc).vfs = s.vfs := rfl
@[simp] theorem State.setDc_msixOn : (s.setDc n uDc).msixOn = s.msixOn := rfl
@[simp] theorem State.setDc_msixMask : (s.setDc n uDc).msixMask = s.msixMask := rfl
@[simp] theorem State.setDc_msixPend : (s.setDc n uDc).msixPend = s.msixPend := rfl
@[simp] theorem State.setDc_pace : (s.setDc n uDc).pace = s.pace := rfl
@[simp] theorem State.setDc_paceNoted : (s.setDc n uDc).paceNoted = s.paceNoted := rfl
@[simp] theorem State.setDc_avsFrom : (s.setDc n uDc).avsFrom = s.avsFrom := rfl
@[simp] theorem State.setDc_spareUnlock : (s.setDc n uDc).spareUnlock = s.spareUnlock := rfl
@[simp] theorem State.setDc_jtag : (s.setDc n uDc).jtag = s.jtag := rfl
@[simp] theorem State.setDc_free : (s.setDc n uDc).free = s.free := rfl
@[simp] theorem State.setDc_rdata : (s.setDc n uDc).rdata = s.rdata := rfl
@[simp] theorem State.setDc_rpoison : (s.setDc n uDc).rpoison = s.rpoison := rfl
@[simp] theorem State.setDc_out : (s.setDc n uDc).out = s.out := rfl

/-! ### setFp -/

@[simp] theorem State.setFp_pending : (s.setFp n uFp).pending = s.pending := rfl
@[simp] theorem State.setFp_mt : (s.setFp n uFp).mt = s.mt := rfl
@[simp] theorem State.setFp_regs : (s.setFp n uFp).regs = s.regs := rfl
@[simp] theorem State.setFp_applied : (s.setFp n uFp).applied = s.applied := rfl
@[simp] theorem State.setFp_staged : (s.setFp n uFp).staged = s.staged := rfl
@[simp] theorem State.setFp_perStg : (s.setFp n uFp).perStg = s.perStg := rfl
@[simp] theorem State.setFp_latch : (s.setFp n uFp).latch = s.latch := rfl
@[simp] theorem State.setFp_dram : (s.setFp n uFp).dram = s.dram := rfl
@[simp] theorem State.setFp_sram : (s.setFp n uFp).sram = s.sram := rfl
@[simp] theorem State.setFp_nor : (s.setFp n uFp).nor = s.nor := rfl
@[simp] theorem State.setFp_str : (s.setFp n uFp).str = s.str := rfl
@[simp] theorem State.setFp_sti : (s.setFp n uFp).sti = s.sti := rfl
@[simp] theorem State.setFp_seq : (s.setFp n uFp).seq = s.seq := rfl
@[simp] theorem State.setFp_chn : (s.setFp n uFp).chn = s.chn := rfl
@[simp] theorem State.setFp_wbuf : (s.setFp n uFp).wbuf = s.wbuf := rfl
@[simp] theorem State.setFp_ptbuf : (s.setFp n uFp).ptbuf = s.ptbuf := rfl
@[simp] theorem State.setFp_wold : (s.setFp n uFp).wold = s.wold := rfl
@[simp] theorem State.setFp_epochStop : (s.setFp n uFp).epochStop = s.epochStop := rfl
@[simp] theorem State.setFp_tmu : (s.setFp n uFp).tmu = s.tmu := rfl
@[simp] theorem State.setFp_stampQ : (s.setFp n uFp).stampQ = s.stampQ := rfl
@[simp] theorem State.setFp_acq : (s.setFp n uFp).acq = s.acq := rfl
@[simp] theorem State.setFp_cal : (s.setFp n uFp).cal = s.cal := rfl
@[simp] theorem State.setFp_ane : (s.setFp n uFp).ane = s.ane := rfl
@[simp] theorem State.setFp_drc : (s.setFp n uFp).drc = s.drc := rfl
@[simp] theorem State.setFp_dma : (s.setFp n uFp).dma = s.dma := rfl
@[simp] theorem State.setFp_port : (s.setFp n uFp).port = kset (fun _ => {}) s.port n uFp := rfl
@[simp] theorem State.setFp_lane : (s.setFp n uFp).lane = s.lane := rfl
@[simp] theorem State.setFp_mtb : (s.setFp n uFp).mtb = s.mtb := rfl
@[simp] theorem State.setFp_detected : (s.setFp n uFp).detected = s.detected := rfl
@[simp] theorem State.setFp_round : (s.setFp n uFp).round = s.round := rfl
@[simp] theorem State.setFp_fltNum : (s.setFp n uFp).fltNum = s.fltNum := rfl
@[simp] theorem State.setFp_norq : (s.setFp n uFp).norq = s.norq := rfl
@[simp] theorem State.setFp_erases : (s.setFp n uFp).erases = s.erases := rfl
@[simp] theorem State.setFp_sup : (s.setFp n uFp).sup = s.sup := rfl
@[simp] theorem State.setFp_keys : (s.setFp n uFp).keys = s.keys := rfl
@[simp] theorem State.setFp_recov : (s.setFp n uFp).recov = s.recov := rfl
@[simp] theorem State.setFp_applies : (s.setFp n uFp).applies = s.applies := rfl
@[simp] theorem State.setFp_pwr : (s.setFp n uFp).pwr = s.pwr := rfl
@[simp] theorem State.setFp_vfs : (s.setFp n uFp).vfs = s.vfs := rfl
@[simp] theorem State.setFp_msixOn : (s.setFp n uFp).msixOn = s.msixOn := rfl
@[simp] theorem State.setFp_msixMask : (s.setFp n uFp).msixMask = s.msixMask := rfl
@[simp] theorem State.setFp_msixPend : (s.setFp n uFp).msixPend = s.msixPend := rfl
@[simp] theorem State.setFp_pace : (s.setFp n uFp).pace = s.pace := rfl
@[simp] theorem State.setFp_paceNoted : (s.setFp n uFp).paceNoted = s.paceNoted := rfl
@[simp] theorem State.setFp_avsFrom : (s.setFp n uFp).avsFrom = s.avsFrom := rfl
@[simp] theorem State.setFp_spareUnlock : (s.setFp n uFp).spareUnlock = s.spareUnlock := rfl
@[simp] theorem State.setFp_jtag : (s.setFp n uFp).jtag = s.jtag := rfl
@[simp] theorem State.setFp_free : (s.setFp n uFp).free = s.free := rfl
@[simp] theorem State.setFp_rdata : (s.setFp n uFp).rdata = s.rdata := rfl
@[simp] theorem State.setFp_rpoison : (s.setFp n uFp).rpoison = s.rpoison := rfl
@[simp] theorem State.setFp_out : (s.setFp n uFp).out = s.out := rfl

/-! ### setTl -/

@[simp] theorem State.setTl_pending : (s.setTl n uTl).pending = s.pending := rfl
@[simp] theorem State.setTl_mt : (s.setTl n uTl).mt = s.mt := rfl
@[simp] theorem State.setTl_regs : (s.setTl n uTl).regs = s.regs := rfl
@[simp] theorem State.setTl_applied : (s.setTl n uTl).applied = s.applied := rfl
@[simp] theorem State.setTl_staged : (s.setTl n uTl).staged = s.staged := rfl
@[simp] theorem State.setTl_perStg : (s.setTl n uTl).perStg = s.perStg := rfl
@[simp] theorem State.setTl_latch : (s.setTl n uTl).latch = s.latch := rfl
@[simp] theorem State.setTl_dram : (s.setTl n uTl).dram = s.dram := rfl
@[simp] theorem State.setTl_sram : (s.setTl n uTl).sram = s.sram := rfl
@[simp] theorem State.setTl_nor : (s.setTl n uTl).nor = s.nor := rfl
@[simp] theorem State.setTl_str : (s.setTl n uTl).str = s.str := rfl
@[simp] theorem State.setTl_sti : (s.setTl n uTl).sti = s.sti := rfl
@[simp] theorem State.setTl_seq : (s.setTl n uTl).seq = s.seq := rfl
@[simp] theorem State.setTl_chn : (s.setTl n uTl).chn = s.chn := rfl
@[simp] theorem State.setTl_wbuf : (s.setTl n uTl).wbuf = s.wbuf := rfl
@[simp] theorem State.setTl_ptbuf : (s.setTl n uTl).ptbuf = s.ptbuf := rfl
@[simp] theorem State.setTl_wold : (s.setTl n uTl).wold = s.wold := rfl
@[simp] theorem State.setTl_epochStop : (s.setTl n uTl).epochStop = s.epochStop := rfl
@[simp] theorem State.setTl_tmu : (s.setTl n uTl).tmu = s.tmu := rfl
@[simp] theorem State.setTl_stampQ : (s.setTl n uTl).stampQ = s.stampQ := rfl
@[simp] theorem State.setTl_acq : (s.setTl n uTl).acq = s.acq := rfl
@[simp] theorem State.setTl_cal : (s.setTl n uTl).cal = s.cal := rfl
@[simp] theorem State.setTl_ane : (s.setTl n uTl).ane = s.ane := rfl
@[simp] theorem State.setTl_drc : (s.setTl n uTl).drc = s.drc := rfl
@[simp] theorem State.setTl_dma : (s.setTl n uTl).dma = s.dma := rfl
@[simp] theorem State.setTl_port : (s.setTl n uTl).port = s.port := rfl
@[simp] theorem State.setTl_lane : (s.setTl n uTl).lane = kset (fun _ => {}) s.lane n uTl := rfl
@[simp] theorem State.setTl_mtb : (s.setTl n uTl).mtb = s.mtb := rfl
@[simp] theorem State.setTl_detected : (s.setTl n uTl).detected = s.detected := rfl
@[simp] theorem State.setTl_round : (s.setTl n uTl).round = s.round := rfl
@[simp] theorem State.setTl_fltNum : (s.setTl n uTl).fltNum = s.fltNum := rfl
@[simp] theorem State.setTl_norq : (s.setTl n uTl).norq = s.norq := rfl
@[simp] theorem State.setTl_erases : (s.setTl n uTl).erases = s.erases := rfl
@[simp] theorem State.setTl_sup : (s.setTl n uTl).sup = s.sup := rfl
@[simp] theorem State.setTl_keys : (s.setTl n uTl).keys = s.keys := rfl
@[simp] theorem State.setTl_recov : (s.setTl n uTl).recov = s.recov := rfl
@[simp] theorem State.setTl_applies : (s.setTl n uTl).applies = s.applies := rfl
@[simp] theorem State.setTl_pwr : (s.setTl n uTl).pwr = s.pwr := rfl
@[simp] theorem State.setTl_vfs : (s.setTl n uTl).vfs = s.vfs := rfl
@[simp] theorem State.setTl_msixOn : (s.setTl n uTl).msixOn = s.msixOn := rfl
@[simp] theorem State.setTl_msixMask : (s.setTl n uTl).msixMask = s.msixMask := rfl
@[simp] theorem State.setTl_msixPend : (s.setTl n uTl).msixPend = s.msixPend := rfl
@[simp] theorem State.setTl_pace : (s.setTl n uTl).pace = s.pace := rfl
@[simp] theorem State.setTl_paceNoted : (s.setTl n uTl).paceNoted = s.paceNoted := rfl
@[simp] theorem State.setTl_avsFrom : (s.setTl n uTl).avsFrom = s.avsFrom := rfl
@[simp] theorem State.setTl_spareUnlock : (s.setTl n uTl).spareUnlock = s.spareUnlock := rfl
@[simp] theorem State.setTl_jtag : (s.setTl n uTl).jtag = s.jtag := rfl
@[simp] theorem State.setTl_free : (s.setTl n uTl).free = s.free := rfl
@[simp] theorem State.setTl_rdata : (s.setTl n uTl).rdata = s.rdata := rfl
@[simp] theorem State.setTl_rpoison : (s.setTl n uTl).rpoison = s.rpoison := rfl
@[simp] theorem State.setTl_out : (s.setTl n uTl).out = s.out := rfl

/-! ### setFw -/

@[simp] theorem State.setFw_pending : (s.setFw n uFw).pending = s.pending := rfl
@[simp] theorem State.setFw_mt : (s.setFw n uFw).mt = s.mt := rfl
@[simp] theorem State.setFw_regs : (s.setFw n uFw).regs = s.regs := rfl
@[simp] theorem State.setFw_applied : (s.setFw n uFw).applied = s.applied := rfl
@[simp] theorem State.setFw_staged : (s.setFw n uFw).staged = s.staged := rfl
@[simp] theorem State.setFw_perStg : (s.setFw n uFw).perStg = s.perStg := rfl
@[simp] theorem State.setFw_latch : (s.setFw n uFw).latch = s.latch := rfl
@[simp] theorem State.setFw_dram : (s.setFw n uFw).dram = s.dram := rfl
@[simp] theorem State.setFw_sram : (s.setFw n uFw).sram = s.sram := rfl
@[simp] theorem State.setFw_nor : (s.setFw n uFw).nor = s.nor := rfl
@[simp] theorem State.setFw_str : (s.setFw n uFw).str = s.str := rfl
@[simp] theorem State.setFw_sti : (s.setFw n uFw).sti = s.sti := rfl
@[simp] theorem State.setFw_seq : (s.setFw n uFw).seq = s.seq := rfl
@[simp] theorem State.setFw_chn : (s.setFw n uFw).chn = s.chn := rfl
@[simp] theorem State.setFw_wbuf : (s.setFw n uFw).wbuf = s.wbuf := rfl
@[simp] theorem State.setFw_ptbuf : (s.setFw n uFw).ptbuf = s.ptbuf := rfl
@[simp] theorem State.setFw_wold : (s.setFw n uFw).wold = s.wold := rfl
@[simp] theorem State.setFw_epochStop : (s.setFw n uFw).epochStop = s.epochStop := rfl
@[simp] theorem State.setFw_tmu : (s.setFw n uFw).tmu = s.tmu := rfl
@[simp] theorem State.setFw_stampQ : (s.setFw n uFw).stampQ = s.stampQ := rfl
@[simp] theorem State.setFw_acq : (s.setFw n uFw).acq = s.acq := rfl
@[simp] theorem State.setFw_cal : (s.setFw n uFw).cal = s.cal := rfl
@[simp] theorem State.setFw_ane : (s.setFw n uFw).ane = { s.ane with flows := kset (fun _ => {}) s.ane.flows n uFw } := rfl
@[simp] theorem State.setFw_drc : (s.setFw n uFw).drc = s.drc := rfl
@[simp] theorem State.setFw_dma : (s.setFw n uFw).dma = s.dma := rfl
@[simp] theorem State.setFw_port : (s.setFw n uFw).port = s.port := rfl
@[simp] theorem State.setFw_lane : (s.setFw n uFw).lane = s.lane := rfl
@[simp] theorem State.setFw_mtb : (s.setFw n uFw).mtb = s.mtb := rfl
@[simp] theorem State.setFw_detected : (s.setFw n uFw).detected = s.detected := rfl
@[simp] theorem State.setFw_round : (s.setFw n uFw).round = s.round := rfl
@[simp] theorem State.setFw_fltNum : (s.setFw n uFw).fltNum = s.fltNum := rfl
@[simp] theorem State.setFw_norq : (s.setFw n uFw).norq = s.norq := rfl
@[simp] theorem State.setFw_erases : (s.setFw n uFw).erases = s.erases := rfl
@[simp] theorem State.setFw_sup : (s.setFw n uFw).sup = s.sup := rfl
@[simp] theorem State.setFw_keys : (s.setFw n uFw).keys = s.keys := rfl
@[simp] theorem State.setFw_recov : (s.setFw n uFw).recov = s.recov := rfl
@[simp] theorem State.setFw_applies : (s.setFw n uFw).applies = s.applies := rfl
@[simp] theorem State.setFw_pwr : (s.setFw n uFw).pwr = s.pwr := rfl
@[simp] theorem State.setFw_vfs : (s.setFw n uFw).vfs = s.vfs := rfl
@[simp] theorem State.setFw_msixOn : (s.setFw n uFw).msixOn = s.msixOn := rfl
@[simp] theorem State.setFw_msixMask : (s.setFw n uFw).msixMask = s.msixMask := rfl
@[simp] theorem State.setFw_msixPend : (s.setFw n uFw).msixPend = s.msixPend := rfl
@[simp] theorem State.setFw_pace : (s.setFw n uFw).pace = s.pace := rfl
@[simp] theorem State.setFw_paceNoted : (s.setFw n uFw).paceNoted = s.paceNoted := rfl
@[simp] theorem State.setFw_avsFrom : (s.setFw n uFw).avsFrom = s.avsFrom := rfl
@[simp] theorem State.setFw_spareUnlock : (s.setFw n uFw).spareUnlock = s.spareUnlock := rfl
@[simp] theorem State.setFw_jtag : (s.setFw n uFw).jtag = s.jtag := rfl
@[simp] theorem State.setFw_free : (s.setFw n uFw).free = s.free := rfl
@[simp] theorem State.setFw_rdata : (s.setFw n uFw).rdata = s.rdata := rfl
@[simp] theorem State.setFw_rpoison : (s.setFw n uFw).rpoison = s.rpoison := rfl
@[simp] theorem State.setFw_out : (s.setFw n uFw).out = s.out := rfl

/-! ### setEng -/

@[simp] theorem State.setEng_pending : (s.setEng n uEng).pending = s.pending := rfl
@[simp] theorem State.setEng_mt : (s.setEng n uEng).mt = s.mt := rfl
@[simp] theorem State.setEng_regs : (s.setEng n uEng).regs = s.regs := rfl
@[simp] theorem State.setEng_applied : (s.setEng n uEng).applied = s.applied := rfl
@[simp] theorem State.setEng_staged : (s.setEng n uEng).staged = s.staged := rfl
@[simp] theorem State.setEng_perStg : (s.setEng n uEng).perStg = s.perStg := rfl
@[simp] theorem State.setEng_latch : (s.setEng n uEng).latch = s.latch := rfl
@[simp] theorem State.setEng_dram : (s.setEng n uEng).dram = s.dram := rfl
@[simp] theorem State.setEng_sram : (s.setEng n uEng).sram = s.sram := rfl
@[simp] theorem State.setEng_nor : (s.setEng n uEng).nor = s.nor := rfl
@[simp] theorem State.setEng_str : (s.setEng n uEng).str = s.str := rfl
@[simp] theorem State.setEng_sti : (s.setEng n uEng).sti = s.sti := rfl
@[simp] theorem State.setEng_seq : (s.setEng n uEng).seq = s.seq := rfl
@[simp] theorem State.setEng_chn : (s.setEng n uEng).chn = s.chn := rfl
@[simp] theorem State.setEng_wbuf : (s.setEng n uEng).wbuf = s.wbuf := rfl
@[simp] theorem State.setEng_ptbuf : (s.setEng n uEng).ptbuf = s.ptbuf := rfl
@[simp] theorem State.setEng_wold : (s.setEng n uEng).wold = s.wold := rfl
@[simp] theorem State.setEng_epochStop : (s.setEng n uEng).epochStop = s.epochStop := rfl
@[simp] theorem State.setEng_tmu : (s.setEng n uEng).tmu = s.tmu := rfl
@[simp] theorem State.setEng_stampQ : (s.setEng n uEng).stampQ = s.stampQ := rfl
@[simp] theorem State.setEng_acq : (s.setEng n uEng).acq = s.acq := rfl
@[simp] theorem State.setEng_cal : (s.setEng n uEng).cal = s.cal := rfl
@[simp] theorem State.setEng_ane : (s.setEng n uEng).ane = { s.ane with engines := kset (fun _ => {}) s.ane.engines n uEng } := rfl
@[simp] theorem State.setEng_drc : (s.setEng n uEng).drc = s.drc := rfl
@[simp] theorem State.setEng_dma : (s.setEng n uEng).dma = s.dma := rfl
@[simp] theorem State.setEng_port : (s.setEng n uEng).port = s.port := rfl
@[simp] theorem State.setEng_lane : (s.setEng n uEng).lane = s.lane := rfl
@[simp] theorem State.setEng_mtb : (s.setEng n uEng).mtb = s.mtb := rfl
@[simp] theorem State.setEng_detected : (s.setEng n uEng).detected = s.detected := rfl
@[simp] theorem State.setEng_round : (s.setEng n uEng).round = s.round := rfl
@[simp] theorem State.setEng_fltNum : (s.setEng n uEng).fltNum = s.fltNum := rfl
@[simp] theorem State.setEng_norq : (s.setEng n uEng).norq = s.norq := rfl
@[simp] theorem State.setEng_erases : (s.setEng n uEng).erases = s.erases := rfl
@[simp] theorem State.setEng_sup : (s.setEng n uEng).sup = s.sup := rfl
@[simp] theorem State.setEng_keys : (s.setEng n uEng).keys = s.keys := rfl
@[simp] theorem State.setEng_recov : (s.setEng n uEng).recov = s.recov := rfl
@[simp] theorem State.setEng_applies : (s.setEng n uEng).applies = s.applies := rfl
@[simp] theorem State.setEng_pwr : (s.setEng n uEng).pwr = s.pwr := rfl
@[simp] theorem State.setEng_vfs : (s.setEng n uEng).vfs = s.vfs := rfl
@[simp] theorem State.setEng_msixOn : (s.setEng n uEng).msixOn = s.msixOn := rfl
@[simp] theorem State.setEng_msixMask : (s.setEng n uEng).msixMask = s.msixMask := rfl
@[simp] theorem State.setEng_msixPend : (s.setEng n uEng).msixPend = s.msixPend := rfl
@[simp] theorem State.setEng_pace : (s.setEng n uEng).pace = if uEng.ready.isEmpty then kset (fun _ => 0xFFFF) s.pace (0x22 + n) 0xFFFF else s.pace := rfl
@[simp] theorem State.setEng_paceNoted : (s.setEng n uEng).paceNoted = s.paceNoted := rfl
@[simp] theorem State.setEng_avsFrom : (s.setEng n uEng).avsFrom = s.avsFrom := rfl
@[simp] theorem State.setEng_spareUnlock : (s.setEng n uEng).spareUnlock = s.spareUnlock := rfl
@[simp] theorem State.setEng_jtag : (s.setEng n uEng).jtag = s.jtag := rfl
@[simp] theorem State.setEng_free : (s.setEng n uEng).free = s.free := rfl
@[simp] theorem State.setEng_rdata : (s.setEng n uEng).rdata = s.rdata := rfl
@[simp] theorem State.setEng_rpoison : (s.setEng n uEng).rpoison = s.rpoison := rfl
@[simp] theorem State.setEng_out : (s.setEng n uEng).out = s.out := rfl

/-! ### setBad -/

@[simp] theorem State.setBad_pending : (s.setBad n a).pending = s.pending := rfl
@[simp] theorem State.setBad_mt : (s.setBad n a).mt = s.mt := rfl
@[simp] theorem State.setBad_regs : (s.setBad n a).regs = s.regs := rfl
@[simp] theorem State.setBad_applied : (s.setBad n a).applied = s.applied := rfl
@[simp] theorem State.setBad_staged : (s.setBad n a).staged = s.staged := rfl
@[simp] theorem State.setBad_perStg : (s.setBad n a).perStg = s.perStg := rfl
@[simp] theorem State.setBad_latch : (s.setBad n a).latch = s.latch := rfl
@[simp] theorem State.setBad_dram : (s.setBad n a).dram = s.dram := rfl
@[simp] theorem State.setBad_sram : (s.setBad n a).sram = s.sram := rfl
@[simp] theorem State.setBad_nor : (s.setBad n a).nor = s.nor := rfl
@[simp] theorem State.setBad_str : (s.setBad n a).str = s.str := rfl
@[simp] theorem State.setBad_sti : (s.setBad n a).sti = s.sti := rfl
@[simp] theorem State.setBad_seq : (s.setBad n a).seq = s.seq := rfl
@[simp] theorem State.setBad_chn : (s.setBad n a).chn = s.chn := rfl
@[simp] theorem State.setBad_wbuf : (s.setBad n a).wbuf = s.wbuf := rfl
@[simp] theorem State.setBad_ptbuf : (s.setBad n a).ptbuf = s.ptbuf := rfl
@[simp] theorem State.setBad_wold : (s.setBad n a).wold = s.wold := rfl
@[simp] theorem State.setBad_epochStop : (s.setBad n a).epochStop = s.epochStop := rfl
@[simp] theorem State.setBad_tmu : (s.setBad n a).tmu = s.tmu := rfl
@[simp] theorem State.setBad_stampQ : (s.setBad n a).stampQ = s.stampQ := rfl
@[simp] theorem State.setBad_acq : (s.setBad n a).acq = s.acq := rfl
@[simp] theorem State.setBad_cal : (s.setBad n a).cal = s.cal := rfl
@[simp] theorem State.setBad_ane : (s.setBad n a).ane = s.ane := rfl
@[simp] theorem State.setBad_drc : (s.setBad n a).drc = { s.drc with bad := kset (fun _ => 0) s.drc.bad n a } := rfl
@[simp] theorem State.setBad_dma : (s.setBad n a).dma = s.dma := rfl
@[simp] theorem State.setBad_port : (s.setBad n a).port = s.port := rfl
@[simp] theorem State.setBad_lane : (s.setBad n a).lane = s.lane := rfl
@[simp] theorem State.setBad_mtb : (s.setBad n a).mtb = s.mtb := rfl
@[simp] theorem State.setBad_detected : (s.setBad n a).detected = s.detected := rfl
@[simp] theorem State.setBad_round : (s.setBad n a).round = s.round := rfl
@[simp] theorem State.setBad_fltNum : (s.setBad n a).fltNum = s.fltNum := rfl
@[simp] theorem State.setBad_norq : (s.setBad n a).norq = s.norq := rfl
@[simp] theorem State.setBad_erases : (s.setBad n a).erases = s.erases := rfl
@[simp] theorem State.setBad_sup : (s.setBad n a).sup = s.sup := rfl
@[simp] theorem State.setBad_keys : (s.setBad n a).keys = s.keys := rfl
@[simp] theorem State.setBad_recov : (s.setBad n a).recov = s.recov := rfl
@[simp] theorem State.setBad_applies : (s.setBad n a).applies = s.applies := rfl
@[simp] theorem State.setBad_pwr : (s.setBad n a).pwr = s.pwr := rfl
@[simp] theorem State.setBad_vfs : (s.setBad n a).vfs = s.vfs := rfl
@[simp] theorem State.setBad_msixOn : (s.setBad n a).msixOn = s.msixOn := rfl
@[simp] theorem State.setBad_msixMask : (s.setBad n a).msixMask = s.msixMask := rfl
@[simp] theorem State.setBad_msixPend : (s.setBad n a).msixPend = s.msixPend := rfl
@[simp] theorem State.setBad_pace : (s.setBad n a).pace = s.pace := rfl
@[simp] theorem State.setBad_paceNoted : (s.setBad n a).paceNoted = s.paceNoted := rfl
@[simp] theorem State.setBad_avsFrom : (s.setBad n a).avsFrom = s.avsFrom := rfl
@[simp] theorem State.setBad_spareUnlock : (s.setBad n a).spareUnlock = s.spareUnlock := rfl
@[simp] theorem State.setBad_jtag : (s.setBad n a).jtag = s.jtag := rfl
@[simp] theorem State.setBad_free : (s.setBad n a).free = s.free := rfl
@[simp] theorem State.setBad_rdata : (s.setBad n a).rdata = s.rdata := rfl
@[simp] theorem State.setBad_rpoison : (s.setBad n a).rpoison = s.rpoison := rfl
@[simp] theorem State.setBad_out : (s.setBad n a).out = s.out := rfl

/-! ### sramWr -/

@[simp] theorem State.sramWr_pending : (s.sramWr a bs).pending = s.pending := rfl
@[simp] theorem State.sramWr_mt : (s.sramWr a bs).mt = s.mt := rfl
@[simp] theorem State.sramWr_regs : (s.sramWr a bs).regs = s.regs := rfl
@[simp] theorem State.sramWr_applied : (s.sramWr a bs).applied = s.applied := rfl
@[simp] theorem State.sramWr_staged : (s.sramWr a bs).staged = s.staged := rfl
@[simp] theorem State.sramWr_perStg : (s.sramWr a bs).perStg = s.perStg := rfl
@[simp] theorem State.sramWr_latch : (s.sramWr a bs).latch = s.latch := rfl
@[simp] theorem State.sramWr_dram : (s.sramWr a bs).dram = s.dram := rfl
@[simp] theorem State.sramWr_sram : (s.sramWr a bs).sram = memWrite sramFill s.sram a bs := rfl
@[simp] theorem State.sramWr_nor : (s.sramWr a bs).nor = s.nor := rfl
@[simp] theorem State.sramWr_str : (s.sramWr a bs).str = s.str := rfl
@[simp] theorem State.sramWr_sti : (s.sramWr a bs).sti = s.sti := rfl
@[simp] theorem State.sramWr_seq : (s.sramWr a bs).seq = s.seq := rfl
@[simp] theorem State.sramWr_chn : (s.sramWr a bs).chn = s.chn := rfl
@[simp] theorem State.sramWr_wbuf : (s.sramWr a bs).wbuf = s.wbuf := rfl
@[simp] theorem State.sramWr_ptbuf : (s.sramWr a bs).ptbuf = s.ptbuf := rfl
@[simp] theorem State.sramWr_wold : (s.sramWr a bs).wold = s.wold := rfl
@[simp] theorem State.sramWr_epochStop : (s.sramWr a bs).epochStop = s.epochStop := rfl
@[simp] theorem State.sramWr_tmu : (s.sramWr a bs).tmu = s.tmu := rfl
@[simp] theorem State.sramWr_stampQ : (s.sramWr a bs).stampQ = s.stampQ := rfl
@[simp] theorem State.sramWr_acq : (s.sramWr a bs).acq = s.acq := rfl
@[simp] theorem State.sramWr_cal : (s.sramWr a bs).cal = s.cal := rfl
@[simp] theorem State.sramWr_ane : (s.sramWr a bs).ane = s.ane := rfl
@[simp] theorem State.sramWr_drc : (s.sramWr a bs).drc = s.drc := rfl
@[simp] theorem State.sramWr_dma : (s.sramWr a bs).dma = s.dma := rfl
@[simp] theorem State.sramWr_port : (s.sramWr a bs).port = s.port := rfl
@[simp] theorem State.sramWr_lane : (s.sramWr a bs).lane = s.lane := rfl
@[simp] theorem State.sramWr_mtb : (s.sramWr a bs).mtb = s.mtb := rfl
@[simp] theorem State.sramWr_detected : (s.sramWr a bs).detected = s.detected := rfl
@[simp] theorem State.sramWr_round : (s.sramWr a bs).round = s.round := rfl
@[simp] theorem State.sramWr_fltNum : (s.sramWr a bs).fltNum = s.fltNum := rfl
@[simp] theorem State.sramWr_norq : (s.sramWr a bs).norq = s.norq := rfl
@[simp] theorem State.sramWr_erases : (s.sramWr a bs).erases = s.erases := rfl
@[simp] theorem State.sramWr_sup : (s.sramWr a bs).sup = s.sup := rfl
@[simp] theorem State.sramWr_keys : (s.sramWr a bs).keys = s.keys := rfl
@[simp] theorem State.sramWr_recov : (s.sramWr a bs).recov = s.recov := rfl
@[simp] theorem State.sramWr_applies : (s.sramWr a bs).applies = s.applies := rfl
@[simp] theorem State.sramWr_pwr : (s.sramWr a bs).pwr = s.pwr := rfl
@[simp] theorem State.sramWr_vfs : (s.sramWr a bs).vfs = s.vfs := rfl
@[simp] theorem State.sramWr_msixOn : (s.sramWr a bs).msixOn = s.msixOn := rfl
@[simp] theorem State.sramWr_msixMask : (s.sramWr a bs).msixMask = s.msixMask := rfl
@[simp] theorem State.sramWr_msixPend : (s.sramWr a bs).msixPend = s.msixPend := rfl
@[simp] theorem State.sramWr_pace : (s.sramWr a bs).pace = s.pace := rfl
@[simp] theorem State.sramWr_paceNoted : (s.sramWr a bs).paceNoted = s.paceNoted := rfl
@[simp] theorem State.sramWr_avsFrom : (s.sramWr a bs).avsFrom = s.avsFrom := rfl
@[simp] theorem State.sramWr_spareUnlock : (s.sramWr a bs).spareUnlock = s.spareUnlock := rfl
@[simp] theorem State.sramWr_jtag : (s.sramWr a bs).jtag = s.jtag := rfl
@[simp] theorem State.sramWr_free : (s.sramWr a bs).free = s.free := rfl
@[simp] theorem State.sramWr_rdata : (s.sramWr a bs).rdata = s.rdata := rfl
@[simp] theorem State.sramWr_rpoison : (s.sramWr a bs).rpoison = s.rpoison := rfl
@[simp] theorem State.sramWr_out : (s.sramWr a bs).out = s.out := rfl

/-! ### norWr -/

@[simp] theorem State.norWr_pending : (s.norWr a bs).pending = s.pending := rfl
@[simp] theorem State.norWr_mt : (s.norWr a bs).mt = s.mt := rfl
@[simp] theorem State.norWr_regs : (s.norWr a bs).regs = s.regs := rfl
@[simp] theorem State.norWr_applied : (s.norWr a bs).applied = s.applied := rfl
@[simp] theorem State.norWr_staged : (s.norWr a bs).staged = s.staged := rfl
@[simp] theorem State.norWr_perStg : (s.norWr a bs).perStg = s.perStg := rfl
@[simp] theorem State.norWr_latch : (s.norWr a bs).latch = s.latch := rfl
@[simp] theorem State.norWr_dram : (s.norWr a bs).dram = s.dram := rfl
@[simp] theorem State.norWr_sram : (s.norWr a bs).sram = s.sram := rfl
@[simp] theorem State.norWr_nor : (s.norWr a bs).nor = memWrite norFill s.nor a bs := rfl
@[simp] theorem State.norWr_str : (s.norWr a bs).str = s.str := rfl
@[simp] theorem State.norWr_sti : (s.norWr a bs).sti = s.sti := rfl
@[simp] theorem State.norWr_seq : (s.norWr a bs).seq = s.seq := rfl
@[simp] theorem State.norWr_chn : (s.norWr a bs).chn = s.chn := rfl
@[simp] theorem State.norWr_wbuf : (s.norWr a bs).wbuf = s.wbuf := rfl
@[simp] theorem State.norWr_ptbuf : (s.norWr a bs).ptbuf = s.ptbuf := rfl
@[simp] theorem State.norWr_wold : (s.norWr a bs).wold = s.wold := rfl
@[simp] theorem State.norWr_epochStop : (s.norWr a bs).epochStop = s.epochStop := rfl
@[simp] theorem State.norWr_tmu : (s.norWr a bs).tmu = s.tmu := rfl
@[simp] theorem State.norWr_stampQ : (s.norWr a bs).stampQ = s.stampQ := rfl
@[simp] theorem State.norWr_acq : (s.norWr a bs).acq = s.acq := rfl
@[simp] theorem State.norWr_cal : (s.norWr a bs).cal = s.cal := rfl
@[simp] theorem State.norWr_ane : (s.norWr a bs).ane = s.ane := rfl
@[simp] theorem State.norWr_drc : (s.norWr a bs).drc = s.drc := rfl
@[simp] theorem State.norWr_dma : (s.norWr a bs).dma = s.dma := rfl
@[simp] theorem State.norWr_port : (s.norWr a bs).port = s.port := rfl
@[simp] theorem State.norWr_lane : (s.norWr a bs).lane = s.lane := rfl
@[simp] theorem State.norWr_mtb : (s.norWr a bs).mtb = s.mtb := rfl
@[simp] theorem State.norWr_detected : (s.norWr a bs).detected = s.detected := rfl
@[simp] theorem State.norWr_round : (s.norWr a bs).round = s.round := rfl
@[simp] theorem State.norWr_fltNum : (s.norWr a bs).fltNum = s.fltNum := rfl
@[simp] theorem State.norWr_norq : (s.norWr a bs).norq = s.norq := rfl
@[simp] theorem State.norWr_erases : (s.norWr a bs).erases = s.erases := rfl
@[simp] theorem State.norWr_sup : (s.norWr a bs).sup = s.sup := rfl
@[simp] theorem State.norWr_keys : (s.norWr a bs).keys = s.keys := rfl
@[simp] theorem State.norWr_recov : (s.norWr a bs).recov = s.recov := rfl
@[simp] theorem State.norWr_applies : (s.norWr a bs).applies = s.applies := rfl
@[simp] theorem State.norWr_pwr : (s.norWr a bs).pwr = s.pwr := rfl
@[simp] theorem State.norWr_vfs : (s.norWr a bs).vfs = s.vfs := rfl
@[simp] theorem State.norWr_msixOn : (s.norWr a bs).msixOn = s.msixOn := rfl
@[simp] theorem State.norWr_msixMask : (s.norWr a bs).msixMask = s.msixMask := rfl
@[simp] theorem State.norWr_msixPend : (s.norWr a bs).msixPend = s.msixPend := rfl
@[simp] theorem State.norWr_pace : (s.norWr a bs).pace = s.pace := rfl
@[simp] theorem State.norWr_paceNoted : (s.norWr a bs).paceNoted = s.paceNoted := rfl
@[simp] theorem State.norWr_avsFrom : (s.norWr a bs).avsFrom = s.avsFrom := rfl
@[simp] theorem State.norWr_spareUnlock : (s.norWr a bs).spareUnlock = s.spareUnlock := rfl
@[simp] theorem State.norWr_jtag : (s.norWr a bs).jtag = s.jtag := rfl
@[simp] theorem State.norWr_free : (s.norWr a bs).free = s.free := rfl
@[simp] theorem State.norWr_rdata : (s.norWr a bs).rdata = s.rdata := rfl
@[simp] theorem State.norWr_rpoison : (s.norWr a bs).rpoison = s.rpoison := rfl
@[simp] theorem State.norWr_out : (s.norWr a bs).out = s.out := rfl

/-! ### send -/

@[simp] theorem State.send_pending : (s.send o).pending = s.pending := rfl
@[simp] theorem State.send_mt : (s.send o).mt = s.mt := rfl
@[simp] theorem State.send_regs : (s.send o).regs = s.regs := rfl
@[simp] theorem State.send_applied : (s.send o).applied = s.applied := rfl
@[simp] theorem State.send_staged : (s.send o).staged = s.staged := rfl
@[simp] theorem State.send_perStg : (s.send o).perStg = s.perStg := rfl
@[simp] theorem State.send_latch : (s.send o).latch = s.latch := rfl
@[simp] theorem State.send_dram : (s.send o).dram = s.dram := rfl
@[simp] theorem State.send_sram : (s.send o).sram = s.sram := rfl
@[simp] theorem State.send_nor : (s.send o).nor = s.nor := rfl
@[simp] theorem State.send_str : (s.send o).str = s.str := rfl
@[simp] theorem State.send_sti : (s.send o).sti = s.sti := rfl
@[simp] theorem State.send_seq : (s.send o).seq = s.seq := rfl
@[simp] theorem State.send_chn : (s.send o).chn = s.chn := rfl
@[simp] theorem State.send_wbuf : (s.send o).wbuf = s.wbuf := rfl
@[simp] theorem State.send_ptbuf : (s.send o).ptbuf = s.ptbuf := rfl
@[simp] theorem State.send_wold : (s.send o).wold = s.wold := rfl
@[simp] theorem State.send_epochStop : (s.send o).epochStop = s.epochStop := rfl
@[simp] theorem State.send_tmu : (s.send o).tmu = s.tmu := rfl
@[simp] theorem State.send_stampQ : (s.send o).stampQ = s.stampQ := rfl
@[simp] theorem State.send_acq : (s.send o).acq = s.acq := rfl
@[simp] theorem State.send_cal : (s.send o).cal = s.cal := rfl
@[simp] theorem State.send_ane : (s.send o).ane = s.ane := rfl
@[simp] theorem State.send_drc : (s.send o).drc = s.drc := rfl
@[simp] theorem State.send_dma : (s.send o).dma = s.dma := rfl
@[simp] theorem State.send_port : (s.send o).port = s.port := rfl
@[simp] theorem State.send_lane : (s.send o).lane = s.lane := rfl
@[simp] theorem State.send_mtb : (s.send o).mtb = s.mtb := rfl
@[simp] theorem State.send_detected : (s.send o).detected = s.detected := rfl
@[simp] theorem State.send_round : (s.send o).round = s.round := rfl
@[simp] theorem State.send_fltNum : (s.send o).fltNum = s.fltNum := rfl
@[simp] theorem State.send_norq : (s.send o).norq = s.norq := rfl
@[simp] theorem State.send_erases : (s.send o).erases = s.erases := rfl
@[simp] theorem State.send_sup : (s.send o).sup = s.sup := rfl
@[simp] theorem State.send_keys : (s.send o).keys = s.keys := rfl
@[simp] theorem State.send_recov : (s.send o).recov = s.recov := rfl
@[simp] theorem State.send_applies : (s.send o).applies = s.applies := rfl
@[simp] theorem State.send_pwr : (s.send o).pwr = s.pwr := rfl
@[simp] theorem State.send_vfs : (s.send o).vfs = s.vfs := rfl
@[simp] theorem State.send_msixOn : (s.send o).msixOn = s.msixOn := rfl
@[simp] theorem State.send_msixMask : (s.send o).msixMask = s.msixMask := rfl
@[simp] theorem State.send_msixPend : (s.send o).msixPend = s.msixPend := rfl
@[simp] theorem State.send_pace : (s.send o).pace = s.pace := rfl
@[simp] theorem State.send_paceNoted : (s.send o).paceNoted = s.paceNoted := rfl
@[simp] theorem State.send_avsFrom : (s.send o).avsFrom = s.avsFrom := rfl
@[simp] theorem State.send_spareUnlock : (s.send o).spareUnlock = s.spareUnlock := rfl
@[simp] theorem State.send_jtag : (s.send o).jtag = s.jtag := rfl
@[simp] theorem State.send_free : (s.send o).free = s.free := rfl
@[simp] theorem State.send_rdata : (s.send o).rdata = s.rdata := rfl
@[simp] theorem State.send_rpoison : (s.send o).rpoison = s.rpoison := rfl
@[simp] theorem State.send_out : (s.send o).out = o :: s.out := rfl

/-! ### drawn -/

@[simp] theorem State.drawn_pending : (s.drawn).pending = s.pending := rfl
@[simp] theorem State.drawn_mt : (s.drawn).mt = s.mt := rfl
@[simp] theorem State.drawn_regs : (s.drawn).regs = s.regs := rfl
@[simp] theorem State.drawn_applied : (s.drawn).applied = s.applied := rfl
@[simp] theorem State.drawn_staged : (s.drawn).staged = s.staged := rfl
@[simp] theorem State.drawn_perStg : (s.drawn).perStg = s.perStg := rfl
@[simp] theorem State.drawn_latch : (s.drawn).latch = s.latch := rfl
@[simp] theorem State.drawn_dram : (s.drawn).dram = s.dram := rfl
@[simp] theorem State.drawn_sram : (s.drawn).sram = s.sram := rfl
@[simp] theorem State.drawn_nor : (s.drawn).nor = s.nor := rfl
@[simp] theorem State.drawn_str : (s.drawn).str = s.str := rfl
@[simp] theorem State.drawn_sti : (s.drawn).sti = s.sti := rfl
@[simp] theorem State.drawn_seq : (s.drawn).seq = s.seq := rfl
@[simp] theorem State.drawn_chn : (s.drawn).chn = s.chn := rfl
@[simp] theorem State.drawn_wbuf : (s.drawn).wbuf = s.wbuf := rfl
@[simp] theorem State.drawn_ptbuf : (s.drawn).ptbuf = s.ptbuf := rfl
@[simp] theorem State.drawn_wold : (s.drawn).wold = s.wold := rfl
@[simp] theorem State.drawn_epochStop : (s.drawn).epochStop = s.epochStop := rfl
@[simp] theorem State.drawn_tmu : (s.drawn).tmu = s.tmu := rfl
@[simp] theorem State.drawn_stampQ : (s.drawn).stampQ = s.stampQ := rfl
@[simp] theorem State.drawn_acq : (s.drawn).acq = s.acq := rfl
@[simp] theorem State.drawn_cal : (s.drawn).cal = s.cal := rfl
@[simp] theorem State.drawn_ane : (s.drawn).ane = s.ane := rfl
@[simp] theorem State.drawn_drc : (s.drawn).drc = s.drc := rfl
@[simp] theorem State.drawn_dma : (s.drawn).dma = s.dma := rfl
@[simp] theorem State.drawn_port : (s.drawn).port = s.port := rfl
@[simp] theorem State.drawn_lane : (s.drawn).lane = s.lane := rfl
@[simp] theorem State.drawn_mtb : (s.drawn).mtb = s.mtb := rfl
@[simp] theorem State.drawn_detected : (s.drawn).detected = s.detected := rfl
@[simp] theorem State.drawn_round : (s.drawn).round = s.round := rfl
@[simp] theorem State.drawn_fltNum : (s.drawn).fltNum = s.fltNum := rfl
@[simp] theorem State.drawn_norq : (s.drawn).norq = s.norq := rfl
@[simp] theorem State.drawn_erases : (s.drawn).erases = s.erases := rfl
@[simp] theorem State.drawn_sup : (s.drawn).sup = s.sup := rfl
@[simp] theorem State.drawn_keys : (s.drawn).keys = s.keys := rfl
@[simp] theorem State.drawn_recov : (s.drawn).recov = s.recov := rfl
@[simp] theorem State.drawn_applies : (s.drawn).applies = s.applies := rfl
@[simp] theorem State.drawn_pwr : (s.drawn).pwr = s.pwr := rfl
@[simp] theorem State.drawn_vfs : (s.drawn).vfs = s.vfs := rfl
@[simp] theorem State.drawn_msixOn : (s.drawn).msixOn = s.msixOn := rfl
@[simp] theorem State.drawn_msixMask : (s.drawn).msixMask = s.msixMask := rfl
@[simp] theorem State.drawn_msixPend : (s.drawn).msixPend = s.msixPend := rfl
@[simp] theorem State.drawn_pace : (s.drawn).pace = s.pace := rfl
@[simp] theorem State.drawn_paceNoted : (s.drawn).paceNoted = s.paceNoted := rfl
@[simp] theorem State.drawn_avsFrom : (s.drawn).avsFrom = s.avsFrom := rfl
@[simp] theorem State.drawn_spareUnlock : (s.drawn).spareUnlock = s.spareUnlock := rfl
@[simp] theorem State.drawn_jtag : (s.drawn).jtag = s.jtag := rfl
@[simp] theorem State.drawn_free : (s.drawn).free = s.free + 1 := rfl
@[simp] theorem State.drawn_rdata : (s.drawn).rdata = s.rdata := rfl
@[simp] theorem State.drawn_rpoison : (s.drawn).rpoison = s.rpoison := rfl
@[simp] theorem State.drawn_out : (s.drawn).out = s.out := rfl

/-! ### detect -/

@[simp] theorem State.detect_pending : (s.detect r).pending = s.pending := rfl
@[simp] theorem State.detect_mt : (s.detect r).mt = s.mt := rfl
@[simp] theorem State.detect_regs : (s.detect r).regs = s.regs := rfl
@[simp] theorem State.detect_applied : (s.detect r).applied = s.applied := rfl
@[simp] theorem State.detect_staged : (s.detect r).staged = s.staged := rfl
@[simp] theorem State.detect_perStg : (s.detect r).perStg = s.perStg := rfl
@[simp] theorem State.detect_latch : (s.detect r).latch = s.latch := rfl
@[simp] theorem State.detect_dram : (s.detect r).dram = s.dram := rfl
@[simp] theorem State.detect_sram : (s.detect r).sram = s.sram := rfl
@[simp] theorem State.detect_nor : (s.detect r).nor = s.nor := rfl
@[simp] theorem State.detect_str : (s.detect r).str = s.str := rfl
@[simp] theorem State.detect_sti : (s.detect r).sti = s.sti := rfl
@[simp] theorem State.detect_seq : (s.detect r).seq = s.seq := rfl
@[simp] theorem State.detect_chn : (s.detect r).chn = s.chn := rfl
@[simp] theorem State.detect_wbuf : (s.detect r).wbuf = s.wbuf := rfl
@[simp] theorem State.detect_ptbuf : (s.detect r).ptbuf = s.ptbuf := rfl
@[simp] theorem State.detect_wold : (s.detect r).wold = s.wold := rfl
@[simp] theorem State.detect_epochStop : (s.detect r).epochStop = s.epochStop := rfl
@[simp] theorem State.detect_tmu : (s.detect r).tmu = s.tmu := rfl
@[simp] theorem State.detect_stampQ : (s.detect r).stampQ = s.stampQ := rfl
@[simp] theorem State.detect_acq : (s.detect r).acq = s.acq := rfl
@[simp] theorem State.detect_cal : (s.detect r).cal = s.cal := rfl
@[simp] theorem State.detect_ane : (s.detect r).ane = s.ane := rfl
@[simp] theorem State.detect_drc : (s.detect r).drc = s.drc := rfl
@[simp] theorem State.detect_dma : (s.detect r).dma = s.dma := rfl
@[simp] theorem State.detect_port : (s.detect r).port = s.port := rfl
@[simp] theorem State.detect_lane : (s.detect r).lane = s.lane := rfl
@[simp] theorem State.detect_mtb : (s.detect r).mtb = s.mtb := rfl
@[simp] theorem State.detect_detected : (s.detect r).detected = s.detected ++ [r] := rfl
@[simp] theorem State.detect_round : (s.detect r).round = s.round := rfl
@[simp] theorem State.detect_fltNum : (s.detect r).fltNum = s.fltNum := rfl
@[simp] theorem State.detect_norq : (s.detect r).norq = s.norq := rfl
@[simp] theorem State.detect_erases : (s.detect r).erases = s.erases := rfl
@[simp] theorem State.detect_sup : (s.detect r).sup = s.sup := rfl
@[simp] theorem State.detect_keys : (s.detect r).keys = s.keys := rfl
@[simp] theorem State.detect_recov : (s.detect r).recov = s.recov := rfl
@[simp] theorem State.detect_applies : (s.detect r).applies = s.applies := rfl
@[simp] theorem State.detect_pwr : (s.detect r).pwr = s.pwr := rfl
@[simp] theorem State.detect_vfs : (s.detect r).vfs = s.vfs := rfl
@[simp] theorem State.detect_msixOn : (s.detect r).msixOn = s.msixOn := rfl
@[simp] theorem State.detect_msixMask : (s.detect r).msixMask = s.msixMask := rfl
@[simp] theorem State.detect_msixPend : (s.detect r).msixPend = s.msixPend := rfl
@[simp] theorem State.detect_pace : (s.detect r).pace = s.pace := rfl
@[simp] theorem State.detect_paceNoted : (s.detect r).paceNoted = s.paceNoted := rfl
@[simp] theorem State.detect_avsFrom : (s.detect r).avsFrom = s.avsFrom := rfl
@[simp] theorem State.detect_spareUnlock : (s.detect r).spareUnlock = s.spareUnlock := rfl
@[simp] theorem State.detect_jtag : (s.detect r).jtag = s.jtag := rfl
@[simp] theorem State.detect_free : (s.detect r).free = s.free := rfl
@[simp] theorem State.detect_rdata : (s.detect r).rdata = s.rdata := rfl
@[simp] theorem State.detect_rpoison : (s.detect r).rpoison = s.rpoison := rfl
@[simp] theorem State.detect_out : (s.detect r).out = s.out := rfl

/-! ### workNow -/

@[simp] theorem State.workNow_pending : (s.workNow n k).pending = s.pending := rfl
@[simp] theorem State.workNow_mt : (s.workNow n k).mt = s.mt := rfl
@[simp] theorem State.workNow_regs : (s.workNow n k).regs = s.regs := rfl
@[simp] theorem State.workNow_applied : (s.workNow n k).applied = s.applied := rfl
@[simp] theorem State.workNow_staged : (s.workNow n k).staged = s.staged := rfl
@[simp] theorem State.workNow_perStg : (s.workNow n k).perStg = s.perStg := rfl
@[simp] theorem State.workNow_latch : (s.workNow n k).latch = s.latch := rfl
@[simp] theorem State.workNow_dram : (s.workNow n k).dram = s.dram := rfl
@[simp] theorem State.workNow_sram : (s.workNow n k).sram = s.sram := rfl
@[simp] theorem State.workNow_nor : (s.workNow n k).nor = s.nor := rfl
@[simp] theorem State.workNow_str : (s.workNow n k).str = s.str := rfl
@[simp] theorem State.workNow_sti : (s.workNow n k).sti = s.sti := rfl
@[simp] theorem State.workNow_seq : (s.workNow n k).seq = s.seq := rfl
@[simp] theorem State.workNow_chn : (s.workNow n k).chn = s.chn := rfl
@[simp] theorem State.workNow_wbuf : (s.workNow n k).wbuf = s.wbuf := rfl
@[simp] theorem State.workNow_ptbuf : (s.workNow n k).ptbuf = s.ptbuf := rfl
@[simp] theorem State.workNow_wold : (s.workNow n k).wold = s.wold := rfl
@[simp] theorem State.workNow_epochStop : (s.workNow n k).epochStop = s.epochStop := rfl
@[simp] theorem State.workNow_tmu : (s.workNow n k).tmu = s.tmu := rfl
@[simp] theorem State.workNow_stampQ : (s.workNow n k).stampQ = s.stampQ := rfl
@[simp] theorem State.workNow_acq : (s.workNow n k).acq = s.acq := rfl
@[simp] theorem State.workNow_cal : (s.workNow n k).cal = s.cal := rfl
@[simp] theorem State.workNow_ane : (s.workNow n k).ane = s.ane := rfl
@[simp] theorem State.workNow_drc : (s.workNow n k).drc = s.drc := rfl
@[simp] theorem State.workNow_dma : (s.workNow n k).dma = s.dma := rfl
@[simp] theorem State.workNow_port : (s.workNow n k).port = s.port := rfl
@[simp] theorem State.workNow_lane : (s.workNow n k).lane = s.lane := rfl
@[simp] theorem State.workNow_mtb : (s.workNow n k).mtb = s.mtb := rfl
@[simp] theorem State.workNow_detected : (s.workNow n k).detected = s.detected := rfl
@[simp] theorem State.workNow_round : (s.workNow n k).round = s.round := rfl
@[simp] theorem State.workNow_fltNum : (s.workNow n k).fltNum = s.fltNum := rfl
@[simp] theorem State.workNow_norq : (s.workNow n k).norq = s.norq := rfl
@[simp] theorem State.workNow_erases : (s.workNow n k).erases = s.erases := rfl
@[simp] theorem State.workNow_sup : (s.workNow n k).sup = s.sup := rfl
@[simp] theorem State.workNow_keys : (s.workNow n k).keys = s.keys := rfl
@[simp] theorem State.workNow_recov : (s.workNow n k).recov = s.recov := rfl
@[simp] theorem State.workNow_applies : (s.workNow n k).applies = s.applies := rfl
@[simp] theorem State.workNow_pwr : (s.workNow n k).pwr = { s.pwr with workAt := kset (fun _ => 0) s.pwr.workAt (unitKey n k) s.mt } := rfl
@[simp] theorem State.workNow_vfs : (s.workNow n k).vfs = s.vfs := rfl
@[simp] theorem State.workNow_msixOn : (s.workNow n k).msixOn = s.msixOn := rfl
@[simp] theorem State.workNow_msixMask : (s.workNow n k).msixMask = s.msixMask := rfl
@[simp] theorem State.workNow_msixPend : (s.workNow n k).msixPend = s.msixPend := rfl
@[simp] theorem State.workNow_pace : (s.workNow n k).pace = s.pace := rfl
@[simp] theorem State.workNow_paceNoted : (s.workNow n k).paceNoted = s.paceNoted := rfl
@[simp] theorem State.workNow_avsFrom : (s.workNow n k).avsFrom = s.avsFrom := rfl
@[simp] theorem State.workNow_spareUnlock : (s.workNow n k).spareUnlock = s.spareUnlock := rfl
@[simp] theorem State.workNow_jtag : (s.workNow n k).jtag = s.jtag := rfl
@[simp] theorem State.workNow_free : (s.workNow n k).free = s.free := rfl
@[simp] theorem State.workNow_rdata : (s.workNow n k).rdata = s.rdata := rfl
@[simp] theorem State.workNow_rpoison : (s.workNow n k).rpoison = s.rpoison := rfl
@[simp] theorem State.workNow_out : (s.workNow n k).out = s.out := rfl

/-! ### answer -/

@[simp] theorem State.answer_pending : (s.answer ws).pending = s.pending := rfl
@[simp] theorem State.answer_mt : (s.answer ws).mt = s.mt := rfl
@[simp] theorem State.answer_regs : (s.answer ws).regs = s.regs := rfl
@[simp] theorem State.answer_applied : (s.answer ws).applied = s.applied := rfl
@[simp] theorem State.answer_staged : (s.answer ws).staged = s.staged := rfl
@[simp] theorem State.answer_perStg : (s.answer ws).perStg = s.perStg := rfl
@[simp] theorem State.answer_latch : (s.answer ws).latch = s.latch := rfl
@[simp] theorem State.answer_dram : (s.answer ws).dram = s.dram := rfl
@[simp] theorem State.answer_sram : (s.answer ws).sram = s.sram := rfl
@[simp] theorem State.answer_nor : (s.answer ws).nor = s.nor := rfl
@[simp] theorem State.answer_str : (s.answer ws).str = s.str := rfl
@[simp] theorem State.answer_sti : (s.answer ws).sti = s.sti := rfl
@[simp] theorem State.answer_seq : (s.answer ws).seq = s.seq := rfl
@[simp] theorem State.answer_chn : (s.answer ws).chn = s.chn := rfl
@[simp] theorem State.answer_wbuf : (s.answer ws).wbuf = s.wbuf := rfl
@[simp] theorem State.answer_ptbuf : (s.answer ws).ptbuf = s.ptbuf := rfl
@[simp] theorem State.answer_wold : (s.answer ws).wold = s.wold := rfl
@[simp] theorem State.answer_epochStop : (s.answer ws).epochStop = s.epochStop := rfl
@[simp] theorem State.answer_tmu : (s.answer ws).tmu = s.tmu := rfl
@[simp] theorem State.answer_stampQ : (s.answer ws).stampQ = s.stampQ := rfl
@[simp] theorem State.answer_acq : (s.answer ws).acq = s.acq := rfl
@[simp] theorem State.answer_cal : (s.answer ws).cal = s.cal := rfl
@[simp] theorem State.answer_ane : (s.answer ws).ane = s.ane := rfl
@[simp] theorem State.answer_drc : (s.answer ws).drc = s.drc := rfl
@[simp] theorem State.answer_dma : (s.answer ws).dma = s.dma := rfl
@[simp] theorem State.answer_port : (s.answer ws).port = s.port := rfl
@[simp] theorem State.answer_lane : (s.answer ws).lane = s.lane := rfl
@[simp] theorem State.answer_mtb : (s.answer ws).mtb = s.mtb := rfl
@[simp] theorem State.answer_detected : (s.answer ws).detected = s.detected := rfl
@[simp] theorem State.answer_round : (s.answer ws).round = s.round := rfl
@[simp] theorem State.answer_fltNum : (s.answer ws).fltNum = s.fltNum := rfl
@[simp] theorem State.answer_norq : (s.answer ws).norq = s.norq := rfl
@[simp] theorem State.answer_erases : (s.answer ws).erases = s.erases := rfl
@[simp] theorem State.answer_sup : (s.answer ws).sup = s.sup := rfl
@[simp] theorem State.answer_keys : (s.answer ws).keys = s.keys := rfl
@[simp] theorem State.answer_recov : (s.answer ws).recov = s.recov := rfl
@[simp] theorem State.answer_applies : (s.answer ws).applies = s.applies := rfl
@[simp] theorem State.answer_pwr : (s.answer ws).pwr = s.pwr := rfl
@[simp] theorem State.answer_vfs : (s.answer ws).vfs = s.vfs := rfl
@[simp] theorem State.answer_msixOn : (s.answer ws).msixOn = s.msixOn := rfl
@[simp] theorem State.answer_msixMask : (s.answer ws).msixMask = s.msixMask := rfl
@[simp] theorem State.answer_msixPend : (s.answer ws).msixPend = s.msixPend := rfl
@[simp] theorem State.answer_pace : (s.answer ws).pace = s.pace := rfl
@[simp] theorem State.answer_paceNoted : (s.answer ws).paceNoted = s.paceNoted := rfl
@[simp] theorem State.answer_avsFrom : (s.answer ws).avsFrom = s.avsFrom := rfl
@[simp] theorem State.answer_spareUnlock : (s.answer ws).spareUnlock = s.spareUnlock := rfl
@[simp] theorem State.answer_jtag : (s.answer ws).jtag = s.jtag := rfl
@[simp] theorem State.answer_free : (s.answer ws).free = s.free := rfl
@[simp] theorem State.answer_rdata : (s.answer ws).rdata = ws := rfl
@[simp] theorem State.answer_rpoison : (s.answer ws).rpoison = false := rfl
@[simp] theorem State.answer_out : (s.answer ws).out = s.out := rfl

/-! ### The operations that are one of these -/

theorem State.wrN_eq : s.wrN a n = s.wr a (word n) := rfl
theorem State.wrF_eq (hi lo : Nat) : s.wrF a hi lo n = s.wr a (setFld (s.rd a) hi lo n) := rfl
theorem State.setBits_eq : s.setBits a n = s.wr a (word ((s.rd a).toNat ||| n)) := rfl
theorem State.irq_eq : s.irq a n = s.wr a (word ((s.rd a).toNat ||| n)) := rfl
theorem State.clrBits_eq : s.clrBits a n = s.wr a (s.rd a &&& ~~~ (word n)) := rfl
theorem State.count_eq : s.count a n = s.wr a (word (sat 32 ((s.rd a).toNat + n))) := rfl
theorem State.countF_eq (hi lo : Nat) :
    s.countF a hi lo n = s.wr a (setFld (s.rd a) hi lo (sat (hi + 1 - lo) (s.rdF a hi lo + n))) := rfl
theorem State.note_eq : s.note n a k = s.detect { src := n, code := a, addr := k } := rfl
theorem State.noteReg_eq : s.noteReg n a k =
    s.detect { src := blockNum a, code := k, addr := a, rkind := 1, access := 1, rid := n } := rfl
theorem State.modFault_eq : s.modFault n a k = s.detect { src := n, cls := 3, chk := k, code := a } := rfl

end Sys2Proof.Machine
end

