-- ==== Sys2Proof/Laws/Regs.lean ====
section
/-! SUPPORT. Reading a register, a unit or a field after an update: what an update wrote reads back, and every other
register, unit and field reads as before. -/

namespace Sys2Proof.Machine

open Sys2Proof

variable (s : State) (a b c n k : Nat) (v : Word) (bs : List Byte) (uSq : SeqUnit) (uCh : ChUnit) (uTm : TmuUnit)
  (uAq : AcqUnit) (uDc : DmaUnit) (uFp : Port) (uTl : Lane) (uFw : FlowSt) (uEng : EngSt) (o : Output) (r : FaultRec)
  (ws : List Word)

/-! ### What was written reads back -/

@[simp] theorem State.rd_wr_same : (s.wr a v).rd a = v := kget_kset_same ..
theorem State.rd_wr_other {a b : Nat} (h : b ≠ a) : (s.wr a v).rd b = s.rd b := kget_kset_other _ _ _ h
theorem State.rd_wr : (s.wr a v).rd b = if b = a then v else s.rd b := kget_kset ..
@[simp] theorem State.apv_setApv_same : (s.setApv a v).apv a = v := kget_kset_same ..
theorem State.apv_setApv_other {a b : Nat} (h : b ≠ a) : (s.setApv a v).apv b = s.apv b := kget_kset_other _ _ _ h
@[simp] theorem State.sq_setSq_same : (s.setSq n uSq).sq n = uSq := kget_kset_same ..
theorem State.sq_setSq_other {n k : Nat} (h : k ≠ n) : (s.setSq n uSq).sq k = s.sq k := kget_kset_other _ _ _ h
@[simp] theorem State.ch_setCh_same : (s.setCh n uCh).ch n = uCh := kget_kset_same ..
theorem State.ch_setCh_other {n k : Nat} (h : k ≠ n) : (s.setCh n uCh).ch k = s.ch k := kget_kset_other _ _ _ h
@[simp] theorem State.tm_setTm_same : (s.setTm n uTm).tm n = uTm := kget_kset_same ..
theorem State.tm_setTm_other {n k : Nat} (h : k ≠ n) : (s.setTm n uTm).tm k = s.tm k := kget_kset_other _ _ _ h
@[simp] theorem State.aq_setAq_same : (s.setAq n uAq).aq n = uAq := kget_kset_same ..
theorem State.aq_setAq_other {n k : Nat} (h : k ≠ n) : (s.setAq n uAq).aq k = s.aq k := kget_kset_other _ _ _ h
@[simp] theorem State.dc_setDc_same : (s.setDc n uDc).dc n = uDc := kget_kset_same ..
theorem State.dc_setDc_other {n k : Nat} (h : k ≠ n) : (s.setDc n uDc).dc k = s.dc k := kget_kset_other _ _ _ h
@[simp] theorem State.fp_setFp_same : (s.setFp n uFp).fp n = uFp := kget_kset_same ..
theorem State.fp_setFp_other {n k : Nat} (h : k ≠ n) : (s.setFp n uFp).fp k = s.fp k := kget_kset_other _ _ _ h
@[simp] theorem State.tl_setTl_same : (s.setTl n uTl).tl n = uTl := kget_kset_same ..
theorem State.tl_setTl_other {n k : Nat} (h : k ≠ n) : (s.setTl n uTl).tl k = s.tl k := kget_kset_other _ _ _ h
@[simp] theorem State.fw_setFw_same : (s.setFw n uFw).fw n = uFw := kget_kset_same ..
theorem State.fw_setFw_other {n k : Nat} (h : k ≠ n) : (s.setFw n uFw).fw k = s.fw k := kget_kset_other _ _ _ h
@[simp] theorem State.eng_setEng_same : (s.setEng n uEng).eng n = uEng := kget_kset_same ..
theorem State.eng_setEng_other {n k : Nat} (h : k ≠ n) : (s.setEng n uEng).eng k = s.eng k := kget_kset_other _ _ _ h

/-! ### What an update leaves alone -/

@[simp] theorem State.wr_apv : (s.wr a v).apv b = s.apv b := rfl
@[simp] theorem State.wr_sq : (s.wr a v).sq b = s.sq b := rfl
@[simp] theorem State.wr_ch : (s.wr a v).ch b = s.ch b := rfl
@[simp] theorem State.wr_tm : (s.wr a v).tm b = s.tm b := rfl
@[simp] theorem State.wr_aq : (s.wr a v).aq b = s.aq b := rfl
@[simp] theorem State.wr_dc : (s.wr a v).dc b = s.dc b := rfl
@[simp] theorem State.wr_fp : (s.wr a v).fp b = s.fp b := rfl
@[simp] theorem State.wr_tl : (s.wr a v).tl b = s.tl b := rfl
@[simp] theorem State.wr_fw : (s.wr a v).fw b = s.fw b := rfl
@[simp] theorem State.wr_eng : (s.wr a v).eng b = s.eng b := rfl
@[simp] theorem State.wr_unit : (s.wr a v).unit b c = s.unit b c := rfl
@[simp] theorem State.wr_lineBad : (s.wr a v).lineBad b = s.lineBad b := rfl
@[simp] theorem State.setApv_rd : (s.setApv a v).rd b = s.rd b := rfl
@[simp] theorem State.setApv_sq : (s.setApv a v).sq b = s.sq b := rfl
@[simp] theorem State.setApv_ch : (s.setApv a v).ch b = s.ch b := rfl
@[simp] theorem State.setApv_tm : (s.setApv a v).tm b = s.tm b := rfl
@[simp] theorem State.setApv_aq : (s.setApv a v).aq b = s.aq b := rfl
@[simp] theorem State.setApv_dc : (s.setApv a v).dc b = s.dc b := rfl
@[simp] theorem State.setApv_fp : (s.setApv a v).fp b = s.fp b := rfl
@[simp] theorem State.setApv_tl : (s.setApv a v).tl b = s.tl b := rfl
@[simp] theorem State.setApv_fw : (s.setApv a v).fw b = s.fw b := rfl
@[simp] theorem State.setApv_eng : (s.setApv a v).eng b = s.eng b := rfl
@[simp] theorem State.setApv_unit : (s.setApv a v).unit b c = s.unit b c := rfl
@[simp] theorem State.setApv_lineBad : (s.setApv a v).lineBad b = s.lineBad b := rfl
@[simp] theorem State.setSq_rd : (s.setSq n uSq).rd b = s.rd b := rfl
@[simp] theorem State.setSq_apv : (s.setSq n uSq).apv b = s.apv b := rfl
@[simp] theorem State.setSq_ch : (s.setSq n uSq).ch b = s.ch b := rfl
@[simp] theorem State.setSq_tm : (s.setSq n uSq).tm b = s.tm b := rfl
@[simp] theorem State.setSq_aq : (s.setSq n uSq).aq b = s.aq b := rfl
@[simp] theorem State.setSq_dc : (s.setSq n uSq).dc b = s.dc b := rfl
@[simp] theorem State.setSq_fp : (s.setSq n uSq).fp b = s.fp b := rfl
@[simp] theorem State.setSq_tl : (s.setSq n uSq).tl b = s.tl b := rfl
@[simp] theorem State.setSq_fw : (s.setSq n uSq).fw b = s.fw b := rfl
@[simp] theorem State.setSq_eng : (s.setSq n uSq).eng b = s.eng b := rfl
@[simp] theorem State.setSq_unit : (s.setSq n uSq).unit b c = s.unit b c := rfl
@[simp] theorem State.setSq_lineBad : (s.setSq n uSq).lineBad b = s.lineBad b := rfl
@[simp] theorem State.setCh_rd : (s.setCh n uCh).rd b = s.rd b := rfl
@[simp] theorem State.setCh_apv : (s.setCh n uCh).apv b = s.apv b := rfl
@[simp] theorem State.setCh_sq : (s.setCh n uCh).sq b = s.sq b := rfl
@[simp] theorem State.setCh_tm : (s.setCh n uCh).tm b = s.tm b := rfl
@[simp] theorem State.setCh_aq : (s.setCh n uCh).aq b = s.aq b := rfl
@[simp] theorem State.setCh_dc : (s.setCh n uCh).dc b = s.dc b := rfl
@[simp] theorem State.setCh_fp : (s.setCh n uCh).fp b = s.fp b := rfl
@[simp] theorem State.setCh_tl : (s.setCh n uCh).tl b = s.tl b := rfl
@[simp] theorem State.setCh_fw : (s.setCh n uCh).fw b = s.fw b := rfl
@[simp] theorem State.setCh_eng : (s.setCh n uCh).eng b = s.eng b := rfl
@[simp] theorem State.setCh_unit : (s.setCh n uCh).unit b c = s.unit b c := rfl
@[simp] theorem State.setCh_lineBad : (s.setCh n uCh).lineBad b = s.lineBad b := rfl
@[simp] theorem State.setTm_rd : (s.setTm n uTm).rd b = s.rd b := rfl
@[simp] theorem State.setTm_apv : (s.setTm n uTm).apv b = s.apv b := rfl
@[simp] theorem State.setTm_sq : (s.setTm n uTm).sq b = s.sq b := rfl
@[simp] theorem State.setTm_ch : (s.setTm n uTm).ch b = s.ch b := rfl
@[simp] theorem State.setTm_aq : (s.setTm n uTm).aq b = s.aq b := rfl
@[simp] theorem State.setTm_dc : (s.setTm n uTm).dc b = s.dc b := rfl
@[simp] theorem State.setTm_fp : (s.setTm n uTm).fp b = s.fp b := rfl
@[simp] theorem State.setTm_tl : (s.setTm n uTm).tl b = s.tl b := rfl
@[simp] theorem State.setTm_fw : (s.setTm n uTm).fw b = s.fw b := rfl
@[simp] theorem State.setTm_eng : (s.setTm n uTm).eng b = s.eng b := rfl
@[simp] theorem State.setTm_unit : (s.setTm n uTm).unit b c = s.unit b c := rfl
@[simp] theorem State.setTm_lineBad : (s.setTm n uTm).lineBad b = s.lineBad b := rfl
@[simp] theorem State.setAq_rd : (s.setAq n uAq).rd b = s.rd b := rfl
@[simp] theorem State.setAq_apv : (s.setAq n uAq).apv b = s.apv b := rfl
@[simp] theorem State.setAq_sq : (s.setAq n uAq).sq b = s.sq b := rfl
@[simp] theorem State.setAq_ch : (s.setAq n uAq).ch b = s.ch b := rfl
@[simp] theorem State.setAq_tm : (s.setAq n uAq).tm b = s.tm b := rfl
@[simp] theorem State.setAq_dc : (s.setAq n uAq).dc b = s.dc b := rfl
@[simp] theorem State.setAq_fp : (s.setAq n uAq).fp b = s.fp b := rfl
@[simp] theorem State.setAq_tl : (s.setAq n uAq).tl b = s.tl b := rfl
@[simp] theorem State.setAq_fw : (s.setAq n uAq).fw b = s.fw b := rfl
@[simp] theorem State.setAq_eng : (s.setAq n uAq).eng b = s.eng b := rfl
@[simp] theorem State.setAq_unit : (s.setAq n uAq).unit b c = s.unit b c := rfl
@[simp] theorem State.setAq_lineBad : (s.setAq n uAq).lineBad b = s.lineBad b := rfl
@[simp] theorem State.setDc_rd : (s.setDc n uDc).rd b = s.rd b := rfl
@[simp] theorem State.setDc_apv : (s.setDc n uDc).apv b = s.apv b := rfl
@[simp] theorem State.setDc_sq : (s.setDc n uDc).sq b = s.sq b := rfl
@[simp] theorem State.setDc_ch : (s.setDc n uDc).ch b = s.ch b := rfl
@[simp] theorem State.setDc_tm : (s.setDc n uDc).tm b = s.tm b := rfl
@[simp] theorem State.setDc_aq : (s.setDc n uDc).aq b = s.aq b := rfl
@[simp] theorem State.setDc_fp : (s.setDc n uDc).fp b = s.fp b := rfl
@[simp] theorem State.setDc_tl : (s.setDc n uDc).tl b = s.tl b := rfl
@[simp] theorem State.setDc_fw : (s.setDc n uDc).fw b = s.fw b := rfl
@[simp] theorem State.setDc_eng : (s.setDc n uDc).eng b = s.eng b := rfl
@[simp] theorem State.setDc_unit : (s.setDc n uDc).unit b c = s.unit b c := rfl
@[simp] theorem State.setDc_lineBad : (s.setDc n uDc).lineBad b = s.lineBad b := rfl
@[simp] theorem State.setFp_rd : (s.setFp n uFp).rd b = s.rd b := rfl
@[simp] theorem State.setFp_apv : (s.setFp n uFp).apv b = s.apv b := rfl
@[simp] theorem State.setFp_sq : (s.setFp n uFp).sq b = s.sq b := rfl
@[simp] theorem State.setFp_ch : (s.setFp n uFp).ch b = s.ch b := rfl
@[simp] theorem State.setFp_tm : (s.setFp n uFp).tm b = s.tm b := rfl
@[simp] theorem State.setFp_aq : (s.setFp n uFp).aq b = s.aq b := rfl
@[simp] theorem State.setFp_dc : (s.setFp n uFp).dc b = s.dc b := rfl
@[simp] theorem State.setFp_tl : (s.setFp n uFp).tl b = s.tl b := rfl
@[simp] theorem State.setFp_fw : (s.setFp n uFp).fw b = s.fw b := rfl
@[simp] theorem State.setFp_eng : (s.setFp n uFp).eng b = s.eng b := rfl
@[simp] theorem State.setFp_unit : (s.setFp n uFp).unit b c = s.unit b c := rfl
@[simp] theorem State.setFp_lineBad : (s.setFp n uFp).lineBad b = s.lineBad b := rfl
@[simp] theorem State.setTl_rd : (s.setTl n uTl).rd b = s.rd b := rfl
@[simp] theorem State.setTl_apv : (s.setTl n uTl).apv b = s.apv b := rfl
@[simp] theorem State.setTl_sq : (s.setTl n uTl).sq b = s.sq b := rfl
@[simp] theorem State.setTl_ch : (s.setTl n uTl).ch b = s.ch b := rfl
@[simp] theorem State.setTl_tm : (s.setTl n uTl).tm b = s.tm b := rfl
@[simp] theorem State.setTl_aq : (s.setTl n uTl).aq b = s.aq b := rfl
@[simp] theorem State.setTl_dc : (s.setTl n uTl).dc b = s.dc b := rfl
@[simp] theorem State.setTl_fp : (s.setTl n uTl).fp b = s.fp b := rfl
@[simp] theorem State.setTl_fw : (s.setTl n uTl).fw b = s.fw b := rfl
@[simp] theorem State.setTl_eng : (s.setTl n uTl).eng b = s.eng b := rfl
@[simp] theorem State.setTl_unit : (s.setTl n uTl).unit b c = s.unit b c := rfl
@[simp] theorem State.setTl_lineBad : (s.setTl n uTl).lineBad b = s.lineBad b := rfl
@[simp] theorem State.setFw_rd : (s.setFw n uFw).rd b = s.rd b := rfl
@[simp] theorem State.setFw_apv : (s.setFw n uFw).apv b = s.apv b := rfl
@[simp] theorem State.setFw_sq : (s.setFw n uFw).sq b = s.sq b := rfl
@[simp] theorem State.setFw_ch : (s.setFw n uFw).ch b = s.ch b := rfl
@[simp] theorem State.setFw_tm : (s.setFw n uFw).tm b = s.tm b := rfl
@[simp] theorem State.setFw_aq : (s.setFw n uFw).aq b = s.aq b := rfl
@[simp] theorem State.setFw_dc : (s.setFw n uFw).dc b = s.dc b := rfl
@[simp] theorem State.setFw_fp : (s.setFw n uFw).fp b = s.fp b := rfl
@[simp] theorem State.setFw_tl : (s.setFw n uFw).tl b = s.tl b := rfl
@[simp] theorem State.setFw_eng : (s.setFw n uFw).eng b = s.eng b := rfl
@[simp] theorem State.setFw_unit : (s.setFw n uFw).unit b c = s.unit b c := rfl
@[simp] theorem State.setFw_lineBad : (s.setFw n uFw).lineBad b = s.lineBad b := rfl
@[simp] theorem State.setEng_rd : (s.setEng n uEng).rd b = s.rd b := rfl
@[simp] theorem State.setEng_apv : (s.setEng n uEng).apv b = s.apv b := rfl
@[simp] theorem State.setEng_sq : (s.setEng n uEng).sq b = s.sq b := rfl
@[simp] theorem State.setEng_ch : (s.setEng n uEng).ch b = s.ch b := rfl
@[simp] theorem State.setEng_tm : (s.setEng n uEng).tm b = s.tm b := rfl
@[simp] theorem State.setEng_aq : (s.setEng n uEng).aq b = s.aq b := rfl
@[simp] theorem State.setEng_dc : (s.setEng n uEng).dc b = s.dc b := rfl
@[simp] theorem State.setEng_fp : (s.setEng n uEng).fp b = s.fp b := rfl
@[simp] theorem State.setEng_tl : (s.setEng n uEng).tl b = s.tl b := rfl
@[simp] theorem State.setEng_fw : (s.setEng n uEng).fw b = s.fw b := rfl
@[simp] theorem State.setEng_unit : (s.setEng n uEng).unit b c = s.unit b c := rfl
@[simp] theorem State.setEng_lineBad : (s.setEng n uEng).lineBad b = s.lineBad b := rfl
@[simp] theorem State.setBad_rd : (s.setBad n a).rd b = s.rd b := rfl
@[simp] theorem State.setBad_apv : (s.setBad n a).apv b = s.apv b := rfl
@[simp] theorem State.setBad_sq : (s.setBad n a).sq b = s.sq b := rfl
@[simp] theorem State.setBad_ch : (s.setBad n a).ch b = s.ch b := rfl
@[simp] theorem State.setBad_tm : (s.setBad n a).tm b = s.tm b := rfl
@[simp] theorem State.setBad_aq : (s.setBad n a).aq b = s.aq b := rfl
@[simp] theorem State.setBad_dc : (s.setBad n a).dc b = s.dc b := rfl
@[simp] theorem State.setBad_fp : (s.setBad n a).fp b = s.fp b := rfl
@[simp] theorem State.setBad_tl : (s.setBad n a).tl b = s.tl b := rfl
@[simp] theorem State.setBad_fw : (s.setBad n a).fw b = s.fw b := rfl
@[simp] theorem State.setBad_eng : (s.setBad n a).eng b = s.eng b := rfl
@[simp] theorem State.setBad_unit : (s.setBad n a).unit b c = s.unit b c := rfl
@[simp] theorem State.sramWr_rd : (s.sramWr a bs).rd b = s.rd b := rfl
@[simp] theorem State.sramWr_apv : (s.sramWr a bs).apv b = s.apv b := rfl
@[simp] theorem State.sramWr_sq : (s.sramWr a bs).sq b = s.sq b := rfl
@[simp] theorem State.sramWr_ch : (s.sramWr a bs).ch b = s.ch b := rfl
@[simp] theorem State.sramWr_tm : (s.sramWr a bs).tm b = s.tm b := rfl
@[simp] theorem State.sramWr_aq : (s.sramWr a bs).aq b = s.aq b := rfl
@[simp] theorem State.sramWr_dc : (s.sramWr a bs).dc b = s.dc b := rfl
@[simp] theorem State.sramWr_fp : (s.sramWr a bs).fp b = s.fp b := rfl
@[simp] theorem State.sramWr_tl : (s.sramWr a bs).tl b = s.tl b := rfl
@[simp] theorem State.sramWr_fw : (s.sramWr a bs).fw b = s.fw b := rfl
@[simp] theorem State.sramWr_eng : (s.sramWr a bs).eng b = s.eng b := rfl
@[simp] theorem State.sramWr_unit : (s.sramWr a bs).unit b c = s.unit b c := rfl
@[simp] theorem State.sramWr_lineBad : (s.sramWr a bs).lineBad b = s.lineBad b := rfl
@[simp] theorem State.norWr_rd : (s.norWr a bs).rd b = s.rd b := rfl
@[simp] theorem State.norWr_apv : (s.norWr a bs).apv b = s.apv b := rfl
@[simp] theorem State.norWr_sq : (s.norWr a bs).sq b = s.sq b := rfl
@[simp] theorem State.norWr_ch : (s.norWr a bs).ch b = s.ch b := rfl
@[simp] theorem State.norWr_tm : (s.norWr a bs).tm b = s.tm b := rfl
@[simp] theorem State.norWr_aq : (s.norWr a bs).aq b = s.aq b := rfl
@[simp] theorem State.norWr_dc : (s.norWr a bs).dc b = s.dc b := rfl
@[simp] theorem State.norWr_fp : (s.norWr a bs).fp b = s.fp b := rfl
@[simp] theorem State.norWr_tl : (s.norWr a bs).tl b = s.tl b := rfl
@[simp] theorem State.norWr_fw : (s.norWr a bs).fw b = s.fw b := rfl
@[simp] theorem State.norWr_eng : (s.norWr a bs).eng b = s.eng b := rfl
@[simp] theorem State.norWr_unit : (s.norWr a bs).unit b c = s.unit b c := rfl
@[simp] theorem State.norWr_lineBad : (s.norWr a bs).lineBad b = s.lineBad b := rfl
@[simp] theorem State.send_rd : (s.send o).rd b = s.rd b := rfl
@[simp] theorem State.send_apv : (s.send o).apv b = s.apv b := rfl
@[simp] theorem State.send_sq : (s.send o).sq b = s.sq b := rfl
@[simp] theorem State.send_ch : (s.send o).ch b = s.ch b := rfl
@[simp] theorem State.send_tm : (s.send o).tm b = s.tm b := rfl
@[simp] theorem State.send_aq : (s.send o).aq b = s.aq b := rfl
@[simp] theorem State.send_dc : (s.send o).dc b = s.dc b := rfl
@[simp] theorem State.send_fp : (s.send o).fp b = s.fp b := rfl
@[simp] theorem State.send_tl : (s.send o).tl b = s.tl b := rfl
@[simp] theorem State.send_fw : (s.send o).fw b = s.fw b := rfl
@[simp] theorem State.send_eng : (s.send o).eng b = s.eng b := rfl
@[simp] theorem State.send_unit : (s.send o).unit b c = s.unit b c := rfl
@[simp] theorem State.send_lineBad : (s.send o).lineBad b = s.lineBad b := rfl
@[simp] theorem State.drawn_rd : (s.drawn).rd b = s.rd b := rfl
@[simp] theorem State.drawn_apv : (s.drawn).apv b = s.apv b := rfl
@[simp] theorem State.drawn_sq : (s.drawn).sq b = s.sq b := rfl
@[simp] theorem State.drawn_ch : (s.drawn).ch b = s.ch b := rfl
@[simp] theorem State.drawn_tm : (s.drawn).tm b = s.tm b := rfl
@[simp] theorem State.drawn_aq : (s.drawn).aq b = s.aq b := rfl
@[simp] theorem State.drawn_dc : (s.drawn).dc b = s.dc b := rfl
@[simp] theorem State.drawn_fp : (s.drawn).fp b = s.fp b := rfl
@[simp] theorem State.drawn_tl : (s.drawn).tl b = s.tl b := rfl
@[simp] theorem State.drawn_fw : (s.drawn).fw b = s.fw b := rfl
@[simp] theorem State.drawn_eng : (s.drawn).eng b = s.eng b := rfl
@[simp] theorem State.drawn_unit : (s.drawn).unit b c = s.unit b c := rfl
@[simp] theorem State.drawn_lineBad : (s.drawn).lineBad b = s.lineBad b := rfl
@[simp] theorem State.detect_rd : (s.detect r).rd b = s.rd b := rfl
@[simp] theorem State.detect_apv : (s.detect r).apv b = s.apv b := rfl
@[simp] theorem State.detect_sq : (s.detect r).sq b = s.sq b := rfl
@[simp] theorem State.detect_ch : (s.detect r).ch b = s.ch b := rfl
@[simp] theorem State.detect_tm : (s.detect r).tm b = s.tm b := rfl
@[simp] theorem State.detect_aq : (s.detect r).aq b = s.aq b := rfl
@[simp] theorem State.detect_dc : (s.detect r).dc b = s.dc b := rfl
@[simp] theorem State.detect_fp : (s.detect r).fp b = s.fp b := rfl
@[simp] theorem State.detect_tl : (s.detect r).tl b = s.tl b := rfl
@[simp] theorem State.detect_fw : (s.detect r).fw b = s.fw b := rfl
@[simp] theorem State.detect_eng : (s.detect r).eng b = s.eng b := rfl
@[simp] theorem State.detect_unit : (s.detect r).unit b c = s.unit b c := rfl
@[simp] theorem State.detect_lineBad : (s.detect r).lineBad b = s.lineBad b := rfl
@[simp] theorem State.answer_rd : (s.answer ws).rd b = s.rd b := rfl
@[simp] theorem State.answer_apv : (s.answer ws).apv b = s.apv b := rfl
@[simp] theorem State.answer_sq : (s.answer ws).sq b = s.sq b := rfl
@[simp] theorem State.answer_ch : (s.answer ws).ch b = s.ch b := rfl
@[simp] theorem State.answer_tm : (s.answer ws).tm b = s.tm b := rfl
@[simp] theorem State.answer_aq : (s.answer ws).aq b = s.aq b := rfl
@[simp] theorem State.answer_dc : (s.answer ws).dc b = s.dc b := rfl
@[simp] theorem State.answer_fp : (s.answer ws).fp b = s.fp b := rfl
@[simp] theorem State.answer_tl : (s.answer ws).tl b = s.tl b := rfl
@[simp] theorem State.answer_fw : (s.answer ws).fw b = s.fw b := rfl
@[simp] theorem State.answer_eng : (s.answer ws).eng b = s.eng b := rfl
@[simp] theorem State.answer_unit : (s.answer ws).unit b c = s.unit b c := rfl
@[simp] theorem State.answer_lineBad : (s.answer ws).lineBad b = s.lineBad b := rfl

/-! ### Fields -/

theorem State.rdF_eq (hi lo : Nat) : s.rdF a hi lo = fld (s.rd a) hi lo := rfl

theorem fld_lt (hi lo : Nat) : fld v hi lo < 2 ^ (hi + 1 - lo) := Nat.mod_lt _ (Nat.two_pow_pos _)

/-- A number cut into the bits above hi, the field hi … lo, and the bits below lo. -/
theorem cut_field (m hi lo : Nat) (hl : lo ≤ hi) :
    m = 2 ^ lo * (2 ^ (hi + 1 - lo) * (m / 2 ^ (hi + 1)) + m / 2 ^ lo % 2 ^ (hi + 1 - lo)) + m % 2 ^ lo := by
  have e : 2 ^ (hi + 1) = 2 ^ lo * 2 ^ (hi + 1 - lo) := by rw [← Nat.pow_add]; congr 1; omega
  rw [e, ← Nat.div_div_eq_div_mul, Nat.div_add_mod, Nat.div_add_mod]

/-- The bits of a word with a field set. -/
theorem setFld_testBit (hi lo x i : Nat) (h : hi < 32) (hl : lo ≤ hi) :
    (setFld v hi lo x).toNat.testBit i =
      if lo ≤ i ∧ i ≤ hi then x.testBit (i - lo) else v.toNat.testBit i := by
  have hc := cut_field v.toNat hi lo hl
  have hr : v.toNat % 2 ^ lo < 2 ^ lo := Nat.mod_lt _ (Nat.two_pow_pos _)
  have hv := v.isLt
  unfold setFld fld
  generalize v.toNat = m at *
  generalize hq : m / 2 ^ (hi + 1) = q at *
  generalize hf : m / 2 ^ lo % 2 ^ (hi + 1 - lo) = f at *
  generalize m % 2 ^ lo = r at *
  have hfl : f < 2 ^ (hi + 1 - lo) := hf ▸ Nat.mod_lt _ (Nat.two_pow_pos _)
  have hs : m - 2 ^ lo * f = 2 ^ lo * (2 ^ (hi + 1 - lo) * q) + r := by
    rw [hc, Nat.mul_add]; omega
  rw [hs, BitVec.toNat_ofNat, Nat.testBit_mod_two_pow,
    show 2 ^ lo * (2 ^ (hi + 1 - lo) * q) + r + 2 ^ lo * (x % 2 ^ (hi + 1 - lo)) =
      2 ^ lo * (2 ^ (hi + 1 - lo) * q + x % 2 ^ (hi + 1 - lo)) + r by rw [Nat.mul_add]; omega,
    Nat.testBit_two_pow_mul_add _ hr, Nat.testBit_two_pow_mul_add _ (Nat.mod_lt _ (Nat.two_pow_pos _))]
  have hm : m.testBit i = if i < lo then r.testBit i else if i - lo < hi + 1 - lo then f.testBit (i - lo)
      else q.testBit (i - lo - (hi + 1 - lo)) := by
    conv_lhs => rw [hc]
    rw [Nat.testBit_two_pow_mul_add _ hr, Nat.testBit_two_pow_mul_add _ hfl]
  rw [hm, Nat.testBit_mod_two_pow]
  by_cases h1 : i < lo
  · have h2 : ¬(lo ≤ i ∧ i ≤ hi) := by omega
    have h3 : i < 32 := by omega
    simp [h1, h2, h3]
  · by_cases h2 : i ≤ hi
    · have h3 : i < 32 := by omega
      have h4 : lo ≤ i ∧ i ≤ hi := by omega
      have h5 : i - lo < hi + 1 - lo := by omega
      simp [h1, h3, h4, h5]
    · have h4 : ¬(lo ≤ i ∧ i ≤ hi) := by omega
      have h5 : ¬ i - lo < hi + 1 - lo := by omega
      by_cases h3 : i < 32
      · simp [h1, h3, h4, h5]
      · have hz : q.testBit (i - lo - (hi + 1 - lo)) = false := by
          have := Nat.testBit_lt_two_pow (x := m) (i := i) (lt_of_lt_of_le hv (Nat.pow_le_pow_right (by decide) (by omega)))
          rwa [hm, if_neg h1, if_neg h5] at this
        simp [h1, h3, h4, h5, hz]

/-- The bits of a field. -/
theorem fld_testBit (hi lo i : Nat) :
    (fld v hi lo).testBit i = (decide (i < hi + 1 - lo) && v.toNat.testBit (lo + i)) := by
  rw [fld, Nat.testBit_mod_two_pow, Nat.testBit_div_two_pow, Nat.add_comm i lo]

/-- A field that was set reads back what it was set to, cut to its width. -/
theorem fld_setFld_same (hi lo x : Nat) (h : hi < 32) (hl : lo ≤ hi) :
    fld (setFld v hi lo x) hi lo = x % 2 ^ (hi + 1 - lo) := by
  refine Nat.eq_of_testBit_eq fun i => ?_
  rw [fld_testBit, setFld_testBit _ _ _ _ _ h hl, Nat.testBit_mod_two_pow, Nat.add_sub_cancel_left]
  by_cases hi' : i < hi + 1 - lo
  · have : lo ≤ lo + i ∧ lo + i ≤ hi := by omega
    simp [hi', this]
  · simp [hi']

/-- A field apart from the one set reads as before. -/
theorem fld_setFld_other (hi lo x hi2 lo2 : Nat) (h : hi < 32) (hl : lo ≤ hi) (hd : hi2 < lo ∨ hi < lo2) :
    fld (setFld v hi lo x) hi2 lo2 = fld v hi2 lo2 := by
  refine Nat.eq_of_testBit_eq fun i => ?_
  rw [fld_testBit, fld_testBit, setFld_testBit _ _ _ _ _ h hl]
  by_cases hi' : i < hi2 + 1 - lo2
  · have : ¬(lo ≤ lo2 + i ∧ lo2 + i ≤ hi) := by omega
    simp [this]
  · simp [hi']

end Sys2Proof.Machine
end

