-- ==== Sys2Proof/Laws/Access.lean ====
section
/-! SUPPORT. The guards every meaning stands behind: a host access that is served, an event that is due. -/

namespace Sys2Proof.Machine

open Sys2Proof

/-- A write that reaches its register acts. -/
theorem State.hostWrite_writes {s : State} {dom a : Nat} (h : s.Writes dom a) (k : State → State) :
    s.hostWrite dom a k = k s := by
  unfold State.Writes at h
  rw [State.hostWrite, h]

/-- A read that reaches its register answers. -/
theorem State.hostRead_reads {s : State} {dom a : Nat} (h : s.Reads dom a) (k : State → State × List Word) :
    s.hostRead dom a k = (k s).1.answer (k s).2 := by
  unfold State.Reads at h
  rw [State.hostRead, h]

/-- An event that is due, in a module that runs, acts. -/
theorem State.whenDue_due {s : State} {due : Bool} (hp : s.runs = true) (hd : due = true) (k : State → State) :
    s.whenDue due k = k s := by
  rw [State.whenDue, hp, hd]
  rfl

/-- An event of what runs in Safe mode too acts in a module with power. -/
theorem State.whenOn_due {s : State} {due : Bool} (hp : s.pwr.on = true) (hd : due = true) (k : State → State) :
    s.whenOn due k = k s := by
  rw [State.whenOn, hp, hd]
  rfl

/-- A module that runs has power. -/
theorem State.runs_on {s : State} (h : s.runs = true) : s.pwr.on = true := by
  simp only [State.runs, Bool.and_eq_true] at h
  exact h.1

/-- A module that runs is not in Safe mode. -/
theorem State.runs_safe {s : State} (h : s.runs = true) : s.safeMode = false := by
  simp only [State.runs, Bool.and_eq_true, Bool.not_eq_true'] at h
  exact h.2

/-- An event of what runs in Safe mode too that is not due changes nothing. -/
theorem State.whenOn_not {s : State} {due : Bool} (hd : due = false) (k : State → State) : s.whenOn due k = s := by
  rw [State.whenOn, hd, Bool.and_false]
  rfl

/-- An event that is not due changes nothing. -/
theorem State.whenDue_not {s : State} {due : Bool} (hd : due = false) (k : State → State) : s.whenDue due k = s := by
  rw [State.whenDue, hd, Bool.and_false]
  rfl

/-- What a host write can do: what its block does in a state the checks serve, or what the checks answer. -/
theorem State.hostWrite_cases (s : State) (dom a : Nat) (k : State → State) :
    (∃ t, s.access dom a true = .serve t ∧ s.hostWrite dom a k = k t) ∨
      ∃ t w, s.access dom a true = .answer t w ∧ s.hostWrite dom a k = t := by
  unfold State.hostWrite
  cases h : s.access dom a true with
  | serve t => exact .inl ⟨t, rfl, rfl⟩
  | answer t w => exact .inr ⟨t, w, rfl, rfl⟩

/-! ### Frames -/

theorem RegsKept.refl (l : List Nat) (s : State) : RegsKept l s s := fun _ _ => rfl

theorem RegsKept.wr {l : List Nat} {s t : State} (h : RegsKept l s t) (a : Nat) (v : Word) (ha : a ∈ l) :
    RegsKept l s (t.wr a v) := fun b hb => by
  have hne : b ≠ a := fun e => hb (by rw [e]; exact ha)
  rw [State.rd_wr_other t v hne, h b hb]

theorem RegsOnly.refl (l : List Nat) (s : State) : RegsOnly l s s := ⟨RegsKept.refl l s, rfl⟩

theorem RegsOnly.wr {l : List Nat} {s t : State} (h : RegsOnly l s t) (a : Nat) (v : Word) (ha : a ∈ l) :
    RegsOnly l s (t.wr a v) := ⟨h.1.wr a v ha, by rw [h.2]; rfl⟩

theorem MemKept.refl (s : State) : MemKept s s := ⟨fun _ => rfl, fun _ => rfl, fun _ => rfl⟩

theorem MemKept.of_eq {s t : State} (h1 : t.dram = s.dram) (h2 : t.sram = s.sram) (h3 : t.nor = s.nor) :
    MemKept s t := by
  refine ⟨fun a => ?_, fun a => ?_, fun a => ?_⟩
  · rw [h1]
  · rw [h2]
  · rw [h3]

theorem MemKept.trans {s t u : State} (h : MemKept s t) (g : MemKept t u) : MemKept s u :=
  ⟨fun a => (g.1 a).trans (h.1 a), fun a => (g.2.1 a).trans (h.2.1 a), fun a => (g.2.2 a).trans (h.2.2 a)⟩

/-- Whatever changes only registers and faults keeps the memories. -/
theorem RegsOnly.mem {l : List Nat} {s t : State} (h : RegsOnly l s t) : MemKept s t := by
  rw [h.2]
  exact MemKept.refl _

end Sys2Proof.Machine
end

