-- ==== Sys2Proof/Laws/Factory.lean ====
section
/-! SUPPORT. The flash as the module leaves the factory: both reserve copies hold R = 0 (R229), and the set F is valid
(R326, R343, R347). -/

namespace Sys2Proof.Machine

open Sys2Proof

/-- A memory that lists nothing reads its unlisted bytes. -/
theorem memRead_nil (d : Nat → Byte) (a n : Nat) : memRead d [] a n = (List.range n).map fun i => d (a + i) := by
  induction n generalizing a with
  | zero => rfl
  | succ n ih =>
    rw [List.range_succ_eq_map]
    simp [memRead, ih, kget, kfind, Nat.add_assoc, Nat.add_comm 1]

/-- A byte of the factory's calibration set. -/
theorem factoryByte_set {o : Nat} (h : o < 84048) : factoryByte (norCal 0 + o) = factorySet o := by
  have e : norCal 0 = 0x100000 := rfl
  have e0 : reserveOfs 0 = 0x10000 := rfl
  have e1 : reserveOfs 1 = 0x18000 := rfl
  unfold factoryByte
  rw [if_neg (by omega), if_neg (by omega), if_pos (by omega), Nat.add_sub_cancel_left]

theorem reserve_factory : State.reset.reserveCopy 0 = some 0 ∧ State.reset.reserveCopy 1 = some 0 := by
  decide +kernel

/-- A read of the set F in the flash of reset. -/
theorem norRd_set (o n : Nat) (h : o + n ≤ 84048) :
    State.reset.norRd (norCal 0 + o) n = (List.range n).map fun i => factorySet (o + i) := by
  refine (memRead_nil _ _ _).trans (List.map_congr_left fun i hi => ?_)
  have := List.mem_range.1 hi
  rw [Nat.add_assoc]
  exact factoryByte_set (by omega)

/-- A number of four bytes is the number they hold. -/
theorem leNat_bytes (n : Nat) (h : n < 2 ^ 32) :
    leNat ((List.range 4).map fun i => byteOf n i) = n := by
  simp [List.range_succ, leNat, byteOf]
  omega

theorem crcBit_lt {c : Nat} (h : c < 2 ^ 32) : crcBit c < 2 ^ 32 := by
  unfold crcBit
  split
  · exact Nat.xor_lt_two_pow (by omega) (by decide)
  · omega

theorem crcByte_lt {c : Nat} (b : Byte) (h : c < 2 ^ 32) : crcByte c b < 2 ^ 32 := by
  unfold crcByte
  iterate 8 refine crcBit_lt ?_
  exact Nat.xor_lt_two_pow h (by omega)

/-- A CRC-32C has 32 bits. -/
theorem crc32c_lt (bs : List Byte) : crc32c bs < 2 ^ 32 := by
  have key : ∀ (l : List Byte) c, c < 2 ^ 32 → l.foldl crcByte c < 2 ^ 32 := by
    intro l
    induction l with
    | nil => exact fun c h => h
    | cons b l ih => exact fun c h => ih _ (crcByte_lt b h)
  exact Nat.xor_lt_two_pow (key bs _ (by decide)) (by decide)

theorem factorySet_body (o : Nat) (h : o < 84032) : factorySet o = factoryBody o := if_pos h

theorem whole_factory : State.reset.setWhole 0 = true := by
  have hh : State.reset.norRd (norCal 0) 64 = (List.range 64).map factoryBody :=
    (norRd_set 0 64 (by decide)).trans (List.map_congr_left fun i hi => by
      have := List.mem_range.1 hi; rw [Nat.zero_add]; exact factorySet_body i (by omega))
  have hb : State.reset.norRd (norCal 0) 84032 = (List.range 84032).map factoryBody :=
    (norRd_set 0 84032 (by decide)).trans (List.map_congr_left fun i hi => by
      have := List.mem_range.1 hi; rw [Nat.zero_add]; exact factorySet_body i (by omega))
  have hc : State.reset.norRd (norCal 0 + 84032) 4 = (List.range 4).map fun i => byteOf factoryCheck i :=
    (norRd_set 84032 4 (by decide)).trans (List.map_congr_left fun i hi => by
      have := List.mem_range.1 hi
      unfold factorySet
      rw [if_neg (by omega), if_pos (by omega), Nat.add_sub_cancel_left])
  have hs : State.reset.norRd (norCal 0 + 84036) 4 = [0, 0, 0, 0] := by
    refine (norRd_set 84036 4 (by decide)).trans ?_
    decide +kernel
  have hcheck : leNat (State.reset.norRd (norCal 0 + 84032) 4) = crc32c (State.reset.norRd (norCal 0) 84032) := by
    rw [hc, hb]
    exact leNat_bytes _ (crc32c_lt _)
  unfold State.setWhole
  dsimp only
  rw [hcheck, hs, hh]
  simp only [beq_self_eq_true, Bool.and_true, Bool.and_eq_true, beq_iff_eq]
  decide +kernel

/-! ### R333 on F -/

theorem near_self (d a : Int) (h : 0 ≤ d) : near d a a = true := by simp [near, h]

theorem gainNear_self (r : List Byte) (o : Nat) : gainNear r r o = true := by
  simp [gainNear, near_self]

theorem genNear_self (r : List Byte) (v t : Nat) : genNear r r v t = true := by
  simp [genNear, near_self]

theorem recNear_self (t : Nat) (r : List Byte) : recNear t r r = true := by
  unfold recNear
  split
  · simp [chanNear, near_self, gainNear_self, genNear_self]
  · simp [spareNear, near_self, genNear_self]

/-- A number read past the first byte does not depend on it. -/
theorem getLE_tail {r q : List Byte} (h : r.drop 1 = q.drop 1) (o n : Nat) : getLE r (o + 1) n = getLE q (o + 1) n := by
  unfold getLE
  rw [Nat.add_comm, ← List.drop_drop, ← List.drop_drop, h]

theorem genMono_tail {r q : List Byte} (h : r.drop 1 = q.drop 1) (v t : Nat) :
    genMono r (v + 1) (t + 1) = genMono q (v + 1) (t + 1) := by
  have e : ∀ o n, getLE r (o + 1) n = getLE q (o + 1) n := getLE_tail h
  simp only [genMono, tapsAt, Nat.add_right_comm _ 1, e]

/-- Two lists of bytes by place that agree from place 1 on. -/
theorem mapRange_tail {f g : Nat → Byte} (h : ∀ i, f (i + 1) = g (i + 1)) (n : Nat) :
    ((List.range (n + 1)).map f).drop 1 = ((List.range (n + 1)).map g).drop 1 := by
  rw [List.range_succ_eq_map]
  simp [h, Function.comp_def]

theorem factoryChan_tail (c : Nat) : ((List.range 640).map (factoryChan c)).drop 1 = ((List.range 640).map (factoryChan 0)).drop 1 :=
  mapRange_tail (fun i => by simp [factoryChan]) 639

theorem factorySpare_tail (t : Nat) : ((List.range 512).map (factorySpare t)).drop 1 = ((List.range 512).map (factorySpare 0)).drop 1 :=
  mapRange_tail (fun i => by simp [factorySpare]) 511

theorem chanRec_factory {t : Nat} (h : t < 128) :
    State.reset.norRd (norCal 0 + recOfs t) (recLen t) = (List.range 640).map (factoryChan t) := by
  have e : recOfs t = 64 + 640 * t := if_pos h
  have l : recLen t = 640 := if_pos h
  rw [e, l, norRd_set _ _ (by omega)]
  refine List.map_congr_left fun i hi => ?_
  have := List.mem_range.1 hi
  rw [factorySet_body _ (by omega)]
  unfold factoryBody
  rw [if_neg (by omega), if_pos (by omega), show (64 + 640 * t + i - 64) / 640 = t by omega,
    show (64 + 640 * t + i - 64) % 640 = i by omega]

theorem spareRec_factory {t : Nat} (h : t < 4) :
    State.reset.norRd (norCal 0 + recOfs (128 + t)) (recLen (128 + t)) = (List.range 512).map (factorySpare t) := by
  have e : recOfs (128 + t) = 81984 + 512 * t := by
    refine (if_neg (by omega)).trans ?_
    omega
  have l : recLen (128 + t) = 512 := if_neg (by omega)
  rw [e, l, norRd_set _ _ (by omega)]
  refine List.map_congr_left fun i hi => ?_
  have := List.mem_range.1 hi
  rw [factorySet_body _ (by omega)]
  unfold factoryBody
  rw [if_neg (by omega), if_neg (by omega), show (81984 + 512 * t + i - 81984) / 512 = t by omega,
    show (81984 + 512 * t + i - 81984) % 512 = i by omega]

/-- The factory's nominal trims, 0 to 7, span less than a tap. -/
theorem spanOk_seven : spanOk 7 = true := by
  have := Config.trimUnit.isLt
  simp only [spanOk, decide_eq_true_eq]
  omega

theorem genMono_factory : genMono ((List.range 640).map (factoryChan 0)) 0x20 0x40 = true := by
  have a : stepsIn 256 768 (tapsAt ((List.range 640).map (factoryChan 0)) 0x40) = true := by decide +kernel
  have b : stepsIn 1 255 ((List.range 8).map fun i => getLE ((List.range 640).map (factoryChan 0)) (0x20 + i) 1) = true := by
    decide +kernel
  have c : getLE ((List.range 640).map (factoryChan 0)) (0x20 + 7) 1 - getLE ((List.range 640).map (factoryChan 0)) 0x20 1 = 7 := by
    decide +kernel
  rw [genMono, a, b, c, spanOk_seven]
  rfl

theorem chanMono_factory (t : Nat) : chanMono ((List.range 640).map (factoryChan t)) = true := by
  have h := factoryChan_tail t
  have e : ∀ o n, getLE ((List.range 640).map (factoryChan t)) (o + 1) n = getLE ((List.range 640).map (factoryChan 0)) (o + 1) n :=
    getLE_tail h
  have d : chanMono ((List.range 640).map (factoryChan 0)) = true := by
    rw [chanMono, genMono_factory]
    decide +kernel
  rw [← d]
  have l : dacGains = (dacGains.map (· - 1)).map (· + 1) := by decide
  unfold chanMono
  rw [genMono_tail h 0x1F 0x3F, l, List.all_map]
  simp [Function.comp_def, e]

theorem spareMono_factory (t : Nat) : spareMono ((List.range 512).map (factorySpare t)) = true := by
  have d : spareMono ((List.range 512).map (factorySpare 0)) = true := by
    have a : stepsIn 256 768 (tapsAt ((List.range 512).map (factorySpare 0)) 0x10) = true := by decide +kernel
    have b : stepsIn 1 255 ((List.range 8).map fun i => getLE ((List.range 512).map (factorySpare 0)) (0x8 + i) 1) = true := by
      decide +kernel
    have c : getLE ((List.range 512).map (factorySpare 0)) (0x8 + 7) 1 - getLE ((List.range 512).map (factorySpare 0)) 0x8 1 = 7 := by
      decide +kernel
    rw [spareMono, genMono, a, b, c, spanOk_seven]
    rfl
  rw [← d]
  exact genMono_tail (factorySpare_tail t) 7 0xF

/-- The set F in the flash of reset is valid. -/
theorem factory_set_valid : State.reset.setValid 0 = true := by
  have near : ∀ t, recNear t (State.reset.norRd (norCal 0 + recOfs t) (recLen t)) (State.reset.factoryRec t) = true :=
    fun t => recNear_self t _
  have mono : ∀ t < 132, recMono t (State.reset.norRd (norCal 0 + recOfs t) (recLen t)) = true := by
    intro t ht
    unfold recMono
    split
    · rename_i h
      rw [chanRec_factory h]
      exact chanMono_factory t
    · obtain ⟨k, rfl⟩ : ∃ k, t = 128 + k := ⟨t - 128, by omega⟩
      rw [spareRec_factory (by omega)]
      exact spareMono_factory k
  have rule : State.reset.bankRule 0 = 0 := by
    unfold State.bankRule State.setRule firstRule
    rw [List.all_eq_true.2 fun t _ => near t, List.all_eq_true.2 fun t h => mono t (List.mem_range.1 h)]
    rfl
  unfold State.setValid
  rw [whole_factory, rule]
  rfl

end Sys2Proof.Machine
end

