-- ==== Sys2Proof/Laws/Frames.lean ====
section
/-! SUPPORT. What a received frame does (R443, R444). -/

namespace Sys2Proof.Machine

open Sys2Proof

/-- A frame with a good CRC, of the type that is taken and at a port that takes it, acts in a module that runs. -/
theorem State.onFrame_due {s : State} {on : Bool} {typ : Nat} {b : List Byte} {f : Frame} (hp : s.runs = true)
    (hb : Frame.read b = some f) (ht : f.typ = typ) (ho : on = true) (k : Frame → State → State) :
    s.onFrame on typ b k = k f s := by
  rw [State.onFrame, hb]
  exact State.whenDue_due hp (by simp [ho, ht]) _

/-- Bytes that are no frame with a good CRC do nothing where they arrive as a frame. -/
theorem State.onFrame_none {s : State} {on : Bool} {typ : Nat} {b : List Byte} (hb : Frame.read b = none)
    (k : Frame → State → State) : s.onFrame on typ b k = s := by
  rw [State.onFrame, hb]

end Sys2Proof.Machine
end

