-- ==== Sys2Proof/Laws/Images.lean ====
section
/-! SUPPORT. What the checks of an image come to where its sections hold zeros: the structure it gives is the empty one,
and no content or scope rule fails; and CRCs of long sections by their parts. -/

namespace Sys2Proof.Laws

open Sys2Proof Sys2Proof.Machine

/-- The bytes of a section are 0. -/
def ZeroSec (b : List Byte) (e : ImgSec) : Prop := (b.drop e.ofs).take e.len = List.replicate e.len 0

theorem leNat_zeros (n : Nat) : leNat (List.replicate n 0) = 0 := by
  induction n with
  | zero => rfl
  | succ n ih => rw [List.replicate_succ, leNat, ih]; rfl

theorem ZeroSec.getLE {b : List Byte} {e : ImgSec} (h : ZeroSec b e) {o n : Nat} (hn : o + n ≤ e.len) :
    Machine.getLE b (e.ofs + o) n = 0 := by
  have h1 : (b.drop (e.ofs + o)).take n = (((b.drop e.ofs).take e.len).drop o).take n := by
    rw [List.drop_take, List.take_take, List.drop_drop, min_eq_left (by omega)]
  rw [Machine.getLE, h1, h, List.drop_replicate, List.take_replicate, leNat_zeros]

theorem imgSec_len {b : List Byte} {t : Nat} {e : ImgSec} (h : imgSec b t = some e) :
    e ∈ imgDir b ∧ e.typ = t ∧ secLenOk b e = true := by
  have := List.find?_some h
  simp only [Bool.and_eq_true, beq_iff_eq] at this
  exact ⟨List.mem_of_find?_eq_some h, this⟩

theorem entryFails_none {b : List Byte} {t size n code : Nat} {bad : ImgSec → Nat → Bool}
    (h : ∀ e, imgSec b t = some e → ∀ i < n, bad e i = false) : entryFails b t size n code bad = [] := by
  unfold entryFails
  split
  · rfl
  · rename_i e he
    rw [List.filter_eq_nil_iff.mpr fun i hi => by simp [h e he i (List.mem_range.mp hi)]]
    rfl

theorem reservedFails_none {b : List Byte} (hz : ∀ e ∈ imgDir b, ZeroSec b e) : reservedFails b = [] := by
  have w : ∀ t e, imgSec b t = some e → ∀ i, 4 * i + 4 ≤ e.len → secWord b e i = 0 := fun t e h i hi =>
    (hz e (imgSec_len h).1).getLE hi
  have l : ∀ t e, imgSec b t = some e → e.typ = t ∧ secLenOk b e = true := fun t e h => (imgSec_len h).2
  unfold reservedFails
  simp only [List.append_eq_nil_iff]
  refine ⟨⟨⟨⟨⟨?_, ?_⟩, ?_⟩, ?_⟩, ?_⟩, ?_⟩ <;> refine entryFails_none fun e he i hi => ?_ <;>
    (have h1 := l _ e he; simp only [secLenOk, h1.1, beq_iff_eq, true_and] at h1; rw [w _ e he i (by omega)]; simp)

theorem foldl_kset_same {α : Type} [DecidableEq α] (d : Nat → α) (l : List Nat) (g : Nat → Nat) (v : Nat → α)
    (h : ∀ i ∈ l, v i = d (g i)) : l.foldl (fun m i => kset d m (g i) (v i)) [] = [] := by
  induction l with
  | nil => rfl
  | cons x l ih =>
    rw [List.foldl_cons, kset, if_pos (h x (List.mem_cons_self ..))]
    exact ih fun i hi => h i (List.mem_cons_of_mem _ hi)

theorem imgStr_empty {s : State} {b : List Byte} (hs : s.str = {}) (h4 : imgSec b 4 = none) (h5 : imgSec b 5 = none)
    (h6 : imgSec b 6 = none) (hz : ∀ e ∈ imgDir b, ZeroSec b e) : s.imgStr b = {} := by
  have hold : (if imgKind b = 1 then ({} : Structure) else s.str) = {} := by rw [hs]; exact ite_self _
  have hk : s.graphsKept b = [] := by simp [State.graphsKept, hs]
  have hr : imgRecs b = ([], true) := by simp [imgRecs, h6]
  have w : ∀ t e, imgSec b t = some e → ∀ i, 4 * i + 4 ≤ e.len → secWord b e i = 0 := fun t e h i hi =>
    (hz e (imgSec_len h).1).getLE hi
  unfold State.imgStr
  simp only [hold, hk, hr, h4, h5, List.map_nil, List.append_nil, List.foldl_nil, packGraphs]
  have l : ∀ t e, imgSec b t = some e → e.typ = t ∧ secLenOk b e = true := fun t e h => (imgSec_len h).2
  congr 1
  · split
    · rename_i e he
      have h1 := l _ e he
      simp only [secLenOk, h1.1, beq_iff_eq, true_and] at h1
      refine foldl_kset_same _ _ _ _ fun i hi => ?_
      simp only [siteEntryOf, w _ e he i (by have := List.mem_range.mp hi; omega)]; rfl
    · rfl
  · split
    · rename_i e he
      have h1 := l _ e he
      simp only [secLenOk, h1.1, beq_iff_eq, true_and] at h1
      refine foldl_kset_same _ _ id _ fun i hi => ?_
      simp only [ownerEntryOf, w _ e he i (by have := List.mem_range.mp hi; omega)]; rfl
    · rfl
  · split
    · rename_i e he
      have h1 := l _ e he
      simp only [secLenOk, h1.1, beq_iff_eq, true_and] at h1
      refine foldl_kset_same _ _ id _ fun i hi => ?_
      have g : ∀ k, k < 10 → getLE b (e.ofs + 32 * i + 2 * k) 2 = 0 := fun k hk => by
        rw [Nat.add_assoc]; exact (hz e (imgSec_len he).1).getLE (by have := List.mem_range.mp hi; omega)
      simp only [carveEntryOf, g 0 (by omega), g 1 (by omega), g 2 (by omega), g 3 (by omega), g 4 (by omega), g 5 (by omega),
        g 6 (by omega), g 7 (by omega), g 8 (by omega), g 9 (by omega)]
    · rfl
  · split
    · rename_i e he
      have h1 := l _ e he
      simp only [secLenOk, h1.1, beq_iff_eq, true_and] at h1
      refine foldl_kset_same _ _ id _ fun i hi => ?_
      rw [w _ e he i (by have := List.mem_range.mp hi; omega)]; rfl
    · rfl

theorem contentFails_empty {s : State} {b : List Byte} (hx : s.imgStr b = {}) (hs : s.str = {}) (h6 : imgSec b 6 = none)
    (hz : ∀ e ∈ imgDir b, ZeroSec b e) (hl : (imgDir b).all (secLenOk b) = true) (h8 : ∀ e, imgSec b 8 = some e → e.len = 0)
    (ho : ownerFails b {} = []) (hc : carveFails b {} = []) (ha : acqrFails b {} = []) (hr : routeFails b {} = []) :
    s.contentFails b = [] := by
  have hk : s.graphsKept b = [] := by simp [State.graphsKept, hs]
  have hg : imgRecs b = ([], true) := by simp [imgRecs, h6]
  have hp : protEntries b = [] := by
    unfold protEntries
    split
    · rfl
    · rename_i e he; rw [h8 e he]; rfl
  have hw : (imgDir b).filter (fun e => !secLenOk b e && !secShort b e) = [] :=
    List.filter_eq_nil_iff.mpr fun e he => by simp [List.all_eq_true.mp hl e he]
  simp only [State.contentFails, hx, hk, hg, hp, hw, reservedFails_none hz, ho, hc, ha, hr]
  rfl

theorem scopeFails_empty {s : State} {b : List Byte} (hx : s.imgStr b = {}) (hs : s.str = {}) (h6 : imgSec b 6 = none)
    (hl : (imgDir b).all (secLenOk b) = true) : s.scopeFails b = [] := by
  have hg : imgRecs b = ([], true) := by simp [imgRecs, h6]
  have hw : (imgDir b).filter (secShort b) = [] :=
    List.filter_eq_nil_iff.mpr fun e he => by simp [secShort, List.all_eq_true.mp hl e he]
  have hc : ∀ n, s.carveOf n = kget (fun _ => {}) ({} : Structure).carve n := fun n => by simp [State.carveOf, hs]
  have ho : ∀ k, s.seqOfSite k = kget (fun _ => none) ({} : Structure).ownerOf k := fun k => by simp [State.seqOfSite, hs]
  simp only [State.scopeFails, hx, hg, hw, hc, ho]
  rw [entryFails_none fun _ _ _ _ => ?_, entryFails_none fun _ _ _ _ => ?_, entryFails_none fun _ _ _ _ => ?_]
  · rfl
  · simp
  · simp
  · rfl

theorem crcReject_none {b : List Byte} {l : List ImgSec} (hl : imgDir b = l)
    (h : ∀ e ∈ l, crc32c ((b.drop e.ofs).take e.len) = e.crc) : crcReject b = none := by
  unfold crcReject
  rw [hl, List.find?_eq_none.mpr fun e he => by simp [h e he]]
  rfl

theorem imgReject_none {s : State} {b : List Byte} {op t : Nat} (h0 : headReject b op t = none)
    (h1 : crc32c (b.take 0x3C) = getLE b 0x3C 4) (h2 : dirReject b = none) (h3 : crcReject b = none)
    (h4 : signReject (s.rd Reg.STI_KEYS) s.keyOf b = none) (h5 : getLE b 0x14 4 = (s.rd Reg.STI_GEN).toNat)
    (h6 : firstRej (s.contentFails b) = none) (h7 : imgKind b = 2 → firstRej (s.scopeFails b) = none) :
    s.imgReject b op t false = none := by
  by_cases hk : imgKind b = 2 <;> simp [State.imgReject, h0, h1, h2, h3, h4, h5, h6, hk, h7]

/-- The CRC-32C register over bytes of 0, in two parts. -/
theorem crc_zeros (c : Nat) (n m : Nat) :
    (List.replicate (n + m) (0 : Byte)).foldl crcByte c = (List.replicate m 0).foldl crcByte ((List.replicate n 0).foldl crcByte c) := by
  rw [List.replicate_add, List.foldl_append]

end Sys2Proof.Laws
end

