-- ==== Sys2Proof/Laws/MemOps.lean ====
section
/-! SUPPORT. Every operation of Machine/Ops.lean keeps the canonical form of the byte memories and the queue. -/

namespace Sys2Proof.Machine

open Sys2Proof


/-- Under `pq.1` the byte memories of a state are in canonical form; the queue is `pq.2`. -/
def MemGood (pq : Prop × List Instr) (s : State) : Prop := (pq.1 → Memory.wf s) ∧ s.pending = pq.2

/-- A state's other fields do not matter. -/
theorem good_mk {pq : Prop × List Instr} {s : State} {mt regs applied staged perStg latch str sti seq chn wbuf ptbuf wold epochStop tmu stampQ acq cal ane drc dma port lane mtb detected round fltNum norq erases sup keys recov applies pwr vfs msixOn msixMask msixPend pace paceNoted avsFrom spareUnlock jtag free rdata rpoison out} (h : MemGood pq s) :
    MemGood pq (State.mk s.pending mt regs applied staged perStg latch s.dram s.sram s.nor str sti seq chn wbuf ptbuf wold epochStop tmu stampQ acq cal ane drc dma port lane mtb detected round fltNum norq erases sup keys recov applies pwr vfs msixOn msixMask msixPend pace paceNoted avsFrom spareUnlock jtag free rdata rpoison out) := h

theorem good_ite {pq : Prop × List Instr} {c : Prop} [Decidable c] {a b : State} (ha : MemGood pq a) (hb : MemGood pq b) :
    MemGood pq (if c then a else b) := by
  split
  · exact ha
  · exact hb

theorem good_ite_fst {pq : Prop × List Instr} {α : Type} {c : Prop} [Decidable c] {a b : State × α} (ha : MemGood pq a.1) (hb : MemGood pq b.1) :
    MemGood pq (if c then a else b).1 := by
  split
  · exact ha
  · exact hb

theorem foldl_mem {pq : Prop × List Instr} {β : Type} (f : State → β → State) (s : State) (l : List β) (hs : MemGood pq s)
    (hf : ∀ x y, MemGood pq x → MemGood pq (f x y)) : MemGood pq (l.foldl f s) := by
  induction l generalizing s with
  | nil => exact hs
  | cons b l ih => exact ih _ (hf _ _ hs)

theorem forEach_mem {pq : Prop × List Instr} (l : List Nat) (f : Nat → State → State) (s : State) (hs : MemGood pq s)
    (hf : ∀ n x, MemGood pq x → MemGood pq (f n x)) : MemGood pq (forEach l f s) :=
  foldl_mem (fun a n => f n a) s l hs fun x y hx => hf y x hx

theorem fst_mem {pq : Prop × List Instr} {α : Type} {p : State × α} {t : State} {a : α} (h : p = (t, a)) (hp : MemGood pq p.1) : MemGood pq t := by
  rw [h] at hp
  exact hp

theorem snd_mem {pq : Prop × List Instr} {α : Type} {p : α × State} {t : State} {a : α} (h : p = (a, t)) (hp : MemGood pq p.2) : MemGood pq t := by
  rw [h] at hp
  exact hp

theorem good_ite_snd {pq : Prop × List Instr} {α : Type} {c : Prop} [Decidable c] {a b : α × State} (ha : MemGood pq a.2) (hb : MemGood pq b.2) :
    MemGood pq (if c then a else b).2 := by
  split
  · exact ha
  · exact hb

theorem foldl_mem_fst {pq : Prop × List Instr} {α β : Type} (f : State × α → β → State × α) (x : State × α) (l : List β) (hx : MemGood pq x.1)
    (hf : ∀ y b, MemGood pq y.1 → MemGood pq (f y b).1) : MemGood pq (l.foldl f x).1 := by
  induction l generalizing x with
  | nil => exact hx
  | cons b l ih => exact ih _ (hf _ _ hx)

/-- A state, where there is one, has its byte memories in canonical form. -/
structure OptGood (pq : Prop × List Instr) (o : Option State) : Prop where
  /-- What `o` holds is in canonical form. -/
  out : ∀ t, o = some t → MemGood pq t

theorem good_some {pq : Prop × List Instr} {s : State} (h : MemGood pq s) : OptGood pq (some s) := ⟨fun _ e => Option.some.inj e ▸ h⟩

theorem good_none {pq : Prop × List Instr} : OptGood pq none := ⟨fun _ e => nomatch e⟩

theorem good_ite_opt {pq : Prop × List Instr} {c : Prop} [Decidable c] {a b : Option State} (ha : OptGood pq a) (hb : OptGood pq b) :
    OptGood pq (if c then a else b) := by
  split
  · exact ha
  · exact hb

theorem opt_mem {pq : Prop × List Instr} {o : Option State} {t : State} (h : o = some t) (ho : OptGood pq o) : MemGood pq t := ho.out t h

theorem State.wr_mem {pq : Prop × List Instr} (s : State) (a : Nat) (v : Word) (hs : MemGood pq s) : MemGood pq (State.wr s a v) := by
  unfold State.wr
  repeat' first
    | with_reducible assumption
    | intro _
    | with_reducible apply good_ite
    | with_reducible apply good_ite_fst
    | fail_if_no_progress beta_reduce
    | fail_if_no_progress extract_lets +onlyGivenNames x
    | split
    | fail_if_no_progress with_reducible apply good_mk

theorem State.wrF_mem {pq : Prop × List Instr} (s : State) (a : Nat) (hi : Nat) (lo : Nat) (x : Nat) (hs : MemGood pq s) : MemGood pq (State.wrF s a hi lo x) := by
  unfold State.wrF
  repeat' first
    | with_reducible assumption
    | intro _
    | with_reducible apply State.wr_mem

theorem State.wrN_mem {pq : Prop × List Instr} (s : State) (a : Nat) (n : Nat) (hs : MemGood pq s) : MemGood pq (State.wrN s a n) := by
  unfold State.wrN
  repeat' first
    | with_reducible assumption
    | intro _
    | with_reducible apply State.wr_mem

theorem State.wrWide_mem {pq : Prop × List Instr} (s : State) (a : Nat) (k : Nat) (n : Nat) (hs : MemGood pq s) : MemGood pq (s.wrWide a k n) := by
  induction k generalizing s a n with
  | zero => exact hs
  | succ k ih => exact ih _ _ _ (State.wrN_mem _ _ _ hs)

theorem State.setBits_mem {pq : Prop × List Instr} (s : State) (a : Nat) (m : Nat) (hs : MemGood pq s) : MemGood pq (State.setBits s a m) := by
  unfold State.setBits
  repeat' first
    | with_reducible assumption
    | intro _
    | with_reducible apply State.wrN_mem

theorem State.clrBits_mem {pq : Prop × List Instr} (s : State) (a : Nat) (m : Nat) (hs : MemGood pq s) : MemGood pq (State.clrBits s a m) := by
  unfold State.clrBits
  repeat' first
    | with_reducible assumption
    | intro _
    | with_reducible apply State.wr_mem

theorem State.count_mem {pq : Prop × List Instr} (s : State) (a : Nat) (n : Nat) (hs : MemGood pq s) : MemGood pq (State.count s a n) := by
  unfold State.count
  repeat' first
    | with_reducible assumption
    | intro _
    | with_reducible apply State.wrN_mem

theorem State.countF_mem {pq : Prop × List Instr} (s : State) (a : Nat) (hi : Nat) (lo : Nat) (n : Nat) (hs : MemGood pq s) : MemGood pq (State.countF s a hi lo n) := by
  unfold State.countF
  repeat' first
    | with_reducible assumption
    | intro _
    | with_reducible apply State.wrF_mem

theorem State.wrRow_mem {pq : Prop × List Instr} (s : State) (a : Nat) (v : Word) (hs : MemGood pq s) : MemGood pq (State.wrRow s a v) := by
  unfold State.wrRow
  repeat' first
    | with_reducible assumption
    | intro _
    | with_reducible apply State.wr_mem
    | with_reducible apply good_ite
    | with_reducible apply good_ite_fst
    | fail_if_no_progress beta_reduce
    | fail_if_no_progress extract_lets +onlyGivenNames x
    | split

theorem State.setApv_mem {pq : Prop × List Instr} (s : State) (a : Nat) (v : Word) (hs : MemGood pq s) : MemGood pq (State.setApv s a v) := by
  unfold State.setApv
  repeat' first
    | with_reducible assumption
    | intro _
    | with_reducible apply good_ite
    | with_reducible apply good_ite_fst
    | fail_if_no_progress beta_reduce
    | fail_if_no_progress extract_lets +onlyGivenNames x
    | split
    | fail_if_no_progress with_reducible apply good_mk

theorem State.setSq_mem {pq : Prop × List Instr} (s : State) (n : Nat) (u : SeqUnit) (hs : MemGood pq s) : MemGood pq (State.setSq s n u) := by
  unfold State.setSq
  repeat' first
    | with_reducible assumption
    | intro _
    | with_reducible apply good_ite
    | with_reducible apply good_ite_fst
    | fail_if_no_progress beta_reduce
    | fail_if_no_progress extract_lets +onlyGivenNames x
    | split
    | fail_if_no_progress with_reducible apply good_mk

theorem State.setCh_mem {pq : Prop × List Instr} (s : State) (c : Nat) (u : ChUnit) (hs : MemGood pq s) : MemGood pq (State.setCh s c u) := by
  unfold State.setCh
  repeat' first
    | with_reducible assumption
    | intro _
    | with_reducible apply good_ite
    | with_reducible apply good_ite_fst
    | fail_if_no_progress beta_reduce
    | fail_if_no_progress extract_lets +onlyGivenNames x
    | split
    | fail_if_no_progress with_reducible apply good_mk

theorem State.setTm_mem {pq : Prop × List Instr} (s : State) (c : Nat) (u : TmuUnit) (hs : MemGood pq s) : MemGood pq (State.setTm s c u) := by
  unfold State.setTm
  repeat' first
    | with_reducible assumption
    | intro _
    | with_reducible apply good_ite
    | with_reducible apply good_ite_fst
    | fail_if_no_progress beta_reduce
    | fail_if_no_progress extract_lets +onlyGivenNames x
    | split
    | fail_if_no_progress with_reducible apply good_mk

theorem State.setAq_mem {pq : Prop × List Instr} (s : State) (c : Nat) (u : AcqUnit) (hs : MemGood pq s) : MemGood pq (State.setAq s c u) := by
  unfold State.setAq
  repeat' first
    | with_reducible assumption
    | intro _
    | with_reducible apply good_ite
    | with_reducible apply good_ite_fst
    | fail_if_no_progress beta_reduce
    | fail_if_no_progress extract_lets +onlyGivenNames x
    | split
    | fail_if_no_progress with_reducible apply good_mk

theorem State.setDc_mem {pq : Prop × List Instr} (s : State) (n : Nat) (u : DmaUnit) (hs : MemGood pq s) : MemGood pq (State.setDc s n u) := by
  unfold State.setDc
  repeat' first
    | with_reducible assumption
    | intro _
    | with_reducible apply good_ite
    | with_reducible apply good_ite_fst
    | fail_if_no_progress beta_reduce
    | fail_if_no_progress extract_lets +onlyGivenNames x
    | split
    | fail_if_no_progress with_reducible apply good_mk

theorem State.setFp_mem {pq : Prop × List Instr} (s : State) (p : Nat) (u : Port) (hs : MemGood pq s) : MemGood pq (State.setFp s p u) := by
  unfold State.setFp
  repeat' first
    | with_reducible assumption
    | intro _
    | with_reducible apply good_ite
    | with_reducible apply good_ite_fst
    | fail_if_no_progress beta_reduce
    | fail_if_no_progress extract_lets +onlyGivenNames x
    | split
    | fail_if_no_progress with_reducible apply good_mk

theorem State.setTl_mem {pq : Prop × List Instr} (s : State) (l : Nat) (u : Lane) (hs : MemGood pq s) : MemGood pq (State.setTl s l u) := by
  unfold State.setTl
  repeat' first
    | with_reducible assumption
    | intro _
    | with_reducible apply good_ite
    | with_reducible apply good_ite_fst
    | fail_if_no_progress beta_reduce
    | fail_if_no_progress extract_lets +onlyGivenNames x
    | split
    | fail_if_no_progress with_reducible apply good_mk

theorem State.setFw_mem {pq : Prop × List Instr} (s : State) (f : Nat) (u : FlowSt) (hs : MemGood pq s) : MemGood pq (State.setFw s f u) := by
  unfold State.setFw
  repeat' first
    | with_reducible assumption
    | intro _
    | with_reducible apply good_ite
    | with_reducible apply good_ite_fst
    | fail_if_no_progress beta_reduce
    | fail_if_no_progress extract_lets +onlyGivenNames x
    | split
    | fail_if_no_progress with_reducible apply good_mk

theorem State.setEng_mem {pq : Prop × List Instr} (s : State) (e : Nat) (u : EngSt) (hs : MemGood pq s) : MemGood pq (State.setEng s e u) := by
  unfold State.setEng
  repeat' first
    | with_reducible assumption
    | intro _
    | with_reducible apply good_ite
    | with_reducible apply good_ite_fst
    | fail_if_no_progress beta_reduce
    | fail_if_no_progress extract_lets +onlyGivenNames x
    | split
    | fail_if_no_progress with_reducible apply good_mk

theorem State.sramWr_mem {pq : Prop × List Instr} (s : State) (a : Nat) (bs : List Byte) (hs : MemGood pq s) : MemGood pq (s.sramWr a bs) :=
  ⟨fun w => ⟨(hs.1 w).1, kwf_memWrite (hs.1 w).2.1 a bs, (hs.1 w).2.2⟩, hs.2⟩

theorem State.norWr_mem {pq : Prop × List Instr} (s : State) (a : Nat) (bs : List Byte) (hs : MemGood pq s) : MemGood pq (s.norWr a bs) :=
  ⟨fun w => ⟨(hs.1 w).1, (hs.1 w).2.1, kwf_memWrite (hs.1 w).2.2 a bs⟩, hs.2⟩

theorem State.send_mem {pq : Prop × List Instr} (s : State) (o : Output) (hs : MemGood pq s) : MemGood pq (State.send s o) := by
  unfold State.send
  repeat' first
    | with_reducible assumption
    | intro _
    | with_reducible apply good_ite
    | with_reducible apply good_ite_fst
    | fail_if_no_progress beta_reduce
    | fail_if_no_progress extract_lets +onlyGivenNames x
    | split
    | fail_if_no_progress with_reducible apply good_mk

theorem State.answer_mem {pq : Prop × List Instr} (s : State) (ws : List Word) (hs : MemGood pq s) : MemGood pq (State.answer s ws) := by
  unfold State.answer
  repeat' first
    | with_reducible assumption
    | intro _
    | with_reducible apply good_ite
    | with_reducible apply good_ite_fst
    | fail_if_no_progress beta_reduce
    | fail_if_no_progress extract_lets +onlyGivenNames x
    | split
    | fail_if_no_progress with_reducible apply good_mk

theorem State.drawn_mem {pq : Prop × List Instr} (s : State) (hs : MemGood pq s) : MemGood pq (State.drawn s) := by
  unfold State.drawn
  repeat' first
    | with_reducible assumption
    | intro _
    | with_reducible apply good_ite
    | with_reducible apply good_ite_fst
    | fail_if_no_progress beta_reduce
    | fail_if_no_progress extract_lets +onlyGivenNames x
    | split
    | fail_if_no_progress with_reducible apply good_mk

theorem State.detect_mem {pq : Prop × List Instr} (s : State) (r : FaultRec) (hs : MemGood pq s) : MemGood pq (State.detect s r) := by
  unfold State.detect
  repeat' first
    | with_reducible assumption
    | intro _
    | with_reducible apply good_ite
    | with_reducible apply good_ite_fst
    | fail_if_no_progress beta_reduce
    | fail_if_no_progress extract_lets +onlyGivenNames x
    | split
    | fail_if_no_progress with_reducible apply good_mk

theorem State.note_mem {pq : Prop × List Instr} (s : State) (src : Nat) (code : Nat) (addr : Nat) (hs : MemGood pq s) : MemGood pq (State.note s src code addr) := by
  unfold State.note
  repeat' first
    | with_reducible assumption
    | intro _
    | with_reducible apply State.detect_mem

theorem State.noteReg_mem {pq : Prop × List Instr} (s : State) (dom : Nat) (a : Nat) (code : Nat) (hs : MemGood pq s) : MemGood pq (State.noteReg s dom a code) := by
  unfold State.noteReg
  repeat' first
    | with_reducible assumption
    | intro _
    | with_reducible apply State.detect_mem

theorem State.modFault_mem {pq : Prop × List Instr} (s : State) (src : Nat) (code : Nat) (chk : Nat) (hs : MemGood pq s) : MemGood pq (State.modFault s src code chk) := by
  unfold State.modFault
  repeat' first
    | with_reducible assumption
    | intro _
    | with_reducible apply State.detect_mem

theorem State.injOnce_mem {pq : Prop × List Instr} (s : State) (hs : MemGood pq s) : MemGood pq (State.injOnce s) := by
  unfold State.injOnce
  repeat' first
    | with_reducible assumption
    | intro _
    | with_reducible apply State.wrF_mem
    | with_reducible apply good_ite

theorem State.injMeets_mem {pq : Prop × List Instr} (s : State) (r : FaultRec) (hs : MemGood pq s) : MemGood pq (State.injMeets s r).1 := by
  unfold State.injMeets
  repeat' first
    | with_reducible assumption
    | intro _
    | with_reducible apply State.detect_mem
    | with_reducible apply State.injOnce_mem
    | with_reducible apply good_ite
    | with_reducible apply good_ite_fst

theorem State.injTake_mem {pq : Prop × List Instr} (s : State) (src : Nat) (chk : Nat) (hs : MemGood pq s) : MemGood pq (State.injTake s src chk).1 := by
  unfold State.injTake
  repeat' first
    | with_reducible assumption
    | intro _
    | with_reducible apply State.injMeets_mem

theorem State.irq_mem {pq : Prop × List Instr} (s : State) (a : Nat) (m : Nat) (hs : MemGood pq s) : MemGood pq (State.irq s a m) := by
  unfold State.irq
  repeat' first
    | with_reducible assumption
    | intro _
    | with_reducible apply State.setBits_mem

theorem State.whenDue_mem {pq : Prop × List Instr} (s : State) (due : Bool) (k : State → State) (hs : MemGood pq s)
    (hk : ∀ x, MemGood pq x → MemGood pq (k x)) : MemGood pq (s.whenDue due k) := by
  unfold State.whenDue
  split
  · exact hk _ hs
  · exact hs

theorem State.whenOn_mem {pq : Prop × List Instr} (s : State) (due : Bool) (k : State → State) (hs : MemGood pq s)
    (hk : ∀ x, MemGood pq x → MemGood pq (k x)) : MemGood pq (s.whenOn due k) := by
  unfold State.whenOn
  split
  · exact hk s hs
  · exact hs

theorem State.deny_mem {pq : Prop × List Instr} (s : State) (space : Nat) (dom : Nat) (dc : Nat) (wr : Bool) (addr : Nat) (hs : MemGood pq s) : MemGood pq (State.deny s space dom dc wr addr) := by
  unfold State.deny
  repeat' first
    | with_reducible assumption
    | intro _
    | with_reducible apply State.count_mem
    | with_reducible apply State.detect_mem
    | with_reducible apply State.irq_mem
    | with_reducible apply State.wrN_mem
    | with_reducible apply State.wr_mem
    | with_reducible apply good_ite

theorem State.workNow_mem {pq : Prop × List Instr} (s : State) (kind : Nat) (i : Nat) (hs : MemGood pq s) : MemGood pq (State.workNow s kind i) := by
  unfold State.workNow
  repeat' first
    | with_reducible assumption
    | intro _
    | with_reducible apply good_ite
    | with_reducible apply good_ite_fst
    | fail_if_no_progress beta_reduce
    | fail_if_no_progress extract_lets +onlyGivenNames x
    | split
    | fail_if_no_progress with_reducible apply good_mk

theorem State.setUnit_mem {pq : Prop × List Instr} (s : State) (kind : Nat) (i : Nat) (st : Nat) (hs : MemGood pq s) : MemGood pq (State.setUnit s kind i st) := by
  unfold State.setUnit
  repeat' first
    | with_reducible assumption
    | intro _
    | with_reducible apply State.workNow_mem
    | with_reducible apply State.wrF_mem
    | with_reducible apply good_ite
    | with_reducible apply good_ite_fst
    | fail_if_no_progress beta_reduce
    | fail_if_no_progress extract_lets +onlyGivenNames x
    | split
    | fail_if_no_progress with_reducible apply good_mk

theorem State.wakeRecord_mem {pq : Prop × List Instr} (s : State) (kind : Nat) (i : Nat) (source : Nat) (ap : Nat) (hs : MemGood pq s) : MemGood pq (State.wakeRecord s kind i source ap) := by
  unfold State.wakeRecord
  repeat' first
    | with_reducible assumption
    | intro _
    | with_reducible apply State.count_mem
    | with_reducible apply State.irq_mem
    | with_reducible apply State.wrN_mem
    | with_reducible apply good_ite

theorem State.wakeUnit_mem {pq : Prop × List Instr} (s : State) (kind : Nat) (i : Nat) (source : Nat) (hs : MemGood pq s) : MemGood pq (State.wakeUnit s kind i source) := by
  unfold State.wakeUnit
  repeat' first
    | with_reducible assumption
    | intro _
    | with_reducible apply State.setUnit_mem
    | with_reducible apply State.wakeRecord_mem
    | with_reducible apply good_ite
    | with_reducible apply good_ite_fst
    | fail_if_no_progress beta_reduce
    | fail_if_no_progress extract_lets +onlyGivenNames x
    | split
    | fail_if_no_progress with_reducible apply good_mk

theorem State.wakeNow_mem {pq : Prop × List Instr} (s : State) (kind : Nat) (i : Nat) (source : Nat) (hs : MemGood pq s) : MemGood pq (State.wakeNow s kind i source) := by
  unfold State.wakeNow
  repeat' first
    | with_reducible assumption
    | intro _
    | with_reducible apply State.setUnit_mem
    | with_reducible apply State.wakeUnit_mem
    | with_reducible apply good_ite

theorem State.sourceNow_mem {pq : Prop × List Instr} (s : State) (kind : Nat) (i : Nat) (source : Nat) (hs : MemGood pq s) : MemGood pq (State.sourceNow s kind i source) := by
  unfold State.sourceNow
  repeat' first
    | with_reducible assumption
    | intro _
    | with_reducible apply good_ite
    | with_reducible apply good_ite_fst
    | fail_if_no_progress beta_reduce
    | fail_if_no_progress extract_lets +onlyGivenNames x
    | split
    | fail_if_no_progress with_reducible apply good_mk

theorem State.cmdWake_mem {pq : Prop × List Instr} (s : State) (kind : Nat) (i : Nat) (hs : MemGood pq s) : MemGood pq (State.cmdWake s kind i) := by
  unfold State.cmdWake
  repeat' first
    | with_reducible assumption
    | intro _
    | with_reducible apply State.sourceNow_mem
    | with_reducible apply State.wakeUnit_mem
    | with_reducible apply good_ite

theorem State.enterUnit_mem {pq : Prop × List Instr} (s : State) (kind : Nat) (i : Nat) (hs : MemGood pq s) : MemGood pq (State.enterUnit s kind i) := by
  unfold State.enterUnit
  repeat' first
    | with_reducible assumption
    | intro _
    | with_reducible apply State.setUnit_mem
    | with_reducible apply State.wakeRecord_mem
    | with_reducible apply State.workNow_mem
    | with_reducible apply good_ite
    | with_reducible apply good_ite_fst
    | fail_if_no_progress beta_reduce
    | fail_if_no_progress extract_lets +onlyGivenNames x
    | split
    | fail_if_no_progress with_reducible apply good_mk

theorem State.setBad_mem {pq : Prop × List Instr} (s : State) (l : Nat) (x : Nat) (hs : MemGood pq s) : MemGood pq (State.setBad s l x) := by
  unfold State.setBad
  repeat' first
    | with_reducible assumption
    | intro _
    | with_reducible apply good_ite
    | with_reducible apply good_ite_fst
    | fail_if_no_progress beta_reduce
    | fail_if_no_progress extract_lets +onlyGivenNames x
    | split
    | fail_if_no_progress with_reducible apply good_mk

theorem State.dramWake_mem {pq : Prop × List Instr} (s : State) (a : Nat) (n : Nat) (hs : MemGood pq s) : MemGood pq (State.dramWake s a n) := by
  unfold State.dramWake
  repeat' first
    | with_reducible assumption
    | intro _
    | with_reducible apply State.wakeNow_mem
    | with_reducible apply State.workNow_mem
    | with_reducible apply forEach_mem
    | with_reducible apply good_ite

theorem State.lineWritten_mem {pq : Prop × List Instr} (s : State) (full : Bool) (l : Nat) (hs : MemGood pq s) : MemGood pq (State.lineWritten s full l) := by
  unfold State.lineWritten
  repeat' first
    | with_reducible assumption
    | intro _
    | with_reducible apply State.setBad_mem
    | with_reducible apply State.wrF_mem
    | with_reducible apply good_ite

theorem State.dramWr_mem {pq : Prop × List Instr} (s : State) (a : Nat) (bs : List Byte) (hs : MemGood pq s) : MemGood pq (s.dramWr a bs) := by
  unfold State.dramWr
  have h := forEach_mem (linesOf a bs.length)
    (fun l s => s.lineWritten (decide (a ≤ 64 * l) && decide (64 * l + 64 ≤ a + bs.length)) l) _
    (State.dramWake_mem s a bs.length hs) (fun n x hx => State.lineWritten_mem x _ n hx)
  exact ⟨fun w => ⟨kwf_memWrite (h.1 w).1 a bs, (h.1 w).2⟩, h.2⟩

theorem State.dormantAt_mem {pq : Prop × List Instr} (s : State) (dom : Nat) (a : Nat) (blk : Nat) (wr : Bool) (late : Bool) (hs : MemGood pq s) : MemGood pq (State.dormantAt s dom a blk wr late) := by
  unfold State.dormantAt
  repeat' first
    | with_reducible assumption
    | intro _
    | with_reducible apply State.detect_mem
    | with_reducible apply State.irq_mem
    | with_reducible apply State.wrF_mem
    | with_reducible apply State.wrN_mem
    | with_reducible apply State.wr_mem
    | with_reducible apply good_ite

theorem State.dormantNote_mem {pq : Prop × List Instr} (s : State) (dom : Nat) (a : Nat) (wr : Bool) (late : Bool) (hs : MemGood pq s) : MemGood pq (State.dormantNote s dom a wr late) := by
  unfold State.dormantNote
  repeat' first
    | with_reducible assumption
    | intro _
    | with_reducible apply State.dormantAt_mem

end Sys2Proof.Machine
end

