-- ==== Sys2Proof/Laws/MemDram.lean ====
section
/-! SUPPORT. Every operation of Machine/Dram.lean keeps the canonical form of the byte memories and the queue. -/

namespace Sys2Proof.Machine

open Sys2Proof


theorem State.drcFault_mem {pq : Prop × List Instr} (s : State) (q : DramReq) (l : Nat) (cls : Nat) (inj : Bool) (hs : MemGood pq s) : MemGood pq (State.drcFault s q l cls inj) := by
  unfold State.drcFault
  repeat' first
    | with_reducible assumption
    | intro _
    | with_reducible apply State.detect_mem

theorem State.drcFirst_mem {pq : Prop × List Instr} (s : State) (q : DramReq) (l : Nat) (cls : Nat) (dev : Nat) (hs : MemGood pq s) : MemGood pq (State.drcFirst s q l cls dev) := by
  unfold State.drcFirst
  repeat' first
    | with_reducible assumption
    | intro _
    | with_reducible apply State.wrN_mem
    | with_reducible apply State.wrWide_mem
    | with_reducible apply good_ite

theorem State.eccTransient_mem {pq : Prop × List Instr} (s : State) (q : DramReq) (l : Nat) (hs : MemGood pq s) : MemGood pq (State.eccTransient s q l) := by
  unfold State.eccTransient
  repeat' first
    | with_reducible assumption
    | intro _
    | with_reducible apply State.drawn_mem
    | with_reducible apply State.drcFault_mem
    | with_reducible apply State.drcFirst_mem

theorem State.eccCorrect_mem {pq : Prop × List Instr} (s : State) (q : DramReq) (l : Nat) (inj : Bool) (hs : MemGood pq s) : MemGood pq (State.eccCorrect s q l inj) := by
  unfold State.eccCorrect
  repeat' first
    | with_reducible assumption
    | intro _
    | with_reducible apply State.count_mem
    | with_reducible apply State.drawn_mem
    | with_reducible apply State.drcFault_mem
    | with_reducible apply State.drcFirst_mem
    | with_reducible apply State.irq_mem
    | with_reducible apply State.lineWritten_mem
    | with_reducible apply State.note_mem
    | with_reducible apply good_ite
    | with_reducible apply good_ite_fst
    | fail_if_no_progress beta_reduce
    | fail_if_no_progress extract_lets +onlyGivenNames x
    | split
    | fail_if_no_progress with_reducible apply good_mk

theorem State.eccPoison_mem {pq : Prop × List Instr} (s : State) (q : DramReq) (l : Nat) (inj : Bool) (hs : MemGood pq s) : MemGood pq (State.eccPoison s q l inj) := by
  unfold State.eccPoison
  repeat' first
    | with_reducible assumption
    | intro _
    | with_reducible apply State.count_mem
    | with_reducible apply State.detect_mem
    | with_reducible apply State.drcFault_mem
    | with_reducible apply State.drcFirst_mem
    | with_reducible apply State.irq_mem
    | with_reducible apply State.lineWritten_mem
    | with_reducible apply State.setBad_mem
    | with_reducible apply good_ite
    | with_reducible apply good_ite_fst
    | fail_if_no_progress beta_reduce
    | fail_if_no_progress extract_lets +onlyGivenNames x
    | split
    | fail_if_no_progress with_reducible apply good_mk

theorem State.cleanRead_mem {pq : Prop × List Instr} (s : State) (q : DramReq) (l : Nat) (hs : MemGood pq s) : MemGood pq (State.cleanRead s q l) := by
  unfold State.cleanRead
  repeat' first
    | with_reducible assumption
    | intro _
    | with_reducible apply good_ite
    | with_reducible apply good_ite_fst
    | fail_if_no_progress beta_reduce
    | fail_if_no_progress extract_lets +onlyGivenNames x
    | split
    | fail_if_no_progress with_reducible apply good_mk

theorem State.eccLine_mem {pq : Prop × List Instr} (s : State) (q : DramReq) (l : Nat) (hs : MemGood pq s) : MemGood pq (State.eccLine s q l).1 := by
  unfold State.eccLine
  repeat' first
    | with_reducible assumption
    | intro _
    | with_reducible apply State.cleanRead_mem
    | with_reducible apply State.drawn_mem
    | with_reducible apply State.drcFirst_mem
    | with_reducible apply State.eccCorrect_mem
    | with_reducible apply State.eccPoison_mem
    | with_reducible apply State.injMeets_mem
    | with_reducible apply good_ite
    | with_reducible apply good_ite_fst
    | fail_if_no_progress beta_reduce
    | fail_if_no_progress extract_lets +onlyGivenNames x
    | split

theorem State.eccLines_mem {pq : Prop × List Instr} (s : State) (q : DramReq) (ls : List Nat) (hs : MemGood pq s) :
    MemGood pq (State.eccLines s q ls).1 :=
  foldl_mem_fst _ _ _ hs fun _ _ hy => State.eccLine_mem _ _ _ hy

theorem State.rangeNote_mem {pq : Prop × List Instr} (s : State) (q : DramReq) (a : Nat) (hs : MemGood pq s) : MemGood pq (State.rangeNote s q a) := by
  unfold State.rangeNote
  repeat' first
    | with_reducible assumption
    | intro _
    | with_reducible apply State.detect_mem

theorem State.dramWaits_mem {pq : Prop × List Instr} (s : State) (w : DramWait) (hs : MemGood pq s) : MemGood pq (State.dramWaits s w) := by
  unfold State.dramWaits
  repeat' first
    | with_reducible assumption
    | intro _
    | with_reducible apply good_ite
    | with_reducible apply good_ite_fst
    | fail_if_no_progress beta_reduce
    | fail_if_no_progress extract_lets +onlyGivenNames x
    | split
    | fail_if_no_progress with_reducible apply good_mk

theorem State.dramReach_mem {pq : Prop × List Instr} (s : State) (q : DramReq) (dom : Nat) (a : Nat) (n : Nat) (wr : Bool) (hs : MemGood pq s) : MemGood pq (State.dramReach s q dom a n wr) := by
  unfold State.dramReach
  repeat' first
    | with_reducible assumption
    | intro _
    | with_reducible apply State.dormantAt_mem
    | with_reducible apply State.dramWake_mem
    | with_reducible apply State.rangeNote_mem
    | with_reducible apply State.wr_mem
    | with_reducible apply good_ite
    | with_reducible apply good_ite_fst
    | fail_if_no_progress beta_reduce
    | fail_if_no_progress extract_lets +onlyGivenNames x
    | split

theorem State.dramAsk_mem {pq : Prop × List Instr} (s : State) (q : DramReq) (dom : Nat) (a : Nat) (n : Nat) (hs : MemGood pq s) : MemGood pq (State.dramAsk s q dom a n).1 := by
  unfold State.dramAsk
  repeat' first
    | with_reducible assumption
    | intro _
    | with_reducible apply State.dramReach_mem
    | with_reducible apply State.eccLines_mem

theorem State.dramGive_mem {pq : Prop × List Instr} (s : State) (a : Nat) (n : Nat) (hs : MemGood pq s) : MemGood pq (State.dramGive s a n).1 :=
  foldl_mem_fst _ _ _ hs fun _ _ hy => good_ite_fst (State.drawn_mem _ hy) hy

theorem State.dramPutNow_mem {pq : Prop × List Instr} (s : State) (q : DramReq) (dom : Nat) (a : Nat) (bs : List Byte) (poison : Bool) (hs : MemGood pq s) : MemGood pq (State.dramPutNow s q dom a bs poison) := by
  unfold State.dramPutNow
  repeat' first
    | with_reducible assumption
    | intro _
    | with_reducible apply State.dramReach_mem
    | with_reducible apply State.dramWr_mem
    | with_reducible apply State.eccLines_mem
    | with_reducible apply State.setBad_mem
    | with_reducible apply forEach_mem
    | with_reducible apply good_ite

theorem State.dramPut_mem {pq : Prop × List Instr} (s : State) (q : DramReq) (dom : Nat) (a : Nat) (bs : List Byte) (poison : Bool) (hs : MemGood pq s) : MemGood pq (State.dramPut s q dom a bs poison) := by
  unfold State.dramPut
  repeat' first
    | with_reducible assumption
    | intro _
    | with_reducible apply State.dramPutNow_mem
    | with_reducible apply State.dramWaits_mem
    | with_reducible apply good_ite

theorem State.dramGet_mem {pq : Prop × List Instr} (s : State) (q : DramReq) (a : Nat) (n : Nat) (hs : MemGood pq s) : MemGood pq (State.dramGet s q a n).1 := by
  unfold State.dramGet
  repeat' first
    | with_reducible assumption
    | intro _
    | with_reducible apply State.dramAsk_mem
    | with_reducible apply State.dramGive_mem

theorem descFrom_mem {pq : Prop × List Instr} (n i : Nat) (r : State × Bool) (h : MemGood pq r.1) : MemGood pq (descFrom n i r).1 := h

theorem State.askDesc_mem {pq : Prop × List Instr} (s : State) (n : Nat) (i : Nat) (hs : MemGood pq s) : MemGood pq (State.askDesc s n i).1 :=
  descFrom_mem _ _ _ (State.dramAsk_mem s _ _ _ _ hs)

end Sys2Proof.Machine
end

