-- ==== Sys2Proof/Laws/MemFlags.lean ====
section
/-! SUPPORT. Every operation of Machine/Flags.lean keeps the canonical form of the byte memories and the queue. -/

namespace Sys2Proof.Machine

open Sys2Proof


theorem State.setSeqState_mem {pq : Prop × List Instr} (s : State) (n : Nat) (st : Nat) (hs : MemGood pq s) : MemGood pq (State.setSeqState s n st) := by
  unfold State.setSeqState
  repeat' first
    | with_reducible assumption
    | intro _
    | with_reducible apply State.wrF_mem

theorem State.pendTrig_mem {pq : Prop × List Instr} (s : State) (n : Nat) (m : Nat) (hs : MemGood pq s) : MemGood pq (State.pendTrig s n m) := by
  unfold State.pendTrig
  repeat' first
    | with_reducible assumption
    | intro _
    | with_reducible apply State.setBits_mem

theorem State.consumeTrig_mem {pq : Prop × List Instr} (s : State) (n : Nat) (m : Nat) (hs : MemGood pq s) : MemGood pq (State.consumeTrig s n m) := by
  unfold State.consumeTrig
  repeat' first
    | with_reducible assumption
    | intro _
    | with_reducible apply State.clrBits_mem

end Sys2Proof.Machine
end

