-- ==== Sys2Proof/Laws/MemAccess.lean ====
section
/-! SUPPORT. Every operation of Machine/Access.lean keeps the canonical form of the byte memories and the queue. -/

namespace Sys2Proof.Machine

open Sys2Proof


/-- The state in which a power unit is reached; none where it is away. -/
def Reach.st (s : State) : Reach → State
  | .awake t => t
  | .away _ => s

theorem reach_ite {pq : Prop × List Instr} {s : State} {c : Prop} [Decidable c] {a b : Reach} (ha : MemGood pq (a.st s))
    (hb : MemGood pq (b.st s)) : MemGood pq ((if c then a else b).st s) := by
  split
  · exact ha
  · exact hb

theorem State.reach_mem {pq : Prop × List Instr} (s : State) (u : Option (Nat × Nat)) (woa : Bool) (hs : MemGood pq s) :
    MemGood pq ((s.reach u woa).st s) := by
  unfold State.reach
  split
  · exact hs
  · refine reach_ite hs ?_
    split
    · exact good_ite (c := _ = true) (State.sourceNow_mem _ _ _ _ hs) hs
    · exact reach_ite hs (State.wakeNow_mem _ _ _ _ hs)
    · exact reach_ite hs (reach_ite hs (State.setUnit_mem _ _ _ _ hs))
    · exact good_ite (c := _ = 5) hs (State.wakeUnit_mem _ _ _ _ hs)

theorem State.awake_mem {pq : Prop × List Instr} {s t : State} {u : Option (Nat × Nat)} {woa : Bool} (h : s.reach u woa = .awake t)
    (hs : MemGood pq s) : MemGood pq t := by
  have g := s.reach_mem u woa hs
  rw [h] at g
  exact g

theorem State.poisoned_mem {pq : Prop × List Instr} (s : State) (dom a : Nat) (hs : MemGood pq s) : MemGood pq (s.poisoned dom a) := by
  unfold State.poisoned
  exact good_ite (State.detect_mem _ _ (State.irq_mem _ _ _ (State.countF_mem _ _ _ _ _ hs))) hs

/-- The state in which an access stands after its checks. -/
def Served.st : Served → State
  | .serve s => s
  | .answer s _ => s

theorem served_ite {pq : Prop × List Instr} {c : Prop} [Decidable c] {a b : Served} (ha : MemGood pq a.st) (hb : MemGood pq b.st) :
    MemGood pq (if c then a else b).st := by
  split
  · exact ha
  · exact hb

theorem State.access_mem {pq : Prop × List Instr} (s : State) (dom a : Nat) (wr : Bool) (hs : MemGood pq s) :
    MemGood pq (s.access dom a wr).st := by
  unfold State.access
  refine served_ite hs (served_ite hs (served_ite (State.deny_mem _ _ _ _ _ _ hs)
    (served_ite (State.dormantNote_mem _ _ _ _ _ hs) ?_)))
  have h := s.reach_mem (unitAt a) (s.wakeOnAccess a) hs
  split
  · rename_i t ht
    rw [ht] at h
    exact h
  · exact State.dormantNote_mem _ _ _ _ _ hs

theorem State.hostWrite_mem {pq : Prop × List Instr} (s : State) (dom : Nat) (a : Nat) (k : State → State) (hs : MemGood pq s)
    (hk : ∀ x, MemGood pq x → MemGood pq (k x)) : MemGood pq (s.hostWrite dom a k) := by
  have h := s.access_mem dom a true hs
  unfold State.hostWrite
  split <;> simp_all [Served.st]

theorem State.hostRead_mem {pq : Prop × List Instr} (s : State) (dom : Nat) (a : Nat) (k : State → State × List Word) (hs : MemGood pq s)
    (hk : ∀ x, MemGood pq x → MemGood pq (k x).1) : MemGood pq (s.hostRead dom a k) := by
  have h := s.access_mem dom a false hs
  unfold State.hostRead
  split
  · rename_i t ht
    rw [ht] at h
    exact State.answer_mem _ _ (hk t h)
  · rename_i t w ht
    rw [ht] at h
    exact State.answer_mem _ _ h

end Sys2Proof.Machine
end

