-- ==== Sys2Proof/Laws/MemActive.lean ====
section
/-! SUPPORT. Every operation of Machine/Active.lean keeps the canonical form of the byte memories and the queue. -/

namespace Sys2Proof.Machine

open Sys2Proof


theorem State.entryDesc_mem {pq : Prop × List Instr} (s : State) (n : Nat) (e : Nat) (hs : MemGood pq s) : MemGood pq (State.entryDesc s n e).1 := by
  unfold State.entryDesc
  repeat' first
    | with_reducible assumption
    | intro _
    | with_reducible apply State.askDesc_mem
    | with_reducible apply good_ite
    | with_reducible apply good_ite_fst
    | fail_if_no_progress beta_reduce
    | fail_if_no_progress extract_lets +onlyGivenNames x
    | split

theorem State.takeCopy_mem {pq : Prop × List Instr} (s : State) (n : Nat) (e : Nat) (hs : MemGood pq s) : MemGood pq (State.takeCopy s n e) := by
  unfold State.takeCopy
  repeat' first
    | with_reducible assumption
    | intro _
    | with_reducible apply State.entryDesc_mem
    | with_reducible apply State.setSq_mem

theorem State.pruneCopies_mem {pq : Prop × List Instr} (s : State) (n : Nat) (hs : MemGood pq s) : MemGood pq (State.pruneCopies s n) := by
  unfold State.pruneCopies
  repeat' first
    | with_reducible assumption
    | intro _
    | with_reducible apply State.setSq_mem

theorem State.keepLine_mem {pq : Prop × List Instr} (n : Nat) (l : Nat) (s : State) (hs : MemGood pq s) : MemGood pq (State.keepLine n l s) := by
  unfold State.keepLine
  repeat' first
    | with_reducible assumption
    | intro _
    | with_reducible apply State.drawn_mem
    | with_reducible apply State.setSq_mem
    | with_reducible apply good_ite

theorem State.keepOld_mem {pq : Prop × List Instr} (s : State) (a : Nat) (k : Nat) (hs : MemGood pq s) : MemGood pq (State.keepOld s a k) := by
  unfold State.keepOld
  repeat' first
    | with_reducible assumption
    | intro _
    | with_reducible apply State.keepLine_mem
    | with_reducible apply forEach_mem

theorem State.engWr_mem {pq : Prop × List Instr} (s : State) (q : DramReq) (a : Nat) (bs : List Byte) (hs : MemGood pq s) : MemGood pq (State.engWr s q a bs) := by
  unfold State.engWr
  repeat' first
    | with_reducible assumption
    | intro _
    | with_reducible apply State.dramPut_mem
    | with_reducible apply State.keepOld_mem

end Sys2Proof.Machine
end

