-- ==== Sys2Proof/Laws/MemLinkTx.lean ====
section
/-! SUPPORT. Every operation of Machine/LinkTx.lean keeps the canonical form of the byte memories and the queue. -/

namespace Sys2Proof.Machine

open Sys2Proof


theorem State.txWake_mem {pq : Prop × List Instr} (s : State) (p : Nat) (source : Nat) (hs : MemGood pq s) : MemGood pq (State.txWake s p source) := by
  unfold State.txWake
  repeat' first
    | with_reducible assumption
    | intro _
    | with_reducible apply State.send_mem
    | with_reducible apply State.setFp_mem
    | with_reducible apply State.wakeUnit_mem
    | with_reducible apply good_ite

theorem State.txLose_mem {pq : Prop × List Instr} (s : State) (p : Nat) (flow : Nat) (reason : Nat) (hs : MemGood pq s) : MemGood pq (State.txLose s p flow reason) := by
  unfold State.txLose
  repeat' first
    | with_reducible assumption
    | intro _
    | with_reducible apply State.irq_mem
    | with_reducible apply State.note_mem
    | with_reducible apply State.wrN_mem
    | with_reducible apply State.wrWide_mem
    | with_reducible apply good_ite

theorem State.txCopy_mem {pq : Prop × List Instr} (s : State) (p : Nat) (f : Nat) (rflow : Nat) (data : List Byte) (hs : MemGood pq s) : MemGood pq (State.txCopy s p f rflow data) := by
  unfold State.txCopy
  repeat' first
    | with_reducible assumption
    | intro _
    | with_reducible apply State.setFp_mem
    | with_reducible apply State.txLose_mem
    | with_reducible apply State.txWake_mem
    | with_reducible apply good_ite

theorem State.txCopies_mem {pq : Prop × List Instr} (s : State) (f : Nat) (data : List Byte) (hs : MemGood pq s) : MemGood pq (State.txCopies s f data) := by
  unfold State.txCopies
  repeat' first
    | with_reducible assumption
    | intro _
    | with_reducible apply State.txCopy_mem
    | with_reducible apply foldl_mem
    | with_reducible apply foldl_mem_fst
    | with_reducible apply good_ite

end Sys2Proof.Machine
end

