-- ==== Sys2Proof/Laws/MemGraphs.lean ====
section
/-! SUPPORT. Every operation of Machine/Graphs.lean keeps the canonical form of the byte memories and the queue. -/

namespace Sys2Proof.Machine

open Sys2Proof


theorem State.bump_mem {pq : Prop × List Instr} (s : State) (a : Nat) (k : Nat) (hs : MemGood pq s) : MemGood pq (State.bump s a k) := by
  unfold State.bump
  repeat' first
    | with_reducible assumption
    | intro _
    | with_reducible apply State.sramWr_mem

theorem opCount_mem {pq : Prop × List Instr} (s : State) (a : Nat) (n : GNode) (data : List Byte) (hs : MemGood pq s) : MemGood pq (opCount s a n data).1 := by
  unfold opCount
  repeat' first
    | with_reducible assumption
    | intro _
    | with_reducible apply State.bump_mem
    | with_reducible apply good_ite
    | with_reducible apply good_ite_fst

theorem opAccum_mem {pq : Prop × List Instr} (s : State) (a : Nat) (n : GNode) (data : List Byte) (hs : MemGood pq s) : MemGood pq (opAccum s a n data).1 := by
  unfold opAccum
  repeat' first
    | with_reducible assumption
    | intro _
    | with_reducible apply State.bump_mem
    | with_reducible apply State.drawn_mem
    | with_reducible apply State.sramWr_mem
    | with_reducible apply good_ite
    | with_reducible apply good_ite_fst

theorem opBitmap_mem {pq : Prop × List Instr} (s : State) (a : Nat) (n : GNode) (data : List Byte) (hs : MemGood pq s) : MemGood pq (opBitmap s a n data).1 := by
  unfold opBitmap
  repeat' first
    | with_reducible assumption
    | intro _
    | with_reducible apply State.bump_mem
    | with_reducible apply State.dramGet_mem
    | with_reducible apply State.engWr_mem
    | with_reducible apply good_ite
    | with_reducible apply good_ite_fst

theorem opCompress_mem {pq : Prop × List Instr} (s : State) (a : Nat) (n : GNode) (data : List Byte) (hs : MemGood pq s) : MemGood pq (opCompress s a n data).1 := by
  unfold opCompress
  repeat' first
    | with_reducible assumption
    | intro _
    | with_reducible apply State.sramWr_mem
    | with_reducible apply good_ite
    | with_reducible apply good_ite_fst

theorem opHist_mem {pq : Prop × List Instr} (s : State) (a : Nat) (n : GNode) (data : List Byte) (hs : MemGood pq s) : MemGood pq (opHist s a n data).1 := by
  unfold opHist
  repeat' first
    | with_reducible assumption
    | intro _
    | with_reducible apply State.bump_mem
    | with_reducible apply good_ite
    | with_reducible apply good_ite_fst

theorem opRegress_mem {pq : Prop × List Instr} (s : State) (a : Nat) (n : GNode) (data : List Byte) (hs : MemGood pq s) : MemGood pq (opRegress s a n data).1 := by
  unfold opRegress
  repeat' first
    | with_reducible assumption
    | intro _
    | with_reducible apply State.bump_mem
    | with_reducible apply State.sramWr_mem

theorem opBin_mem {pq : Prop × List Instr} (s : State) (a : Nat) (n : GNode) (data : List Byte) (hs : MemGood pq s) : MemGood pq (opBin s a n data).1 := by
  unfold opBin
  repeat' first
    | with_reducible assumption
    | intro _
    | with_reducible apply State.bump_mem
    | with_reducible apply good_ite
    | with_reducible apply good_ite_fst

theorem State.nodeRun_mem {pq : Prop × List Instr} (s : State) (a : Nat) (n : GNode) (data : List Byte) (hs : MemGood pq s) : MemGood pq (State.nodeRun s a n data).1 := by
  unfold State.nodeRun
  repeat' first
    | with_reducible assumption
    | intro _
    | with_reducible apply State.bump_mem
    | with_reducible apply opAccum_mem
    | with_reducible apply opBin_mem
    | with_reducible apply opBitmap_mem
    | with_reducible apply opCompress_mem
    | with_reducible apply opCount_mem
    | with_reducible apply opHist_mem
    | with_reducible apply opRegress_mem
    | with_reducible apply good_ite
    | with_reducible apply good_ite_fst
    | fail_if_no_progress beta_reduce
    | fail_if_no_progress extract_lets +onlyGivenNames x
    | split

theorem State.noteFlow_mem {pq : Prop × List Instr} (s : State) (f : Nat) (code : Nat) (hs : MemGood pq s) : MemGood pq (State.noteFlow s f code) := by
  unfold State.noteFlow
  repeat' first
    | with_reducible assumption
    | intro _
    | with_reducible apply State.detect_mem

theorem State.loseItem_mem {pq : Prop × List Instr} (s : State) (f : Nat) (reason : Nat) (data : List Byte) (hs : MemGood pq s) : MemGood pq (State.loseItem s f reason data) := by
  unfold State.loseItem
  repeat' first
    | with_reducible assumption
    | intro _
    | with_reducible apply State.irq_mem
    | with_reducible apply State.noteFlow_mem
    | with_reducible apply State.setFw_mem
    | with_reducible apply good_ite

theorem State.noteNoEngine_mem {pq : Prop × List Instr} (s : State) (g : Graph) (hs : MemGood pq s) : MemGood pq (State.noteNoEngine s g) := by
  unfold State.noteNoEngine
  repeat' first
    | with_reducible assumption
    | intro _
    | with_reducible apply State.detect_mem
    | with_reducible apply good_ite
    | with_reducible apply good_ite_fst
    | fail_if_no_progress beta_reduce
    | fail_if_no_progress extract_lets +onlyGivenNames x
    | split
    | fail_if_no_progress with_reducible apply good_mk

theorem State.placeFlow_mem {pq : Prop × List Instr} (s : State) (g : Graph) (f : Nat) (hs : MemGood pq s) : MemGood pq (State.placeFlow s g f) := by
  unfold State.placeFlow
  repeat' first
    | with_reducible assumption
    | intro _
    | with_reducible apply State.noteNoEngine_mem
    | with_reducible apply State.setEng_mem
    | with_reducible apply State.setFw_mem
    | with_reducible apply State.wakeUnit_mem
    | with_reducible apply good_ite
    | with_reducible apply good_ite_fst
    | fail_if_no_progress beta_reduce
    | fail_if_no_progress extract_lets +onlyGivenNames x
    | split

theorem State.schedule_mem {pq : Prop × List Instr} (s : State) (g : Graph) (hs : MemGood pq s) : MemGood pq (State.schedule s g) := by
  unfold State.schedule
  repeat' first
    | with_reducible assumption
    | intro _
    | with_reducible apply State.placeFlow_mem
    | with_reducible apply foldl_mem
    | with_reducible apply foldl_mem_fst
    | with_reducible apply good_ite
    | with_reducible apply good_ite_fst
    | fail_if_no_progress beta_reduce
    | fail_if_no_progress extract_lets +onlyGivenNames x
    | split

theorem State.poolLow_mem {pq : Prop × List Instr} (s : State) (hs : MemGood pq s) : MemGood pq (State.poolLow s) := by
  unfold State.poolLow
  repeat' first
    | with_reducible assumption
    | intro _
    | with_reducible apply State.wrF_mem
    | with_reducible apply good_ite

theorem State.poolPush_mem {pq : Prop × List Instr} (s : State) (f : Nat) (e : Elem) (hs : MemGood pq s) : MemGood pq (State.poolPush s f e) := by
  unfold State.poolPush
  repeat' first
    | with_reducible assumption
    | intro _
    | with_reducible apply State.poolLow_mem
    | with_reducible apply State.setFw_mem
    | with_reducible apply State.sramWr_mem

theorem State.spillPush_mem {pq : Prop × List Instr} (s : State) (f : Nat) (x : GFlow) (data : List Byte) (order : Nat) (hs : MemGood pq s) : MemGood pq (State.spillPush s f x data order) := by
  unfold State.spillPush
  repeat' first
    | with_reducible assumption
    | intro _
    | with_reducible apply State.engWr_mem
    | with_reducible apply State.irq_mem
    | with_reducible apply State.noteFlow_mem
    | with_reducible apply State.setFw_mem
    | with_reducible apply good_ite

theorem State.nextOrder_mem {pq : Prop × List Instr} (s : State) (hs : MemGood pq s) : MemGood pq (State.nextOrder s) := by
  unfold State.nextOrder
  repeat' first
    | with_reducible assumption
    | intro _
    | with_reducible apply good_ite
    | with_reducible apply good_ite_fst
    | fail_if_no_progress beta_reduce
    | fail_if_no_progress extract_lets +onlyGivenNames x
    | split
    | fail_if_no_progress with_reducible apply good_mk

theorem State.countAdmit_mem {pq : Prop × List Instr} (s : State) (f : Nat) (data : List Byte) (hs : MemGood pq s) : MemGood pq (State.countAdmit s f data) := by
  unfold State.countAdmit
  repeat' first
    | with_reducible assumption
    | intro _
    | with_reducible apply State.admit_mem
    | with_reducible apply State.setFw_mem
    | with_reducible apply State.txCopies_mem

theorem State.enterFlow_mem {pq : Prop × List Instr} (s : State) (g : Graph) (f : Nat) (x : GFlow) (data : List Byte) (hs : MemGood pq s) : MemGood pq (State.enterFlow s g f x data).1 := by
  unfold State.enterFlow
  repeat' first
    | with_reducible assumption
    | intro _
    | with_reducible apply State.countAdmit_mem
    | with_reducible apply State.loseItem_mem
    | with_reducible apply State.nextOrder_mem
    | with_reducible apply State.poolPush_mem
    | with_reducible apply State.schedule_mem
    | with_reducible apply State.setFw_mem
    | with_reducible apply State.spillPush_mem
    | with_reducible apply good_ite
    | with_reducible apply good_ite_fst
    | fail_if_no_progress beta_reduce
    | fail_if_no_progress extract_lets +onlyGivenNames x
    | split

theorem State.takeIn_mem {pq : Prop × List Instr} (s : State) (f : Nat) (kind : Nat) (src : Option Nat) (data : List Byte) (hs : MemGood pq s) : MemGood pq (State.takeIn s f kind src data).1 := by
  unfold State.takeIn
  repeat' first
    | with_reducible assumption
    | intro _
    | with_reducible apply State.count_mem
    | with_reducible apply State.enterFlow_mem
    | with_reducible apply State.loseItem_mem
    | with_reducible apply good_ite
    | with_reducible apply good_ite_fst
    | fail_if_no_progress beta_reduce
    | fail_if_no_progress extract_lets +onlyGivenNames x
    | split

theorem State.clearNodes_mem {pq : Prop × List Instr} (s : State) (g : Graph) (hs : MemGood pq s) : MemGood pq (State.clearNodes s g) := by
  unfold State.clearNodes
  repeat' first
    | with_reducible assumption
    | intro _
    | with_reducible apply State.sramWr_mem

theorem State.clearGraphs_mem {pq : Prop × List Instr} (s : State) (n : Nat) (hs : MemGood pq s) : MemGood pq (State.clearGraphs s n) := by
  unfold State.clearGraphs
  repeat' first
    | with_reducible assumption
    | intro _
    | with_reducible apply State.clearNodes_mem
    | with_reducible apply State.setFw_mem
    | with_reducible apply foldl_mem

theorem State.putMarker_mem {pq : Prop × List Instr} (s : State) (f : Nat) (num : Nat) (hs : MemGood pq s) : MemGood pq (State.putMarker s f num) := by
  unfold State.putMarker
  repeat' first
    | with_reducible assumption
    | intro _
    | with_reducible apply State.setFw_mem

end Sys2Proof.Machine
end

