-- ==== Sys2Proof/Laws/MemCalSlot.lean ====
section
/-! SUPPORT. Every operation of Machine/CalSlot.lean keeps the canonical form of the byte memories and the queue. -/

namespace Sys2Proof.Machine

open Sys2Proof


theorem State.dskLoad_mem {pq : Prop × List Instr} (s : State) (c : Nat) (rec : List Byte) (hs : MemGood pq s) : MemGood pq (State.dskLoad s c rec) := by
  unfold State.dskLoad
  repeat' first
    | with_reducible assumption
    | intro _
    | with_reducible apply State.drawn_mem
    | with_reducible apply State.wrN_mem

theorem State.dskAct_mem {pq : Prop × List Instr} (s : State) (c : Nat) (hs : MemGood pq s) : MemGood pq (State.dskAct s c) := by
  unfold State.dskAct
  repeat' first
    | with_reducible assumption
    | intro _
    | with_reducible apply State.setCh_mem

theorem State.calLoadChan_mem {pq : Prop × List Instr} (s : State) (c : Nat) (hs : MemGood pq s) : MemGood pq (State.calLoadChan s c) := by
  unfold State.calLoadChan
  repeat' first
    | with_reducible assumption
    | intro _
    | with_reducible apply State.drawn_mem
    | with_reducible apply State.dskAct_mem
    | with_reducible apply State.dskLoad_mem
    | with_reducible apply State.wrN_mem

theorem State.setSlot_mem {pq : Prop × List Instr} (s : State) (x : Option CalSlot) (hs : MemGood pq s) : MemGood pq (State.setSlot s x) := by
  unfold State.setSlot
  repeat' first
    | with_reducible assumption
    | intro _
    | with_reducible apply good_ite
    | with_reducible apply good_ite_fst
    | fail_if_no_progress beta_reduce
    | fail_if_no_progress extract_lets +onlyGivenNames x
    | split
    | fail_if_no_progress with_reducible apply good_mk

theorem State.slotRests_mem {pq : Prop × List Instr} (s : State) (x : CalSlot) (hs : MemGood pq s) : MemGood pq (State.slotRests s x) := by
  unfold State.slotRests
  repeat' first
    | with_reducible assumption
    | intro _
    | with_reducible apply State.setSlot_mem
    | with_reducible apply State.workNow_mem
    | with_reducible apply good_ite
    | with_reducible apply good_ite_fst
    | fail_if_no_progress beta_reduce
    | fail_if_no_progress extract_lets +onlyGivenNames x
    | split

theorem State.calPhase_mem {pq : Prop × List Instr} (s : State) (p : Nat) (hs : MemGood pq s) : MemGood pq (State.calPhase s p) := by
  unfold State.calPhase
  repeat' first
    | with_reducible assumption
    | intro _
    | with_reducible apply State.wrF_mem

theorem State.calAgeNew_mem {pq : Prop × List Instr} (s : State) (c : Nat) (hs : MemGood pq s) : MemGood pq (State.calAgeNew s c) := by
  unfold State.calAgeNew
  repeat' first
    | with_reducible assumption
    | intro _
    | with_reducible apply good_ite
    | with_reducible apply good_ite_fst
    | fail_if_no_progress beta_reduce
    | fail_if_no_progress extract_lets +onlyGivenNames x
    | split
    | fail_if_no_progress with_reducible apply good_mk

theorem State.spareOut_mem {pq : Prop × List Instr} (s : State) (x : CalSlot) (hs : MemGood pq s) : MemGood pq (State.spareOut s x) := by
  unfold State.spareOut
  repeat' first
    | with_reducible assumption
    | intro _
    | with_reducible apply State.calAgeNew_mem
    | with_reducible apply State.dskAct_mem
    | with_reducible apply State.workNow_mem
    | with_reducible apply State.wrF_mem
    | with_reducible apply State.wrN_mem
    | with_reducible apply good_ite

theorem State.calAbort_mem {pq : Prop × List Instr} (s : State) (result : Nat) (hs : MemGood pq s) : MemGood pq (State.calAbort s result) := by
  unfold State.calAbort
  repeat' first
    | with_reducible assumption
    | intro _
    | with_reducible apply State.calPhase_mem
    | with_reducible apply State.setSlot_mem
    | with_reducible apply State.spareOut_mem
    | with_reducible apply good_ite
    | with_reducible apply good_ite_fst
    | fail_if_no_progress beta_reduce
    | fail_if_no_progress extract_lets +onlyGivenNames x
    | split

theorem State.calStartHook_mem {pq : Prop × List Instr} (s : State) (c : Nat) (hs : MemGood pq s) : MemGood pq (State.calStartHook s c) := by
  unfold State.calStartHook
  repeat' first
    | with_reducible assumption
    | intro _
    | with_reducible apply State.calPhase_mem
    | with_reducible apply State.setSlot_mem
    | with_reducible apply State.spareOut_mem
    | with_reducible apply good_ite
    | with_reducible apply good_ite_fst
    | fail_if_no_progress beta_reduce
    | fail_if_no_progress extract_lets +onlyGivenNames x
    | split

theorem State.calStopHook_mem {pq : Prop × List Instr} (s : State) (c : Nat) (hs : MemGood pq s) : MemGood pq (State.calStopHook s c) := by
  unfold State.calStopHook
  repeat' first
    | with_reducible assumption
    | intro _
    | with_reducible apply State.calAbort_mem
    | with_reducible apply good_ite
    | with_reducible apply good_ite_fst
    | fail_if_no_progress beta_reduce
    | fail_if_no_progress extract_lets +onlyGivenNames x
    | split

theorem State.calTileStop_mem {pq : Prop × List Instr} (s : State) (t : Nat) (hs : MemGood pq s) : MemGood pq (State.calTileStop s t) := by
  unfold State.calTileStop
  repeat' first
    | with_reducible assumption
    | intro _
    | with_reducible apply State.calAbort_mem
    | with_reducible apply good_ite
    | with_reducible apply good_ite_fst
    | fail_if_no_progress beta_reduce
    | fail_if_no_progress extract_lets +onlyGivenNames x
    | split

theorem State.calArmHook_mem {pq : Prop × List Instr} (s : State) (c : Nat) (hs : MemGood pq s) : MemGood pq (State.calArmHook s c) := by
  unfold State.calArmHook
  repeat' first
    | with_reducible assumption
    | intro _
    | with_reducible apply State.calAbort_mem
    | with_reducible apply State.setSlot_mem
    | with_reducible apply good_ite
    | with_reducible apply good_ite_fst
    | fail_if_no_progress beta_reduce
    | fail_if_no_progress extract_lets +onlyGivenNames x
    | split

theorem State.calDigHook_mem {pq : Prop × List Instr} (s : State) (c : Nat) (hs : MemGood pq s) : MemGood pq (State.calDigHook s c) := by
  unfold State.calDigHook
  repeat' first
    | with_reducible assumption
    | intro _
    | with_reducible apply State.setSlot_mem
    | with_reducible apply State.wrF_mem
    | with_reducible apply good_ite
    | with_reducible apply good_ite_fst
    | fail_if_no_progress beta_reduce
    | fail_if_no_progress extract_lets +onlyGivenNames x
    | split

end Sys2Proof.Machine
end

