-- ==== Sys2Proof/Laws/MemPace.lean ====
section
/-! SUPPORT. Every operation of Machine/Pace.lean keeps the canonical form of the byte memories and the queue. -/

namespace Sys2Proof.Machine

open Sys2Proof


theorem State.paceCut_mem {pq : Prop × List Instr} (s : State) (kind : Nat) (c : Nat) (req : Nat → Nat → Bool) (places : Nat → Nat → List (Bool × Nat × Nat)) (hs : MemGood pq s) : MemGood pq (State.paceCut s kind c req places) := by
  unfold State.paceCut
  repeat' first
    | with_reducible assumption
    | intro _
    | with_reducible apply State.setDc_mem
    | with_reducible apply forEach_mem
    | with_reducible apply good_ite

end Sys2Proof.Machine
end

