-- ==== Sys2Proof/Laws/MemTmu.lean ====
section
/-! SUPPORT. Every operation of Machine/Tmu.lean keeps the canonical form of the byte memories and the queue. -/

namespace Sys2Proof.Machine

open Sys2Proof


theorem State.setTmState_mem {pq : Prop × List Instr} (s : State) (c : Nat) (st : Nat) (hs : MemGood pq s) : MemGood pq (State.setTmState s c st) := by
  unfold State.setTmState
  repeat' first
    | with_reducible assumption
    | intro _
    | with_reducible apply State.workNow_mem
    | with_reducible apply State.wrF_mem

theorem State.holdRec_mem {pq : Prop × List Instr} (s : State) (c : Nat) (r : List Byte) (hs : MemGood pq s) : MemGood pq (State.holdRec s c r) := by
  unfold State.holdRec
  repeat' first
    | with_reducible assumption
    | intro _
    | with_reducible apply State.setTm_mem
    | with_reducible apply good_ite
    | with_reducible apply good_ite_fst
    | fail_if_no_progress beta_reduce
    | fail_if_no_progress extract_lets +onlyGivenNames x
    | split
    | fail_if_no_progress with_reducible apply good_mk

theorem State.count48_mem {pq : Prop × List Instr} (s : State) (a : Nat) (hs : MemGood pq s) : MemGood pq (State.count48 s a) := by
  unfold State.count48
  repeat' first
    | with_reducible assumption
    | intro _
    | with_reducible apply State.wrWide_mem

theorem State.stampLost_mem {pq : Prop × List Instr} (s : State) (c : Nat) (r : List Byte) (hs : MemGood pq s) : MemGood pq (State.stampLost s c r) := by
  unfold State.stampLost
  repeat' first
    | with_reducible assumption
    | intro _
    | with_reducible apply State.count48_mem
    | with_reducible apply State.irq_mem
    | with_reducible apply State.note_mem
    | with_reducible apply State.setTm_mem
    | with_reducible apply State.wrN_mem
    | with_reducible apply good_ite

theorem State.ringPut_mem {pq : Prop × List Instr} (s : State) (c : Nat) (r : List Byte) (hs : MemGood pq s) : MemGood pq (State.ringPut s c r) := by
  unfold State.ringPut
  repeat' first
    | with_reducible assumption
    | intro _
    | with_reducible apply State.engWr_mem
    | with_reducible apply State.sramWr_mem
    | with_reducible apply State.stampLost_mem
    | with_reducible apply State.wrN_mem
    | with_reducible apply State.wr_mem
    | with_reducible apply good_ite

theorem State.ringCut_mem {pq : Prop × List Instr} (s : State) (c : Nat) (hs : MemGood pq s) : MemGood pq (State.ringCut s c) := by
  unfold State.ringCut
  repeat' first
    | with_reducible assumption
    | intro _
    | with_reducible apply State.paceCut_mem

theorem State.stampMove_mem {pq : Prop × List Instr} (s : State) (c : Nat) (hs : MemGood pq s) : MemGood pq (State.stampMove s c) := by
  unfold State.stampMove
  repeat' first
    | with_reducible assumption
    | intro _
    | with_reducible apply State.ringPut_mem
    | with_reducible apply State.setTm_mem
    | with_reducible apply State.takeIn_mem
    | with_reducible apply good_ite
    | with_reducible apply good_ite_fst
    | fail_if_no_progress beta_reduce
    | fail_if_no_progress extract_lets +onlyGivenNames x
    | split
    | fail_if_no_progress with_reducible apply good_mk

theorem State.stampFlush_mem {pq : Prop × List Instr} (s : State) (c : Nat) (hs : MemGood pq s) : MemGood pq (State.stampFlush s c) := by
  unfold State.stampFlush
  repeat' first
    | with_reducible assumption
    | intro _
    | with_reducible apply State.stampMove_mem
    | with_reducible apply forEach_mem
    | with_reducible apply good_ite
    | with_reducible apply good_ite_fst
    | fail_if_no_progress beta_reduce
    | fail_if_no_progress extract_lets +onlyGivenNames x
    | split

theorem State.tmuLatch_mem {pq : Prop × List Instr} (s : State) (c : Nat) (hs : MemGood pq s) : MemGood pq (State.tmuLatch s c) := by
  unfold State.tmuLatch
  repeat' first
    | with_reducible assumption
    | intro _
    | with_reducible apply State.drawn_mem
    | with_reducible apply State.irq_mem
    | with_reducible apply State.setTm_mem
    | with_reducible apply State.wrF_mem
    | with_reducible apply State.wrN_mem
    | with_reducible apply State.wrWide_mem
    | with_reducible apply good_ite
    | with_reducible apply good_ite_fst
    | fail_if_no_progress beta_reduce
    | fail_if_no_progress extract_lets +onlyGivenNames x
    | split

theorem State.openMark_mem {pq : Prop × List Instr} (s : State) (c : Nat) (o : Nat) (hs : MemGood pq s) : MemGood pq (State.openMark s c o) := by
  unfold State.openMark
  repeat' first
    | with_reducible assumption
    | intro _
    | with_reducible apply State.holdRec_mem

theorem State.tmuOpen_mem {pq : Prop × List Instr} (s : State) (c : Nat) (hs : MemGood pq s) : MemGood pq (State.tmuOpen s c) := by
  unfold State.tmuOpen
  repeat' first
    | with_reducible assumption
    | intro _
    | with_reducible apply State.openMark_mem
    | with_reducible apply State.setTmState_mem
    | with_reducible apply good_ite
    | with_reducible apply good_ite_fst
    | fail_if_no_progress beta_reduce
    | fail_if_no_progress extract_lets +onlyGivenNames x
    | split

theorem State.tmuClose_mem {pq : Prop × List Instr} (s : State) (c : Nat) (cause : Nat) (t : Nat) (hs : MemGood pq s) : MemGood pq (State.tmuClose s c cause t) := by
  unfold State.tmuClose
  repeat' first
    | with_reducible assumption
    | intro _
    | with_reducible apply State.holdRec_mem
    | with_reducible apply State.openMark_mem
    | with_reducible apply State.setTmState_mem
    | with_reducible apply State.setTm_mem
    | with_reducible apply State.tmuLatch_mem
    | with_reducible apply State.wrF_mem
    | with_reducible apply good_ite

theorem State.tmuAdvance_mem {pq : Prop × List Instr} (s : State) (c : Nat) (t : Nat) (z0 : Nat) (hs : MemGood pq s) : MemGood pq (State.tmuAdvance s c t z0) := by
  revert hs
  fun_induction State.tmuAdvance s c t z0
  all_goals repeat' first
    | with_reducible assumption
    | intro _
    | with_reducible apply State.tmuClose_mem
    | with_reducible apply State.tmuOpen_mem
    | with_reducible apply good_ite
    | with_reducible apply good_ite_fst
    | fail_if_no_progress beta_reduce
    | fail_if_no_progress extract_lets +onlyGivenNames x
    | split
    | fail_if_no_progress with_reducible apply good_mk
    | refine fst_mem (by assumption) ?_
    | apply_assumption

theorem State.tmuAt_mem {pq : Prop × List Instr} (s : State) (c : Nat) (t : Nat) (hs : MemGood pq s) : MemGood pq (State.tmuAt s c t) := by
  unfold State.tmuAt
  repeat' first
    | with_reducible assumption
    | intro _
    | with_reducible apply State.tmuAdvance_mem

theorem State.tmuSettle_mem {pq : Prop × List Instr} (s : State) (c : Nat) (hs : MemGood pq s) : MemGood pq (State.tmuSettle s c) := by
  unfold State.tmuSettle
  repeat' first
    | with_reducible assumption
    | intro _
    | with_reducible apply State.setTm_mem
    | with_reducible apply State.tmuAt_mem
    | with_reducible apply State.tmuClose_mem
    | with_reducible apply good_ite
    | with_reducible apply good_ite_fst
    | fail_if_no_progress beta_reduce
    | fail_if_no_progress extract_lets +onlyGivenNames x
    | split

theorem State.tmuEnding_mem {pq : Prop × List Instr} (s : State) (c : Nat) (e : Nat × Nat) (hs : MemGood pq s) : MemGood pq (State.tmuEnding s c e) := by
  unfold State.tmuEnding
  repeat' first
    | with_reducible assumption
    | intro _
    | with_reducible apply State.setTmState_mem
    | with_reducible apply State.setTm_mem
    | with_reducible apply State.wrF_mem

theorem State.tmuEnd_mem {pq : Prop × List Instr} (s : State) (c : Nat) (cause : Nat) (hs : MemGood pq s) : MemGood pq (State.tmuEnd s c cause) := by
  unfold State.tmuEnd
  repeat' first
    | with_reducible assumption
    | intro _
    | with_reducible apply State.setTmState_mem
    | with_reducible apply State.setTm_mem
    | with_reducible apply State.tmuEnding_mem
    | with_reducible apply State.tmuOpen_mem
    | with_reducible apply State.wrF_mem
    | with_reducible apply good_ite
    | with_reducible apply good_ite_fst
    | fail_if_no_progress beta_reduce
    | fail_if_no_progress extract_lets +onlyGivenNames x
    | split

theorem State.tmuSync_mem {pq : Prop × List Instr} (s : State) (c : Nat) (e : Nat) (t : Nat) (hs : MemGood pq s) : MemGood pq (State.tmuSync s c e t) := by
  unfold State.tmuSync
  repeat' first
    | with_reducible assumption
    | intro _
    | with_reducible apply State.setTm_mem
    | with_reducible apply State.tmuOpen_mem
    | with_reducible apply good_ite

theorem State.histAdd_mem {pq : Prop × List Instr} (s : State) (c : Nat) (x : Int) (hs : MemGood pq s) : MemGood pq (State.histAdd s c x) := by
  unfold State.histAdd
  repeat' first
    | with_reducible assumption
    | intro _
    | with_reducible apply State.bump_mem
    | with_reducible apply State.count_mem
    | with_reducible apply good_ite

theorem State.addXs_mem {pq : Prop × List Instr} (s : State) (c : Nat) (xs : List Int) (hs : MemGood pq s) : MemGood pq (State.addXs s c xs) := by
  unfold State.addXs
  repeat' first
    | with_reducible assumption
    | intro _
    | with_reducible apply State.histAdd_mem
    | with_reducible apply State.setTm_mem
    | with_reducible apply foldl_mem
    | with_reducible apply foldl_mem_fst
    | with_reducible apply good_ite

theorem State.stampHit_mem {pq : Prop × List Instr} (s : State) (c : Nat) (src : Nat) (t : Nat) (raw : Nat) (p : Nat) (e : Nat) (isA : Bool) (isB : Bool) (hs : MemGood pq s) : MemGood pq (State.stampHit s c src t raw p e isA isB) := by
  unfold State.stampHit
  repeat' first
    | with_reducible assumption
    | intro _
    | with_reducible apply State.addXs_mem
    | with_reducible apply State.count48_mem
    | with_reducible apply State.drawn_mem
    | with_reducible apply State.holdRec_mem
    | with_reducible apply State.setTm_mem

theorem State.missHit_mem {pq : Prop × List Instr} (s : State) (c : Nat) (hs : MemGood pq s) : MemGood pq (State.missHit s c) := by
  unfold State.missHit
  repeat' first
    | with_reducible assumption
    | intro _
    | with_reducible apply State.count48_mem
    | with_reducible apply State.irq_mem
    | with_reducible apply State.setTm_mem
    | with_reducible apply good_ite

theorem State.hitInside_mem {pq : Prop × List Instr} (s : State) (c : Nat) (src : Nat) (t : Nat) (raw : Nat) (e : Nat) (isA : Bool) (isB : Bool) (path : Option Nat) (hs : MemGood pq s) : MemGood pq (State.hitInside s c src t raw e isA isB path) := by
  unfold State.hitInside
  repeat' first
    | with_reducible assumption
    | intro _
    | with_reducible apply State.count48_mem
    | with_reducible apply State.missHit_mem
    | with_reducible apply State.setTm_mem
    | with_reducible apply State.stampHit_mem
    | with_reducible apply good_ite
    | with_reducible apply good_ite_fst
    | fail_if_no_progress beta_reduce
    | fail_if_no_progress extract_lets +onlyGivenNames x
    | split

theorem State.hitAt_mem {pq : Prop × List Instr} (s : State) (c : Nat) (src : Nat) (e : Nat) (t : Nat) (raw : Nat) (isA : Bool) (isB : Bool) (path : Option Nat) (hs : MemGood pq s) : MemGood pq (State.hitAt s c src e t raw isA isB path) := by
  unfold State.hitAt
  repeat' first
    | with_reducible assumption
    | intro _
    | with_reducible apply State.hitInside_mem
    | with_reducible apply State.setTm_mem
    | with_reducible apply State.tmuAt_mem
    | with_reducible apply State.tmuSettle_mem
    | with_reducible apply good_ite
    | with_reducible apply good_ite_fst
    | fail_if_no_progress beta_reduce
    | fail_if_no_progress extract_lets +onlyGivenNames x
    | split

theorem State.hit_mem {pq : Prop × List Instr} (s : State) (c : Nat) (src : Nat) (e : Nat) (code : Nat) (hs : MemGood pq s) : MemGood pq (State.hit s c src e code) := by
  unfold State.hit
  repeat' first
    | with_reducible assumption
    | intro _
    | with_reducible apply State.hitAt_mem
    | with_reducible apply good_ite

theorem State.binHit_mem {pq : Prop × List Instr} (s : State) (c : Nat) (e : Nat) (code : Nat) (hs : MemGood pq s) : MemGood pq (State.binHit s c e code) := by
  unfold State.binHit
  repeat' first
    | with_reducible assumption
    | intro _
    | with_reducible apply State.setTm_mem
    | with_reducible apply good_ite
    | with_reducible apply good_ite_fst
    | fail_if_no_progress beta_reduce
    | fail_if_no_progress extract_lets +onlyGivenNames x
    | split

theorem doTdcHit_mem {pq : Prop × List Instr} (c : Nat) (src : Nat) (e : Nat) (code : Nat) (s : State) (hs : MemGood pq s) : MemGood pq (doTdcHit c src e code s) := by
  unfold doTdcHit
  repeat' first
    | with_reducible assumption
    | intro _
    | with_reducible apply State.binHit_mem
    | with_reducible apply State.hit_mem
    | with_reducible apply State.whenDue_mem
    | with_reducible apply good_ite

theorem State.armTmu_mem {pq : Prop × List Instr} (s : State) (c : Nat) (hs : MemGood pq s) : MemGood pq (State.armTmu s c) := by
  unfold State.armTmu
  repeat' first
    | with_reducible assumption
    | intro _
    | with_reducible apply State.calArmHook_mem
    | with_reducible apply State.setTmState_mem
    | with_reducible apply State.setTm_mem
    | with_reducible apply State.sramWr_mem
    | with_reducible apply State.stampFlush_mem
    | with_reducible apply State.tmuSettle_mem
    | with_reducible apply State.wrF_mem
    | with_reducible apply State.wrN_mem
    | with_reducible apply forEach_mem
    | with_reducible apply good_ite

theorem doTmuArm_mem {pq : Prop × List Instr} (dom : Nat) (c : Nat) (s : State) (hs : MemGood pq s) : MemGood pq (doTmuArm dom c s) := by
  unfold doTmuArm
  repeat' first
    | with_reducible assumption
    | intro _
    | with_reducible apply State.armTmu_mem
    | with_reducible apply State.hostWrite_mem
    | with_reducible apply State.irq_mem
    | with_reducible apply State.noteReg_mem
    | with_reducible apply State.wrN_mem
    | with_reducible apply good_ite
    | with_reducible apply good_ite_fst
    | fail_if_no_progress beta_reduce
    | fail_if_no_progress extract_lets +onlyGivenNames x
    | split

theorem doTmuStop_mem {pq : Prop × List Instr} (dom : Nat) (c : Nat) (s : State) (hs : MemGood pq s) : MemGood pq (doTmuStop dom c s) := by
  unfold doTmuStop
  repeat' first
    | with_reducible assumption
    | intro _
    | with_reducible apply State.hostWrite_mem
    | with_reducible apply State.tmuEnd_mem

theorem doTmuCmdInvalid_mem {pq : Prop × List Instr} (dom : Nat) (c : Nat) (v : Word) (s : State) (hs : MemGood pq s) : MemGood pq (doTmuCmdInvalid dom c v s) := by
  unfold doTmuCmdInvalid
  repeat' first
    | with_reducible assumption
    | intro _
    | with_reducible apply State.hostWrite_mem
    | with_reducible apply State.noteReg_mem
    | with_reducible apply good_ite

theorem doTmuRdWrite_mem {pq : Prop × List Instr} (dom : Nat) (c : Nat) (v : Word) (s : State) (hs : MemGood pq s) : MemGood pq (doTmuRdWrite dom c v s) := by
  unfold doTmuRdWrite
  repeat' first
    | with_reducible assumption
    | intro _
    | with_reducible apply State.hostWrite_mem
    | with_reducible apply State.noteReg_mem
    | with_reducible apply State.wr_mem
    | with_reducible apply good_ite

theorem doTmuConfigWrite_mem {pq : Prop × List Instr} (dom : Nat) (c : Nat) (r : Nat) (v : Word) (s : State) (hs : MemGood pq s) : MemGood pq (doTmuConfigWrite dom c r v s) := by
  unfold doTmuConfigWrite
  repeat' first
    | with_reducible assumption
    | intro _
    | with_reducible apply State.hostWrite_mem
    | with_reducible apply State.noteReg_mem
    | with_reducible apply State.ringCut_mem
    | with_reducible apply State.stampFlush_mem
    | with_reducible apply State.tmuSettle_mem
    | with_reducible apply State.wrF_mem
    | with_reducible apply State.wrRow_mem
    | with_reducible apply doTmuRdWrite_mem
    | with_reducible apply good_ite

theorem State.latchRegs_mem {pq : Prop × List Instr} (s : State) (dom : Nat) (z0 : Nat) (z1 : Nat) (hs : MemGood pq s) : MemGood pq (State.latchRegs s dom z0 z1) := by
  revert hs
  fun_induction State.latchRegs s dom z0 z1
  all_goals repeat' first
    | with_reducible assumption
    | intro _
    | with_reducible apply good_ite
    | with_reducible apply good_ite_fst
    | fail_if_no_progress beta_reduce
    | fail_if_no_progress extract_lets +onlyGivenNames x
    | split
    | fail_if_no_progress with_reducible apply good_mk
    | refine fst_mem (by assumption) ?_
    | apply_assumption

theorem doTmuRseqRead_mem {pq : Prop × List Instr} (dom : Nat) (c : Nat) (s : State) (hs : MemGood pq s) : MemGood pq (doTmuRseqRead dom c s) := by
  unfold doTmuRseqRead
  repeat' first
    | with_reducible assumption
    | intro _
    | with_reducible apply State.hostRead_mem
    | with_reducible apply State.latchRegs_mem

theorem doTmuShutterOpen_mem {pq : Prop × List Instr} (c : Nat) (s : State) (hs : MemGood pq s) : MemGood pq (doTmuShutterOpen c s) := by
  unfold doTmuShutterOpen
  repeat' first
    | with_reducible assumption
    | intro _
    | with_reducible apply State.tmuOpen_mem
    | with_reducible apply State.whenDue_mem

theorem doTmuShutterClose_mem {pq : Prop × List Instr} (c : Nat) (s : State) (hs : MemGood pq s) : MemGood pq (doTmuShutterClose c s) := by
  unfold doTmuShutterClose
  repeat' first
    | with_reducible assumption
    | intro _
    | with_reducible apply State.tmuClose_mem
    | with_reducible apply State.tmuEnding_mem
    | with_reducible apply State.whenDue_mem
    | with_reducible apply good_ite

theorem doTmuFreqLimit_mem {pq : Prop × List Instr} (c : Nat) (s : State) (hs : MemGood pq s) : MemGood pq (doTmuFreqLimit c s) := by
  unfold doTmuFreqLimit
  repeat' first
    | with_reducible assumption
    | intro _
    | with_reducible apply State.tmuEnding_mem
    | with_reducible apply State.whenDue_mem

theorem doTmuBankLatch_mem {pq : Prop × List Instr} (c : Nat) (s : State) (hs : MemGood pq s) : MemGood pq (doTmuBankLatch c s) := by
  unfold doTmuBankLatch
  repeat' first
    | with_reducible assumption
    | intro _
    | with_reducible apply State.tmuLatch_mem
    | with_reducible apply State.tmuSettle_mem
    | with_reducible apply State.whenDue_mem
    | with_reducible apply good_ite

theorem State.putBins_mem {pq : Prop × List Instr} (s : State) (a : Nat) (z0 : List Nat) (hs : MemGood pq s) : MemGood pq (State.putBins s a z0) := by
  revert hs
  fun_induction State.putBins s a z0
  all_goals repeat' first
    | with_reducible assumption
    | intro _
    | with_reducible apply State.wrN_mem
    | with_reducible apply good_ite
    | with_reducible apply good_ite_fst
    | fail_if_no_progress beta_reduce
    | fail_if_no_progress extract_lets +onlyGivenNames x
    | split
    | fail_if_no_progress with_reducible apply good_mk
    | refine fst_mem (by assumption) ?_
    | apply_assumption

theorem doTdcBinTableBuild_mem {pq : Prop × List Instr} (c : Nat) (p : Nat) (more : List Nat) (s : State) (hs : MemGood pq s) : MemGood pq (doTdcBinTableBuild c p more s) := by
  unfold doTdcBinTableBuild
  repeat' first
    | with_reducible assumption
    | intro _
    | with_reducible apply State.note_mem
    | with_reducible apply State.putBins_mem
    | with_reducible apply State.setTm_mem
    | with_reducible apply State.whenDue_mem
    | with_reducible apply good_ite

theorem doTdcCalStale_mem {pq : Prop × List Instr} (c : Nat) (s : State) (hs : MemGood pq s) : MemGood pq (doTdcCalStale c s) := by
  unfold doTdcCalStale
  repeat' first
    | with_reducible assumption
    | intro _
    | with_reducible apply State.irq_mem
    | with_reducible apply State.whenDue_mem
    | with_reducible apply State.wrF_mem

theorem doStampRecordMove_mem {pq : Prop × List Instr} (c : Nat) (s : State) (hs : MemGood pq s) : MemGood pq (doStampRecordMove c s) := by
  unfold doStampRecordMove
  repeat' first
    | with_reducible assumption
    | intro _
    | with_reducible apply State.stampMove_mem
    | with_reducible apply State.whenDue_mem

end Sys2Proof.Machine
end

