-- ==== Sys2Proof/Laws/MemAcq.lean ====
section
/-! SUPPORT. Every operation of Machine/Acq.lean keeps the canonical form of the byte memories and the queue. -/

namespace Sys2Proof.Machine

open Sys2Proof


theorem State.setAqState_mem {pq : Prop × List Instr} (s : State) (c : Nat) (st : Nat) (hs : MemGood pq s) : MemGood pq (State.setAqState s c st) := by
  unfold State.setAqState
  repeat' first
    | with_reducible assumption
    | intro _
    | with_reducible apply State.workNow_mem
    | with_reducible apply State.wrF_mem

theorem State.frameWr_mem {pq : Prop × List Instr} (s : State) (c : Nat) (k : Nat) (o : Nat) (bs : List Byte) (hs : MemGood pq s) : MemGood pq (State.frameWr s c k o bs) := by
  unfold State.frameWr
  repeat' first
    | with_reducible assumption
    | intro _
    | with_reducible apply State.engWr_mem
    | with_reducible apply State.sramWr_mem
    | with_reducible apply good_ite
    | with_reducible apply good_ite_fst
    | fail_if_no_progress beta_reduce
    | (extract_lets +onlyGivenNames x; have hx : MemGood pq x; on_goal 1 => subst x; on_goal 2 => clear_value x)
    | (extract_lets +onlyGivenNames x; have hx : MemGood pq x.1; on_goal 1 => subst x; on_goal 2 => clear_value x)
    | fail_if_no_progress extract_lets +onlyGivenNames x
    | split
    | fail_if_no_progress with_reducible apply good_mk
    | refine fst_mem (by assumption) ?_

theorem State.frameCut_mem {pq : Prop × List Instr} (s : State) (c : Nat) (hs : MemGood pq s) : MemGood pq (State.frameCut s c) := by
  unfold State.frameCut
  repeat' first
    | with_reducible assumption
    | intro _
    | with_reducible apply State.paceCut_mem

theorem State.frameDone_mem {pq : Prop × List Instr} (s : State) (c : Nat) (f : FrameSt) (hs : MemGood pq s) : MemGood pq (State.frameDone s c f) := by
  unfold State.frameDone
  repeat' first
    | with_reducible assumption
    | intro _
    | with_reducible apply State.drawn_mem
    | with_reducible apply State.frameWr_mem
    | with_reducible apply State.irq_mem
    | with_reducible apply State.takeIn_mem
    | with_reducible apply State.wrF_mem
    | with_reducible apply State.wrN_mem
    | with_reducible apply good_ite
    | with_reducible apply good_ite_fst
    | fail_if_no_progress beta_reduce
    | (extract_lets +onlyGivenNames x; have hx : MemGood pq x; on_goal 1 => subst x; on_goal 2 => clear_value x)
    | (extract_lets +onlyGivenNames x; have hx : MemGood pq x.1; on_goal 1 => subst x; on_goal 2 => clear_value x)
    | fail_if_no_progress extract_lets +onlyGivenNames x
    | split
    | fail_if_no_progress with_reducible apply good_mk
    | refine fst_mem (by assumption) ?_

theorem State.setEnd_mem {pq : Prop × List Instr} (s : State) (c : Nat) (cause : Nat) (hs : MemGood pq s) : MemGood pq (State.setEnd s c cause) := by
  unfold State.setEnd
  repeat' first
    | with_reducible assumption
    | intro _
    | with_reducible apply State.count_mem
    | with_reducible apply State.irq_mem
    | with_reducible apply State.setAqState_mem
    | with_reducible apply State.setAq_mem
    | with_reducible apply State.wrF_mem
    | with_reducible apply good_ite
    | with_reducible apply good_ite_fst
    | fail_if_no_progress beta_reduce
    | (extract_lets +onlyGivenNames x; have hx : MemGood pq x; on_goal 1 => subst x; on_goal 2 => clear_value x)
    | (extract_lets +onlyGivenNames x; have hx : MemGood pq x.1; on_goal 1 => subst x; on_goal 2 => clear_value x)
    | fail_if_no_progress extract_lets +onlyGivenNames x
    | split
    | fail_if_no_progress with_reducible apply good_mk
    | refine fst_mem (by assumption) ?_

theorem State.acqEnd_mem {pq : Prop × List Instr} (s : State) (c : Nat) (cause : Nat) (hs : MemGood pq s) : MemGood pq (State.acqEnd s c cause) := by
  unfold State.acqEnd
  repeat' first
    | with_reducible assumption
    | intro _
    | with_reducible apply State.frameDone_mem
    | with_reducible apply State.setAq_mem
    | with_reducible apply State.setEnd_mem
    | with_reducible apply State.workNow_mem
    | with_reducible apply State.wrF_mem
    | with_reducible apply foldl_mem
    | with_reducible apply foldl_mem_fst
    | with_reducible apply good_ite
    | with_reducible apply good_ite_fst
    | fail_if_no_progress beta_reduce
    | fail_if_no_progress extract_lets +onlyGivenNames x
    | split

theorem State.frameEnd_mem {pq : Prop × List Instr} (s : State) (c : Nat) (f : FrameSt) (hs : MemGood pq s) : MemGood pq (State.frameEnd s c f) := by
  unfold State.frameEnd
  repeat' first
    | with_reducible assumption
    | intro _
    | with_reducible apply State.setAqState_mem
    | with_reducible apply State.setAq_mem

theorem State.countViol_mem {pq : Prop × List Instr} (s : State) (c : Nat) (hs : MemGood pq s) : MemGood pq (State.countViol s c) := by
  unfold State.countViol
  repeat' first
    | with_reducible assumption
    | intro _
    | with_reducible apply State.count_mem
    | with_reducible apply State.irq_mem
    | with_reducible apply good_ite

theorem State.countLost_mem {pq : Prop × List Instr} (s : State) (c : Nat) (hs : MemGood pq s) : MemGood pq (State.countLost s c) := by
  unfold State.countLost
  repeat' first
    | with_reducible assumption
    | intro _
    | with_reducible apply State.count_mem
    | with_reducible apply State.irq_mem
    | with_reducible apply State.note_mem
    | with_reducible apply State.setAq_mem
    | with_reducible apply good_ite

theorem State.sampleLost_mem {pq : Prop × List Instr} (s : State) (c : Nat) (hs : MemGood pq s) : MemGood pq (State.sampleLost s c) := by
  unfold State.sampleLost
  repeat' first
    | with_reducible assumption
    | intro _
    | with_reducible apply State.countLost_mem
    | with_reducible apply State.frameWr_mem
    | with_reducible apply State.setAq_mem
    | with_reducible apply good_ite
    | with_reducible apply good_ite_fst
    | fail_if_no_progress beta_reduce
    | fail_if_no_progress extract_lets +onlyGivenNames x
    | split

theorem State.frameSample_mem {pq : Prop × List Instr} (s : State) (c : Nat) (v : Int) (clip : Bool) (lost : Bool) (hs : MemGood pq s) : MemGood pq (State.frameSample s c v clip lost) := by
  unfold State.frameSample
  repeat' first
    | with_reducible assumption
    | intro _
    | with_reducible apply State.countLost_mem
    | with_reducible apply State.countViol_mem
    | with_reducible apply State.frameEnd_mem
    | with_reducible apply State.frameWr_mem
    | with_reducible apply State.setAq_mem
    | with_reducible apply good_ite
    | with_reducible apply good_ite_fst
    | fail_if_no_progress beta_reduce
    | fail_if_no_progress extract_lets +onlyGivenNames x
    | split

theorem State.ignoreFiring_mem {pq : Prop × List Instr} (s : State) (c : Nat) (time : Nat) (hs : MemGood pq s) : MemGood pq (State.ignoreFiring s c time) := by
  unfold State.ignoreFiring
  repeat' first
    | with_reducible assumption
    | intro _
    | with_reducible apply State.count_mem
    | with_reducible apply State.setAq_mem

theorem State.feedFrame_mem {pq : Prop × List Instr} (s : State) (c : Nat) (l : List (Int × Bool)) (hs : MemGood pq s) : MemGood pq (State.feedFrame s c l) := by
  unfold State.feedFrame
  repeat' first
    | with_reducible assumption
    | intro _
    | with_reducible apply State.frameSample_mem
    | with_reducible apply foldl_mem

theorem State.frameBegin_mem {pq : Prop × List Instr} (s : State) (c : Nat) (fs : List Firing) (hs : MemGood pq s) : MemGood pq (State.frameBegin s c fs) := by
  unfold State.frameBegin
  repeat' first
    | with_reducible assumption
    | intro _
    | with_reducible apply State.feedFrame_mem
    | with_reducible apply State.setAqState_mem
    | with_reducible apply State.setAq_mem

theorem State.resolve_mem {pq : Prop × List Instr} (s : State) (c : Nat) (z0 : List Firing) (hs : MemGood pq s) : MemGood pq (State.resolve s c z0) := by
  revert hs
  fun_induction State.resolve s c z0
  all_goals repeat' first
    | with_reducible assumption
    | intro _
    | with_reducible apply State.frameBegin_mem
    | with_reducible apply State.ignoreFiring_mem
    | with_reducible apply foldl_mem
    | with_reducible apply foldl_mem_fst
    | with_reducible apply good_ite
    | with_reducible apply good_ite_fst
    | fail_if_no_progress beta_reduce
    | (extract_lets +onlyGivenNames x; have hx : MemGood pq x; on_goal 1 => subst x; on_goal 2 => clear_value x)
    | (extract_lets +onlyGivenNames x; have hx : MemGood pq x.1; on_goal 1 => subst x; on_goal 2 => clear_value x)
    | fail_if_no_progress extract_lets +onlyGivenNames x
    | split
    | fail_if_no_progress with_reducible apply good_mk
    | refine fst_mem (by assumption) ?_
    | apply_assumption

theorem State.fire_mem {pq : Prop × List Instr} (s : State) (c : Nat) (x : Nat) (time : Nat) (noPath : Bool) (hs : MemGood pq s) : MemGood pq (State.fire s c x time noPath) := by
  unfold State.fire
  repeat' first
    | with_reducible assumption
    | intro _
    | with_reducible apply State.setAq_mem

theorem State.decideFirst_mem {pq : Prop × List Instr} (s : State) (c : Nat) (hs : MemGood pq s) : MemGood pq (State.decideFirst s c) := by
  unfold State.decideFirst
  repeat' first
    | with_reducible assumption
    | intro _
    | with_reducible apply State.resolve_mem
    | with_reducible apply State.setAq_mem
    | with_reducible apply good_ite
    | with_reducible apply good_ite_fst
    | fail_if_no_progress beta_reduce
    | fail_if_no_progress extract_lets +onlyGivenNames x
    | split

theorem State.detectLevel_mem {pq : Prop × List Instr} (s : State) (c : Nat) (x : Nat) (y : Int) (v : Int) (hs : MemGood pq s) : MemGood pq (State.detectLevel s c x y v) := by
  unfold State.detectLevel
  repeat' first
    | with_reducible assumption
    | intro _
    | with_reducible apply State.fire_mem
    | with_reducible apply State.setAq_mem
    | with_reducible apply good_ite

theorem State.sample_mem {pq : Prop × List Instr} (s : State) (c : Nat) (v : Int) (clip : Bool) (lost : Bool) (hs : MemGood pq s) : MemGood pq (State.sample s c v clip lost) := by
  unfold State.sample
  repeat' first
    | with_reducible assumption
    | intro _
    | with_reducible apply State.detectLevel_mem
    | with_reducible apply State.frameSample_mem
    | with_reducible apply State.setAq_mem
    | with_reducible apply State.sramWr_mem
    | with_reducible apply good_ite

theorem State.acqBegin_mem {pq : Prop × List Instr} (s : State) (c : Nat) (hs : MemGood pq s) : MemGood pq (State.acqBegin s c) := by
  unfold State.acqBegin
  repeat' first
    | with_reducible assumption
    | intro _
    | with_reducible apply State.setAqState_mem
    | with_reducible apply State.setAq_mem

theorem State.fireAll_mem {pq : Prop × List Instr} (s : State) (c : Nat) (t : Nat) (p : Nat → Bool) (hs : MemGood pq s) : MemGood pq (State.fireAll s c t p) := by
  unfold State.fireAll
  repeat' first
    | with_reducible assumption
    | intro _
    | with_reducible apply State.fire_mem
    | with_reducible apply State.ignoreFiring_mem
    | with_reducible apply forEach_mem
    | with_reducible apply good_ite

theorem State.acqEvent_mem {pq : Prop × List Instr} (s : State) (c : Nat) (kind : Nat) (line : Nat) (t : Nat) (hs : MemGood pq s) : MemGood pq (State.acqEvent s c kind line t) := by
  unfold State.acqEvent
  repeat' first
    | with_reducible assumption
    | intro _
    | with_reducible apply State.acqBegin_mem
    | with_reducible apply State.fireAll_mem
    | with_reducible apply State.setAq_mem
    | with_reducible apply good_ite
    | with_reducible apply good_ite_fst
    | fail_if_no_progress beta_reduce
    | (extract_lets +onlyGivenNames x; have hx : MemGood pq x; on_goal 1 => subst x; on_goal 2 => clear_value x)
    | (extract_lets +onlyGivenNames x; have hx : MemGood pq x.1; on_goal 1 => subst x; on_goal 2 => clear_value x)
    | fail_if_no_progress extract_lets +onlyGivenNames x
    | split
    | fail_if_no_progress with_reducible apply good_mk
    | refine fst_mem (by assumption) ?_

theorem State.maskRead_mem {pq : Prop × List Instr} (s : State) (c : Nat) (hs : MemGood pq s) : MemGood pq (State.maskRead s c).1 := by
  unfold State.maskRead
  repeat' first
    | with_reducible assumption
    | intro _
    | with_reducible apply State.dramGet_mem
    | with_reducible apply good_ite
    | with_reducible apply good_ite_fst

theorem State.armAcq_mem {pq : Prop × List Instr} (s : State) (c : Nat) (hs : MemGood pq s) : MemGood pq (State.armAcq s c) := by
  unfold State.armAcq
  repeat' first
    | with_reducible assumption
    | intro _
    | with_reducible apply State.calDigHook_mem
    | with_reducible apply State.frameCut_mem
    | with_reducible apply State.maskRead_mem
    | with_reducible apply State.setAqState_mem
    | with_reducible apply State.setAq_mem
    | with_reducible apply State.sramWr_mem
    | with_reducible apply State.wrF_mem
    | with_reducible apply State.wrWide_mem
    | with_reducible apply good_ite

theorem State.acqRefuse_mem {pq : Prop × List Instr} (s : State) (c : Nat) (e : Nat) (hs : MemGood pq s) : MemGood pq (State.acqRefuse s c e) := by
  unfold State.acqRefuse
  repeat' first
    | with_reducible assumption
    | intro _
    | with_reducible apply State.irq_mem
    | with_reducible apply State.wrN_mem

theorem doAcqArm_mem {pq : Prop × List Instr} (dom : Nat) (c : Nat) (s : State) (hs : MemGood pq s) : MemGood pq (doAcqArm dom c s) := by
  unfold doAcqArm
  repeat' first
    | with_reducible assumption
    | intro _
    | with_reducible apply State.acqRefuse_mem
    | with_reducible apply State.armAcq_mem
    | with_reducible apply State.hostWrite_mem
    | with_reducible apply State.maskRead_mem
    | with_reducible apply State.noteReg_mem
    | with_reducible apply good_ite
    | with_reducible apply good_ite_fst
    | fail_if_no_progress beta_reduce
    | fail_if_no_progress extract_lets +onlyGivenNames x
    | split

theorem doAcqMonitor_mem {pq : Prop × List Instr} (dom : Nat) (c : Nat) (s : State) (hs : MemGood pq s) : MemGood pq (doAcqMonitor dom c s) := by
  unfold doAcqMonitor
  repeat' first
    | with_reducible assumption
    | intro _
    | with_reducible apply State.acqRefuse_mem
    | with_reducible apply State.calDigHook_mem
    | with_reducible apply State.hostWrite_mem
    | with_reducible apply State.noteReg_mem
    | with_reducible apply State.setAq_mem
    | with_reducible apply State.wrF_mem
    | with_reducible apply good_ite

theorem doAcqStop_mem {pq : Prop × List Instr} (dom : Nat) (c : Nat) (s : State) (hs : MemGood pq s) : MemGood pq (doAcqStop dom c s) := by
  unfold doAcqStop
  repeat' first
    | with_reducible assumption
    | intro _
    | with_reducible apply State.acqEnd_mem
    | with_reducible apply State.hostWrite_mem

theorem doAcqSoft_mem {pq : Prop × List Instr} (dom : Nat) (c : Nat) (s : State) (hs : MemGood pq s) : MemGood pq (doAcqSoft dom c s) := by
  unfold doAcqSoft
  repeat' first
    | with_reducible assumption
    | intro _
    | with_reducible apply State.acqBegin_mem
    | with_reducible apply State.fireAll_mem
    | with_reducible apply State.hostWrite_mem
    | with_reducible apply good_ite
    | with_reducible apply good_ite_fst
    | fail_if_no_progress beta_reduce
    | (extract_lets +onlyGivenNames x; have hx : MemGood pq x; on_goal 1 => subst x; on_goal 2 => clear_value x)
    | (extract_lets +onlyGivenNames x; have hx : MemGood pq x.1; on_goal 1 => subst x; on_goal 2 => clear_value x)
    | fail_if_no_progress extract_lets +onlyGivenNames x
    | split
    | fail_if_no_progress with_reducible apply good_mk
    | refine fst_mem (by assumption) ?_

theorem doAcqCmdInvalid_mem {pq : Prop × List Instr} (dom : Nat) (c : Nat) (v : Word) (s : State) (hs : MemGood pq s) : MemGood pq (doAcqCmdInvalid dom c v s) := by
  unfold doAcqCmdInvalid
  repeat' first
    | with_reducible assumption
    | intro _
    | with_reducible apply State.hostWrite_mem
    | with_reducible apply State.noteReg_mem
    | with_reducible apply good_ite

theorem doAcqConfigWrite_mem {pq : Prop × List Instr} (dom : Nat) (c : Nat) (r : Nat) (v : Word) (s : State) (hs : MemGood pq s) : MemGood pq (doAcqConfigWrite dom c r v s) := by
  unfold doAcqConfigWrite
  repeat' first
    | with_reducible assumption
    | intro _
    | with_reducible apply State.hostWrite_mem
    | with_reducible apply State.noteReg_mem
    | with_reducible apply State.wrF_mem
    | with_reducible apply State.wrRow_mem
    | with_reducible apply good_ite

theorem doAcqStartTick_mem {pq : Prop × List Instr} (c : Nat) (s : State) (hs : MemGood pq s) : MemGood pq (doAcqStartTick c s) := by
  unfold doAcqStartTick
  repeat' first
    | with_reducible assumption
    | intro _
    | with_reducible apply State.acqBegin_mem
    | with_reducible apply State.whenDue_mem

theorem doAcqConversion_mem {pq : Prop × List Instr} (c : Nat) (code : BitVec 18) (clip : Bool) (s : State) (hs : MemGood pq s) : MemGood pq (doAcqConversion c code clip s) := by
  unfold doAcqConversion
  repeat' first
    | with_reducible assumption
    | intro _
    | with_reducible apply State.drawn_mem
    | with_reducible apply State.setAq_mem
    | with_reducible apply State.whenDue_mem
    | with_reducible apply good_ite
    | with_reducible apply good_ite_fst
    | fail_if_no_progress beta_reduce
    | (extract_lets +onlyGivenNames x; have hx : MemGood pq x; on_goal 1 => subst x; on_goal 2 => clear_value x)
    | (extract_lets +onlyGivenNames x; have hx : MemGood pq x.1; on_goal 1 => subst x; on_goal 2 => clear_value x)
    | fail_if_no_progress extract_lets +onlyGivenNames x
    | split
    | fail_if_no_progress with_reducible apply good_mk
    | refine fst_mem (by assumption) ?_

theorem State.lateDecisions_mem {pq : Prop × List Instr} (s : State) (c : Nat) (z0 : Nat) (hs : MemGood pq s) : MemGood pq (State.lateDecisions s c z0) := by
  revert hs
  fun_induction State.lateDecisions s c z0
  all_goals repeat' first
    | with_reducible assumption
    | intro _
    | with_reducible apply State.decideFirst_mem
    | with_reducible apply good_ite
    | with_reducible apply good_ite_fst
    | fail_if_no_progress beta_reduce
    | fail_if_no_progress extract_lets +onlyGivenNames x
    | split
    | fail_if_no_progress with_reducible apply good_mk
    | refine fst_mem (by assumption) ?_
    | apply_assumption

theorem doAcqSampleStored_mem {pq : Prop × List Instr} (c : Nat) (lost : Bool) (s : State) (hs : MemGood pq s) : MemGood pq (doAcqSampleStored c lost s) := by
  unfold doAcqSampleStored
  repeat' first
    | with_reducible assumption
    | intro _
    | with_reducible apply State.lateDecisions_mem
    | with_reducible apply State.sample_mem
    | with_reducible apply State.setAq_mem
    | with_reducible apply State.whenDue_mem
    | with_reducible apply State.wrN_mem
    | with_reducible apply good_ite

theorem doAcqPrefillEnd_mem {pq : Prop × List Instr} (c : Nat) (s : State) (hs : MemGood pq s) : MemGood pq (doAcqPrefillEnd c s) := by
  unfold doAcqPrefillEnd
  repeat' first
    | with_reducible assumption
    | intro _
    | with_reducible apply State.setAqState_mem
    | with_reducible apply State.whenDue_mem

theorem doAcqAnalogHit_mem {pq : Prop × List Instr} (c : Nat) (x : Nat) (e : Nat) (code : Nat) (s : State) (hs : MemGood pq s) : MemGood pq (doAcqAnalogHit c x e code s) := by
  unfold doAcqAnalogHit
  repeat' first
    | with_reducible assumption
    | intro _
    | with_reducible apply State.fire_mem
    | with_reducible apply State.setTm_mem
    | with_reducible apply State.whenDue_mem
    | with_reducible apply good_ite
    | with_reducible apply good_ite_fst
    | fail_if_no_progress beta_reduce
    | (extract_lets +onlyGivenNames x; have hx : MemGood pq x; on_goal 1 => subst x; on_goal 2 => clear_value x)
    | (extract_lets +onlyGivenNames x; have hx : MemGood pq x.1; on_goal 1 => subst x; on_goal 2 => clear_value x)
    | fail_if_no_progress extract_lets +onlyGivenNames x
    | split
    | fail_if_no_progress with_reducible apply good_mk
    | refine fst_mem (by assumption) ?_

theorem doAcqTriggerDecision_mem {pq : Prop × List Instr} (c : Nat) (s : State) (hs : MemGood pq s) : MemGood pq (doAcqTriggerDecision c s) := by
  unfold doAcqTriggerDecision
  repeat' first
    | with_reducible assumption
    | intro _
    | with_reducible apply State.decideFirst_mem
    | with_reducible apply State.whenDue_mem

theorem doAcqFrameComplete_mem {pq : Prop × List Instr} (c : Nat) (s : State) (hs : MemGood pq s) : MemGood pq (doAcqFrameComplete c s) := by
  unfold doAcqFrameComplete
  repeat' first
    | with_reducible assumption
    | intro _
    | with_reducible apply State.frameDone_mem
    | with_reducible apply State.setAq_mem
    | with_reducible apply State.setEnd_mem
    | with_reducible apply State.whenDue_mem
    | with_reducible apply good_ite
    | with_reducible apply good_ite_fst
    | fail_if_no_progress beta_reduce
    | fail_if_no_progress extract_lets +onlyGivenNames x
    | split

theorem doAcqRearm_mem {pq : Prop × List Instr} (c : Nat) (s : State) (hs : MemGood pq s) : MemGood pq (doAcqRearm c s) := by
  unfold doAcqRearm
  repeat' first
    | with_reducible assumption
    | intro _
    | with_reducible apply State.setAqState_mem
    | with_reducible apply State.setAq_mem
    | with_reducible apply State.whenDue_mem
    | with_reducible apply good_ite
    | with_reducible apply good_ite_fst
    | fail_if_no_progress beta_reduce
    | fail_if_no_progress extract_lets +onlyGivenNames x
    | split

theorem doAcqTimeout_mem {pq : Prop × List Instr} (c : Nat) (s : State) (hs : MemGood pq s) : MemGood pq (doAcqTimeout c s) := by
  unfold doAcqTimeout
  repeat' first
    | with_reducible assumption
    | intro _
    | with_reducible apply State.acqEnd_mem
    | with_reducible apply State.whenDue_mem

end Sys2Proof.Machine
end

