-- ==== Sys2Proof/Laws/MemPinLevels.lean ====
section
/-! SUPPORT. Every operation of Machine/PinLevels.lean keeps the canonical form of the byte memories and the queue. -/

namespace Sys2Proof.Machine

open Sys2Proof


theorem State.landDrive_mem {pq : Prop × List Instr} (s : State) (c : Nat) (e : DrvEv) (hs : MemGood pq s) : MemGood pq (State.landDrive s c e) := by
  unfold State.landDrive
  repeat' first
    | with_reducible assumption
    | intro _
    | with_reducible apply State.launch_mem
    | with_reducible apply State.send_mem
    | with_reducible apply State.setCh_mem
    | with_reducible apply good_ite

theorem State.landSet_mem {pq : Prop × List Instr} (s : State) (c : Nat) (t : Nat) (typ : Nat) (hs : MemGood pq s) : MemGood pq (State.landSet s c t typ) := by
  unfold State.landSet
  repeat' first
    | with_reducible assumption
    | intro _
    | with_reducible apply State.send_mem
    | with_reducible apply State.setCh_mem
    | with_reducible apply good_ite

theorem State.landOff_mem {pq : Prop × List Instr} (s : State) (c : Nat) (t : Nat) (hs : MemGood pq s) : MemGood pq (State.landOff s c t) := by
  unfold State.landOff
  repeat' first
    | with_reducible assumption
    | intro _
    | with_reducible apply State.send_mem
    | with_reducible apply State.setCh_mem
    | with_reducible apply good_ite

theorem State.pinTakes_mem {pq : Prop × List Instr} (s : State) (c : Nat) (t : Nat) (p : PinSet) (hs : MemGood pq s) : MemGood pq (State.pinTakes s c t p) := by
  unfold State.pinTakes
  repeat' first
    | with_reducible assumption
    | intro _
    | with_reducible apply State.send_mem
    | with_reducible apply State.setCh_mem
    | with_reducible apply good_ite

theorem State.drvDo_mem {pq : Prop × List Instr} (s : State) (c : Nat) (e : DrvEv) (hs : MemGood pq s) : MemGood pq (State.drvDo s c e) := by
  unfold State.drvDo
  repeat' first
    | with_reducible assumption
    | intro _
    | with_reducible apply State.landDrive_mem
    | with_reducible apply State.launch_mem
    | with_reducible apply State.pinTakes_mem
    | with_reducible apply State.setCh_mem
    | with_reducible apply good_ite

theorem State.pinSettled_mem {pq : Prop × List Instr} (s : State) (c : Nat) (hs : MemGood pq s) : MemGood pq (State.pinSettled s c) := by
  unfold State.pinSettled
  repeat' first
    | with_reducible assumption
    | intro _
    | with_reducible apply State.setCh_mem
    | with_reducible apply good_ite

theorem State.runDrives_mem {pq : Prop × List Instr} (s : State) (c : Nat) (hs : MemGood pq s) : MemGood pq (State.runDrives s c) := by
  unfold State.runDrives
  repeat' first
    | with_reducible assumption
    | intro _
    | with_reducible apply State.drvDo_mem
    | with_reducible apply State.pinSettled_mem
    | with_reducible apply State.setCh_mem
    | with_reducible apply foldl_mem
    | with_reducible apply foldl_mem_fst
    | with_reducible apply good_ite

theorem State.pelTrip_mem {pq : Prop × List Instr} (s : State) (c : Nat) (hs : MemGood pq s) : MemGood pq (State.pelTrip s c) := by
  unfold State.pelTrip
  repeat' first
    | with_reducible assumption
    | intro _
    | with_reducible apply State.detect_mem
    | with_reducible apply State.irq_mem
    | with_reducible apply State.landOff_mem
    | with_reducible apply State.note_mem
    | with_reducible apply State.wrF_mem
    | with_reducible apply good_ite
    | with_reducible apply good_ite_fst
    | fail_if_no_progress beta_reduce
    | fail_if_no_progress extract_lets +onlyGivenNames x
    | split

theorem State.unstage_mem {pq : Prop × List Instr} (s : State) (a : Nat) (hs : MemGood pq s) : MemGood pq (State.unstage s a) := by
  unfold State.unstage
  repeat' first
    | with_reducible assumption
    | intro _
    | with_reducible apply good_ite
    | with_reducible apply good_ite_fst
    | fail_if_no_progress beta_reduce
    | fail_if_no_progress extract_lets +onlyGivenNames x
    | split
    | fail_if_no_progress with_reducible apply good_mk

theorem State.pmuApply_mem {pq : Prop × List Instr} (s : State) (c : Nat) (mode : Nat) (range : Nat) (hs : MemGood pq s) : MemGood pq (State.pmuApply s c mode range) := by
  unfold State.pmuApply
  repeat' first
    | with_reducible assumption
    | intro _
    | with_reducible apply State.acqEnd_mem
    | with_reducible apply State.landOff_mem
    | with_reducible apply State.landSet_mem
    | with_reducible apply State.wrF_mem
    | with_reducible apply good_ite

theorem State.pinChange_mem {pq : Prop × List Instr} (s : State) (c : Nat) (old : PinSet) (hs : MemGood pq s) : MemGood pq (State.pinChange s c old) := by
  unfold State.pinChange
  repeat' first
    | with_reducible assumption
    | intro _
    | with_reducible apply State.launch_mem
    | with_reducible apply State.runDrives_mem
    | with_reducible apply State.setCh_mem

theorem State.pelApply_mem {pq : Prop × List Instr} (s : State) (c : Nat) (hs : MemGood pq s) : MemGood pq (State.pelApply s c) := by
  unfold State.pelApply
  repeat' first
    | with_reducible assumption
    | intro _
    | with_reducible apply State.irq_mem
    | with_reducible apply State.note_mem
    | with_reducible apply State.pinChange_mem
    | with_reducible apply State.pmuApply_mem
    | with_reducible apply State.setApv_mem
    | with_reducible apply State.unstage_mem
    | with_reducible apply State.wrF_mem
    | with_reducible apply State.wrN_mem
    | with_reducible apply State.wr_mem
    | with_reducible apply forEach_mem
    | with_reducible apply good_ite
    | with_reducible apply good_ite_fst
    | fail_if_no_progress beta_reduce
    | fail_if_no_progress extract_lets +onlyGivenNames x
    | split

theorem State.pinStart_mem {pq : Prop × List Instr} (s : State) (c : Nat) (hs : MemGood pq s) : MemGood pq (State.pinStart s c) := by
  unfold State.pinStart
  repeat' first
    | with_reducible assumption
    | intro _
    | with_reducible apply State.calStartHook_mem
    | with_reducible apply State.wakeNow_mem
    | with_reducible apply State.wrN_mem

theorem State.putMarkers_mem {pq : Prop × List Instr} (s : State) (n : Nat) (num : Nat) (hs : MemGood pq s) : MemGood pq (State.putMarkers s n num) := by
  unfold State.putMarkers
  repeat' first
    | with_reducible assumption
    | intro _
    | with_reducible apply State.putMarker_mem
    | with_reducible apply State.setSq_mem
    | with_reducible apply State.stampFlush_mem
    | with_reducible apply forEach_mem
    | with_reducible apply good_ite

end Sys2Proof.Machine
end

