-- ==== Sys2Proof/Laws/MemSync.lean ====
section
/-! SUPPORT. Every operation of Machine/Sync.lean keeps the canonical form of the byte memories and the queue. -/

namespace Sys2Proof.Machine

open Sys2Proof


theorem State.syncEvent_mem {pq : Prop × List Instr} (s : State) (kind : Nat) (line : Nat) (t : Nat) (hs : MemGood pq s) : MemGood pq (State.syncEvent s kind line t) := by
  unfold State.syncEvent
  repeat' first
    | with_reducible assumption
    | intro _
    | with_reducible apply State.acqEvent_mem
    | with_reducible apply State.pendTrig_mem
    | with_reducible apply State.tmuSync_mem
    | with_reducible apply forEach_mem
    | with_reducible apply good_ite

theorem State.syncSoon_mem {pq : Prop × List Instr} (s : State) (kind : Nat) (line : Nat) (t : Nat) (hs : MemGood pq s) : MemGood pq (State.syncSoon s kind line t) := by
  unfold State.syncSoon
  repeat' first
    | with_reducible assumption
    | intro _
    | with_reducible apply State.drawn_mem
    | with_reducible apply State.syncEvent_mem

theorem State.timeSend_mem {pq : Prop × List Instr} (s : State) (l : Nat) (t : Nat) (sym : Nat) (data : List Byte) (hs : MemGood pq s) : MemGood pq (State.timeSend s l t sym data) := by
  unfold State.timeSend
  repeat' first
    | with_reducible assumption
    | intro _
    | with_reducible apply State.send_mem
    | with_reducible apply State.setTl_mem

theorem State.syncLost_mem {pq : Prop × List Instr} (s : State) (hs : MemGood pq s) : MemGood pq (State.syncLost s) := by
  unfold State.syncLost
  repeat' first
    | with_reducible assumption
    | intro _
    | with_reducible apply State.count_mem
    | with_reducible apply State.irq_mem
    | with_reducible apply State.note_mem
    | with_reducible apply good_ite
    | with_reducible apply good_ite_fst
    | fail_if_no_progress beta_reduce
    | fail_if_no_progress extract_lets +onlyGivenNames x
    | split
    | fail_if_no_progress with_reducible apply good_mk

theorem State.laneSend_mem {pq : Prop × List Instr} (s : State) (l : Nat) (sym : Nat) (data : List Byte) (hs : MemGood pq s) : MemGood pq (State.laneSend s l sym data) := by
  unfold State.laneSend
  repeat' first
    | with_reducible assumption
    | intro _
    | with_reducible apply State.setTl_mem
    | with_reducible apply State.syncLost_mem
    | with_reducible apply State.timeSend_mem
    | with_reducible apply good_ite

theorem State.syncOut_mem {pq : Prop × List Instr} (s : State) (kind : Nat) (line : Nat) (te : Nat) (lanes : List Nat) (hs : MemGood pq s) : MemGood pq (State.syncOut s kind line te lanes) := by
  unfold State.syncOut
  repeat' first
    | with_reducible assumption
    | intro _
    | with_reducible apply State.laneSend_mem
    | with_reducible apply forEach_mem

theorem State.ownMessage_mem {pq : Prop × List Instr} (s : State) (kind : Nat) (line : Nat) (te : Nat) (hs : MemGood pq s) : MemGood pq (State.ownMessage s kind line te) := by
  unfold State.ownMessage
  repeat' first
    | with_reducible assumption
    | intro _
    | with_reducible apply State.syncOut_mem
    | with_reducible apply good_ite
    | with_reducible apply good_ite_fst
    | fail_if_no_progress beta_reduce
    | fail_if_no_progress extract_lets +onlyGivenNames x
    | split
    | fail_if_no_progress with_reducible apply good_mk

theorem State.deliverAt_mem {pq : Prop × List Instr} (s : State) (kind : Nat) (line : Nat) (te : Nat) (hs : MemGood pq s) : MemGood pq (State.deliverAt s kind line te) := by
  unfold State.deliverAt
  repeat' first
    | with_reducible assumption
    | intro _
    | with_reducible apply good_ite
    | with_reducible apply good_ite_fst
    | fail_if_no_progress beta_reduce
    | fail_if_no_progress extract_lets +onlyGivenNames x
    | split
    | fail_if_no_progress with_reducible apply good_mk

theorem State.peerSync_mem {pq : Prop × List Instr} (s : State) (e : Nat) (t : Nat) (hs : MemGood pq s) : MemGood pq (State.peerSync s e t) := by
  unfold State.peerSync
  repeat' first
    | with_reducible assumption
    | intro _
    | with_reducible apply State.deliverAt_mem
    | with_reducible apply State.ownMessage_mem
    | with_reducible apply good_ite

theorem State.xtPulse_mem {pq : Prop × List Instr} (s : State) (n : Nat) (x : Nat) (t : Nat) (hs : MemGood pq s) : MemGood pq (State.xtPulse s n x t) := by
  unfold State.xtPulse
  repeat' first
    | with_reducible assumption
    | intro _
    | with_reducible apply State.detect_mem
    | with_reducible apply State.send_mem
    | with_reducible apply good_ite
    | with_reducible apply good_ite_fst
    | fail_if_no_progress beta_reduce
    | fail_if_no_progress extract_lets +onlyGivenNames x
    | split
    | fail_if_no_progress with_reducible apply good_mk

end Sys2Proof.Machine
end

