-- ==== Sys2Proof/Laws/MemFormat.lean ====
section
/-! SUPPORT. Every operation of Machine/Format.lean keeps the canonical form of the byte memories and the queue. -/

namespace Sys2Proof.Machine

open Sys2Proof


theorem State.countDrops_mem {pq : Prop × List Instr} (s : State) (c : Nat) (vec : Nat) (coll : Nat) (late : Nat) (hs : MemGood pq s) : MemGood pq (State.countDrops s c vec coll late) := by
  unfold State.countDrops
  repeat' first
    | with_reducible assumption
    | intro _
    | with_reducible apply State.irq_mem
    | with_reducible apply State.note_mem
    | with_reducible apply State.setCh_mem
    | with_reducible apply good_ite

theorem State.idleLevel_mem {pq : Prop × List Instr} (s : State) (c : Nat) (b : Nat) (hs : MemGood pq s) : MemGood pq (State.idleLevel s c b) := by
  unfold State.idleLevel
  repeat' first
    | with_reducible assumption
    | intro _
    | with_reducible apply State.landSet_mem
    | with_reducible apply State.launch_mem
    | with_reducible apply State.runDrives_mem
    | with_reducible apply State.setCh_mem
    | with_reducible apply good_ite

theorem State.idleEnter_mem {pq : Prop × List Instr} (s : State) (c : Nat) (b : Nat) (hs : MemGood pq s) : MemGood pq (State.idleEnter s c b) := by
  unfold State.idleEnter
  repeat' first
    | with_reducible assumption
    | intro _
    | with_reducible apply State.idleLevel_mem
    | with_reducible apply State.runDrives_mem
    | with_reducible apply State.setCh_mem
    | with_reducible apply good_ite

theorem State.playCode_mem {pq : Prop × List Instr} (s : State) (v : VecCtx) (c : Nat) (site : Nat) (code : Nat) (cmps : Bool) (hs : MemGood pq s) : MemGood pq (State.playCode s v c site code cmps) := by
  unfold State.playCode
  repeat' first
    | with_reducible assumption
    | intro _
    | with_reducible apply State.countDrops_mem
    | with_reducible apply State.runDrives_mem
    | with_reducible apply State.setCh_mem

theorem State.playChannel_mem {pq : Prop × List Instr} (s : State) (v : VecCtx) (rec : List Byte) (k : Nat) (c : Nat) (hs : MemGood pq s) : MemGood pq (State.playChannel s v rec k c) := by
  unfold State.playChannel
  repeat' first
    | with_reducible assumption
    | intro _
    | with_reducible apply State.playCode_mem
    | with_reducible apply State.runDrives_mem
    | with_reducible apply State.setCh_mem
    | with_reducible apply good_ite
    | with_reducible apply good_ite_fst
    | fail_if_no_progress beta_reduce
    | fail_if_no_progress extract_lets +onlyGivenNames x
    | split

theorem State.playChannels_mem {pq : Prop × List Instr} (s : State) (v : VecCtx) (rec : List Byte) (z0 : Nat) (z1 : List Nat) (hs : MemGood pq s) : MemGood pq (State.playChannels s v rec z0 z1) := by
  revert hs
  fun_induction State.playChannels s v rec z0 z1
  all_goals repeat' first
    | with_reducible assumption
    | intro _
    | with_reducible apply State.playChannel_mem
    | with_reducible apply good_ite
    | with_reducible apply good_ite_fst
    | fail_if_no_progress beta_reduce
    | fail_if_no_progress extract_lets +onlyGivenNames x
    | split
    | fail_if_no_progress with_reducible apply good_mk
    | refine fst_mem (by assumption) ?_
    | apply_assumption

end Sys2Proof.Machine
end

