-- ==== Sys2Proof/Laws/MemCompare.lean ====
section
/-! SUPPORT. Every operation of Machine/Compare.lean keeps the canonical form of the byte memories and the queue. -/

namespace Sys2Proof.Machine

open Sys2Proof


theorem State.flogLose_mem {pq : Prop × List Instr} (s : State) (n : Nat) (c : Nat) (vec : Nat) (reason : Nat) (hs : MemGood pq s) : MemGood pq (State.flogLose s n c vec reason) := by
  unfold State.flogLose
  repeat' first
    | with_reducible assumption
    | intro _
    | with_reducible apply State.irq_mem
    | with_reducible apply State.note_mem
    | with_reducible apply State.setCh_mem
    | with_reducible apply State.setSq_mem
    | with_reducible apply good_ite

theorem State.flogLosses_mem {pq : Prop × List Instr} (s : State) (l : List (Nat × List Byte)) (hs : MemGood pq s) : MemGood pq (State.flogLosses s l) := by
  unfold State.flogLosses
  repeat' first
    | with_reducible assumption
    | intro _
    | with_reducible apply State.flogLose_mem
    | with_reducible apply foldl_mem
    | with_reducible apply foldl_mem_fst
    | with_reducible apply good_ite
    | with_reducible apply good_ite_fst
    | fail_if_no_progress beta_reduce
    | fail_if_no_progress extract_lets +onlyGivenNames x
    | split

theorem State.admitRec_mem {pq : Prop × List Instr} (s : State) (n : Nat) (r : CapRec) (hs : MemGood pq s) : MemGood pq (State.admitRec s n r) := by
  unfold State.admitRec
  repeat' first
    | with_reducible assumption
    | intro _
    | with_reducible apply State.flogLosses_mem
    | with_reducible apply State.setSq_mem
    | with_reducible apply State.takeIn_mem

theorem State.flogMake_mem {pq : Prop × List Instr} (s : State) (n : Nat) (c : Nat) (v : CmpVec) (d : Verdict) (first : Bool) (hs : MemGood pq s) : MemGood pq (State.flogMake s n c v d first) := by
  unfold State.flogMake
  repeat' first
    | with_reducible assumption
    | intro _
    | with_reducible apply State.admitRec_mem
    | with_reducible apply State.flogLose_mem
    | with_reducible apply State.loseItem_mem
    | with_reducible apply State.setCh_mem
    | with_reducible apply State.setSq_mem
    | with_reducible apply State.sramWr_mem
    | with_reducible apply good_ite
    | with_reducible apply good_ite_fst
    | fail_if_no_progress beta_reduce
    | fail_if_no_progress extract_lets +onlyGivenNames x
    | split

theorem State.satBits_mem {pq : Prop × List Instr} (s : State) (c : Nat) (hs : MemGood pq s) : MemGood pq (State.satBits s c) := by
  unfold State.satBits
  repeat' first
    | with_reducible assumption
    | intro _
    | with_reducible apply State.irq_mem
    | with_reducible apply State.setBits_mem
    | with_reducible apply good_ite

theorem State.applyVerdict_mem {pq : Prop × List Instr} (s : State) (n : Nat) (c : Nat) (v : CmpVec) (d : Verdict) (hs : MemGood pq s) : MemGood pq (State.applyVerdict s n c v d) := by
  unfold State.applyVerdict
  repeat' first
    | with_reducible assumption
    | intro _
    | with_reducible apply State.flogMake_mem
    | with_reducible apply State.irq_mem
    | with_reducible apply State.satBits_mem
    | with_reducible apply State.setCh_mem
    | with_reducible apply State.setSq_mem
    | with_reducible apply good_ite

theorem doVectorResult_mem {pq : Prop × List Instr} (c : Nat) (obs : List Obs) (s : State) (hs : MemGood pq s) : MemGood pq (doVectorResult c obs s) := by
  unfold doVectorResult
  repeat' first
    | with_reducible assumption
    | intro _
    | with_reducible apply State.applyVerdict_mem
    | with_reducible apply State.setCh_mem
    | with_reducible apply State.whenDue_mem
    | with_reducible apply State.wrF_mem
    | with_reducible apply good_ite
    | with_reducible apply good_ite_fst
    | fail_if_no_progress beta_reduce
    | fail_if_no_progress extract_lets +onlyGivenNames x
    | split
    | fail_if_no_progress with_reducible apply good_mk

end Sys2Proof.Machine
end

