-- ==== Sys2Proof/Laws/MemNor.lean ====
section
/-! SUPPORT. Every operation of Machine/Nor.lean keeps the canonical form of the byte memories and the queue. -/

namespace Sys2Proof.Machine

open Sys2Proof


theorem norErased_kwf {m : KMap Byte} (h : kwf norFill m = true) (a n : Nat) : kwf norFill (norErased m a n) = true :=
  kwf_memWrite (kwf_memWrite (kwf_memWrite (kwf_filter h _) _ _) _ _) _ _

theorem State.norErase_mem {pq : Prop × List Instr} (s : State) (a : Nat) (n : Nat) (hs : MemGood pq s) : MemGood pq (State.norErase s a n) :=
  forEach_mem _ _ _ ⟨fun w => ⟨(hs.1 w).1, (hs.1 w).2.1, norErased_kwf (hs.1 w).2.2 a n⟩, hs.2⟩
    fun _ _ hx => good_ite (State.wrN_mem _ _ _ (good_mk hx)) (good_mk hx)

theorem State.norDo_mem {pq : Prop × List Instr} (s : State) (op : NorOp) (k : Nat) (hs : MemGood pq s) : MemGood pq (State.norDo s op k) := by
  unfold State.norDo
  repeat' first
    | with_reducible assumption
    | intro _
    | with_reducible apply State.norErase_mem
    | with_reducible apply State.norWr_mem
    | with_reducible apply foldl_mem

theorem State.norShow_mem {pq : Prop × List Instr} (s : State) (hs : MemGood pq s) : MemGood pq (State.norShow s) := by
  unfold State.norShow
  repeat' first
    | with_reducible assumption
    | intro _
    | with_reducible apply State.wrF_mem
    | with_reducible apply good_ite
    | with_reducible apply good_ite_fst
    | fail_if_no_progress beta_reduce
    | fail_if_no_progress extract_lets +onlyGivenNames x
    | split

theorem State.norPush_mem {pq : Prop × List Instr} (s : State) (op : NorOp) (hs : MemGood pq s) : MemGood pq (State.norPush s op) := by
  unfold State.norPush
  repeat' first
    | with_reducible assumption
    | intro _
    | with_reducible apply State.norShow_mem
    | with_reducible apply good_ite
    | with_reducible apply good_ite_fst
    | fail_if_no_progress beta_reduce
    | fail_if_no_progress extract_lets +onlyGivenNames x
    | split
    | fail_if_no_progress with_reducible apply good_mk

theorem State.norPfw_mem {pq : Prop × List Instr} (s : State) (hs : MemGood pq s) : MemGood pq (State.norPfw s) := by
  unfold State.norPfw
  repeat' first
    | with_reducible assumption
    | intro _
    | with_reducible apply State.countF_mem

theorem State.norAbort_mem {pq : Prop × List Instr} (s : State) (hs : MemGood pq s) : MemGood pq (State.norAbort s) := by
  unfold State.norAbort
  repeat' first
    | with_reducible assumption
    | intro _
    | with_reducible apply State.drawn_mem
    | with_reducible apply State.norDo_mem
    | with_reducible apply State.norShow_mem
    | with_reducible apply good_ite
    | with_reducible apply good_ite_fst
    | fail_if_no_progress beta_reduce
    | fail_if_no_progress extract_lets +onlyGivenNames x
    | split
    | fail_if_no_progress with_reducible apply good_mk

end Sys2Proof.Machine
end

