-- ==== Sys2Proof/Laws/MemCsh.lean ====
section
/-! SUPPORT. Every operation of Machine/Csh.lean keeps the canonical form of the byte memories and the queue. -/

namespace Sys2Proof.Machine

open Sys2Proof


theorem State.skipOne_mem {pq : Prop × List Instr} (s : State) (n : Nat) (hs : MemGood pq s) : MemGood pq (State.skipOne s n) := by
  unfold State.skipOne
  repeat' first
    | with_reducible assumption
    | intro _
    | with_reducible apply State.count_mem
    | with_reducible apply State.irq_mem

theorem State.takeNumber_mem {pq : Prop × List Instr} (s : State) (hs : MemGood pq s) : MemGood pq (State.takeNumber s) := by
  unfold State.takeNumber
  repeat' first
    | with_reducible assumption
    | intro _
    | with_reducible apply State.modFault_mem
    | with_reducible apply State.wrWide_mem
    | with_reducible apply good_ite
    | with_reducible apply good_ite_fst
    | fail_if_no_progress beta_reduce
    | fail_if_no_progress extract_lets +onlyGivenNames x
    | split
    | fail_if_no_progress with_reducible apply good_mk

theorem State.renumber_mem {pq : Prop × List Instr} (s : State) (f : Nat → Nat) (hs : MemGood pq s) : MemGood pq (State.renumber s f) := by
  unfold State.renumber
  repeat' first
    | with_reducible assumption
    | intro _
    | with_reducible apply State.setSq_mem
    | with_reducible apply forEach_mem
    | with_reducible apply good_ite
    | with_reducible apply good_ite_fst
    | fail_if_no_progress beta_reduce
    | fail_if_no_progress extract_lets +onlyGivenNames x
    | split
    | fail_if_no_progress with_reducible apply good_mk

theorem State.giveNumber_mem {pq : Prop × List Instr} (s : State) (n : Nat) (at_ : Nat) (num : Nat) (hs : MemGood pq s) : MemGood pq (State.giveNumber s n at_ num).1 := by
  unfold State.giveNumber
  repeat' first
    | with_reducible assumption
    | intro _
    | with_reducible apply State.renumber_mem
    | with_reducible apply good_ite
    | with_reducible apply good_ite_fst
    | fail_if_no_progress beta_reduce
    | fail_if_no_progress extract_lets +onlyGivenNames x
    | split

theorem State.closeEpoch_mem {pq : Prop × List Instr} (s : State) (n : Nat) (tag : Nat) (cause : Nat) (hs : MemGood pq s) : MemGood pq (State.closeEpoch s n tag cause) := by
  unfold State.closeEpoch
  repeat' first
    | with_reducible assumption
    | intro _
    | with_reducible apply State.giveNumber_mem
    | with_reducible apply State.putMarkers_mem
    | with_reducible apply State.setSq_mem
    | with_reducible apply State.skipOne_mem
    | with_reducible apply State.takeNumber_mem
    | with_reducible apply good_ite

theorem State.closeRun_mem {pq : Prop × List Instr} (s : State) (n : Nat) (cause : Nat) (hs : MemGood pq s) : MemGood pq (State.closeRun s n cause) := by
  unfold State.closeRun
  repeat' first
    | with_reducible assumption
    | intro _
    | with_reducible apply State.closeEpoch_mem
    | with_reducible apply State.setSq_mem
    | with_reducible apply good_ite
    | with_reducible apply good_ite_fst
    | fail_if_no_progress beta_reduce
    | fail_if_no_progress extract_lets +onlyGivenNames x
    | split

theorem State.publish_mem {pq : Prop × List Instr} (s : State) (n : Nat) (e : Epoch) (hs : MemGood pq s) : MemGood pq (State.publish s n e) := by
  unfold State.publish
  repeat' first
    | with_reducible assumption
    | intro _
    | with_reducible apply State.irq_mem
    | with_reducible apply State.setSq_mem
    | with_reducible apply State.sramWr_mem
    | with_reducible apply State.wrN_mem
    | with_reducible apply State.wrWide_mem
    | with_reducible apply good_ite
    | with_reducible apply good_ite_fst
    | fail_if_no_progress beta_reduce
    | fail_if_no_progress extract_lets +onlyGivenNames x
    | split
    | fail_if_no_progress with_reducible apply good_mk

theorem doEpochPublish_mem {pq : Prop × List Instr} (n : Nat) (s : State) (hs : MemGood pq s) : MemGood pq (doEpochPublish n s) := by
  unfold doEpochPublish
  repeat' first
    | with_reducible assumption
    | intro _
    | with_reducible apply State.publish_mem
    | with_reducible apply State.skipOne_mem
    | with_reducible apply State.whenDue_mem
    | with_reducible apply forEach_mem
    | with_reducible apply good_ite
    | with_reducible apply good_ite_fst
    | fail_if_no_progress beta_reduce
    | fail_if_no_progress extract_lets +onlyGivenNames x
    | split

theorem doEpochReserveExtend_mem {pq : Prop × List Instr} (s : State) (hs : MemGood pq s) : MemGood pq (doEpochReserveExtend s) := by
  unfold doEpochReserveExtend
  repeat' first
    | with_reducible assumption
    | intro _
    | with_reducible apply State.norPfw_mem
    | with_reducible apply State.norPush_mem
    | with_reducible apply State.whenDue_mem
    | with_reducible apply good_ite

theorem doCshAcquire_mem {pq : Prop × List Instr} (dom : Nat) (n : Nat) (s : State) (hs : MemGood pq s) : MemGood pq (doCshAcquire dom n s) := by
  unfold doCshAcquire
  repeat' first
    | with_reducible assumption
    | intro _
    | with_reducible apply State.hostRead_mem
    | with_reducible apply State.setSq_mem
    | with_reducible apply State.wrWide_mem
    | with_reducible apply good_ite
    | with_reducible apply good_ite_fst
    | fail_if_no_progress beta_reduce
    | fail_if_no_progress extract_lets +onlyGivenNames x
    | split

theorem State.releaseHeld_mem {pq : Prop × List Instr} (s : State) (n : Nat) (hs : MemGood pq s) : MemGood pq (State.releaseHeld s n) := by
  unfold State.releaseHeld
  repeat' first
    | with_reducible assumption
    | intro _
    | with_reducible apply State.setSq_mem
    | with_reducible apply State.wrWide_mem

theorem State.releaseBuf_mem {pq : Prop × List Instr} (s : State) (dom : Nat) (n : Nat) (b : Nat) (a : Nat) (hs : MemGood pq s) : MemGood pq (State.releaseBuf s dom n b a) := by
  unfold State.releaseBuf
  repeat' first
    | with_reducible assumption
    | intro _
    | with_reducible apply State.noteReg_mem
    | with_reducible apply State.releaseHeld_mem
    | with_reducible apply good_ite

theorem doCshRelease_mem {pq : Prop × List Instr} (dom : Nat) (n : Nat) (v : Word) (s : State) (hs : MemGood pq s) : MemGood pq (doCshRelease dom n v s) := by
  unfold doCshRelease
  repeat' first
    | with_reducible assumption
    | intro _
    | with_reducible apply State.hostWrite_mem
    | with_reducible apply State.releaseBuf_mem

theorem doCshForcedRelease_mem {pq : Prop × List Instr} (dom : Nat) (n : Nat) (v : Word) (s : State) (hs : MemGood pq s) : MemGood pq (doCshForcedRelease dom n v s) := by
  unfold doCshForcedRelease
  repeat' first
    | with_reducible assumption
    | intro _
    | with_reducible apply State.hostWrite_mem
    | with_reducible apply State.releaseBuf_mem

end Sys2Proof.Machine
end

