-- ==== Sys2Proof/Laws/MemApply.lean ====
section
/-! SUPPORT. Every operation of Machine/Apply.lean keeps the canonical form of the byte memories and the queue. -/

namespace Sys2Proof.Machine

open Sys2Proof


theorem State.keepFor_mem {pq : Prop × List Instr} (s : State) (n : Nat) (k : Nat) (hs : MemGood pq s) : MemGood pq (State.keepFor s n k) := by
  unfold State.keepFor
  repeat' first
    | with_reducible assumption
    | intro _
    | with_reducible apply State.pruneCopies_mem
    | with_reducible apply State.setSq_mem
    | with_reducible apply State.takeCopy_mem
    | with_reducible apply forEach_mem

theorem State.leaderCopy_mem {pq : Prop × List Instr} (s : State) (n : Nat) (hs : MemGood pq s) : MemGood pq (State.leaderCopy s n) := by
  unfold State.leaderCopy
  repeat' first
    | with_reducible assumption
    | intro _
    | with_reducible apply State.pruneCopies_mem
    | with_reducible apply State.takeCopy_mem
    | with_reducible apply good_ite

theorem State.serApply_mem {pq : Prop × List Instr} (s : State) (c : Nat) (hs : MemGood pq s) : MemGood pq (State.serApply s c) := by
  unfold State.serApply
  repeat' first
    | with_reducible assumption
    | intro _
    | with_reducible apply State.irq_mem
    | with_reducible apply State.note_mem
    | with_reducible apply State.setApv_mem
    | with_reducible apply State.wrN_mem
    | with_reducible apply State.wr_mem
    | with_reducible apply forEach_mem

theorem State.applyOne_mem {pq : Prop × List Instr} (s : State) (a : Nat) (hs : MemGood pq s) : MemGood pq (State.applyOne s a) := by
  unfold State.applyOne
  repeat' first
    | with_reducible assumption
    | intro _
    | with_reducible apply State.serApply_mem
    | with_reducible apply State.setApv_mem
    | with_reducible apply State.unstage_mem
    | with_reducible apply good_ite

theorem State.applyPeriods_mem {pq : Prop × List Instr} (s : State) (n : Nat) (hs : MemGood pq s) : MemGood pq (State.applyPeriods s n) := by
  unfold State.applyPeriods
  repeat' first
    | with_reducible assumption
    | intro _
    | with_reducible apply State.setApv_mem
    | with_reducible apply forEach_mem
    | with_reducible apply good_ite
    | with_reducible apply good_ite_fst
    | fail_if_no_progress beta_reduce
    | fail_if_no_progress extract_lets +onlyGivenNames x
    | split
    | fail_if_no_progress with_reducible apply good_mk

theorem State.takeRing_mem {pq : Prop × List Instr} (s : State) (n : Nat) (hs : MemGood pq s) : MemGood pq (State.takeRing s n) := by
  unfold State.takeRing
  repeat' first
    | with_reducible assumption
    | intro _
    | with_reducible apply State.pruneCopies_mem
    | with_reducible apply State.setSq_mem
    | with_reducible apply State.wrN_mem

theorem State.ringChange_mem {pq : Prop × List Instr} (s : State) (n : Nat) (hs : MemGood pq s) : MemGood pq (State.ringChange s n) := by
  unfold State.ringChange
  repeat' first
    | with_reducible assumption
    | intro _
    | with_reducible apply State.pruneCopies_mem
    | with_reducible apply State.setSq_mem
    | with_reducible apply State.takeRing_mem
    | with_reducible apply good_ite

theorem State.ringFollows_mem {pq : Prop × List Instr} (s : State) (n : Nat) (hs : MemGood pq s) : MemGood pq (State.ringFollows s n) := by
  unfold State.ringFollows
  repeat' first
    | with_reducible assumption
    | intro _
    | with_reducible apply State.takeRing_mem
    | with_reducible apply good_ite

theorem State.idleLevelNow_mem {pq : Prop × List Instr} (s : State) (c : Nat) (hs : MemGood pq s) : MemGood pq (State.idleLevelNow s c) := by
  unfold State.idleLevelNow
  repeat' first
    | with_reducible assumption
    | intro _
    | with_reducible apply State.idleEnter_mem
    | with_reducible apply State.idleLevel_mem
    | with_reducible apply good_ite
    | with_reducible apply good_ite_fst
    | fail_if_no_progress beta_reduce
    | fail_if_no_progress extract_lets +onlyGivenNames x
    | split

theorem State.applyStaged_mem {pq : Prop × List Instr} (s : State) (n : Nat) (hs : MemGood pq s) : MemGood pq (State.applyStaged s n) := by
  unfold State.applyStaged
  repeat' first
    | with_reducible assumption
    | intro _
    | with_reducible apply State.applyOne_mem
    | with_reducible apply State.applyPeriods_mem
    | with_reducible apply State.idleLevelNow_mem
    | with_reducible apply State.keepFor_mem
    | with_reducible apply State.leaderCopy_mem
    | with_reducible apply State.pelApply_mem
    | with_reducible apply State.ringChange_mem
    | with_reducible apply forEach_mem
    | with_reducible apply good_ite

theorem State.stgRelease_mem {pq : Prop × List Instr} (s : State) (n : Nat) (hs : MemGood pq s) : MemGood pq (State.stgRelease s n) := by
  unfold State.stgRelease
  repeat' first
    | with_reducible assumption
    | intro _
    | with_reducible apply State.wrF_mem

theorem State.stageWrite_mem {pq : Prop × List Instr} (s : State) (a : Nat) (v : Word) (hs : MemGood pq s) : MemGood pq (State.stageWrite s a v) := by
  unfold State.stageWrite
  repeat' first
    | with_reducible assumption
    | intro _
    | with_reducible apply State.applyOne_mem
    | with_reducible apply State.pelApply_mem
    | with_reducible apply State.wr_mem
    | with_reducible apply good_ite
    | with_reducible apply good_ite_fst
    | fail_if_no_progress beta_reduce
    | fail_if_no_progress extract_lets +onlyGivenNames x
    | split
    | fail_if_no_progress with_reducible apply good_mk

theorem State.dropSite_mem {pq : Prop × List Instr} (s : State) (n : Nat) (t : Nat) (byHost : Bool) (hs : MemGood pq s) : MemGood pq (State.dropSite s n t byHost) := by
  unfold State.dropSite
  repeat' first
    | with_reducible assumption
    | intro _
    | with_reducible apply State.idleEnter_mem
    | with_reducible apply State.irq_mem
    | with_reducible apply State.setSq_mem
    | with_reducible apply forEach_mem
    | with_reducible apply good_ite

theorem State.hostDrops_mem {pq : Prop × List Instr} (s : State) (n : Nat) (hs : MemGood pq s) : MemGood pq (State.hostDrops s n) := by
  unfold State.hostDrops
  repeat' first
    | with_reducible assumption
    | intro _
    | with_reducible apply State.dropSite_mem
    | with_reducible apply State.setSq_mem
    | with_reducible apply forEach_mem

end Sys2Proof.Machine
end

