-- ==== Sys2Proof/Laws/MemPlayFront.lean ====
section
/-! SUPPORT. Every operation of Machine/PlayFront.lean keeps the canonical form of the byte memories and the queue. -/

namespace Sys2Proof.Machine

open Sys2Proof


theorem State.spoolWriteBack_mem {pq : Prop × List Instr} (s : State) (n : Nat) (e : Nat) (cut : Bool) (hs : MemGood pq s) : MemGood pq (State.spoolWriteBack s n e cut) := by
  unfold State.spoolWriteBack
  repeat' first
    | with_reducible assumption
    | intro _
    | with_reducible apply State.dramGet_mem
    | with_reducible apply State.dramPut_mem

theorem State.writeBackCur_mem {pq : Prop × List Instr} (s : State) (n : Nat) (hs : MemGood pq s) : MemGood pq (State.writeBackCur s n) := by
  unfold State.writeBackCur
  repeat' first
    | with_reducible assumption
    | intro _
    | with_reducible apply State.spoolWriteBack_mem
    | with_reducible apply good_ite
    | with_reducible apply good_ite_fst
    | fail_if_no_progress beta_reduce
    | fail_if_no_progress extract_lets +onlyGivenNames x
    | split

theorem State.clearCur_mem {pq : Prop × List Instr} (s : State) (n : Nat) (hs : MemGood pq s) : MemGood pq (State.clearCur s n) := by
  unfold State.clearCur
  repeat' first
    | with_reducible assumption
    | intro _
    | with_reducible apply State.setSq_mem
    | with_reducible apply State.wrN_mem
    | with_reducible apply good_ite
    | with_reducible apply good_ite_fst
    | fail_if_no_progress beta_reduce
    | fail_if_no_progress extract_lets +onlyGivenNames x
    | split

theorem State.setFifo_mem {pq : Prop × List Instr} (s : State) (c : Nat) (l : List Nat) (hs : MemGood pq s) : MemGood pq (State.setFifo s c l) := by
  unfold State.setFifo
  repeat' first
    | with_reducible assumption
    | intro _
    | with_reducible apply State.setCh_mem
    | with_reducible apply State.wrF_mem

theorem State.endRun_mem {pq : Prop × List Instr} (s : State) (n : Nat) (cause : Nat) (hs : MemGood pq s) : MemGood pq (State.endRun s n cause) := by
  unfold State.endRun
  repeat' first
    | with_reducible assumption
    | intro _
    | with_reducible apply State.clearCur_mem
    | with_reducible apply State.closeRun_mem
    | with_reducible apply State.idleLevel_mem
    | with_reducible apply State.ringFollows_mem
    | with_reducible apply State.setFifo_mem
    | with_reducible apply State.setSq_mem
    | with_reducible apply State.wrF_mem
    | with_reducible apply State.writeBackCur_mem
    | with_reducible apply forEach_mem
    | with_reducible apply good_ite

theorem State.selfFault_mem {pq : Prop × List Instr} (s : State) (n : Nat) (code : Nat) (pc : Nat) (hs : MemGood pq s) : MemGood pq (State.selfFault s n code pc) := by
  unfold State.selfFault
  repeat' first
    | with_reducible assumption
    | intro _
    | with_reducible apply State.detect_mem
    | with_reducible apply State.endRun_mem
    | with_reducible apply State.wrN_mem

theorem State.pointDo_mem {pq : Prop × List Instr} (s : State) (n : Nat) (z0 : PointOp) (hs : MemGood pq s) : MemGood pq (State.pointDo s n z0) := by
  revert hs
  fun_cases State.pointDo s n z0
  all_goals repeat' first
    | with_reducible assumption
    | intro _
    | with_reducible apply State.closeEpoch_mem
    | with_reducible apply State.endRun_mem
    | with_reducible apply State.peerSync_mem
    | with_reducible apply State.syncSoon_mem
    | with_reducible apply State.wrF_mem
    | with_reducible apply State.wrN_mem
    | with_reducible apply State.xtPulse_mem
    | with_reducible apply good_ite

theorem State.beginRepeat_mem {pq : Prop × List Instr} (s : State) (n : Nat) (c : CurPlay) (hs : MemGood pq s) : MemGood pq (State.beginRepeat s n c) := by
  unfold State.beginRepeat
  repeat' first
    | with_reducible assumption
    | intro _
    | with_reducible apply State.setSq_mem
    | with_reducible apply State.wrF_mem
    | with_reducible apply State.wrN_mem
    | with_reducible apply good_ite

theorem State.frontIdle_mem {pq : Prop × List Instr} (s : State) (n : Nat) (hs : MemGood pq s) : MemGood pq (State.frontIdle s n) := by
  unfold State.frontIdle
  repeat' first
    | with_reducible assumption
    | intro _
    | with_reducible apply State.clearCur_mem
    | with_reducible apply State.wrF_mem
    | with_reducible apply good_ite
    | with_reducible apply good_ite_fst
    | fail_if_no_progress beta_reduce
    | (extract_lets +onlyGivenNames x; have hx : MemGood pq x; on_goal 1 => subst x; on_goal 2 => clear_value x)
    | (extract_lets +onlyGivenNames x; have hx : MemGood pq x.1; on_goal 1 => subst x; on_goal 2 => clear_value x)
    | fail_if_no_progress extract_lets +onlyGivenNames x
    | split
    | fail_if_no_progress with_reducible apply good_mk
    | refine fst_mem (by assumption) ?_

theorem State.urWarn_mem {pq : Prop × List Instr} (s : State) (n : Nat) (hs : MemGood pq s) : MemGood pq (State.urWarn s n) := by
  unfold State.urWarn
  repeat' first
    | with_reducible assumption
    | intro _
    | with_reducible apply State.count_mem
    | with_reducible apply State.irq_mem
    | with_reducible apply State.setSq_mem
    | with_reducible apply good_ite

theorem State.leaderRepeat_mem {pq : Prop × List Instr} (s : State) (n : Nat) (p : PlayItem) (first : Bool) (hs : MemGood pq s) : MemGood pq (State.leaderRepeat s n p first) := by
  unfold State.leaderRepeat
  repeat' first
    | with_reducible assumption
    | intro _
    | with_reducible apply State.beginRepeat_mem
    | with_reducible apply State.count_mem
    | with_reducible apply State.entryDesc_mem
    | with_reducible apply State.irq_mem
    | with_reducible apply State.selfFault_mem
    | with_reducible apply State.setSq_mem
    | with_reducible apply good_ite
    | with_reducible apply good_ite_fst
    | fail_if_no_progress beta_reduce
    | (extract_lets +onlyGivenNames x; have hx : MemGood pq x; on_goal 1 => subst x; on_goal 2 => clear_value x)
    | (extract_lets +onlyGivenNames x; have hx : MemGood pq x.1; on_goal 1 => subst x; on_goal 2 => clear_value x)
    | fail_if_no_progress extract_lets +onlyGivenNames x
    | split
    | fail_if_no_progress with_reducible apply good_mk
    | refine fst_mem (by assumption) ?_

theorem State.spoolNext_mem {pq : Prop × List Instr} (s : State) (n : Nat) (p : PlayItem) (first : Bool) (hs : MemGood pq s) : MemGood pq (State.spoolNext s n p first) := by
  unfold State.spoolNext
  repeat' first
    | with_reducible assumption
    | intro _
    | with_reducible apply State.beginRepeat_mem
    | with_reducible apply State.endRun_mem
    | with_reducible apply State.entryDesc_mem
    | with_reducible apply State.leaderRepeat_mem
    | with_reducible apply State.pruneCopies_mem
    | with_reducible apply State.selfFault_mem
    | with_reducible apply State.setSq_mem
    | with_reducible apply State.urWarn_mem
    | with_reducible apply State.wrN_mem
    | with_reducible apply good_ite
    | with_reducible apply good_ite_fst
    | fail_if_no_progress beta_reduce
    | (extract_lets +onlyGivenNames x; have hx : MemGood pq x; on_goal 1 => subst x; on_goal 2 => clear_value x)
    | (extract_lets +onlyGivenNames x; have hx : MemGood pq x.1; on_goal 1 => subst x; on_goal 2 => clear_value x)
    | fail_if_no_progress extract_lets +onlyGivenNames x
    | split
    | fail_if_no_progress with_reducible apply good_mk
    | refine fst_mem (by assumption) ?_

theorem State.beginPlay_mem {pq : Prop × List Instr} (s : State) (n : Nat) (p : PlayItem) (hs : MemGood pq s) : MemGood pq (State.beginPlay s n p) := by
  unfold State.beginPlay
  repeat' first
    | with_reducible assumption
    | intro _
    | with_reducible apply State.beginRepeat_mem
    | with_reducible apply State.consumeTrig_mem
    | with_reducible apply State.selfFault_mem
    | with_reducible apply State.setSq_mem
    | with_reducible apply State.spoolNext_mem
    | with_reducible apply good_ite
    | with_reducible apply good_ite_fst
    | fail_if_no_progress beta_reduce
    | fail_if_no_progress extract_lets +onlyGivenNames x
    | split

theorem State.frontRun_mem {pq : Prop × List Instr} (s : State) (n : Nat) (z0 : Nat) (hs : MemGood pq s) : MemGood pq (State.frontRun s n z0) := by
  revert hs
  fun_induction State.frontRun s n z0
  all_goals repeat' first
    | with_reducible assumption
    | intro _
    | with_reducible apply State.beginPlay_mem
    | with_reducible apply State.pointDo_mem
    | with_reducible apply State.setSq_mem
    | with_reducible apply good_ite
    | with_reducible apply good_ite_fst
    | fail_if_no_progress beta_reduce
    | fail_if_no_progress extract_lets +onlyGivenNames x
    | split
    | fail_if_no_progress with_reducible apply good_mk
    | refine fst_mem (by assumption) ?_
    | apply_assumption

theorem State.front_mem {pq : Prop × List Instr} (s : State) (n : Nat) (hs : MemGood pq s) : MemGood pq (State.front s n) := by
  unfold State.front
  repeat' first
    | with_reducible assumption
    | intro _
    | with_reducible apply State.frontRun_mem

theorem State.jumpsDiscard_mem {pq : Prop × List Instr} (s : State) (n : Nat) (hs : MemGood pq s) : MemGood pq (State.jumpsDiscard s n) := by
  unfold State.jumpsDiscard
  repeat' first
    | with_reducible assumption
    | intro _
    | with_reducible apply State.wrF_mem
    | with_reducible apply forEach_mem
    | with_reducible apply good_ite

theorem State.takeJump_mem {pq : Prop × List Instr} (s : State) (n : Nat) (k : Nat) (c : CurPlay) (hs : MemGood pq s) : MemGood pq (State.takeJump s n k c) := by
  unfold State.takeJump
  repeat' first
    | with_reducible assumption
    | intro _
    | with_reducible apply State.frontIdle_mem
    | with_reducible apply State.pruneCopies_mem
    | with_reducible apply State.ringFollows_mem
    | with_reducible apply State.selfFault_mem
    | with_reducible apply State.setSq_mem
    | with_reducible apply State.wrF_mem
    | with_reducible apply good_ite

theorem State.playDone_mem {pq : Prop × List Instr} (s : State) (n : Nat) (hs : MemGood pq s) : MemGood pq (State.playDone s n) := by
  unfold State.playDone
  repeat' first
    | with_reducible assumption
    | intro _
    | with_reducible apply State.frontIdle_mem
    | with_reducible apply State.front_mem
    | with_reducible apply State.ringFollows_mem

theorem State.setTO_mem {pq : Prop × List Instr} (s : State) (n : Nat) (b : Bool) (hs : MemGood pq s) : MemGood pq (State.setTO s n b) := by
  unfold State.setTO
  repeat' first
    | with_reducible assumption
    | intro _
    | with_reducible apply State.wrF_mem

theorem State.matchFinish_mem {pq : Prop × List Instr} (s : State) (n : Nat) (c : CurPlay) (tmo : Bool) (hs : MemGood pq s) : MemGood pq (State.matchFinish s n c tmo) := by
  unfold State.matchFinish
  repeat' first
    | with_reducible assumption
    | intro _
    | with_reducible apply State.dropSite_mem
    | with_reducible apply State.irq_mem
    | with_reducible apply State.setSq_mem
    | with_reducible apply State.setTO_mem
    | with_reducible apply forEach_mem
    | with_reducible apply good_ite

theorem State.continuePlay_mem {pq : Prop × List Instr} (s : State) (n : Nat) (c : CurPlay) (hs : MemGood pq s) : MemGood pq (State.continuePlay s n c) := by
  unfold State.continuePlay
  repeat' first
    | with_reducible assumption
    | intro _
    | with_reducible apply State.beginRepeat_mem
    | with_reducible apply State.endRun_mem
    | with_reducible apply State.irq_mem
    | with_reducible apply State.matchFinish_mem
    | with_reducible apply State.playDone_mem
    | with_reducible apply State.setTO_mem
    | with_reducible apply State.spoolNext_mem
    | with_reducible apply good_ite
    | with_reducible apply good_ite_fst
    | fail_if_no_progress beta_reduce
    | fail_if_no_progress extract_lets +onlyGivenNames x
    | split

theorem State.segmentEnd_mem {pq : Prop × List Instr} (s : State) (n : Nat) (c : CurPlay) (hs : MemGood pq s) : MemGood pq (State.segmentEnd s n c) := by
  unfold State.segmentEnd
  repeat' first
    | with_reducible assumption
    | intro _
    | with_reducible apply State.applyStaged_mem
    | with_reducible apply State.clearCur_mem
    | with_reducible apply State.continuePlay_mem
    | with_reducible apply State.endRun_mem
    | with_reducible apply State.hostDrops_mem
    | with_reducible apply State.jumpsDiscard_mem
    | with_reducible apply State.takeJump_mem
    | with_reducible apply State.writeBackCur_mem
    | with_reducible apply good_ite
    | with_reducible apply good_ite_fst
    | fail_if_no_progress beta_reduce
    | (extract_lets +onlyGivenNames x; have hx : MemGood pq x; on_goal 1 => subst x; on_goal 2 => clear_value x)
    | (extract_lets +onlyGivenNames x; have hx : MemGood pq x.1; on_goal 1 => subst x; on_goal 2 => clear_value x)
    | fail_if_no_progress extract_lets +onlyGivenNames x
    | split
    | fail_if_no_progress with_reducible apply good_mk
    | refine fst_mem (by assumption) ?_

theorem doSegmentEnd_mem {pq : Prop × List Instr} (n : Nat) (s : State) (hs : MemGood pq s) : MemGood pq (doSegmentEnd n s) := by
  unfold doSegmentEnd
  repeat' first
    | with_reducible assumption
    | intro _
    | with_reducible apply State.segmentEnd_mem
    | with_reducible apply State.whenDue_mem
    | with_reducible apply good_ite
    | with_reducible apply good_ite_fst
    | fail_if_no_progress beta_reduce
    | fail_if_no_progress extract_lets +onlyGivenNames x
    | split

theorem doWaittTimeout_mem {pq : Prop × List Instr} (n : Nat) (s : State) (hs : MemGood pq s) : MemGood pq (doWaittTimeout n s) := by
  unfold doWaittTimeout
  repeat' first
    | with_reducible assumption
    | intro _
    | with_reducible apply State.segmentEnd_mem
    | with_reducible apply State.whenDue_mem
    | with_reducible apply good_ite
    | with_reducible apply good_ite_fst
    | fail_if_no_progress beta_reduce
    | fail_if_no_progress extract_lets +onlyGivenNames x
    | split

theorem doMatchEnd_mem {pq : Prop × List Instr} (n : Nat) (s : State) (hs : MemGood pq s) : MemGood pq (doMatchEnd n s) := by
  unfold doMatchEnd
  repeat' first
    | with_reducible assumption
    | intro _
    | with_reducible apply State.segmentEnd_mem
    | with_reducible apply State.whenDue_mem
    | with_reducible apply good_ite
    | with_reducible apply good_ite_fst
    | fail_if_no_progress beta_reduce
    | fail_if_no_progress extract_lets +onlyGivenNames x
    | split

theorem markSeen_mem {pq : Prop × List Instr} (n e : Nat) (r : State × Bool) (h : MemGood pq r.1) : MemGood pq (markSeen n e r) :=
  good_ite (State.setSq_mem _ _ _ h) h

theorem markNext_mem {pq : Prop × List Instr} (n : Nat) (e : Nat) (r : State × Bool) (h : MemGood pq r.1) : MemGood pq (markNext n e r) := by
  unfold markNext
  repeat' first
    | with_reducible assumption
    | intro _
    | with_reducible apply State.setSq_mem
    | with_reducible apply good_ite

theorem State.pollEntry_mem {pq : Prop × List Instr} (s : State) (n : Nat) (e : Nat) (hs : MemGood pq s) : MemGood pq (State.pollEntry s n e).1 := by
  unfold State.pollEntry
  repeat' first
    | with_reducible assumption
    | intro _
    | with_reducible apply State.dramAsk_mem

theorem doSpoolReadyPoll_mem {pq : Prop × List Instr} (n : Nat) (s : State) (hs : MemGood pq s) : MemGood pq (doSpoolReadyPoll n s) := by
  unfold doSpoolReadyPoll
  repeat' first
    | with_reducible assumption
    | intro _
    | with_reducible apply State.pollEntry_mem
    | with_reducible apply State.whenDue_mem
    | with_reducible apply markNext_mem
    | with_reducible apply markSeen_mem
    | with_reducible apply good_ite
    | with_reducible apply good_ite_fst
    | fail_if_no_progress beta_reduce
    | (extract_lets +onlyGivenNames x; have hx : MemGood pq x; on_goal 1 => subst x; on_goal 2 => clear_value x)
    | (extract_lets +onlyGivenNames x; have hx : MemGood pq x.1; on_goal 1 => subst x; on_goal 2 => clear_value x)
    | fail_if_no_progress extract_lets +onlyGivenNames x
    | split
    | fail_if_no_progress with_reducible apply good_mk
    | refine fst_mem (by assumption) ?_

theorem doSpoolCheckPoint_mem {pq : Prop × List Instr} (n : Nat) (s : State) (hs : MemGood pq s) : MemGood pq (doSpoolCheckPoint n s) := by
  unfold doSpoolCheckPoint
  repeat' first
    | with_reducible assumption
    | intro _
    | with_reducible apply State.urWarn_mem
    | with_reducible apply State.whenDue_mem

theorem doSiteDropout_mem {pq : Prop × List Instr} (n : Nat) (s : State) (hs : MemGood pq s) : MemGood pq (doSiteDropout n s) := by
  unfold doSiteDropout
  repeat' first
    | with_reducible assumption
    | intro _
    | with_reducible apply State.dropSite_mem
    | with_reducible apply State.whenDue_mem
    | with_reducible apply forEach_mem

theorem State.sampleJumps_mem {pq : Prop × List Instr} (s : State) (n : Nat) (hs : MemGood pq s) : MemGood pq (State.sampleJumps s n) := by
  unfold State.sampleJumps
  repeat' first
    | with_reducible assumption
    | intro _
    | with_reducible apply State.consumeTrig_mem
    | with_reducible apply State.wrF_mem
    | with_reducible apply forEach_mem
    | with_reducible apply good_ite

theorem State.granuleSample_mem {pq : Prop × List Instr} (s : State) (n : Nat) (c : CurPlay) (hs : MemGood pq s) : MemGood pq (State.granuleSample s n c) := by
  unfold State.granuleSample
  repeat' first
    | with_reducible assumption
    | intro _
    | with_reducible apply State.consumeTrig_mem
    | with_reducible apply State.sampleJumps_mem
    | with_reducible apply State.setSq_mem
    | with_reducible apply good_ite

theorem State.paceStop_mem {pq : Prop × List Instr} (s : State) (n : Nat) (c : Nat) (r : FaultRec) (hs : MemGood pq s) : MemGood pq (State.paceStop s n c r) := by
  unfold State.paceStop
  repeat' first
    | with_reducible assumption
    | intro _
    | with_reducible apply State.detect_mem
    | with_reducible apply State.endRun_mem
    | with_reducible apply State.irq_mem
    | with_reducible apply State.setSq_mem
    | with_reducible apply State.wrN_mem
    | with_reducible apply State.wrWide_mem
    | with_reducible apply good_ite
    | with_reducible apply good_ite_fst
    | fail_if_no_progress beta_reduce
    | (extract_lets +onlyGivenNames x; have hx : MemGood pq x; on_goal 1 => subst x; on_goal 2 => clear_value x)
    | (extract_lets +onlyGivenNames x; have hx : MemGood pq x.1; on_goal 1 => subst x; on_goal 2 => clear_value x)
    | fail_if_no_progress extract_lets +onlyGivenNames x
    | split
    | fail_if_no_progress with_reducible apply good_mk
    | refine fst_mem (by assumption) ?_

theorem State.recordFill_mem {pq : Prop × List Instr} (s : State) (n : Nat) (c : Nat) (credits : Nat) (hs : MemGood pq s) : MemGood pq (State.recordFill s n c credits) := by
  unfold State.recordFill
  repeat' first
    | with_reducible assumption
    | intro _
    | with_reducible apply State.setSq_mem
    | with_reducible apply State.wrF_mem
    | with_reducible apply State.wrN_mem
    | with_reducible apply good_ite

theorem State.fifoFills_mem {pq : Prop × List Instr} (s : State) (n : Nat) (credits : Nat) (z0 : List Nat) (z1 : List Nat) (hs : MemGood pq s) : MemGood pq (State.fifoFills s n credits z0 z1) := by
  revert hs
  fun_induction State.fifoFills s n credits z0 z1
  all_goals repeat' first
    | with_reducible assumption
    | intro _
    | with_reducible apply State.recordFill_mem
    | with_reducible apply State.setFifo_mem
    | with_reducible apply good_ite
    | with_reducible apply good_ite_fst
    | fail_if_no_progress beta_reduce
    | fail_if_no_progress extract_lets +onlyGivenNames x
    | split
    | fail_if_no_progress with_reducible apply good_mk
    | refine fst_mem (by assumption) ?_
    | apply_assumption

theorem State.fixVecB_mem {pq : Prop × List Instr} (s : State) (n : Nat) (hs : MemGood pq s) : MemGood pq (State.fixVecB s n) := by
  unfold State.fixVecB
  repeat' first
    | with_reducible assumption
    | intro _
    | with_reducible apply State.setSlot_mem
    | with_reducible apply good_ite
    | with_reducible apply good_ite_fst
    | fail_if_no_progress beta_reduce
    | fail_if_no_progress extract_lets +onlyGivenNames x
    | split

theorem State.askVector_mem {pq : Prop × List Instr} (s : State) (n : Nat) (d : Desc) (v : Nat) (hs : MemGood pq s) : MemGood pq (State.askVector s n d v).1 := by
  unfold State.askVector
  repeat' first
    | with_reducible assumption
    | intro _
    | with_reducible apply State.dramAsk_mem
    | with_reducible apply good_ite
    | with_reducible apply good_ite_fst

theorem State.fifoPop_mem {pq : Prop × List Instr} (s : State) (c : Nat) (hs : MemGood pq s) : MemGood pq (State.fifoPop s c) := by
  unfold State.fifoPop
  repeat' first
    | with_reducible assumption
    | intro _
    | with_reducible apply State.setFifo_mem

theorem doVectorFormat_mem {pq : Prop × List Instr} (n : Nat) (news : List Nat) (s : State) (hs : MemGood pq s) : MemGood pq (doVectorFormat n news s) := by
  unfold doVectorFormat
  repeat' first
    | with_reducible assumption
    | intro _
    | with_reducible apply State.askVector_mem
    | with_reducible apply State.fifoFills_mem
    | with_reducible apply State.fifoPop_mem
    | with_reducible apply State.fixVecB_mem
    | with_reducible apply State.granuleSample_mem
    | with_reducible apply State.paceStop_mem
    | with_reducible apply State.playChannels_mem
    | with_reducible apply State.setSq_mem
    | with_reducible apply State.whenDue_mem
    | with_reducible apply State.wrWide_mem
    | with_reducible apply forEach_mem
    | with_reducible apply good_ite
    | with_reducible apply good_ite_fst
    | fail_if_no_progress beta_reduce
    | fail_if_no_progress extract_lets +onlyGivenNames x
    | split

theorem doPaceFault_mem {pq : Prop × List Instr} (n : Nat) (c : Nat) (s : State) (hs : MemGood pq s) : MemGood pq (doPaceFault n c s) := by
  unfold doPaceFault
  repeat' first
    | with_reducible assumption
    | intro _
    | with_reducible apply State.paceStop_mem
    | with_reducible apply State.recordFill_mem
    | with_reducible apply State.whenDue_mem

end Sys2Proof.Machine
end

