-- ==== Sys2Proof/Laws/MemSeqFront.lean ====
section
/-! SUPPORT. Every operation of Machine/SeqFront.lean keeps the canonical form of the byte memories and the queue. -/

namespace Sys2Proof.Machine

open Sys2Proof


theorem State.advance_mem {pq : Prop × List Instr} (s : State) (n : Nat) (p : Prog) (hs : MemGood pq s) : MemGood pq (State.advance s n p) := by
  unfold State.advance
  repeat' first
    | with_reducible assumption
    | intro _
    | with_reducible apply State.setSq_mem

theorem State.decodeOp_mem {pq : Prop × List Instr} (s : State) (n : Nat) (op : Nat) (k : SInstr → State → State) (hs : MemGood pq s) (hk : ∀ (x0 : SInstr) (x1 : State), MemGood pq x1 → MemGood pq (k x0 x1)) : MemGood pq (State.decodeOp s n op k) := by
  unfold State.decodeOp
  repeat' first
    | with_reducible assumption
    | intro _
    | with_reducible apply State.selfFault_mem
    | with_reducible apply State.whenDue_mem
    | with_reducible apply hk
    | with_reducible apply good_ite

theorem State.stepProg_mem {pq : Prop × List Instr} (s : State) (n : Nat) (i : SInstr) (c : Bool) (hs : MemGood pq s) : MemGood pq (State.stepProg s n i c) := by
  unfold State.stepProg
  repeat' first
    | with_reducible assumption
    | intro _
    | with_reducible apply State.advance_mem
    | with_reducible apply State.selfFault_mem
    | with_reducible apply good_ite
    | with_reducible apply good_ite_fst
    | fail_if_no_progress beta_reduce
    | fail_if_no_progress extract_lets +onlyGivenNames x
    | split

theorem State.queuePoint_mem {pq : Prop × List Instr} (s : State) (n : Nat) (i : SInstr) (op : PointOp) (hs : MemGood pq s) : MemGood pq (State.queuePoint s n i op) := by
  unfold State.queuePoint
  repeat' first
    | with_reducible assumption
    | intro _
    | with_reducible apply State.front_mem
    | with_reducible apply State.setSq_mem
    | with_reducible apply State.stepProg_mem

theorem State.condTaken_mem {pq : Prop × List Instr} (s : State) (n : Nat) (i : SInstr) (c : Bool) (hs : MemGood pq s) : MemGood pq (State.condTaken s n i c) := by
  unfold State.condTaken
  repeat' first
    | with_reducible assumption
    | intro _
    | with_reducible apply State.front_mem
    | with_reducible apply State.setSq_mem
    | with_reducible apply State.stepProg_mem
    | with_reducible apply good_ite

theorem State.condTrigger_mem {pq : Prop × List Instr} (s : State) (n : Nat) (i : SInstr) (hs : MemGood pq s) : MemGood pq (State.condTrigger s n i).2 := by
  unfold State.condTrigger
  repeat' first
    | with_reducible assumption
    | intro _
    | with_reducible apply State.consumeTrig_mem
    | with_reducible apply good_ite

theorem State.condBranch_mem {pq : Prop × List Instr} (s : State) (n : Nat) (i : SInstr) (hs : MemGood pq s) : MemGood pq (State.condBranch s n i) := by
  unfold State.condBranch
  repeat' first
    | with_reducible assumption
    | intro _
    | with_reducible apply State.condTaken_mem
    | with_reducible apply State.condTrigger_mem
    | with_reducible apply State.selfFault_mem
    | with_reducible apply State.setSq_mem
    | with_reducible apply State.takeCopy_mem
    | with_reducible apply forEach_mem
    | with_reducible apply good_ite
    | with_reducible apply good_ite_fst
    | fail_if_no_progress beta_reduce
    | fail_if_no_progress extract_lets +onlyGivenNames x
    | split
    | fail_if_no_progress with_reducible apply good_mk
    | refine fst_mem (by assumption) ?_
    | with_reducible apply good_ite_snd

theorem State.condOp_mem {pq : Prop × List Instr} (s : State) (n : Nat) (i : SInstr) (hs : MemGood pq s) : MemGood pq (State.condOp s n i) := by
  unfold State.condOp
  repeat' first
    | with_reducible assumption
    | intro _
    | with_reducible apply State.condBranch_mem
    | with_reducible apply State.condTaken_mem
    | with_reducible apply good_ite

theorem State.queuePlay_mem {pq : Prop × List Instr} (s : State) (n : Nat) (p : PlayItem) (hs : MemGood pq s) : MemGood pq (State.queuePlay s n p) := by
  unfold State.queuePlay
  repeat' first
    | with_reducible assumption
    | intro _
    | with_reducible apply State.front_mem
    | with_reducible apply State.pruneCopies_mem
    | with_reducible apply State.setSq_mem

theorem State.targetOk_mem {pq : Prop × List Instr} (s : State) (n : Nat) (i : SInstr) (k : State → State) (hs : MemGood pq s) (hk : ∀ (x0 : State), MemGood pq x0 → MemGood pq (k x0)) : MemGood pq (State.targetOk s n i k) := by
  unfold State.targetOk
  repeat' first
    | with_reducible assumption
    | intro _
    | with_reducible apply State.selfFault_mem
    | with_reducible apply hk
    | with_reducible apply good_ite

theorem State.queueSeg_mem {pq : Prop × List Instr} (s : State) (n : Nat) (seg : Nat) (loc : Bool) (p : PlayItem) (hs : MemGood pq s) : MemGood pq (State.queueSeg s n seg loc p) := by
  unfold State.queueSeg
  repeat' first
    | with_reducible assumption
    | intro _
    | with_reducible apply State.entryDesc_mem
    | with_reducible apply State.queuePlay_mem
    | with_reducible apply State.selfFault_mem
    | with_reducible apply good_ite
    | with_reducible apply good_ite_fst
    | fail_if_no_progress beta_reduce
    | fail_if_no_progress extract_lets +onlyGivenNames x
    | split
    | fail_if_no_progress with_reducible apply good_mk
    | refine fst_mem (by assumption) ?_

theorem doNop_mem {pq : Prop × List Instr} (n : Nat) (s : State) (hs : MemGood pq s) : MemGood pq (doNop n s) := by
  unfold doNop
  repeat' first
    | with_reducible assumption
    | intro _
    | with_reducible apply State.decodeOp_mem
    | with_reducible apply State.stepProg_mem

theorem doHalt_mem {pq : Prop × List Instr} (n : Nat) (s : State) (hs : MemGood pq s) : MemGood pq (doHalt n s) := by
  unfold doHalt
  repeat' first
    | with_reducible assumption
    | intro _
    | with_reducible apply State.condOp_mem
    | with_reducible apply State.decodeOp_mem

theorem doJmp_mem {pq : Prop × List Instr} (n : Nat) (s : State) (hs : MemGood pq s) : MemGood pq (doJmp n s) := by
  unfold doJmp
  repeat' first
    | with_reducible assumption
    | intro _
    | with_reducible apply State.decodeOp_mem
    | with_reducible apply State.stepProg_mem

theorem doJcc_mem {pq : Prop × List Instr} (n : Nat) (s : State) (hs : MemGood pq s) : MemGood pq (doJcc n s) := by
  unfold doJcc
  repeat' first
    | with_reducible assumption
    | intro _
    | with_reducible apply State.condOp_mem
    | with_reducible apply State.decodeOp_mem

theorem doCall_mem {pq : Prop × List Instr} (n : Nat) (s : State) (hs : MemGood pq s) : MemGood pq (doCall n s) := by
  unfold doCall
  repeat' first
    | with_reducible assumption
    | intro _
    | with_reducible apply State.condOp_mem
    | with_reducible apply State.decodeOp_mem

theorem doRtn_mem {pq : Prop × List Instr} (n : Nat) (s : State) (hs : MemGood pq s) : MemGood pq (doRtn n s) := by
  unfold doRtn
  repeat' first
    | with_reducible assumption
    | intro _
    | with_reducible apply State.condOp_mem
    | with_reducible apply State.decodeOp_mem

theorem doLoop_mem {pq : Prop × List Instr} (n : Nat) (s : State) (hs : MemGood pq s) : MemGood pq (doLoop n s) := by
  unfold doLoop
  repeat' first
    | with_reducible assumption
    | intro _
    | with_reducible apply State.decodeOp_mem
    | with_reducible apply State.stepProg_mem

theorem doEndl_mem {pq : Prop × List Instr} (n : Nat) (s : State) (hs : MemGood pq s) : MemGood pq (doEndl n s) := by
  unfold doEndl
  repeat' first
    | with_reducible assumption
    | intro _
    | with_reducible apply State.decodeOp_mem
    | with_reducible apply State.stepProg_mem

theorem doSett_mem {pq : Prop × List Instr} (n : Nat) (s : State) (hs : MemGood pq s) : MemGood pq (doSett n s) := by
  unfold doSett
  repeat' first
    | with_reducible assumption
    | intro _
    | with_reducible apply State.decodeOp_mem
    | with_reducible apply State.queuePoint_mem

theorem doSetm_mem {pq : Prop × List Instr} (n : Nat) (s : State) (hs : MemGood pq s) : MemGood pq (doSetm n s) := by
  unfold doSetm
  repeat' first
    | with_reducible assumption
    | intro _
    | with_reducible apply State.decodeOp_mem
    | with_reducible apply State.queuePoint_mem

theorem doSetp_mem {pq : Prop × List Instr} (n : Nat) (s : State) (hs : MemGood pq s) : MemGood pq (doSetp n s) := by
  unfold doSetp
  repeat' first
    | with_reducible assumption
    | intro _
    | with_reducible apply State.decodeOp_mem
    | with_reducible apply State.queuePoint_mem

theorem doFlag_mem {pq : Prop × List Instr} (n : Nat) (s : State) (hs : MemGood pq s) : MemGood pq (doFlag n s) := by
  unfold doFlag
  repeat' first
    | with_reducible assumption
    | intro _
    | with_reducible apply State.decodeOp_mem
    | with_reducible apply State.queuePoint_mem

theorem doSig_mem {pq : Prop × List Instr} (n : Nat) (s : State) (hs : MemGood pq s) : MemGood pq (doSig n s) := by
  unfold doSig
  repeat' first
    | with_reducible assumption
    | intro _
    | with_reducible apply State.decodeOp_mem
    | with_reducible apply State.queuePoint_mem

theorem doEpoch_mem {pq : Prop × List Instr} (n : Nat) (s : State) (hs : MemGood pq s) : MemGood pq (doEpoch n s) := by
  unfold doEpoch
  repeat' first
    | with_reducible assumption
    | intro _
    | with_reducible apply State.decodeOp_mem
    | with_reducible apply State.queuePoint_mem

theorem doWaitt_mem {pq : Prop × List Instr} (n : Nat) (s : State) (hs : MemGood pq s) : MemGood pq (doWaitt n s) := by
  unfold doWaitt
  repeat' first
    | with_reducible assumption
    | intro _
    | with_reducible apply State.decodeOp_mem
    | with_reducible apply State.queueSeg_mem
    | with_reducible apply State.targetOk_mem

theorem doPlay_mem {pq : Prop × List Instr} (n : Nat) (s : State) (hs : MemGood pq s) : MemGood pq (doPlay n s) := by
  unfold doPlay
  repeat' first
    | with_reducible assumption
    | intro _
    | with_reducible apply State.decodeOp_mem
    | with_reducible apply State.queueSeg_mem
    | with_reducible apply State.targetOk_mem

theorem doPlayl_mem {pq : Prop × List Instr} (n : Nat) (s : State) (hs : MemGood pq s) : MemGood pq (doPlayl n s) := by
  unfold doPlayl
  repeat' first
    | with_reducible assumption
    | intro _
    | with_reducible apply State.decodeOp_mem
    | with_reducible apply State.queueSeg_mem
    | with_reducible apply State.targetOk_mem

theorem doSpool_mem {pq : Prop × List Instr} (n : Nat) (s : State) (hs : MemGood pq s) : MemGood pq (doSpool n s) := by
  unfold doSpool
  repeat' first
    | with_reducible assumption
    | intro _
    | with_reducible apply State.decodeOp_mem
    | with_reducible apply State.queuePlay_mem
    | with_reducible apply State.selfFault_mem
    | with_reducible apply State.targetOk_mem
    | with_reducible apply good_ite

theorem doLeader_mem {pq : Prop × List Instr} (n : Nat) (s : State) (hs : MemGood pq s) : MemGood pq (doLeader n s) := by
  unfold doLeader
  repeat' first
    | with_reducible assumption
    | intro _
    | with_reducible apply State.decodeOp_mem
    | with_reducible apply State.queueSeg_mem
    | with_reducible apply State.selfFault_mem
    | with_reducible apply State.targetOk_mem
    | with_reducible apply good_ite

theorem doMatch_mem {pq : Prop × List Instr} (n : Nat) (s : State) (hs : MemGood pq s) : MemGood pq (doMatch n s) := by
  unfold doMatch
  repeat' first
    | with_reducible assumption
    | intro _
    | with_reducible apply State.decodeOp_mem
    | with_reducible apply State.queueSeg_mem
    | with_reducible apply State.targetOk_mem

theorem doIllegalOp_mem {pq : Prop × List Instr} (n : Nat) (s : State) (hs : MemGood pq s) : MemGood pq (doIllegalOp n s) := by
  unfold doIllegalOp
  repeat' first
    | with_reducible assumption
    | intro _
    | with_reducible apply State.selfFault_mem
    | with_reducible apply State.whenDue_mem

theorem doRunaway_mem {pq : Prop × List Instr} (n : Nat) (s : State) (hs : MemGood pq s) : MemGood pq (doRunaway n s) := by
  unfold doRunaway
  repeat' first
    | with_reducible assumption
    | intro _
    | with_reducible apply State.selfFault_mem
    | with_reducible apply State.whenDue_mem

end Sys2Proof.Machine
end

