-- ==== Sys2Proof/Laws/MemSeqCmd.lean ====
section
/-! SUPPORT. Every operation of Machine/SeqCmd.lean keeps the canonical form of the byte memories and the queue. -/

namespace Sys2Proof.Machine

open Sys2Proof


theorem State.clearChan_mem {pq : Prop × List Instr} (s : State) (c : Nat) (hs : MemGood pq s) : MemGood pq (State.clearChan s c) := by
  unfold State.clearChan
  repeat' first
    | with_reducible assumption
    | intro _
    | with_reducible apply State.clrBits_mem
    | with_reducible apply State.setCh_mem
    | with_reducible apply State.wrN_mem
    | with_reducible apply good_ite
    | with_reducible apply good_ite_fst
    | fail_if_no_progress beta_reduce
    | fail_if_no_progress extract_lets +onlyGivenNames x
    | split
    | fail_if_no_progress with_reducible apply good_mk

theorem State.latchRes_mem {pq : Prop × List Instr} (s : State) (c : Nat) (hs : MemGood pq s) : MemGood pq (State.latchRes s c) := by
  unfold State.latchRes
  repeat' first
    | with_reducible assumption
    | intro _
    | with_reducible apply State.setCh_mem

theorem State.startState_mem {pq : Prop × List Instr} (s : State) (n : Nat) (hs : MemGood pq s) : MemGood pq (State.startState s n) := by
  unfold State.startState
  repeat' first
    | with_reducible assumption
    | intro _
    | with_reducible apply State.setSq_mem
    | with_reducible apply State.wrF_mem
    | with_reducible apply State.wrN_mem
    | with_reducible apply State.wrWide_mem
    | with_reducible apply foldl_mem
    | with_reducible apply foldl_mem_fst
    | with_reducible apply good_ite

theorem State.startRun_mem {pq : Prop × List Instr} (s : State) (n : Nat) (sync : Bool) (hs : MemGood pq s) : MemGood pq (State.startRun s n sync) := by
  unfold State.startRun
  repeat' first
    | with_reducible assumption
    | intro _
    | with_reducible apply State.applyStaged_mem
    | with_reducible apply State.clearChan_mem
    | with_reducible apply State.clearGraphs_mem
    | with_reducible apply State.hostDrops_mem
    | with_reducible apply State.keepFor_mem
    | with_reducible apply State.latchRes_mem
    | with_reducible apply State.leaderCopy_mem
    | with_reducible apply State.pinStart_mem
    | with_reducible apply State.startState_mem
    | with_reducible apply State.stgRelease_mem
    | with_reducible apply State.takeRing_mem
    | with_reducible apply State.wrF_mem
    | with_reducible apply State.wrN_mem
    | with_reducible apply State.wrWide_mem
    | with_reducible apply forEach_mem
    | with_reducible apply good_ite
    | with_reducible apply good_ite_fst
    | fail_if_no_progress beta_reduce
    | fail_if_no_progress extract_lets +onlyGivenNames x
    | split
    | fail_if_no_progress with_reducible apply good_mk

theorem State.startCmd_mem {pq : Prop × List Instr} (s : State) (dom : Nat) (n : Nat) (sync : Bool) (hs : MemGood pq s) : MemGood pq (State.startCmd s dom n sync) := by
  unfold State.startCmd
  repeat' first
    | with_reducible assumption
    | intro _
    | with_reducible apply State.hostWrite_mem
    | with_reducible apply State.noteReg_mem
    | with_reducible apply State.startRun_mem
    | with_reducible apply good_ite

theorem doSeqStart_mem {pq : Prop × List Instr} (dom : Nat) (n : Nat) (s : State) (hs : MemGood pq s) : MemGood pq (doSeqStart dom n s) := by
  unfold doSeqStart
  repeat' first
    | with_reducible assumption
    | intro _
    | with_reducible apply State.startCmd_mem

theorem doSeqStartSync_mem {pq : Prop × List Instr} (dom : Nat) (n : Nat) (s : State) (hs : MemGood pq s) : MemGood pq (doSeqStartSync dom n s) := by
  unfold doSeqStartSync
  repeat' first
    | with_reducible assumption
    | intro _
    | with_reducible apply State.startCmd_mem

theorem doSeqStop_mem {pq : Prop × List Instr} (dom : Nat) (n : Nat) (s : State) (hs : MemGood pq s) : MemGood pq (doSeqStop dom n s) := by
  unfold doSeqStop
  repeat' first
    | with_reducible assumption
    | intro _
    | with_reducible apply State.hostWrite_mem
    | with_reducible apply State.setSq_mem
    | with_reducible apply good_ite

theorem doSeqCmdInvalid_mem {pq : Prop × List Instr} (dom : Nat) (n : Nat) (v : Word) (s : State) (hs : MemGood pq s) : MemGood pq (doSeqCmdInvalid dom n v s) := by
  unfold doSeqCmdInvalid
  repeat' first
    | with_reducible assumption
    | intro _
    | with_reducible apply State.hostWrite_mem
    | with_reducible apply State.noteReg_mem
    | with_reducible apply good_ite

theorem State.playStart_mem {pq : Prop × List Instr} (s : State) (n : Nat) (hs : MemGood pq s) : MemGood pq (State.playStart s n) := by
  unfold State.playStart
  repeat' first
    | with_reducible assumption
    | intro _
    | with_reducible apply State.front_mem
    | with_reducible apply State.setFifo_mem
    | with_reducible apply State.setSeqState_mem
    | with_reducible apply State.setSq_mem
    | with_reducible apply State.wrF_mem
    | with_reducible apply State.wrWide_mem
    | with_reducible apply forEach_mem

theorem doPlayBegin_mem {pq : Prop × List Instr} (n : Nat) (s : State) (hs : MemGood pq s) : MemGood pq (doPlayBegin n s) := by
  unfold doPlayBegin
  repeat' first
    | with_reducible assumption
    | intro _
    | with_reducible apply State.playStart_mem
    | with_reducible apply State.whenDue_mem

theorem doSyncStartBegin_mem {pq : Prop × List Instr} (s : State) (hs : MemGood pq s) : MemGood pq (doSyncStartBegin s) := by
  unfold doSyncStartBegin
  repeat' first
    | with_reducible assumption
    | intro _
    | with_reducible apply State.playStart_mem
    | with_reducible apply State.whenDue_mem
    | with_reducible apply forEach_mem
    | with_reducible apply good_ite
    | with_reducible apply good_ite_fst
    | fail_if_no_progress beta_reduce
    | fail_if_no_progress extract_lets +onlyGivenNames x
    | split

theorem State.applyTo_mem {pq : Prop × List Instr} (s : State) (n : Nat) (g : Nat) (hs : MemGood pq s) : MemGood pq (State.applyTo s n g) := by
  unfold State.applyTo
  repeat' first
    | with_reducible assumption
    | intro _
    | with_reducible apply State.setSq_mem

theorem doGlbApply_mem {pq : Prop × List Instr} (dom : Nat) (v : Word) (s : State) (hs : MemGood pq s) : MemGood pq (doGlbApply dom v s) := by
  unfold doGlbApply
  repeat' first
    | with_reducible assumption
    | intro _
    | with_reducible apply State.applyTo_mem
    | with_reducible apply State.hostWrite_mem
    | with_reducible apply forEach_mem
    | with_reducible apply good_ite
    | with_reducible apply good_ite_fst
    | fail_if_no_progress beta_reduce
    | fail_if_no_progress extract_lets +onlyGivenNames x
    | split
    | fail_if_no_progress with_reducible apply good_mk

theorem State.applyReached_mem {pq : Prop × List Instr} (s : State) (n : Nat) (hs : MemGood pq s) : MemGood pq (State.applyReached s n) := by
  unfold State.applyReached
  repeat' first
    | with_reducible assumption
    | intro _
    | with_reducible apply State.applyStaged_mem
    | with_reducible apply State.endRun_mem
    | with_reducible apply State.hostDrops_mem
    | with_reducible apply State.setSq_mem
    | with_reducible apply State.stgRelease_mem
    | with_reducible apply good_ite

theorem doExplicitApply_mem {pq : Prop × List Instr} (n : Nat) (s : State) (hs : MemGood pq s) : MemGood pq (doExplicitApply n s) := by
  unfold doExplicitApply
  repeat' first
    | with_reducible assumption
    | intro _
    | with_reducible apply State.applyReached_mem
    | with_reducible apply State.whenDue_mem

theorem doSeqHtrig_mem {pq : Prop × List Instr} (dom : Nat) (n : Nat) (v : Word) (s : State) (hs : MemGood pq s) : MemGood pq (doSeqHtrig dom n v s) := by
  unfold doSeqHtrig
  repeat' first
    | with_reducible assumption
    | intro _
    | with_reducible apply State.hostWrite_mem
    | with_reducible apply State.pendTrig_mem
    | with_reducible apply good_ite

theorem doSeqJreq_mem {pq : Prop × List Instr} (dom : Nat) (n : Nat) (v : Word) (s : State) (hs : MemGood pq s) : MemGood pq (doSeqJreq dom n v s) := by
  unfold doSeqJreq
  repeat' first
    | with_reducible assumption
    | intro _
    | with_reducible apply State.hostWrite_mem
    | with_reducible apply State.setBits_mem
    | with_reducible apply State.setSq_mem

theorem doSeqDropreq_mem {pq : Prop × List Instr} (dom : Nat) (n : Nat) (hi : Bool) (v : Word) (s : State) (hs : MemGood pq s) : MemGood pq (doSeqDropreq dom n hi v s) := by
  unfold doSeqDropreq
  repeat' first
    | with_reducible assumption
    | intro _
    | with_reducible apply State.hostWrite_mem
    | with_reducible apply State.setSq_mem
    | with_reducible apply good_ite

theorem State.skipHeld_mem {pq : Prop × List Instr} (s : State) (n : Nat) (hs : MemGood pq s) : MemGood pq (State.skipHeld s n) := by
  unfold State.skipHeld
  repeat' first
    | with_reducible assumption
    | intro _
    | with_reducible apply State.setSq_mem
    | with_reducible apply State.skipOne_mem
    | with_reducible apply forEach_mem

theorem State.seqRests_mem {pq : Prop × List Instr} (s : State) (n : Nat) (hs : MemGood pq s) : MemGood pq (State.seqRests s n) := by
  unfold State.seqRests
  repeat' first
    | with_reducible assumption
    | intro _
    | with_reducible apply State.setSeqState_mem
    | with_reducible apply State.workNow_mem
    | with_reducible apply forEach_mem

theorem doRunEndComplete_mem {pq : Prop × List Instr} (n : Nat) (s : State) (hs : MemGood pq s) : MemGood pq (doRunEndComplete n s) := by
  unfold doRunEndComplete
  repeat' first
    | with_reducible assumption
    | intro _
    | with_reducible apply State.calStopHook_mem
    | with_reducible apply State.irq_mem
    | with_reducible apply State.seqRests_mem
    | with_reducible apply State.skipHeld_mem
    | with_reducible apply State.whenDue_mem
    | with_reducible apply forEach_mem

end Sys2Proof.Machine
end

