-- ==== Sys2Proof/Laws/MemAne.lean ====
section
/-! SUPPORT. Every operation of Machine/Ane.lean keeps the canonical form of the byte memories and the queue. -/

namespace Sys2Proof.Machine

open Sys2Proof


theorem doAneItemAdmit_mem {pq : Prop × List Instr} (n : Nat) (s : State) (hs : MemGood pq s) : MemGood pq (doAneItemAdmit n s) := by
  unfold doAneItemAdmit
  repeat' first
    | with_reducible assumption
    | intro _
    | with_reducible apply State.admitRec_mem
    | with_reducible apply State.putMarker_mem
    | with_reducible apply State.setSq_mem
    | with_reducible apply State.whenDue_mem
    | with_reducible apply forEach_mem
    | with_reducible apply good_ite
    | with_reducible apply good_ite_fst
    | fail_if_no_progress beta_reduce
    | fail_if_no_progress extract_lets +onlyGivenNames x
    | split

theorem doAneSpillReturn_mem {pq : Prop × List Instr} (f : Nat) (s : State) (hs : MemGood pq s) : MemGood pq (doAneSpillReturn f s) := by
  unfold doAneSpillReturn
  repeat' first
    | with_reducible assumption
    | intro _
    | with_reducible apply State.dramAsk_mem
    | with_reducible apply State.flogLosses_mem
    | with_reducible apply State.loseItem_mem
    | with_reducible apply State.poolPush_mem
    | with_reducible apply State.schedule_mem
    | with_reducible apply State.setFw_mem
    | with_reducible apply State.whenDue_mem
    | with_reducible apply good_ite
    | with_reducible apply good_ite_fst
    | fail_if_no_progress beta_reduce
    | fail_if_no_progress extract_lets +onlyGivenNames x
    | split

theorem State.putOut_mem {pq : Prop × List Instr} (s : State) (outs : List Nat) (data : List Byte) (hs : MemGood pq s) : MemGood pq (State.putOut s outs data) := by
  unfold State.putOut
  repeat' first
    | with_reducible assumption
    | intro _
    | with_reducible apply State.countAdmit_mem
    | with_reducible apply State.nextOrder_mem
    | with_reducible apply State.poolPush_mem
    | with_reducible apply forEach_mem

theorem State.setRunAt_mem {pq : Prop × List Instr} (s : State) (a : Nat) (t : Nat) (hs : MemGood pq s) : MemGood pq (State.setRunAt s a t) := by
  unfold State.setRunAt
  repeat' first
    | with_reducible assumption
    | intro _
    | with_reducible apply good_ite
    | with_reducible apply good_ite_fst
    | fail_if_no_progress beta_reduce
    | fail_if_no_progress extract_lets +onlyGivenNames x
    | split
    | fail_if_no_progress with_reducible apply good_mk

theorem State.unready_mem {pq : Prop × List Instr} (s : State) (e : Nat) (f : Nat) (hs : MemGood pq s) : MemGood pq (State.unready s e f) := by
  unfold State.unready
  repeat' first
    | with_reducible assumption
    | intro _
    | with_reducible apply State.setEng_mem
    | with_reducible apply State.setFw_mem
    | with_reducible apply State.workNow_mem

theorem State.serve_mem {pq : Prop × List Instr} (s : State) (e : Nat) (f : Nat) (g : Graph) (i : Nat) (n : GNode) (hs : MemGood pq s) : MemGood pq (State.serve s e f g i n) := by
  unfold State.serve
  repeat' first
    | with_reducible assumption
    | intro _
    | with_reducible apply State.nodeRun_mem
    | with_reducible apply State.putOut_mem
    | with_reducible apply State.setEng_mem
    | with_reducible apply State.setFw_mem
    | with_reducible apply State.setRunAt_mem
    | with_reducible apply State.workNow_mem
    | with_reducible apply foldl_mem
    | with_reducible apply foldl_mem_fst
    | with_reducible apply good_ite
    | with_reducible apply good_ite_fst
    | fail_if_no_progress beta_reduce
    | fail_if_no_progress extract_lets +onlyGivenNames x
    | split

theorem State.engineOff_mem {pq : Prop × List Instr} (s : State) (e : Nat) (hs : MemGood pq s) : MemGood pq (State.engineOff s e) := by
  unfold State.engineOff
  repeat' first
    | with_reducible assumption
    | intro _
    | with_reducible apply State.detect_mem
    | with_reducible apply State.irq_mem
    | with_reducible apply State.noteNoEngine_mem
    | with_reducible apply State.placeFlow_mem
    | with_reducible apply State.setEng_mem
    | with_reducible apply State.setFw_mem
    | with_reducible apply foldl_mem
    | with_reducible apply foldl_mem_fst
    | with_reducible apply good_ite
    | with_reducible apply good_ite_fst
    | fail_if_no_progress beta_reduce
    | fail_if_no_progress extract_lets +onlyGivenNames x
    | split

theorem doAneOperation_mem {pq : Prop × List Instr} (e : Nat) (fail : Nat) (s : State) (hs : MemGood pq s) : MemGood pq (doAneOperation e fail s) := by
  unfold doAneOperation
  repeat' first
    | with_reducible assumption
    | intro _
    | with_reducible apply State.detect_mem
    | with_reducible apply State.engineOff_mem
    | with_reducible apply State.schedule_mem
    | with_reducible apply State.serve_mem
    | with_reducible apply State.unready_mem
    | with_reducible apply State.whenDue_mem
    | with_reducible apply good_ite
    | with_reducible apply good_ite_fst
    | fail_if_no_progress beta_reduce
    | fail_if_no_progress extract_lets +onlyGivenNames x
    | split

theorem State.emitRun_mem {pq : Prop × List Instr} (s : State) (g : Graph) (i : Nat) (n : GNode) (hs : MemGood pq s) : MemGood pq (State.emitRun s g i n) := by
  unfold State.emitRun
  repeat' first
    | with_reducible assumption
    | intro _
    | with_reducible apply State.putOut_mem
    | with_reducible apply State.setRunAt_mem
    | with_reducible apply State.sramWr_mem
    | with_reducible apply good_ite
    | with_reducible apply good_ite_fst
    | fail_if_no_progress beta_reduce
    | fail_if_no_progress extract_lets +onlyGivenNames x
    | split

theorem State.emitCopies_mem {pq : Prop × List Instr} (s : State) (g : Graph) (i : Nat) (epoch : Nat) (hs : MemGood pq s) : MemGood pq (State.emitCopies s g i epoch) := by
  unfold State.emitCopies
  repeat' first
    | with_reducible assumption
    | intro _
    | with_reducible apply foldl_mem
    | with_reducible apply foldl_mem_fst
    | with_reducible apply good_ite
    | with_reducible apply good_ite_fst
    | fail_if_no_progress beta_reduce
    | fail_if_no_progress extract_lets +onlyGivenNames x
    | split
    | fail_if_no_progress with_reducible apply good_mk

theorem State.passMarker_mem {pq : Prop × List Instr} (s : State) (g : Graph) (i : Nat) (n : GNode) (epoch : Nat) (hs : MemGood pq s) : MemGood pq (State.passMarker s g i n epoch) := by
  unfold State.passMarker
  repeat' first
    | with_reducible assumption
    | intro _
    | with_reducible apply State.emitCopies_mem
    | with_reducible apply State.emitRun_mem
    | with_reducible apply State.schedule_mem
    | with_reducible apply State.setFw_mem
    | with_reducible apply forEach_mem

theorem doAneMarkerPass_mem {pq : Prop × List Instr} (id : Nat) (i : Nat) (s : State) (hs : MemGood pq s) : MemGood pq (doAneMarkerPass id i s) := by
  unfold doAneMarkerPass
  repeat' first
    | with_reducible assumption
    | intro _
    | with_reducible apply State.passMarker_mem
    | with_reducible apply State.whenDue_mem
    | with_reducible apply good_ite
    | with_reducible apply good_ite_fst
    | fail_if_no_progress beta_reduce
    | fail_if_no_progress extract_lets +onlyGivenNames x
    | split

theorem doAneCompressTimeout_mem {pq : Prop × List Instr} (id : Nat) (i : Nat) (s : State) (hs : MemGood pq s) : MemGood pq (doAneCompressTimeout id i s) := by
  unfold doAneCompressTimeout
  repeat' first
    | with_reducible assumption
    | intro _
    | with_reducible apply State.emitRun_mem
    | with_reducible apply State.schedule_mem
    | with_reducible apply State.whenDue_mem
    | with_reducible apply good_ite
    | with_reducible apply good_ite_fst
    | fail_if_no_progress beta_reduce
    | fail_if_no_progress extract_lets +onlyGivenNames x
    | split

theorem State.aneRefuse_mem {pq : Prop × List Instr} (s : State) (dom : Nat) (hs : MemGood pq s) : MemGood pq (State.aneRefuse s dom) := by
  unfold State.aneRefuse
  repeat' first
    | with_reducible assumption
    | intro _
    | with_reducible apply State.irq_mem
    | with_reducible apply State.noteReg_mem

theorem State.graphCmd_mem {pq : Prop × List Instr} (s : State) (dom : Nat) (id : Nat) (k : Graph → State → State) (hs : MemGood pq s) (hk : ∀ (x0 : Graph) (x1 : State), MemGood pq x1 → MemGood pq (k x0 x1)) : MemGood pq (State.graphCmd s dom id k) := by
  unfold State.graphCmd
  repeat' first
    | with_reducible assumption
    | intro _
    | with_reducible apply State.aneRefuse_mem
    | with_reducible apply State.hostWrite_mem
    | with_reducible apply hk
    | with_reducible apply good_ite
    | with_reducible apply good_ite_fst
    | fail_if_no_progress beta_reduce
    | fail_if_no_progress extract_lets +onlyGivenNames x
    | split

theorem doClrGraph_mem {pq : Prop × List Instr} (dom : Nat) (id : Nat) (s : State) (hs : MemGood pq s) : MemGood pq (doClrGraph dom id s) := by
  unfold doClrGraph
  repeat' first
    | with_reducible assumption
    | intro _
    | with_reducible apply State.clearNodes_mem
    | with_reducible apply State.graphCmd_mem
    | with_reducible apply State.setRunAt_mem
    | with_reducible apply forEach_mem

theorem doClrmap_mem {pq : Prop × List Instr} (dom : Nat) (id : Nat) (s : State) (hs : MemGood pq s) : MemGood pq (doClrmap dom id s) := by
  unfold doClrmap
  repeat' first
    | with_reducible assumption
    | intro _
    | with_reducible apply State.aneRefuse_mem
    | with_reducible apply State.graphCmd_mem
    | with_reducible apply State.wrF_mem
    | with_reducible apply good_ite
    | with_reducible apply good_ite_fst
    | fail_if_no_progress beta_reduce
    | fail_if_no_progress extract_lets +onlyGivenNames x
    | split
    | fail_if_no_progress with_reducible apply good_mk

theorem State.dramZero_mem {pq : Prop × List Instr} (s : State) (a : Nat) (n : Nat) (hs : MemGood pq s) : MemGood pq (State.dramZero s a n) :=
  ⟨fun w => ⟨kwf_filter (hs.1 w).1 _, (hs.1 w).2⟩, hs.2⟩

theorem State.clearPlanes_mem {pq : Prop × List Instr} (s : State) (n : GNode) (hs : MemGood pq s) : MemGood pq (State.clearPlanes s n) := by
  unfold State.clearPlanes
  repeat' first
    | with_reducible assumption
    | intro _
    | with_reducible apply State.dramZero_mem
    | with_reducible apply State.keepLine_mem
    | with_reducible apply forEach_mem
    | with_reducible apply good_ite

theorem doAneClrmapDone_mem {pq : Prop × List Instr} (s : State) (hs : MemGood pq s) : MemGood pq (doAneClrmapDone s) := by
  unfold doAneClrmapDone
  repeat' first
    | with_reducible assumption
    | intro _
    | with_reducible apply State.clearPlanes_mem
    | with_reducible apply State.irq_mem
    | with_reducible apply State.schedule_mem
    | with_reducible apply State.whenDue_mem
    | with_reducible apply State.wrF_mem
    | with_reducible apply foldl_mem
    | with_reducible apply foldl_mem_fst
    | with_reducible apply good_ite
    | with_reducible apply good_ite_fst
    | fail_if_no_progress beta_reduce
    | fail_if_no_progress extract_lets +onlyGivenNames x
    | split
    | fail_if_no_progress with_reducible apply good_mk

theorem doAnePeakClr_mem {pq : Prop × List Instr} (dom : Nat) (s : State) (hs : MemGood pq s) : MemGood pq (doAnePeakClr dom s) := by
  unfold doAnePeakClr
  repeat' first
    | with_reducible assumption
    | intro _
    | with_reducible apply State.hostWrite_mem
    | with_reducible apply State.setEng_mem
    | with_reducible apply State.setFw_mem
    | with_reducible apply State.wrF_mem
    | with_reducible apply forEach_mem

theorem doAneCmdInvalid_mem {pq : Prop × List Instr} (dom : Nat) (v : Word) (s : State) (hs : MemGood pq s) : MemGood pq (doAneCmdInvalid dom v s) := by
  unfold doAneCmdInvalid
  repeat' first
    | with_reducible assumption
    | intro _
    | with_reducible apply State.hostWrite_mem
    | with_reducible apply State.noteReg_mem
    | with_reducible apply good_ite

theorem State.setDomSel_mem {pq : Prop × List Instr} (s : State) (dom : Nat) (a : Nat) (v : Word) (hs : MemGood pq s) : MemGood pq (State.setDomSel s dom a v) := by
  unfold State.setDomSel
  repeat' first
    | with_reducible assumption
    | intro _
    | with_reducible apply good_ite
    | with_reducible apply good_ite_fst
    | fail_if_no_progress beta_reduce
    | fail_if_no_progress extract_lets +onlyGivenNames x
    | split
    | fail_if_no_progress with_reducible apply good_mk

theorem State.latchWords_mem {pq : Prop × List Instr} (s : State) (dom : Nat) (z0 : Nat) (z1 : List Word) (hs : MemGood pq s) : MemGood pq (State.latchWords s dom z0 z1) := by
  revert hs
  fun_induction State.latchWords s dom z0 z1
  all_goals repeat' first
    | with_reducible assumption
    | intro _
    | with_reducible apply good_ite
    | with_reducible apply good_ite_fst
    | fail_if_no_progress beta_reduce
    | fail_if_no_progress extract_lets +onlyGivenNames x
    | split
    | fail_if_no_progress with_reducible apply good_mk
    | refine fst_mem (by assumption) ?_
    | apply_assumption

theorem doAneFStatRead_mem {pq : Prop × List Instr} (dom : Nat) (s : State) (hs : MemGood pq s) : MemGood pq (doAneFStatRead dom s) := by
  unfold doAneFStatRead
  repeat' first
    | with_reducible assumption
    | intro _
    | with_reducible apply State.deny_mem
    | with_reducible apply State.hostRead_mem
    | with_reducible apply State.latchWords_mem
    | with_reducible apply good_ite
    | with_reducible apply good_ite_fst

end Sys2Proof.Machine
end

