-- ==== Sys2Proof/Laws/MemMsix.lean ====
section
/-! SUPPORT. Every operation of Machine/Msix.lean keeps the canonical form of the byte memories and the queue. -/

namespace Sys2Proof.Machine

open Sys2Proof


theorem State.setVecOn_mem {pq : Prop × List Instr} (s : State) (k : Nat) (b : Bool) (hs : MemGood pq s) : MemGood pq (State.setVecOn s k b) := by
  unfold State.setVecOn
  repeat' first
    | with_reducible assumption
    | intro _
    | with_reducible apply good_ite
    | with_reducible apply good_ite_fst
    | fail_if_no_progress beta_reduce
    | fail_if_no_progress extract_lets +onlyGivenNames x
    | split
    | fail_if_no_progress with_reducible apply good_mk

theorem State.vecAgain_mem {pq : Prop × List Instr} (s : State) (a : Nat) (hs : MemGood pq s) : MemGood pq (State.vecAgain s a) := by
  unfold State.vecAgain
  repeat' first
    | with_reducible assumption
    | intro _
    | with_reducible apply good_ite
    | with_reducible apply good_ite_fst
    | fail_if_no_progress beta_reduce
    | fail_if_no_progress extract_lets +onlyGivenNames x
    | split
    | fail_if_no_progress with_reducible apply good_mk

theorem State.vecFall_mem {pq : Prop × List Instr} (s : State) (hs : MemGood pq s) : MemGood pq (State.vecFall s) := by
  unfold State.vecFall
  repeat' first
    | with_reducible assumption
    | intro _
    | with_reducible apply good_ite
    | with_reducible apply good_ite_fst
    | fail_if_no_progress beta_reduce
    | fail_if_no_progress extract_lets +onlyGivenNames x
    | split
    | fail_if_no_progress with_reducible apply good_mk

end Sys2Proof.Machine
end

