-- ==== Sys2Proof/Laws/MemWft.lean ====
section
/-! SUPPORT. Every operation of Machine/Wft.lean keeps the canonical form of the byte memories and the queue. -/

namespace Sys2Proof.Machine

open Sys2Proof


theorem State.wftRefuse_mem {pq : Prop × List Instr} (s : State) (req : Nat) (a : Nat) (err : Nat) (hs : MemGood pq s) : MemGood pq (State.wftRefuse s req a err) := by
  unfold State.wftRefuse
  repeat' first
    | with_reducible assumption
    | intro _
    | with_reducible apply State.detect_mem
    | with_reducible apply State.irq_mem
    | with_reducible apply State.wrN_mem

theorem State.setWftBuf_mem {pq : Prop × List Instr} (s : State) (req : Nat) (b : Option EntryBuf) (hs : MemGood pq s) : MemGood pq (State.setWftBuf s req b) := by
  unfold State.setWftBuf
  repeat' first
    | with_reducible assumption
    | intro _
    | with_reducible apply good_ite
    | with_reducible apply good_ite_fst
    | fail_if_no_progress beta_reduce
    | fail_if_no_progress extract_lets +onlyGivenNames x
    | split
    | fail_if_no_progress with_reducible apply good_mk

theorem State.wftAbandon_mem {pq : Prop × List Instr} (s : State) (req : Nat) (a : Nat) (hs : MemGood pq s) : MemGood pq (State.wftAbandon s req a) := by
  unfold State.wftAbandon
  repeat' first
    | with_reducible assumption
    | intro _
    | with_reducible apply State.setWftBuf_mem
    | with_reducible apply State.wftRefuse_mem
    | with_reducible apply good_ite
    | with_reducible apply good_ite_fst
    | fail_if_no_progress beta_reduce
    | fail_if_no_progress extract_lets +onlyGivenNames x
    | split

theorem State.wftHold_mem {pq : Prop × List Instr} (s : State) (req : Nat) (a : Nat) (w : Nat) (v : Word) (hs : MemGood pq s) : MemGood pq (State.wftHold s req a w v) := by
  unfold State.wftHold
  repeat' first
    | with_reducible assumption
    | intro _
    | with_reducible apply State.setWftBuf_mem
    | with_reducible apply State.wftAbandon_mem

theorem State.wftStore_mem {pq : Prop × List Instr} (s : State) (a : Nat) (bs : List Byte) (hs : MemGood pq s) : MemGood pq (State.wftStore s a bs) := by
  unfold State.wftStore
  repeat' first
    | with_reducible assumption
    | intro _
    | with_reducible apply State.sramWr_mem
    | with_reducible apply good_ite
    | with_reducible apply good_ite_fst
    | fail_if_no_progress beta_reduce
    | fail_if_no_progress extract_lets +onlyGivenNames x
    | split
    | fail_if_no_progress with_reducible apply good_mk

theorem State.wftCommit_mem {pq : Prop × List Instr} (s : State) (req : Nat) (a : Nat) (v : Word) (hs : MemGood pq s) : MemGood pq (State.wftCommit s req a v) := by
  unfold State.wftCommit
  repeat' first
    | with_reducible assumption
    | intro _
    | with_reducible apply State.setWftBuf_mem
    | with_reducible apply State.wftAbandon_mem
    | with_reducible apply State.wftRefuse_mem
    | with_reducible apply State.wftStore_mem
    | with_reducible apply good_ite
    | with_reducible apply good_ite_fst
    | fail_if_no_progress beta_reduce
    | fail_if_no_progress extract_lets +onlyGivenNames x
    | split

theorem State.wftWrite_mem {pq : Prop × List Instr} (s : State) (req : Nat) (o : Nat) (v : Word) (hs : MemGood pq s) : MemGood pq (State.wftWrite s req o v) := by
  unfold State.wftWrite
  repeat' first
    | with_reducible assumption
    | intro _
    | with_reducible apply State.wftCommit_mem
    | with_reducible apply State.wftHold_mem
    | with_reducible apply good_ite

theorem State.bar4Write_mem {pq : Prop × List Instr} (s : State) (dom : Nat) (o : Nat) (may : Bool) (unit : Option (Nat × Nat)) (blk : Nat) (k : State → State) (hs : MemGood pq s) (hk : ∀ (x0 : State), MemGood pq x0 → MemGood pq (k x0)) : MemGood pq (State.bar4Write s dom o may unit blk k) := by
  unfold State.bar4Write
  repeat' first
    | with_reducible assumption
    | intro _
    | with_reducible apply State.deny_mem
    | with_reducible apply State.dormantAt_mem
    | refine State.awake_mem (by assumption) ?_
    | with_reducible apply hk
    | with_reducible apply good_ite
    | with_reducible apply good_ite_fst
    | fail_if_no_progress beta_reduce
    | fail_if_no_progress extract_lets +onlyGivenNames x
    | split

theorem State.wftHost_mem {pq : Prop × List Instr} (s : State) (dom : Nat) (c : Nat) (o : Nat) (k : State → State) (hs : MemGood pq s) (hk : ∀ (x0 : State), MemGood pq x0 → MemGood pq (k x0)) : MemGood pq (State.wftHost s dom c o k) := by
  unfold State.wftHost
  repeat' first
    | with_reducible assumption
    | intro _
    | with_reducible apply State.bar4Write_mem

theorem doWftWordWrite_mem {pq : Prop × List Instr} (dom : Nat) (c : Nat) (t : Nat) (k : Nat) (w : Nat) (v : Word) (s : State) (hs : MemGood pq s) : MemGood pq (doWftWordWrite dom c t k w v s) := by
  unfold doWftWordWrite
  repeat' first
    | with_reducible assumption
    | intro _
    | with_reducible apply State.wftHold_mem
    | with_reducible apply State.wftHost_mem

theorem doWftCommit_mem {pq : Prop × List Instr} (dom : Nat) (c : Nat) (t : Nat) (k : Nat) (v : Word) (s : State) (hs : MemGood pq s) : MemGood pq (doWftCommit dom c t k v s) := by
  unfold doWftCommit
  repeat' first
    | with_reducible assumption
    | intro _
    | with_reducible apply State.wftCommit_mem
    | with_reducible apply State.wftHost_mem

theorem doWftEntryTakesEffect_mem {pq : Prop × List Instr} (c : Nat) (t : Nat) (k : Nat) (s : State) (hs : MemGood pq s) : MemGood pq (doWftEntryTakesEffect c t k s) := by
  unfold doWftEntryTakesEffect
  repeat' first
    | with_reducible assumption
    | intro _
    | with_reducible apply State.whenDue_mem
    | with_reducible apply good_ite
    | with_reducible apply good_ite_fst
    | fail_if_no_progress beta_reduce
    | fail_if_no_progress extract_lets +onlyGivenNames x
    | split
    | fail_if_no_progress with_reducible apply good_mk

end Sys2Proof.Machine
end

