-- ==== Sys2Proof/Laws/MemBar.lean ====
section
/-! SUPPORT. Every operation of Machine/Bar.lean keeps the canonical form of the byte memories and the queue. -/

namespace Sys2Proof.Machine

open Sys2Proof


theorem State.dramPutRuns_mem {pq : Prop × List Instr} (s : State) (q : DramReq) (dom : Nat) (runs : List (Nat × List Byte)) (hs : MemGood pq s) : MemGood pq (State.dramPutRuns s q dom runs) := by
  unfold State.dramPutRuns
  repeat' first
    | with_reducible assumption
    | intro _
    | with_reducible apply State.dramPut_mem
    | with_reducible apply foldl_mem

theorem State.dramAnswer_mem {pq : Prop × List Instr} (s : State) (q : DramReq) (dom : Nat) (a : Nat) (n : Nat) (hs : MemGood pq s) : MemGood pq (State.dramAnswer s q dom a n) := by
  unfold State.dramAnswer
  repeat' first
    | with_reducible assumption
    | intro _
    | with_reducible apply State.answer_mem
    | with_reducible apply State.dramAsk_mem
    | with_reducible apply State.dramGive_mem
    | with_reducible apply good_ite
    | with_reducible apply good_ite_fst
    | fail_if_no_progress beta_reduce
    | fail_if_no_progress extract_lets +onlyGivenNames x
    | split
    | fail_if_no_progress with_reducible apply good_mk

theorem State.bar2Read_mem {pq : Prop × List Instr} (s : State) (dom : Nat) (o : Nat) (n : Nat) (hs : MemGood pq s) : MemGood pq (State.bar2Read s dom o n) := by
  unfold State.bar2Read
  repeat' first
    | with_reducible assumption
    | intro _
    | with_reducible apply State.answer_mem
    | with_reducible apply State.deny_mem
    | with_reducible apply State.dormantAt_mem
    | with_reducible apply State.dramAnswer_mem
    | with_reducible apply State.dramWaits_mem
    | with_reducible apply good_ite

theorem State.bar2Write_mem {pq : Prop × List Instr} (s : State) (dom : Nat) (o : Nat) (bs : List (Option Byte)) (hs : MemGood pq s) : MemGood pq (State.bar2Write s dom o bs) := by
  unfold State.bar2Write
  repeat' first
    | with_reducible assumption
    | intro _
    | with_reducible apply State.deny_mem
    | with_reducible apply State.dormantAt_mem
    | with_reducible apply State.dramPutRuns_mem
    | with_reducible apply State.keepOld_mem
    | with_reducible apply good_ite

theorem doBar2Access_mem {pq : Prop × List Instr} (dom : Nat) (o : Nat) (acc : MemAcc) (poison : Bool) (s : State) (hs : MemGood pq s) : MemGood pq (doBar2Access dom o acc poison s) := by
  unfold doBar2Access
  repeat' first
    | with_reducible assumption
    | intro _
    | with_reducible apply State.bar2Read_mem
    | with_reducible apply State.bar2Write_mem
    | with_reducible apply State.poisoned_mem
    | with_reducible apply good_ite
    | with_reducible apply good_ite_fst
    | fail_if_no_progress beta_reduce
    | fail_if_no_progress extract_lets +onlyGivenNames x
    | split

theorem State.r4Note_mem {pq : Prop × List Instr} (s : State) (dom : Nat) (src : Nat) (a : Nat) (wr : Bool) (hs : MemGood pq s) : MemGood pq (State.r4Note s dom src a wr) := by
  unfold State.r4Note
  repeat' first
    | with_reducible assumption
    | intro _
    | with_reducible apply State.detect_mem

theorem State.bar4Put_mem {pq : Prop × List Instr} (s : State) (dom : Nat) (o : Nat) (v : Word) (hs : MemGood pq s) : MemGood pq (State.bar4Put s dom o v) := by
  unfold State.bar4Put
  repeat' first
    | with_reducible assumption
    | intro _
    | with_reducible apply State.bar4Write_mem
    | with_reducible apply State.r4Note_mem
    | with_reducible apply State.sramWr_mem
    | with_reducible apply State.wftWrite_mem
    | with_reducible apply good_ite

theorem State.bar4Word_mem {pq : Prop × List Instr} (s : State) (o : Nat) (hs : MemGood pq s) : MemGood pq (State.bar4Word s o).1 := by
  unfold State.bar4Word
  repeat' first
    | with_reducible assumption
    | intro _
    | with_reducible apply State.drawn_mem
    | with_reducible apply good_ite
    | with_reducible apply good_ite_fst

theorem State.bar4Get_mem {pq : Prop × List Instr} (s : State) (dom : Nat) (o : Nat) (hs : MemGood pq s) : MemGood pq (State.bar4Get s dom o) := by
  unfold State.bar4Get
  repeat' first
    | with_reducible assumption
    | intro _
    | with_reducible apply State.answer_mem
    | with_reducible apply State.bar4Word_mem
    | with_reducible apply State.deny_mem
    | with_reducible apply State.dormantAt_mem
    | with_reducible apply State.r4Note_mem
    | refine State.awake_mem (by assumption) ?_
    | with_reducible apply good_ite
    | with_reducible apply good_ite_fst
    | fail_if_no_progress beta_reduce
    | fail_if_no_progress extract_lets +onlyGivenNames x
    | split

theorem doBar4Access_mem {pq : Prop × List Instr} (dom : Nat) (o : Nat) (wr : Option Word) (poison : Bool) (s : State) (hs : MemGood pq s) : MemGood pq (doBar4Access dom o wr poison s) := by
  unfold doBar4Access
  repeat' first
    | with_reducible assumption
    | intro _
    | with_reducible apply State.bar4Get_mem
    | with_reducible apply State.bar4Put_mem
    | with_reducible apply State.poisoned_mem
    | with_reducible apply State.wr_mem
    | with_reducible apply good_ite
    | with_reducible apply good_ite_fst
    | fail_if_no_progress beta_reduce
    | fail_if_no_progress extract_lets +onlyGivenNames x
    | split

theorem State.putPt_mem {pq : Prop × List Instr} (s : State) (i : Nat) (e : PtEntry) (hs : MemGood pq s) : MemGood pq (State.putPt s i e) := by
  unfold State.putPt
  repeat' first
    | with_reducible assumption
    | intro _
    | with_reducible apply State.wrN_mem

theorem State.setPt_mem {pq : Prop × List Instr} (s : State) (i : Nat) (e : PtEntry) (hs : MemGood pq s) : MemGood pq (State.setPt s i e) := by
  unfold State.setPt
  repeat' first
    | with_reducible assumption
    | intro _
    | with_reducible apply State.putPt_mem
    | with_reducible apply State.setVecOn_mem
    | with_reducible apply State.vecFall_mem
    | with_reducible apply good_ite

theorem State.ptRefuse_mem {pq : Prop × List Instr} (s : State) (i : Nat) (code : Nat) (hs : MemGood pq s) : MemGood pq (State.ptRefuse s i code) := by
  unfold State.ptRefuse
  repeat' first
    | with_reducible assumption
    | intro _
    | with_reducible apply State.detect_mem
    | with_reducible apply State.irq_mem
    | with_reducible apply State.wrN_mem

theorem State.ptAbandon_mem {pq : Prop × List Instr} (s : State) (i : Nat) (hs : MemGood pq s) : MemGood pq (State.ptAbandon s i) := by
  unfold State.ptAbandon
  repeat' first
    | with_reducible assumption
    | intro _
    | with_reducible apply State.ptRefuse_mem
    | with_reducible apply good_ite
    | with_reducible apply good_ite_fst
    | fail_if_no_progress beta_reduce
    | fail_if_no_progress extract_lets +onlyGivenNames x
    | split
    | fail_if_no_progress with_reducible apply good_mk

theorem State.ptHold_mem {pq : Prop × List Instr} (s : State) (i : Nat) (w : Nat) (v : Word) (hs : MemGood pq s) : MemGood pq (State.ptHold s i w v) := by
  unfold State.ptHold
  repeat' first
    | with_reducible assumption
    | intro _
    | with_reducible apply State.ptAbandon_mem
    | with_reducible apply good_ite
    | with_reducible apply good_ite_fst
    | fail_if_no_progress beta_reduce
    | fail_if_no_progress extract_lets +onlyGivenNames x
    | split
    | fail_if_no_progress with_reducible apply good_mk

theorem State.ptCommit_mem {pq : Prop × List Instr} (s : State) (i : Nat) (v : Word) (hs : MemGood pq s) : MemGood pq (State.ptCommit s i v) := by
  unfold State.ptCommit
  repeat' first
    | with_reducible assumption
    | intro _
    | with_reducible apply State.ptAbandon_mem
    | with_reducible apply State.ptRefuse_mem
    | with_reducible apply State.setPt_mem
    | with_reducible apply good_ite
    | with_reducible apply good_ite_fst
    | fail_if_no_progress beta_reduce
    | fail_if_no_progress extract_lets +onlyGivenNames x
    | split
    | fail_if_no_progress with_reducible apply good_mk

theorem doHifPtWordWrite_mem {pq : Prop × List Instr} (dom : Nat) (i : Nat) (w : Nat) (v : Word) (s : State) (hs : MemGood pq s) : MemGood pq (doHifPtWordWrite dom i w v s) := by
  unfold doHifPtWordWrite
  repeat' first
    | with_reducible assumption
    | intro _
    | with_reducible apply State.hostWrite_mem
    | with_reducible apply State.ptHold_mem

theorem doHifPtCommit_mem {pq : Prop × List Instr} (dom : Nat) (i : Nat) (v : Word) (s : State) (hs : MemGood pq s) : MemGood pq (doHifPtCommit dom i v s) := by
  unfold doHifPtCommit
  repeat' first
    | with_reducible assumption
    | intro _
    | with_reducible apply State.hostWrite_mem
    | with_reducible apply State.ptCommit_mem

end Sys2Proof.Machine
end

