-- ==== Sys2Proof/Laws/MemCal.lean ====
section
/-! SUPPORT. Every operation of Machine/Cal.lean keeps the canonical form of the byte memories and the queue. -/

namespace Sys2Proof.Machine

open Sys2Proof


theorem State.setCheck_mem {pq : Prop × List Instr} (s : State) (hs : MemGood pq s) : MemGood pq (State.setCheck s).1 := by
  unfold State.setCheck
  repeat' first
    | with_reducible assumption
    | intro _
    | with_reducible apply State.detect_mem
    | with_reducible apply State.injTake_mem
    | with_reducible apply good_ite

theorem State.calReject_mem {pq : Prop × List Instr} (s : State) (target : Nat) (kind : Nat) (reason : Nat) (body : List Byte) (hs : MemGood pq s) : MemGood pq (State.calReject s target kind reason body) := by
  unfold State.calReject
  repeat' first
    | with_reducible assumption
    | intro _
    | with_reducible apply State.count_mem
    | with_reducible apply State.irq_mem
    | with_reducible apply State.wrN_mem
    | with_reducible apply good_ite
    | with_reducible apply good_ite_fst
    | fail_if_no_progress beta_reduce
    | fail_if_no_progress extract_lets +onlyGivenNames x
    | split
    | fail_if_no_progress with_reducible apply good_mk

theorem State.storeErr_mem {pq : Prop × List Instr} (s : State) (code : Nat) (hs : MemGood pq s) : MemGood pq (State.storeErr s code) := by
  unfold State.storeErr
  repeat' first
    | with_reducible assumption
    | intro _
    | with_reducible apply State.irq_mem
    | with_reducible apply State.wrN_mem

theorem State.setStore_mem {pq : Prop × List Instr} (s : State) (b : Nat) (seqno : Nat) (reason : Nat) (body : List Byte) (hs : MemGood pq s) : MemGood pq (State.setStore s b seqno reason body) := by
  unfold State.setStore
  repeat' first
    | with_reducible assumption
    | intro _
    | with_reducible apply State.norPush_mem
    | with_reducible apply State.wrF_mem
    | with_reducible apply good_ite
    | with_reducible apply good_ite_fst
    | fail_if_no_progress beta_reduce
    | fail_if_no_progress extract_lets +onlyGivenNames x
    | split
    | fail_if_no_progress with_reducible apply good_mk

theorem State.calStore_mem {pq : Prop × List Instr} (s : State) (bar : Nat) (hs : MemGood pq s) : MemGood pq (State.calStore s bar) := by
  unfold State.calStore
  repeat' first
    | with_reducible assumption
    | intro _
    | with_reducible apply State.calReject_mem
    | with_reducible apply State.norPfw_mem
    | with_reducible apply State.setCheck_mem
    | with_reducible apply State.setStore_mem
    | with_reducible apply State.storeErr_mem
    | with_reducible apply good_ite
    | with_reducible apply good_ite_fst
    | fail_if_no_progress beta_reduce
    | (extract_lets +onlyGivenNames x; have hx : MemGood pq x; on_goal 1 => subst x; on_goal 2 => clear_value x)
    | (extract_lets +onlyGivenNames x; have hx : MemGood pq x.1; on_goal 1 => subst x; on_goal 2 => clear_value x)
    | fail_if_no_progress extract_lets +onlyGivenNames x
    | split
    | fail_if_no_progress with_reducible apply good_mk
    | refine fst_mem (by assumption) ?_

theorem doCalStore_mem {pq : Prop × List Instr} (dom : Nat) (s : State) (hs : MemGood pq s) : MemGood pq (doCalStore dom s) := by
  unfold doCalStore
  repeat' first
    | with_reducible assumption
    | intro _
    | with_reducible apply State.calStore_mem
    | with_reducible apply State.hostWrite_mem
    | with_reducible apply State.noteReg_mem
    | with_reducible apply good_ite

theorem doSaveRej_mem {pq : Prop × List Instr} (dom : Nat) (s : State) (hs : MemGood pq s) : MemGood pq (doSaveRej dom s) := by
  unfold doSaveRej
  repeat' first
    | with_reducible assumption
    | intro _
    | with_reducible apply State.hostWrite_mem
    | with_reducible apply State.norPfw_mem
    | with_reducible apply State.noteReg_mem
    | with_reducible apply State.setCheck_mem
    | with_reducible apply State.setStore_mem
    | with_reducible apply State.storeErr_mem
    | with_reducible apply good_ite
    | with_reducible apply good_ite_fst
    | fail_if_no_progress beta_reduce
    | (extract_lets +onlyGivenNames x; have hx : MemGood pq x; on_goal 1 => subst x; on_goal 2 => clear_value x)
    | (extract_lets +onlyGivenNames x; have hx : MemGood pq x.1; on_goal 1 => subst x; on_goal 2 => clear_value x)
    | fail_if_no_progress extract_lets +onlyGivenNames x
    | split
    | fail_if_no_progress with_reducible apply good_mk
    | refine fst_mem (by assumption) ?_

theorem doCalStoreDone_mem {pq : Prop × List Instr} (s : State) (hs : MemGood pq s) : MemGood pq (doCalStoreDone s) := by
  unfold doCalStoreDone
  repeat' first
    | with_reducible assumption
    | intro _
    | with_reducible apply State.irq_mem
    | with_reducible apply State.storeErr_mem
    | with_reducible apply State.whenDue_mem
    | with_reducible apply State.wrF_mem
    | with_reducible apply State.wrN_mem
    | with_reducible apply good_ite
    | with_reducible apply good_ite_fst
    | fail_if_no_progress beta_reduce
    | fail_if_no_progress extract_lets +onlyGivenNames x
    | split
    | fail_if_no_progress with_reducible apply good_mk

theorem State.rotationEnd_mem {pq : Prop × List Instr} (s : State) (hs : MemGood pq s) : MemGood pq (State.rotationEnd s) := by
  unfold State.rotationEnd
  repeat' first
    | with_reducible assumption
    | intro _
    | with_reducible apply State.calStore_mem
    | with_reducible apply State.countF_mem
    | with_reducible apply State.irq_mem
    | with_reducible apply State.wrF_mem
    | with_reducible apply good_ite
    | with_reducible apply good_ite_fst
    | fail_if_no_progress beta_reduce
    | fail_if_no_progress extract_lets +onlyGivenNames x
    | split
    | fail_if_no_progress with_reducible apply good_mk

theorem State.rotateCheck_mem {pq : Prop × List Instr} (s : State) (hs : MemGood pq s) : MemGood pq (State.rotateCheck s) := by
  unfold State.rotateCheck
  repeat' first
    | with_reducible assumption
    | intro _
    | with_reducible apply State.rotationEnd_mem
    | with_reducible apply good_ite

theorem State.slotSkip_mem {pq : Prop × List Instr} (s : State) (x : Nat) (hs : MemGood pq s) : MemGood pq (State.slotSkip s x) := by
  unfold State.slotSkip
  repeat' first
    | with_reducible assumption
    | intro _
    | with_reducible apply State.rotateCheck_mem
    | with_reducible apply State.wrF_mem
    | with_reducible apply good_ite
    | with_reducible apply good_ite_fst
    | fail_if_no_progress beta_reduce
    | fail_if_no_progress extract_lets +onlyGivenNames x
    | split
    | fail_if_no_progress with_reducible apply good_mk

theorem State.slotBegin_mem {pq : Prop × List Instr} (s : State) (x : Nat) (hs : MemGood pq s) : MemGood pq (State.slotBegin s x) := by
  unfold State.slotBegin
  repeat' first
    | with_reducible assumption
    | intro _
    | with_reducible apply State.calPhase_mem
    | with_reducible apply State.setSlot_mem
    | with_reducible apply State.wakeNow_mem
    | with_reducible apply State.wrF_mem
    | with_reducible apply good_ite

theorem doCalSlotStart_mem {pq : Prop × List Instr} (s : State) (hs : MemGood pq s) : MemGood pq (doCalSlotStart s) := by
  unfold doCalSlotStart
  repeat' first
    | with_reducible assumption
    | intro _
    | with_reducible apply State.slotBegin_mem
    | with_reducible apply State.slotSkip_mem
    | with_reducible apply State.whenDue_mem
    | with_reducible apply good_ite

theorem State.slotReject_mem {pq : Prop × List Instr} (s : State) (x : CalSlot) (reason : Nat) (p : Nat) (r : List Byte) (hs : MemGood pq s) : MemGood pq (State.slotReject s x reason p r) := by
  unfold State.slotReject
  repeat' first
    | with_reducible assumption
    | intro _
    | with_reducible apply State.calPhase_mem
    | with_reducible apply State.calReject_mem
    | with_reducible apply State.setSlot_mem

theorem State.calSeal_mem {pq : Prop × List Instr} (s : State) (hs : MemGood pq s) : MemGood pq (State.calSeal s) := by
  unfold State.calSeal
  repeat' first
    | with_reducible assumption
    | intro _
    | with_reducible apply good_ite
    | with_reducible apply good_ite_fst
    | fail_if_no_progress beta_reduce
    | fail_if_no_progress extract_lets +onlyGivenNames x
    | split
    | fail_if_no_progress with_reducible apply good_mk

theorem State.slotAccept_mem {pq : Prop × List Instr} (s : State) (target : Nat) (r : List Byte) (hs : MemGood pq s) : MemGood pq (State.slotAccept s target r) := by
  unfold State.slotAccept
  repeat' first
    | with_reducible assumption
    | intro _
    | with_reducible apply State.calAgeNew_mem
    | with_reducible apply State.calSeal_mem
    | with_reducible apply State.sramWr_mem
    | with_reducible apply good_ite

theorem State.digAccept_mem {pq : Prop × List Instr} (s : State) (x : CalSlot) (r : List Byte) (hs : MemGood pq s) : MemGood pq (State.digAccept s x r) := by
  unfold State.digAccept
  repeat' first
    | with_reducible assumption
    | intro _
    | with_reducible apply State.calSeal_mem
    | with_reducible apply State.sramWr_mem
    | with_reducible apply good_ite
    | with_reducible apply good_ite_fst
    | fail_if_no_progress beta_reduce
    | fail_if_no_progress extract_lets +onlyGivenNames x
    | split
    | fail_if_no_progress with_reducible apply good_mk

theorem State.slotCompute_mem {pq : Prop × List Instr} (s : State) (x : CalSlot) (bs : List Byte) (hs : MemGood pq s) : MemGood pq (State.slotCompute s x bs) := by
  unfold State.slotCompute
  repeat' first
    | with_reducible assumption
    | intro _
    | with_reducible apply State.calPhase_mem
    | with_reducible apply State.digAccept_mem
    | with_reducible apply State.dskLoad_mem
    | with_reducible apply State.setSlot_mem
    | with_reducible apply State.slotReject_mem
    | with_reducible apply good_ite
    | with_reducible apply good_ite_fst
    | fail_if_no_progress beta_reduce
    | fail_if_no_progress extract_lets +onlyGivenNames x
    | split

theorem doCalPhaseEnd_mem {pq : Prop × List Instr} (o : CalObs) (s : State) (hs : MemGood pq s) : MemGood pq (doCalPhaseEnd o s) := by
  unfold doCalPhaseEnd
  repeat' first
    | with_reducible assumption
    | intro _
    | with_reducible apply State.calPhase_mem
    | with_reducible apply State.calSeal_mem
    | with_reducible apply State.setSlot_mem
    | with_reducible apply State.slotCompute_mem
    | with_reducible apply State.slotReject_mem
    | with_reducible apply State.sramWr_mem
    | with_reducible apply State.whenDue_mem
    | with_reducible apply good_ite
    | with_reducible apply good_ite_fst
    | fail_if_no_progress beta_reduce
    | fail_if_no_progress extract_lets +onlyGivenNames x
    | split

theorem doCalSwitchPoint_mem {pq : Prop × List Instr} (s : State) (hs : MemGood pq s) : MemGood pq (doCalSwitchPoint s) := by
  unfold doCalSwitchPoint
  repeat' first
    | with_reducible assumption
    | intro _
    | with_reducible apply State.calPhase_mem
    | with_reducible apply State.setSlot_mem
    | with_reducible apply State.spareOut_mem
    | with_reducible apply State.whenDue_mem
    | with_reducible apply State.wrF_mem
    | with_reducible apply good_ite
    | with_reducible apply good_ite_fst
    | fail_if_no_progress beta_reduce
    | fail_if_no_progress extract_lets +onlyGivenNames x
    | split
    | fail_if_no_progress with_reducible apply good_mk

theorem State.slotFailed_mem {pq : Prop × List Instr} (s : State) (target : Nat) (result : Nat) (hs : MemGood pq s) : MemGood pq (State.slotFailed s target result) := by
  unfold State.slotFailed
  repeat' first
    | with_reducible assumption
    | intro _
    | with_reducible apply State.detect_mem
    | with_reducible apply good_ite
    | with_reducible apply good_ite_fst
    | fail_if_no_progress beta_reduce
    | (extract_lets +onlyGivenNames x; have hx : MemGood pq x; on_goal 1 => subst x; on_goal 2 => clear_value x)
    | (extract_lets +onlyGivenNames x; have hx : MemGood pq x.1; on_goal 1 => subst x; on_goal 2 => clear_value x)
    | fail_if_no_progress extract_lets +onlyGivenNames x
    | split
    | fail_if_no_progress with_reducible apply good_mk
    | refine fst_mem (by assumption) ?_

theorem State.shadowTrack_mem {pq : Prop × List Instr} (s : State) (x : CalSlot) (result : Nat) (hs : MemGood pq s) : MemGood pq (State.shadowTrack s x result) := by
  unfold State.shadowTrack
  repeat' first
    | with_reducible assumption
    | intro _
    | with_reducible apply State.irq_mem
    | with_reducible apply State.note_mem
    | with_reducible apply State.wrF_mem
    | with_reducible apply good_ite
    | with_reducible apply good_ite_fst
    | fail_if_no_progress beta_reduce
    | fail_if_no_progress extract_lets +onlyGivenNames x
    | split
    | fail_if_no_progress with_reducible apply good_mk

theorem doCalSlotEnd_mem {pq : Prop × List Instr} (s : State) (hs : MemGood pq s) : MemGood pq (doCalSlotEnd s) := by
  unfold doCalSlotEnd
  repeat' first
    | with_reducible assumption
    | intro _
    | with_reducible apply State.calPhase_mem
    | with_reducible apply State.detect_mem
    | with_reducible apply State.rotateCheck_mem
    | with_reducible apply State.shadowTrack_mem
    | with_reducible apply State.slotAccept_mem
    | with_reducible apply State.slotFailed_mem
    | with_reducible apply State.slotRests_mem
    | with_reducible apply State.whenDue_mem
    | with_reducible apply State.wrF_mem
    | with_reducible apply good_ite
    | with_reducible apply good_ite_fst
    | fail_if_no_progress beta_reduce
    | fail_if_no_progress extract_lets +onlyGivenNames x
    | split
    | fail_if_no_progress with_reducible apply good_mk

theorem doCalTempCorrection_mem {pq : Prop × List Instr} (t : Nat) (s : State) (hs : MemGood pq s) : MemGood pq (doCalTempCorrection t s) := by
  unfold doCalTempCorrection
  repeat' first
    | with_reducible assumption
    | intro _
    | with_reducible apply State.drawn_mem
    | with_reducible apply State.whenDue_mem
    | with_reducible apply State.wrN_mem
    | with_reducible apply forEach_mem
    | with_reducible apply good_ite
    | with_reducible apply good_ite_fst
    | fail_if_no_progress beta_reduce
    | fail_if_no_progress extract_lets +onlyGivenNames x
    | split
    | fail_if_no_progress with_reducible apply good_mk

theorem doCalAgeLimit_mem {pq : Prop × List Instr} (c : Nat) (s : State) (hs : MemGood pq s) : MemGood pq (doCalAgeLimit c s) := by
  unfold doCalAgeLimit
  repeat' first
    | with_reducible assumption
    | intro _
    | with_reducible apply State.irq_mem
    | with_reducible apply State.whenDue_mem
    | with_reducible apply good_ite
    | with_reducible apply good_ite_fst
    | fail_if_no_progress beta_reduce
    | fail_if_no_progress extract_lets +onlyGivenNames x
    | split
    | fail_if_no_progress with_reducible apply good_mk

theorem doClrSuspect_mem {pq : Prop × List Instr} (dom : Nat) (s : State) (hs : MemGood pq s) : MemGood pq (doClrSuspect dom s) := by
  unfold doClrSuspect
  repeat' first
    | with_reducible assumption
    | intro _
    | with_reducible apply State.hostWrite_mem
    | with_reducible apply State.wrF_mem
    | with_reducible apply forEach_mem
    | with_reducible apply good_ite
    | with_reducible apply good_ite_fst
    | fail_if_no_progress beta_reduce
    | fail_if_no_progress extract_lets +onlyGivenNames x
    | split
    | fail_if_no_progress with_reducible apply good_mk

theorem doCalCmdInvalid_mem {pq : Prop × List Instr} (dom : Nat) (v : Word) (s : State) (hs : MemGood pq s) : MemGood pq (doCalCmdInvalid dom v s) := by
  unfold doCalCmdInvalid
  repeat' first
    | with_reducible assumption
    | intro _
    | with_reducible apply State.hostWrite_mem
    | with_reducible apply State.noteReg_mem
    | with_reducible apply good_ite

theorem State.calTemps_mem {pq : Prop × List Instr} (s : State) (hs : MemGood pq s) : MemGood pq (State.calTemps s) := by
  unfold State.calTemps
  repeat' first
    | with_reducible assumption
    | intro _
    | with_reducible apply foldl_mem
    | with_reducible apply foldl_mem_fst
    | with_reducible apply good_ite
    | with_reducible apply good_ite_fst
    | fail_if_no_progress beta_reduce
    | fail_if_no_progress extract_lets +onlyGivenNames x
    | split
    | fail_if_no_progress with_reducible apply good_mk

theorem State.calLoad_mem {pq : Prop × List Instr} (s : State) (b : Nat) (seqno : Nat) (source : Nat) (hs : MemGood pq s) : MemGood pq (State.calLoad s b seqno source) := by
  unfold State.calLoad
  repeat' first
    | with_reducible assumption
    | intro _
    | with_reducible apply State.calLoadChan_mem
    | with_reducible apply State.calSeal_mem
    | with_reducible apply State.calTemps_mem
    | with_reducible apply State.sramWr_mem
    | with_reducible apply State.wrF_mem
    | with_reducible apply State.wrN_mem
    | with_reducible apply forEach_mem

theorem State.loadReject_mem {pq : Prop × List Instr} (s : State) (b : Nat) (hs : MemGood pq s) : MemGood pq (State.loadReject s b) := by
  unfold State.loadReject
  repeat' first
    | with_reducible assumption
    | intro _
    | with_reducible apply State.count_mem
    | with_reducible apply State.irq_mem
    | with_reducible apply State.wrN_mem
    | with_reducible apply good_ite

theorem State.calColdLoad_mem {pq : Prop × List Instr} (s : State) (hs : MemGood pq s) : OptGood pq (State.calColdLoad s) := by
  unfold State.calColdLoad
  extract_lets bad r a b na nb t u
  have hr : MemGood pq r := State.setCheck_mem _ hs
  have hu : MemGood pq u :=
    State.wrN_mem _ _ _ (State.wrN_mem _ _ _ (State.loadReject_mem _ _ (State.loadReject_mem _ _ hr)))
  clear_value bad a b na nb t u
  exact good_ite_opt (good_some (State.calLoad_mem _ _ _ _ hu)) (good_ite_opt (good_some (State.calLoad_mem _ _ _ _ hu))
    (good_ite_opt (good_some (State.note_mem _ _ _ _ (State.calLoad_mem _ _ _ _ hu))) good_none))

end Sys2Proof.Machine
end

