-- ==== Sys2Proof/Laws/MemDma.lean ====
section
/-! SUPPORT. Every operation of Machine/Dma.lean keeps the canonical form of the byte memories and the queue. -/

namespace Sys2Proof.Machine

open Sys2Proof


theorem State.setDmaState_mem {pq : Prop × List Instr} (s : State) (n : Nat) (st : Nat) (hs : MemGood pq s) : MemGood pq (State.setDmaState s n st) := by
  unfold State.setDmaState
  repeat' first
    | with_reducible assumption
    | intro _
    | with_reducible apply State.wrF_mem
    | with_reducible apply good_ite
    | with_reducible apply good_ite_fst
    | fail_if_no_progress beta_reduce
    | fail_if_no_progress extract_lets +onlyGivenNames x
    | split
    | fail_if_no_progress with_reducible apply good_mk

theorem State.dmaDeny_mem {pq : Prop × List Instr} (s : State) (n : Nat) (a : Nat) (wr : Bool) (hs : MemGood pq s) : MemGood pq (State.dmaDeny s n a wr) := by
  unfold State.dmaDeny
  repeat' first
    | with_reducible assumption
    | intro _
    | with_reducible apply State.deny_mem

theorem State.dmaServe_mem {pq : Prop × List Instr} (s : State) (n : Nat) (o : Nat) (wr : Bool) (hs : MemGood pq s) : MemGood pq (State.dmaServe s n o wr).1 := by
  unfold State.dmaServe
  repeat' first
    | with_reducible assumption
    | intro _
    | with_reducible apply State.dormantAt_mem
    | with_reducible apply State.wr_mem
    | refine State.awake_mem (by assumption) ?_
    | with_reducible apply good_ite
    | with_reducible apply good_ite_fst
    | fail_if_no_progress beta_reduce
    | fail_if_no_progress extract_lets +onlyGivenNames x
    | split

theorem State.dmaReserved_mem {pq : Prop × List Instr} (s : State) (n : Nat) (o : Nat) (wr : Bool) (ws : List Nat) (hs : MemGood pq s) : MemGood pq (State.dmaReserved s n o wr ws) := by
  unfold State.dmaReserved
  repeat' first
    | with_reducible assumption
    | intro _
    | with_reducible apply State.detect_mem
    | with_reducible apply State.wr_mem
    | with_reducible apply good_ite

theorem State.dmaHostRead_mem {pq : Prop × List Instr} (s : State) (n : Nat) (a : Nat) (k : Nat) (h : HostRead) (hs : MemGood pq s) : MemGood pq (State.dmaHostRead s n a k h).1 := by
  unfold State.dmaHostRead
  repeat' first
    | with_reducible assumption
    | intro _
    | with_reducible apply State.detect_mem
    | with_reducible apply State.setDc_mem
    | with_reducible apply good_ite
    | with_reducible apply good_ite_fst
    | fail_if_no_progress beta_reduce
    | fail_if_no_progress extract_lets +onlyGivenNames x
    | split

theorem State.dmaRead_mem {pq : Prop × List Instr} (s : State) (n : Nat) (space : Nat) (a : Nat) (k : Nat) (h : HostRead) (hs : MemGood pq s) : MemGood pq (State.dmaRead s n space a k h).1 := by
  unfold State.dmaRead
  repeat' first
    | with_reducible assumption
    | intro _
    | with_reducible apply State.bar4Word_mem
    | with_reducible apply State.dmaDeny_mem
    | with_reducible apply State.dmaHostRead_mem
    | with_reducible apply State.dmaReserved_mem
    | with_reducible apply State.dmaServe_mem
    | with_reducible apply State.dramAsk_mem
    | with_reducible apply foldl_mem
    | with_reducible apply foldl_mem_fst
    | with_reducible apply good_ite
    | with_reducible apply good_ite_fst

theorem State.dmaWrite_mem {pq : Prop × List Instr} (s : State) (n : Nat) (space : Nat) (a : Nat) (bs : List Byte) (hs : MemGood pq s) : MemGood pq (State.dmaWrite s n space a bs).1 := by
  unfold State.dmaWrite
  repeat' first
    | with_reducible assumption
    | intro _
    | with_reducible apply State.dmaDeny_mem
    | with_reducible apply State.dmaReserved_mem
    | with_reducible apply State.dmaServe_mem
    | with_reducible apply State.keepOld_mem
    | with_reducible apply State.dramPut_mem
    | with_reducible apply State.hostWrite_mem
    | with_reducible apply State.send_mem
    | with_reducible apply State.sramWr_mem
    | with_reducible apply State.wftWrite_mem
    | with_reducible apply foldl_mem
    | with_reducible apply foldl_mem_fst
    | with_reducible apply good_ite
    | with_reducible apply good_ite_fst

theorem State.dmaFault_mem {pq : Prop × List Instr} (s : State) (n : Nat) (code : Nat) (hs : MemGood pq s) : MemGood pq (State.dmaFault s n code) := by
  unfold State.dmaFault
  repeat' first
    | with_reducible assumption
    | intro _
    | with_reducible apply State.detect_mem

theorem State.dmaError_mem {pq : Prop × List Instr} (s : State) (n : Nat) (code : Nat) (hs : MemGood pq s) : MemGood pq (State.dmaError s n code) := by
  unfold State.dmaError
  repeat' first
    | with_reducible assumption
    | intro _
    | with_reducible apply State.dmaFault_mem
    | with_reducible apply State.irq_mem
    | with_reducible apply State.wrN_mem
    | with_reducible apply State.wrWide_mem
    | with_reducible apply good_ite

theorem State.dmaLost_mem {pq : Prop × List Instr} (s : State) (n : Nat) (code : Nat) (hs : MemGood pq s) : MemGood pq (State.dmaLost s n code) := by
  unfold State.dmaLost
  repeat' first
    | with_reducible assumption
    | intro _
    | with_reducible apply State.dmaError_mem
    | with_reducible apply State.setDc_mem
    | with_reducible apply State.setDmaState_mem

theorem State.dmaIdle_mem {pq : Prop × List Instr} (s : State) (n : Nat) (hs : MemGood pq s) : MemGood pq (State.dmaIdle s n) := by
  unfold State.dmaIdle
  repeat' first
    | with_reducible assumption
    | intro _
    | with_reducible apply State.irq_mem
    | with_reducible apply State.setDc_mem
    | with_reducible apply State.setDmaState_mem

theorem State.dmaGoOn_mem {pq : Prop × List Instr} (s : State) (n : Nat) (next : Nat) (hs : MemGood pq s) : MemGood pq (State.dmaGoOn s n next) := by
  unfold State.dmaGoOn
  repeat' first
    | with_reducible assumption
    | intro _
    | with_reducible apply State.setDc_mem
    | with_reducible apply State.setDmaState_mem
    | with_reducible apply State.wrWide_mem

theorem State.dmaReadBack_mem {pq : Prop × List Instr} (s : State) (n : Nat) (space : Nat) (a : Nat) (x : Nat) (hs : MemGood pq s) : MemGood pq (State.dmaReadBack s n space a x).1 := by
  unfold State.dmaReadBack
  repeat' first
    | with_reducible assumption
    | intro _
    | with_reducible apply State.dmaRead_mem

theorem State.backFault_mem {pq : Prop × List Instr} (s : State) (n : Nat) (code : Nat) (back : Nat) (hs : MemGood pq s) : MemGood pq (State.backFault s n code back) := by
  unfold State.backFault
  repeat' first
    | with_reducible assumption
    | intro _
    | with_reducible apply State.dmaFault_mem
    | with_reducible apply good_ite

theorem State.dmaHandBack_mem {pq : Prop × List Instr} (s : State) (n : Nat) (code : Nat) (done : Nat) (hs : MemGood pq s) : MemGood pq (State.dmaHandBack s n code done).1 := by
  unfold State.dmaHandBack
  repeat' first
    | with_reducible assumption
    | intro _
    | with_reducible apply State.dmaWrite_mem
    | with_reducible apply good_ite
    | with_reducible apply good_ite_fst

theorem State.dmaIrqs_mem {pq : Prop × List Instr} (s : State) (n : Nat) (u : DmaUnit) (hs : MemGood pq s) : MemGood pq (State.dmaIrqs s n u) := by
  unfold State.dmaIrqs
  repeat' first
    | with_reducible assumption
    | intro _
    | with_reducible apply State.irq_mem

theorem doDmaDescComplete_mem {pq : Prop × List Instr} (n : Nat) (rb : Nat) (wb : Nat) (s : State) (hs : MemGood pq s) : MemGood pq (doDmaDescComplete n rb wb s) := by
  unfold doDmaDescComplete
  repeat' first
    | with_reducible assumption
    | intro _
    | with_reducible apply State.backFault_mem
    | with_reducible apply State.dmaError_mem
    | with_reducible apply State.dmaGoOn_mem
    | with_reducible apply State.dmaHandBack_mem
    | with_reducible apply State.dmaIdle_mem
    | with_reducible apply State.dmaIrqs_mem
    | with_reducible apply State.dmaReadBack_mem
    | with_reducible apply State.drawn_mem
    | with_reducible apply State.setDc_mem
    | with_reducible apply State.setDmaState_mem
    | with_reducible apply State.whenDue_mem
    | with_reducible apply State.wrF_mem
    | with_reducible apply State.wrN_mem
    | with_reducible apply good_ite
    | with_reducible apply good_ite_fst
    | fail_if_no_progress beta_reduce
    | fail_if_no_progress extract_lets +onlyGivenNames x
    | split

theorem State.dmaTake_mem {pq : Prop × List Instr} (s : State) (n : Nat) (ws : List Word) (again : Bool) (hs : MemGood pq s) : MemGood pq (State.dmaTake s n ws again) := by
  unfold State.dmaTake
  repeat' first
    | with_reducible assumption
    | intro _
    | with_reducible apply State.injTake_mem
    | with_reducible apply State.setDc_mem
    | with_reducible apply State.setDmaState_mem

theorem State.dmaNotGiven_mem {pq : Prop × List Instr} (s : State) (n : Nat) (ws : List Word) (hs : MemGood pq s) : MemGood pq (State.dmaNotGiven s n ws) := by
  unfold State.dmaNotGiven
  repeat' first
    | with_reducible assumption
    | intro _
    | with_reducible apply State.dmaGoOn_mem
    | with_reducible apply State.dmaIdle_mem
    | with_reducible apply State.irq_mem
    | with_reducible apply State.setDc_mem
    | with_reducible apply State.setDmaState_mem
    | with_reducible apply good_ite

theorem doDmaDescFetch_mem {pq : Prop × List Instr} (n : Nat) (h : HostRead) (s : State) (hs : MemGood pq s) : MemGood pq (doDmaDescFetch n h s) := by
  unfold doDmaDescFetch
  repeat' first
    | with_reducible assumption
    | intro _
    | with_reducible apply State.dmaLost_mem
    | with_reducible apply State.dmaNotGiven_mem
    | with_reducible apply State.dmaRead_mem
    | with_reducible apply State.dmaTake_mem
    | with_reducible apply State.whenDue_mem
    | with_reducible apply good_ite

theorem doDmaPoll_mem {pq : Prop × List Instr} (n : Nat) (s : State) (hs : MemGood pq s) : MemGood pq (doDmaPoll n s) := by
  unfold doDmaPoll
  repeat' first
    | with_reducible assumption
    | intro _
    | with_reducible apply State.setDmaState_mem
    | with_reducible apply State.whenDue_mem

theorem doDmaResume_mem {pq : Prop × List Instr} (n : Nat) (s : State) (hs : MemGood pq s) : MemGood pq (doDmaResume n s) := by
  unfold doDmaResume
  repeat' first
    | with_reducible assumption
    | intro _
    | with_reducible apply State.irq_mem
    | with_reducible apply State.setDc_mem
    | with_reducible apply State.setDmaState_mem
    | with_reducible apply State.whenDue_mem
    | with_reducible apply State.wrN_mem
    | with_reducible apply State.wrWide_mem
    | with_reducible apply good_ite

theorem State.dmaMoved_mem {pq : Prop × List Instr} (s : State) (n : Nat) (k : Nat) (last : Nat) (code : Option Nat) (hs : MemGood pq s) : MemGood pq (State.dmaMoved s n k last code) := by
  unfold State.dmaMoved
  repeat' first
    | with_reducible assumption
    | intro _
    | with_reducible apply State.setDc_mem
    | with_reducible apply State.wrWide_mem

theorem State.dmaEnds_mem {pq : Prop × List Instr} (s : State) (n : Nat) (code : Nat) (hs : MemGood pq s) : MemGood pq (State.dmaEnds s n code) := by
  unfold State.dmaEnds
  repeat' first
    | with_reducible assumption
    | intro _
    | with_reducible apply State.setDc_mem
    | with_reducible apply State.setDmaState_mem

theorem doDmaPiece_mem {pq : Prop × List Instr} (n : Nat) (h : HostRead) (s : State) (hs : MemGood pq s) : MemGood pq (doDmaPiece n h s) := by
  unfold doDmaPiece
  repeat' first
    | with_reducible assumption
    | intro _
    | with_reducible apply State.dmaEnds_mem
    | with_reducible apply State.dmaMoved_mem
    | with_reducible apply State.dmaRead_mem
    | with_reducible apply State.dmaWrite_mem
    | with_reducible apply State.whenDue_mem
    | with_reducible apply good_ite

theorem State.dmaGather_mem {pq : Prop × List Instr} (s : State) (n : Nat) (l : List (Bool × Nat × Nat)) (hs : MemGood pq s) : MemGood pq (State.dmaGather s n l).1 := by
  unfold State.dmaGather
  repeat' first
    | with_reducible assumption
    | intro _
    | with_reducible apply State.dmaRead_mem
    | with_reducible apply foldl_mem
    | with_reducible apply foldl_mem_fst
    | with_reducible apply good_ite
    | with_reducible apply good_ite_fst

theorem State.burstTaken_mem {pq : Prop × List Instr} (s : State) (n : Nat) (k : Nat) (hs : MemGood pq s) : MemGood pq (State.burstTaken s n k) := by
  unfold State.burstTaken
  repeat' first
    | with_reducible assumption
    | intro _
    | with_reducible apply State.wrN_mem
    | with_reducible apply good_ite

theorem State.burst_mem {pq : Prop × List Instr} (s : State) (n : Nat) (k : Nat) (last : Option Nat) (hs : MemGood pq s) : MemGood pq (State.burst s n k last) := by
  unfold State.burst
  repeat' first
    | with_reducible assumption
    | intro _
    | with_reducible apply State.burstTaken_mem
    | with_reducible apply State.dmaEnds_mem
    | with_reducible apply State.dmaGather_mem
    | with_reducible apply State.dmaMoved_mem
    | with_reducible apply State.dmaWrite_mem
    | with_reducible apply State.setDmaState_mem
    | with_reducible apply good_ite

theorem doDmaPacedBurst_mem {pq : Prop × List Instr} (n : Nat) (s : State) (hs : MemGood pq s) : MemGood pq (doDmaPacedBurst n s) := by
  unfold doDmaPacedBurst
  repeat' first
    | with_reducible assumption
    | intro _
    | with_reducible apply State.burst_mem
    | with_reducible apply State.dmaEnds_mem
    | with_reducible apply State.whenDue_mem
    | with_reducible apply good_ite

theorem doDmaPaceWithdraw_mem {pq : Prop × List Instr} (n : Nat) (valid : Nat) (s : State) (hs : MemGood pq s) : MemGood pq (doDmaPaceWithdraw n valid s) := by
  unfold doDmaPaceWithdraw
  repeat' first
    | with_reducible assumption
    | intro _
    | with_reducible apply State.dmaEnds_mem
    | with_reducible apply State.dmaGather_mem
    | with_reducible apply State.dmaMoved_mem
    | with_reducible apply State.dmaWrite_mem
    | with_reducible apply State.setDmaState_mem
    | with_reducible apply State.whenDue_mem
    | with_reducible apply State.wrN_mem
    | with_reducible apply good_ite
    | with_reducible apply good_ite_fst
    | fail_if_no_progress beta_reduce
    | fail_if_no_progress extract_lets +onlyGivenNames x
    | split

theorem doDmaStart_mem {pq : Prop × List Instr} (dom : Nat) (n : Nat) (s : State) (hs : MemGood pq s) : MemGood pq (doDmaStart dom n s) := by
  unfold doDmaStart
  repeat' first
    | with_reducible assumption
    | intro _
    | with_reducible apply State.hostWrite_mem
    | with_reducible apply State.noteReg_mem
    | with_reducible apply State.setDc_mem
    | with_reducible apply State.setDmaState_mem
    | with_reducible apply State.wrN_mem
    | with_reducible apply State.wrWide_mem
    | with_reducible apply good_ite

theorem State.dmaStopNow_mem {pq : Prop × List Instr} (s : State) (n : Nat) (hs : MemGood pq s) : MemGood pq (State.dmaStopNow s n) := by
  unfold State.dmaStopNow
  repeat' first
    | with_reducible assumption
    | intro _
    | with_reducible apply State.dmaIdle_mem
    | with_reducible apply State.setDc_mem
    | with_reducible apply State.setDmaState_mem
    | with_reducible apply good_ite

theorem doDmaStop_mem {pq : Prop × List Instr} (dom : Nat) (n : Nat) (s : State) (hs : MemGood pq s) : MemGood pq (doDmaStop dom n s) := by
  unfold doDmaStop
  repeat' first
    | with_reducible assumption
    | intro _
    | with_reducible apply State.dmaStopNow_mem
    | with_reducible apply State.hostWrite_mem

theorem doDoorbell_mem {pq : Prop × List Instr} (dom : Nat) (n : Nat) (s : State) (hs : MemGood pq s) : MemGood pq (doDoorbell dom n s) := by
  unfold doDoorbell
  repeat' first
    | with_reducible assumption
    | intro _
    | with_reducible apply State.hostWrite_mem
    | with_reducible apply State.setDmaState_mem
    | with_reducible apply good_ite

theorem doFlush_mem {pq : Prop × List Instr} (dom : Nat) (n : Nat) (s : State) (hs : MemGood pq s) : MemGood pq (doFlush dom n s) := by
  unfold doFlush
  repeat' first
    | with_reducible assumption
    | intro _
    | with_reducible apply State.hostWrite_mem
    | with_reducible apply State.noteReg_mem
    | with_reducible apply State.setDc_mem
    | with_reducible apply good_ite

theorem doDmaCmdInvalid_mem {pq : Prop × List Instr} (dom : Nat) (n : Nat) (v : Word) (s : State) (hs : MemGood pq s) : MemGood pq (doDmaCmdInvalid dom n v s) := by
  unfold doDmaCmdInvalid
  repeat' first
    | with_reducible assumption
    | intro _
    | with_reducible apply State.hostWrite_mem
    | with_reducible apply State.noteReg_mem
    | with_reducible apply good_ite

theorem State.dmaPause_mem {pq : Prop × List Instr} (s : State) (n : Nat) (hs : MemGood pq s) : MemGood pq (State.dmaPause s n) := by
  unfold State.dmaPause
  repeat' first
    | with_reducible assumption
    | intro _
    | with_reducible apply State.setDc_mem
    | with_reducible apply State.setDmaState_mem
    | with_reducible apply good_ite

theorem State.dmaUnpause_mem {pq : Prop × List Instr} (s : State) (n : Nat) (hs : MemGood pq s) : MemGood pq (State.dmaUnpause s n) := by
  unfold State.dmaUnpause
  repeat' first
    | with_reducible assumption
    | intro _
    | with_reducible apply State.setDc_mem
    | with_reducible apply State.setDmaState_mem
    | with_reducible apply good_ite
    | with_reducible apply good_ite_fst
    | fail_if_no_progress beta_reduce
    | fail_if_no_progress extract_lets +onlyGivenNames x
    | split

end Sys2Proof.Machine
end

