-- ==== Sys2Proof/Laws/MemDrc.lean ====
section
/-! SUPPORT. Every operation of Machine/Drc.lean keeps the canonical form of the byte memories and the queue. -/

namespace Sys2Proof.Machine

open Sys2Proof


theorem State.devShows_mem {pq : Prop × List Instr} (s : State) (q : DramReq) (l : Nat) (err : Nat) (hs : MemGood pq s) : MemGood pq (State.devShows s q l err) := by
  unfold State.devShows
  repeat' first
    | with_reducible assumption
    | intro _
    | with_reducible apply State.eccTransient_mem
    | with_reducible apply State.setBad_mem
    | with_reducible apply good_ite
    | with_reducible apply good_ite_fst
    | fail_if_no_progress beta_reduce
    | fail_if_no_progress extract_lets +onlyGivenNames x
    | split

theorem State.reqServe_mem {pq : Prop × List Instr} (s : State) (q : DramReq) (l : Nat) (err : Nat) (lat : Nat) (hs : MemGood pq s) : MemGood pq (State.reqServe s q l err lat) := by
  unfold State.reqServe
  repeat' first
    | with_reducible assumption
    | intro _
    | with_reducible apply State.devShows_mem
    | with_reducible apply State.dramAsk_mem
    | with_reducible apply State.dramPutNow_mem
    | with_reducible apply State.setBad_mem
    | with_reducible apply State.wrN_mem
    | with_reducible apply good_ite

theorem State.waitServe_mem {pq : Prop × List Instr} (s : State) (w : DramWait) (hs : MemGood pq s) : MemGood pq (State.waitServe s w) := by
  unfold State.waitServe
  repeat' first
    | with_reducible assumption
    | intro _
    | with_reducible apply State.dramAnswer_mem
    | with_reducible apply State.dramPutNow_mem
    | with_reducible apply State.reqServe_mem
    | with_reducible apply good_ite
    | with_reducible apply good_ite_fst
    | fail_if_no_progress beta_reduce
    | fail_if_no_progress extract_lets +onlyGivenNames x
    | split

theorem State.serveWaits_mem {pq : Prop × List Instr} (s : State) (had : KMap Nat) (z0 : Nat) (hs : MemGood pq s) : MemGood pq (State.serveWaits s had z0) := by
  revert hs
  fun_induction State.serveWaits s had z0
  all_goals repeat' first
    | with_reducible assumption
    | intro _
    | with_reducible apply State.waitServe_mem
    | with_reducible apply good_ite
    | with_reducible apply good_ite_fst
    | fail_if_no_progress beta_reduce
    | fail_if_no_progress extract_lets +onlyGivenNames x
    | split
    | fail_if_no_progress with_reducible apply good_mk
    | refine fst_mem (by assumption) ?_
    | apply_assumption

theorem State.waitsServed_mem {pq : Prop × List Instr} (s : State) (hs : MemGood pq s) : MemGood pq (State.waitsServed s) := by
  unfold State.waitsServed
  repeat' first
    | with_reducible assumption
    | intro _
    | with_reducible apply State.serveWaits_mem

theorem State.clearTo_mem {pq : Prop × List Instr} (s : State) (l : Nat) (hs : MemGood pq s) : MemGood pq (State.clearTo s l) := by
  unfold State.clearTo
  repeat' first
    | with_reducible assumption
    | intro _
    | with_reducible apply State.waitsServed_mem
    | with_reducible apply State.wrN_mem
    | with_reducible apply good_ite
    | with_reducible apply good_ite_fst
    | fail_if_no_progress beta_reduce
    | fail_if_no_progress extract_lets +onlyGivenNames x
    | split
    | fail_if_no_progress with_reducible apply good_mk

theorem doDramRequest_mem {pq : Prop × List Instr} (cls : Nat) (id : Nat) (wr : Bool) (l : Nat) (err : Nat) (lat : Nat) (s : State) (hs : MemGood pq s) : MemGood pq (doDramRequest cls id wr l err lat s) := by
  unfold doDramRequest
  repeat' first
    | with_reducible assumption
    | intro _
    | with_reducible apply State.clearTo_mem
    | with_reducible apply State.dramWaits_mem
    | with_reducible apply State.reqServe_mem
    | with_reducible apply State.whenDue_mem
    | with_reducible apply State.wr_mem
    | with_reducible apply good_ite

theorem doDramRefresh_mem {pq : Prop × List Instr} (d : Nat) (sub : Nat) (rank : Nat) (ns : Nat) (s : State) (hs : MemGood pq s) : MemGood pq (doDramRefresh d sub rank ns s) := by
  unfold doDramRefresh
  repeat' first
    | with_reducible assumption
    | intro _
    | with_reducible apply State.whenDue_mem
    | with_reducible apply State.wrN_mem
    | with_reducible apply good_ite
    | with_reducible apply good_ite_fst
    | fail_if_no_progress beta_reduce
    | fail_if_no_progress extract_lets +onlyGivenNames x
    | split
    | fail_if_no_progress with_reducible apply good_mk

theorem doDramTempPoll_mem {pq : Prop × List Instr} (d : Nat) (t : BitVec 16) (s : State) (hs : MemGood pq s) : MemGood pq (doDramTempPoll d t s) := by
  unfold doDramTempPoll
  repeat' first
    | with_reducible assumption
    | intro _
    | with_reducible apply State.irq_mem
    | with_reducible apply State.note_mem
    | with_reducible apply State.whenDue_mem
    | with_reducible apply State.wrF_mem
    | with_reducible apply State.wrN_mem
    | with_reducible apply good_ite
    | with_reducible apply good_ite_fst
    | fail_if_no_progress beta_reduce
    | fail_if_no_progress extract_lets +onlyGivenNames x
    | split
    | fail_if_no_progress with_reducible apply good_mk

theorem doDramSelfRefreshEntry_mem {pq : Prop × List Instr} (d : Nat) (s : State) (hs : MemGood pq s) : MemGood pq (doDramSelfRefreshEntry d s) := by
  unfold doDramSelfRefreshEntry
  repeat' first
    | with_reducible assumption
    | intro _
    | with_reducible apply State.enterUnit_mem
    | with_reducible apply State.whenDue_mem

theorem State.scrubNext_mem {pq : Prop × List Instr} (s : State) (hs : MemGood pq s) : MemGood pq (State.scrubNext s) := by
  unfold State.scrubNext
  repeat' first
    | with_reducible assumption
    | intro _
    | with_reducible apply State.countF_mem
    | with_reducible apply State.irq_mem
    | with_reducible apply State.wrF_mem
    | with_reducible apply good_ite
    | with_reducible apply good_ite_fst
    | fail_if_no_progress beta_reduce
    | fail_if_no_progress extract_lets +onlyGivenNames x
    | split
    | fail_if_no_progress with_reducible apply good_mk

theorem doDramScrub_mem {pq : Prop × List Instr} (err : Nat) (s : State) (hs : MemGood pq s) : MemGood pq (doDramScrub err s) := by
  unfold doDramScrub
  repeat' first
    | with_reducible assumption
    | intro _
    | with_reducible apply State.devShows_mem
    | with_reducible apply State.dramWake_mem
    | with_reducible apply State.eccLine_mem
    | with_reducible apply State.scrubNext_mem
    | with_reducible apply State.whenDue_mem
    | with_reducible apply good_ite

theorem doDramClearDone_mem {pq : Prop × List Instr} (s : State) (hs : MemGood pq s) : MemGood pq (doDramClearDone s) := by
  unfold doDramClearDone
  repeat' first
    | with_reducible assumption
    | intro _
    | with_reducible apply State.irq_mem
    | with_reducible apply State.waitsServed_mem
    | with_reducible apply State.whenDue_mem
    | with_reducible apply State.wrF_mem
    | with_reducible apply State.wrN_mem

theorem doPwrdn_mem {pq : Prop × List Instr} (dom : Nat) (mask : Nat) (s : State) (hs : MemGood pq s) : MemGood pq (doPwrdn dom mask s) := by
  unfold doPwrdn
  repeat' first
    | with_reducible assumption
    | intro _
    | with_reducible apply State.enterUnit_mem
    | with_reducible apply State.hostWrite_mem
    | with_reducible apply State.noteReg_mem
    | with_reducible apply State.setUnit_mem
    | with_reducible apply forEach_mem
    | with_reducible apply good_ite
    | with_reducible apply good_ite_fst
    | fail_if_no_progress beta_reduce
    | fail_if_no_progress extract_lets +onlyGivenNames x
    | split
    | fail_if_no_progress with_reducible apply good_mk

theorem doPwrup_mem {pq : Prop × List Instr} (dom : Nat) (mask : Nat) (s : State) (hs : MemGood pq s) : MemGood pq (doPwrup dom mask s) := by
  unfold doPwrup
  repeat' first
    | with_reducible assumption
    | intro _
    | with_reducible apply State.cmdWake_mem
    | with_reducible apply State.hostWrite_mem
    | with_reducible apply forEach_mem
    | with_reducible apply good_ite

theorem doDrcPeakClr_mem {pq : Prop × List Instr} (dom : Nat) (s : State) (hs : MemGood pq s) : MemGood pq (doDrcPeakClr dom s) := by
  unfold doDrcPeakClr
  repeat' first
    | with_reducible assumption
    | intro _
    | with_reducible apply State.hostWrite_mem
    | with_reducible apply State.wrN_mem
    | with_reducible apply forEach_mem

theorem doDrcCmdInvalid_mem {pq : Prop × List Instr} (dom : Nat) (v : Word) (s : State) (hs : MemGood pq s) : MemGood pq (doDrcCmdInvalid dom v s) := by
  unfold doDrcCmdInvalid
  repeat' first
    | with_reducible assumption
    | intro _
    | with_reducible apply State.hostWrite_mem
    | with_reducible apply State.noteReg_mem
    | with_reducible apply good_ite

theorem State.setTraining_mem {pq : Prop × List Instr} (s : State) (on : Bool) (step : Nat) (hs : MemGood pq s) : MemGood pq (State.setTraining s on step) := by
  unfold State.setTraining
  repeat' first
    | with_reducible assumption
    | intro _
    | with_reducible apply State.wrF_mem
    | with_reducible apply forEach_mem

theorem State.selfRefreshAll_mem {pq : Prop × List Instr} (s : State) (hs : MemGood pq s) : MemGood pq (State.selfRefreshAll s) := by
  unfold State.selfRefreshAll
  repeat' first
    | with_reducible assumption
    | intro _
    | with_reducible apply State.setUnit_mem
    | with_reducible apply forEach_mem

theorem State.selfRefreshExit_mem {pq : Prop × List Instr} (s : State) (hs : MemGood pq s) : MemGood pq (State.selfRefreshExit s) := by
  unfold State.selfRefreshExit
  repeat' first
    | with_reducible assumption
    | intro _
    | with_reducible apply State.setUnit_mem
    | with_reducible apply forEach_mem

theorem State.speedWrite_mem {pq : Prop × List Instr} (s : State) (dom : Nat) (req : Nat) (hs : MemGood pq s) : MemGood pq (State.speedWrite s dom req) := by
  unfold State.speedWrite
  repeat' first
    | with_reducible assumption
    | intro _
    | with_reducible apply State.noteReg_mem
    | with_reducible apply State.selfRefreshAll_mem
    | with_reducible apply State.setTraining_mem
    | with_reducible apply State.wrF_mem
    | with_reducible apply good_ite
    | with_reducible apply good_ite_fst
    | fail_if_no_progress beta_reduce
    | fail_if_no_progress extract_lets +onlyGivenNames x
    | split
    | fail_if_no_progress with_reducible apply good_mk

theorem doDrcSpeedWrite_mem {pq : Prop × List Instr} (dom : Nat) (v : Word) (s : State) (hs : MemGood pq s) : MemGood pq (doDrcSpeedWrite dom v s) := by
  unfold doDrcSpeedWrite
  repeat' first
    | with_reducible assumption
    | intro _
    | with_reducible apply State.hostWrite_mem
    | with_reducible apply State.speedWrite_mem

theorem doDrcSpeedDone_mem {pq : Prop × List Instr} (s : State) (hs : MemGood pq s) : MemGood pq (doDrcSpeedDone s) := by
  unfold doDrcSpeedDone
  repeat' first
    | with_reducible assumption
    | intro _
    | with_reducible apply State.irq_mem
    | with_reducible apply State.selfRefreshExit_mem
    | with_reducible apply State.setTraining_mem
    | with_reducible apply State.waitsServed_mem
    | with_reducible apply State.whenDue_mem
    | with_reducible apply State.wrF_mem
    | with_reducible apply good_ite
    | with_reducible apply good_ite_fst
    | fail_if_no_progress beta_reduce
    | fail_if_no_progress extract_lets +onlyGivenNames x
    | split
    | fail_if_no_progress with_reducible apply good_mk

theorem doDrcInjWrite_mem {pq : Prop × List Instr} (dom : Nat) (d : Nat) (v : Word) (s : State) (hs : MemGood pq s) : MemGood pq (doDrcInjWrite dom d v s) := by
  unfold doDrcInjWrite
  repeat' first
    | with_reducible assumption
    | intro _
    | with_reducible apply State.hostWrite_mem
    | with_reducible apply State.wrRow_mem

end Sys2Proof.Machine
end

