-- ==== Sys2Proof/Laws/MemLnk.lean ====
section
/-! SUPPORT. Every operation of Machine/Lnk.lean keeps the canonical form of the byte memories and the queue. -/

namespace Sys2Proof.Machine

open Sys2Proof


theorem State.laneBlock_mem {pq : Prop × List Instr} (s : State) (p : Nat) (l : Nat) (payload : List Byte) (hs : MemGood pq s) : MemGood pq (State.laneBlock s p l payload).1 := by
  unfold State.laneBlock
  repeat' first
    | with_reducible assumption
    | intro _
    | with_reducible apply State.setFp_mem

theorem State.sendRow_mem {pq : Prop × List Instr} (s : State) (p : Nat) (header : Nat) (block : Nat → List Byte) (hs : MemGood pq s) : MemGood pq (State.sendRow s p header block) := by
  unfold State.sendRow
  repeat' first
    | with_reducible assumption
    | intro _
    | with_reducible apply State.header_mem
    | with_reducible apply State.laneBlock_mem
    | with_reducible apply State.send_mem
    | with_reducible apply foldl_mem
    | with_reducible apply foldl_mem_fst

theorem State.putFrame_mem {pq : Prop × List Instr} (s : State) (p : Nat) (f : Frame) (hs : MemGood pq s) : MemGood pq (State.putFrame s p f) := by
  unfold State.putFrame
  repeat' first
    | with_reducible assumption
    | intro _
    | with_reducible apply State.sendRow_mem
    | with_reducible apply forEach_mem

theorem State.sendControl_mem {pq : Prop × List Instr} (s : State) (p : Nat) (typ : Nat) (count : Nat) (hs : MemGood pq s) : MemGood pq (State.sendControl s p typ count) := by
  unfold State.sendControl
  repeat' first
    | with_reducible assumption
    | intro _
    | with_reducible apply State.count_mem
    | with_reducible apply State.sendRow_mem

theorem State.sendVc0_mem {pq : Prop × List Instr} (s : State) (p : Nat) (typ : Nat) (arg : Nat) (data : List Byte) (hs : MemGood pq s) : MemGood pq (State.sendVc0 s p typ arg data) := by
  unfold State.sendVc0
  repeat' first
    | with_reducible assumption
    | intro _
    | with_reducible apply State.putFrame_mem
    | with_reducible apply State.setFp_mem
    | with_reducible apply State.txWake_mem
    | with_reducible apply good_ite

theorem State.trainPort_mem {pq : Prop × List Instr} (s : State) (p : Nat) (hs : MemGood pq s) : MemGood pq (State.trainPort s p) := by
  unfold State.trainPort
  repeat' first
    | with_reducible assumption
    | intro _
    | with_reducible apply State.countF_mem
    | with_reducible apply State.setFp_mem
    | with_reducible apply State.setUnit_mem
    | with_reducible apply State.wrF_mem
    | with_reducible apply foldl_mem
    | with_reducible apply foldl_mem_fst
    | with_reducible apply good_ite
    | with_reducible apply good_ite_fst
    | fail_if_no_progress beta_reduce
    | fail_if_no_progress extract_lets +onlyGivenNames x
    | split
    | fail_if_no_progress with_reducible apply good_mk

theorem State.xferEnd_mem {pq : Prop × List Instr} (s : State) (p : Nat) (code : Nat) (hs : MemGood pq s) : MemGood pq (State.xferEnd s p code) := by
  unfold State.xferEnd
  repeat' first
    | with_reducible assumption
    | intro _
    | with_reducible apply State.irq_mem
    | with_reducible apply State.setFp_mem
    | with_reducible apply State.wrN_mem

theorem State.goDown_mem {pq : Prop × List Instr} (s : State) (p : Nat) (hs : MemGood pq s) : MemGood pq (State.goDown s p) := by
  unfold State.goDown
  repeat' first
    | with_reducible assumption
    | intro _
    | with_reducible apply State.irq_mem
    | with_reducible apply State.setFp_mem
    | with_reducible apply State.setUnit_mem
    | with_reducible apply State.txLose_mem
    | with_reducible apply State.wrF_mem
    | with_reducible apply State.xferEnd_mem
    | with_reducible apply foldl_mem
    | with_reducible apply foldl_mem_fst
    | with_reducible apply good_ite

theorem State.portDown_mem {pq : Prop × List Instr} (s : State) (p : Nat) (hs : MemGood pq s) : MemGood pq (State.portDown s p) := by
  unfold State.portDown
  repeat' first
    | with_reducible assumption
    | intro _
    | with_reducible apply State.goDown_mem
    | with_reducible apply good_ite

theorem State.portUp_mem {pq : Prop × List Instr} (s : State) (p : Nat) (hs : MemGood pq s) : MemGood pq (State.portUp s p) := by
  unfold State.portUp
  repeat' first
    | with_reducible assumption
    | intro _
    | with_reducible apply State.setFp_mem
    | with_reducible apply State.trainPort_mem
    | with_reducible apply good_ite

theorem doUp_mem {pq : Prop × List Instr} (dom : Nat) (p : Nat) (s : State) (hs : MemGood pq s) : MemGood pq (doUp dom p s) := by
  unfold doUp
  repeat' first
    | with_reducible assumption
    | intro _
    | with_reducible apply State.hostWrite_mem
    | with_reducible apply State.noteReg_mem
    | with_reducible apply State.portUp_mem
    | with_reducible apply good_ite

theorem doDown_mem {pq : Prop × List Instr} (dom : Nat) (p : Nat) (s : State) (hs : MemGood pq s) : MemGood pq (doDown dom p s) := by
  unfold doDown
  repeat' first
    | with_reducible assumption
    | intro _
    | with_reducible apply State.hostWrite_mem
    | with_reducible apply State.portDown_mem

theorem doLnkTrainDone_mem {pq : Prop × List Instr} (p : Nat) (s : State) (hs : MemGood pq s) : MemGood pq (doLnkTrainDone p s) := by
  unfold doLnkTrainDone
  repeat' first
    | with_reducible assumption
    | intro _
    | with_reducible apply State.sendVc0_mem
    | with_reducible apply State.whenDue_mem
    | with_reducible apply State.wrF_mem

theorem State.replayAll_mem {pq : Prop × List Instr} (s : State) (p : Nat) (hs : MemGood pq s) : MemGood pq (State.replayAll s p) := by
  unfold State.replayAll
  repeat' first
    | with_reducible assumption
    | intro _
    | with_reducible apply State.count_mem
    | with_reducible apply State.setFp_mem
    | with_reducible apply good_ite

theorem State.onFrame_mem {pq : Prop × List Instr} (s : State) (on : Bool) (typ : Nat) (b : List Byte) (k : Frame → State → State) (hs : MemGood pq s) (hk : ∀ (x0 : Frame) (x1 : State), MemGood pq x1 → MemGood pq (k x0 x1)) : MemGood pq (State.onFrame s on typ b k) := by
  unfold State.onFrame
  repeat' first
    | with_reducible assumption
    | intro _
    | with_reducible apply State.whenDue_mem
    | with_reducible apply hk
    | with_reducible apply good_ite
    | with_reducible apply good_ite_fst
    | fail_if_no_progress beta_reduce
    | fail_if_no_progress extract_lets +onlyGivenNames x
    | split

theorem doHello_mem {pq : Prop × List Instr} (p : Nat) (b : List Byte) (s : State) (hs : MemGood pq s) : MemGood pq (doHello p b s) := by
  unfold doHello
  repeat' first
    | with_reducible assumption
    | intro _
    | with_reducible apply State.irq_mem
    | with_reducible apply State.note_mem
    | with_reducible apply State.onFrame_mem
    | with_reducible apply State.replayAll_mem
    | with_reducible apply State.setFp_mem
    | with_reducible apply State.wrF_mem
    | with_reducible apply good_ite

theorem doLnkTrainTimeout_mem {pq : Prop × List Instr} (p : Nat) (s : State) (hs : MemGood pq s) : MemGood pq (doLnkTrainTimeout p s) := by
  unfold doLnkTrainTimeout
  repeat' first
    | with_reducible assumption
    | intro _
    | with_reducible apply State.goDown_mem
    | with_reducible apply State.note_mem
    | with_reducible apply State.setFp_mem
    | with_reducible apply State.trainPort_mem
    | with_reducible apply State.whenDue_mem
    | with_reducible apply good_ite

theorem State.header_mem {pq : Prop × List Instr} (s : State) (p : Nat) (l : Nat) (valid : Bool) (hs : MemGood pq s) : MemGood pq (State.header s p l valid) := by
  unfold State.header
  repeat' first
    | with_reducible assumption
    | intro _
    | with_reducible apply State.countF_mem
    | with_reducible apply State.setFp_mem
    | with_reducible apply State.wrF_mem
    | with_reducible apply good_ite

theorem State.blockIn_mem {pq : Prop × List Instr} (s : State) (p : Nat) (l : Nat) (header : Nat) (payload : Nat) (hs : MemGood pq s) : MemGood pq (State.blockIn s p l header payload) := by
  unfold State.blockIn
  repeat' first
    | with_reducible assumption
    | intro _
    | with_reducible apply State.header_mem
    | with_reducible apply State.setFp_mem

theorem doLaneBlockReceived_mem {pq : Prop × List Instr} (p : Nat) (l : Nat) (header : Nat) (payload : Nat) (s : State) (hs : MemGood pq s) : MemGood pq (doLaneBlockReceived p l header payload s) := by
  unfold doLaneBlockReceived
  repeat' first
    | with_reducible assumption
    | intro _
    | with_reducible apply State.blockIn_mem
    | with_reducible apply State.header_mem
    | with_reducible apply State.whenDue_mem

theorem State.alignRow_mem {pq : Prop × List Instr} (s : State) (p : Nat) (blocks : List AlignBlock) (hs : MemGood pq s) : MemGood pq (State.alignRow s p blocks) := by
  unfold State.alignRow
  repeat' first
    | with_reducible assumption
    | intro _
    | with_reducible apply State.header_mem
    | with_reducible apply State.setFp_mem
    | with_reducible apply forEach_mem
    | with_reducible apply good_ite

theorem doAlign_mem {pq : Prop × List Instr} (p : Nat) (blocks : List AlignBlock) (s : State) (hs : MemGood pq s) : MemGood pq (doAlign p blocks s) := by
  unfold doAlign
  repeat' first
    | with_reducible assumption
    | intro _
    | with_reducible apply State.alignRow_mem
    | with_reducible apply State.whenDue_mem

theorem doLnkAlignSend_mem {pq : Prop × List Instr} (p : Nat) (s : State) (hs : MemGood pq s) : MemGood pq (doLnkAlignSend p s) := by
  unfold doLnkAlignSend
  repeat' first
    | with_reducible assumption
    | intro _
    | with_reducible apply State.sendControl_mem
    | with_reducible apply State.setFp_mem
    | with_reducible apply State.whenDue_mem

theorem doLnkEyeUpdate_mem {pq : Prop × List Instr} (i : Nat) (l : Nat) (eye : Nat) (eq : Nat) (s : State) (hs : MemGood pq s) : MemGood pq (doLnkEyeUpdate i l eye eq s) := by
  unfold doLnkEyeUpdate
  repeat' first
    | with_reducible assumption
    | intro _
    | with_reducible apply State.irq_mem
    | with_reducible apply State.note_mem
    | with_reducible apply State.setFp_mem
    | with_reducible apply State.whenDue_mem
    | with_reducible apply State.wrN_mem
    | with_reducible apply good_ite

theorem State.lastingFail_mem {pq : Prop × List Instr} (s : State) (p : Nat) (retried : Bool) (hs : MemGood pq s) : MemGood pq (State.lastingFail s p retried) := by
  unfold State.lastingFail
  repeat' first
    | with_reducible assumption
    | intro _
    | with_reducible apply State.countF_mem
    | with_reducible apply State.detect_mem
    | with_reducible apply State.portUp_mem

theorem doLnkEyeRetrain_mem {pq : Prop × List Instr} (p : Nat) (s : State) (hs : MemGood pq s) : MemGood pq (doLnkEyeRetrain p s) := by
  unfold doLnkEyeRetrain
  repeat' first
    | with_reducible assumption
    | intro _
    | with_reducible apply State.lastingFail_mem
    | with_reducible apply State.whenDue_mem

theorem State.sendNew_mem {pq : Prop × List Instr} (s : State) (p : Nat) (f : Frame) (hs : MemGood pq s) : MemGood pq (State.sendNew s p f) := by
  unfold State.sendNew
  repeat' first
    | with_reducible assumption
    | intro _
    | with_reducible apply State.putFrame_mem
    | with_reducible apply State.setFp_mem

theorem State.xferFrame_mem {pq : Prop × List Instr} (s : State) (p : Nat) (src : Nat) (dst : Nat) (n : Nat) (hs : MemGood pq s) : MemGood pq (State.xferFrame s p src dst n).1 := by
  unfold State.xferFrame
  repeat' first
    | with_reducible assumption
    | intro _
    | with_reducible apply State.dramAsk_mem
    | with_reducible apply State.dramGive_mem
    | with_reducible apply State.wrF_mem
    | with_reducible apply good_ite

theorem State.xferSend_mem {pq : Prop × List Instr} (s : State) (p : Nat) (hs : MemGood pq s) : MemGood pq (State.xferSend s p) := by
  unfold State.xferSend
  repeat' first
    | with_reducible assumption
    | intro _
    | with_reducible apply State.sendNew_mem
    | with_reducible apply State.setFp_mem
    | with_reducible apply State.xferFrame_mem
    | with_reducible apply good_ite
    | with_reducible apply good_ite_fst
    | fail_if_no_progress beta_reduce
    | fail_if_no_progress extract_lets +onlyGivenNames x
    | split

theorem State.frameSend_mem {pq : Prop × List Instr} (s : State) (p : Nat) (hs : MemGood pq s) : MemGood pq (State.frameSend s p) := by
  unfold State.frameSend
  repeat' first
    | with_reducible assumption
    | intro _
    | with_reducible apply State.putFrame_mem
    | with_reducible apply State.sendNew_mem
    | with_reducible apply State.setFp_mem
    | with_reducible apply State.xferSend_mem
    | with_reducible apply good_ite
    | with_reducible apply good_ite_fst
    | fail_if_no_progress beta_reduce
    | fail_if_no_progress extract_lets +onlyGivenNames x
    | split

theorem doLnkFrameSend_mem {pq : Prop × List Instr} (p : Nat) (s : State) (hs : MemGood pq s) : MemGood pq (doLnkFrameSend p s) := by
  unfold doLnkFrameSend
  repeat' first
    | with_reducible assumption
    | intro _
    | with_reducible apply State.frameSend_mem
    | with_reducible apply State.whenDue_mem

theorem State.sendAck_mem {pq : Prop × List Instr} (s : State) (p : Nat) (hs : MemGood pq s) : MemGood pq (State.sendAck s p) := by
  unfold State.sendAck
  repeat' first
    | with_reducible assumption
    | intro _
    | with_reducible apply State.sendVc0_mem
    | with_reducible apply State.setFp_mem

theorem State.badFrame_mem {pq : Prop × List Instr} (s : State) (p : Nat) (hs : MemGood pq s) : MemGood pq (State.badFrame s p) := by
  unfold State.badFrame
  repeat' first
    | with_reducible assumption
    | intro _
    | with_reducible apply State.sendVc0_mem
    | with_reducible apply State.setFp_mem
    | with_reducible apply good_ite

theorem State.sequenced_mem {pq : Prop × List Instr} (s : State) (p : Nat) (seq : Nat) (k : State → State) (hs : MemGood pq s) (hk : ∀ (x0 : State), MemGood pq x0 → MemGood pq (k x0)) : MemGood pq (State.sequenced s p seq k) := by
  unfold State.sequenced
  repeat' first
    | with_reducible assumption
    | intro _
    | with_reducible apply State.badFrame_mem
    | with_reducible apply State.detect_mem
    | with_reducible apply State.injOnce_mem
    | with_reducible apply State.injected_mem
    | with_reducible apply State.sendAck_mem
    | with_reducible apply State.setFp_mem
    | with_reducible apply hk
    | with_reducible apply good_ite

theorem doItem_mem {pq : Prop × List Instr} (p : Nat) (b : List Byte) (s : State) (hs : MemGood pq s) : MemGood pq (doItem p b s) := by
  unfold doItem
  repeat' first
    | with_reducible assumption
    | intro _
    | with_reducible apply State.onFrame_mem
    | with_reducible apply State.sequenced_mem
    | with_reducible apply State.setFp_mem
    | with_reducible apply State.takeIn_mem

theorem State.laneWrite_mem {pq : Prop × List Instr} (s : State) (p : Nat) (a : Nat) (poison : Bool) (data : List Byte) (hs : MemGood pq s) : MemGood pq (State.laneWrite s p a poison data) := by
  unfold State.laneWrite
  repeat' first
    | with_reducible assumption
    | intro _
    | with_reducible apply State.keepOld_mem
    | with_reducible apply State.dramPut_mem
    | with_reducible apply State.setBad_mem
    | with_reducible apply forEach_mem
    | with_reducible apply good_ite

theorem doWrite_mem {pq : Prop × List Instr} (p : Nat) (b : List Byte) (s : State) (hs : MemGood pq s) : MemGood pq (doWrite p b s) := by
  unfold doWrite
  repeat' first
    | with_reducible assumption
    | intro _
    | with_reducible apply State.count_mem
    | with_reducible apply State.laneWrite_mem
    | with_reducible apply State.onFrame_mem
    | with_reducible apply State.sequenced_mem
    | with_reducible apply State.setFp_mem
    | with_reducible apply good_ite

theorem doFrameBad_mem {pq : Prop × List Instr} (p : Nat) (b : List Byte) (s : State) (hs : MemGood pq s) : MemGood pq (doFrameBad p b s) := by
  unfold doFrameBad
  repeat' first
    | with_reducible assumption
    | intro _
    | with_reducible apply State.badFrame_mem
    | with_reducible apply State.whenDue_mem

theorem State.xferDone_mem {pq : Prop × List Instr} (s : State) (p : Nat) (hs : MemGood pq s) : MemGood pq (State.xferDone s p) := by
  unfold State.xferDone
  repeat' first
    | with_reducible assumption
    | intro _
    | with_reducible apply State.wrF_mem
    | with_reducible apply State.xferEnd_mem
    | with_reducible apply good_ite
    | with_reducible apply good_ite_fst
    | fail_if_no_progress beta_reduce
    | fail_if_no_progress extract_lets +onlyGivenNames x
    | split

theorem doAck_mem {pq : Prop × List Instr} (p : Nat) (b : List Byte) (s : State) (hs : MemGood pq s) : MemGood pq (doAck p b s) := by
  unfold doAck
  repeat' first
    | with_reducible assumption
    | intro _
    | with_reducible apply State.onFrame_mem
    | with_reducible apply State.setFp_mem
    | with_reducible apply State.xferDone_mem

theorem doNak_mem {pq : Prop × List Instr} (p : Nat) (b : List Byte) (s : State) (hs : MemGood pq s) : MemGood pq (doNak p b s) := by
  unfold doNak
  repeat' first
    | with_reducible assumption
    | intro _
    | with_reducible apply State.count_mem
    | with_reducible apply State.onFrame_mem
    | with_reducible apply State.setFp_mem
    | with_reducible apply good_ite

theorem doCredit_mem {pq : Prop × List Instr} (p : Nat) (b : List Byte) (s : State) (hs : MemGood pq s) : MemGood pq (doCredit p b s) := by
  unfold doCredit
  repeat' first
    | with_reducible assumption
    | intro _
    | with_reducible apply State.onFrame_mem
    | with_reducible apply State.setFp_mem

theorem doLnkAckTimer_mem {pq : Prop × List Instr} (p : Nat) (s : State) (hs : MemGood pq s) : MemGood pq (doLnkAckTimer p s) := by
  unfold doLnkAckTimer
  repeat' first
    | with_reducible assumption
    | intro _
    | with_reducible apply State.sendAck_mem
    | with_reducible apply State.whenDue_mem

theorem doLnkCreditTimer_mem {pq : Prop × List Instr} (p : Nat) (s : State) (hs : MemGood pq s) : MemGood pq (doLnkCreditTimer p s) := by
  unfold doLnkCreditTimer
  repeat' first
    | with_reducible assumption
    | intro _
    | with_reducible apply State.sendVc0_mem
    | with_reducible apply State.setFp_mem
    | with_reducible apply State.whenDue_mem

theorem doLnkReplayTimeout_mem {pq : Prop × List Instr} (p : Nat) (s : State) (hs : MemGood pq s) : MemGood pq (doLnkReplayTimeout p s) := by
  unfold doLnkReplayTimeout
  repeat' first
    | with_reducible assumption
    | intro _
    | with_reducible apply State.replayAll_mem
    | with_reducible apply State.setFp_mem
    | with_reducible apply State.whenDue_mem

theorem doLnkLastingFailure_mem {pq : Prop × List Instr} (p : Nat) (s : State) (hs : MemGood pq s) : MemGood pq (doLnkLastingFailure p s) := by
  unfold doLnkLastingFailure
  repeat' first
    | with_reducible assumption
    | intro _
    | with_reducible apply State.lastingFail_mem
    | with_reducible apply State.whenDue_mem

theorem doTxSleep_mem {pq : Prop × List Instr} (dom : Nat) (p : Nat) (s : State) (hs : MemGood pq s) : MemGood pq (doTxSleep dom p s) := by
  unfold doTxSleep
  repeat' first
    | with_reducible assumption
    | intro _
    | with_reducible apply State.enterUnit_mem
    | with_reducible apply State.hostWrite_mem
    | with_reducible apply State.noteReg_mem
    | with_reducible apply good_ite

theorem doTxWake_mem {pq : Prop × List Instr} (dom : Nat) (p : Nat) (s : State) (hs : MemGood pq s) : MemGood pq (doTxWake dom p s) := by
  unfold doTxWake
  repeat' first
    | with_reducible assumption
    | intro _
    | with_reducible apply State.hostWrite_mem
    | with_reducible apply State.sourceNow_mem
    | with_reducible apply State.txWake_mem
    | with_reducible apply good_ite

theorem doLnkSleepAp2_mem {pq : Prop × List Instr} (p : Nat) (s : State) (hs : MemGood pq s) : MemGood pq (doLnkSleepAp2 p s) := by
  unfold doLnkSleepAp2
  repeat' first
    | with_reducible assumption
    | intro _
    | with_reducible apply State.sendControl_mem
    | with_reducible apply State.setUnit_mem
    | with_reducible apply State.whenDue_mem

theorem doLnkSleepAp2Timeout_mem {pq : Prop × List Instr} (p : Nat) (s : State) (hs : MemGood pq s) : MemGood pq (doLnkSleepAp2Timeout p s) := by
  unfold doLnkSleepAp2Timeout
  repeat' first
    | with_reducible assumption
    | intro _
    | with_reducible apply State.note_mem
    | with_reducible apply State.setUnit_mem
    | with_reducible apply State.whenDue_mem

theorem doSleep_mem {pq : Prop × List Instr} (p : Nat) (s : State) (hs : MemGood pq s) : MemGood pq (doSleep p s) := by
  unfold doSleep
  repeat' first
    | with_reducible assumption
    | intro _
    | with_reducible apply State.whenDue_mem
    | with_reducible apply State.wrF_mem

theorem doLnkWakeBurst_mem {pq : Prop × List Instr} (p : Nat) (s : State) (hs : MemGood pq s) : MemGood pq (doLnkWakeBurst p s) := by
  unfold doLnkWakeBurst
  repeat' first
    | with_reducible assumption
    | intro _
    | with_reducible apply State.whenDue_mem
    | with_reducible apply State.wrF_mem

theorem doXfer_mem {pq : Prop × List Instr} (dom : Nat) (p : Nat) (s : State) (hs : MemGood pq s) : MemGood pq (doXfer dom p s) := by
  unfold doXfer
  repeat' first
    | with_reducible assumption
    | intro _
    | with_reducible apply State.hostWrite_mem
    | with_reducible apply State.noteReg_mem
    | with_reducible apply State.setFp_mem
    | with_reducible apply State.txWake_mem
    | with_reducible apply State.wrN_mem
    | with_reducible apply State.xferEnd_mem
    | with_reducible apply good_ite

theorem doXabort_mem {pq : Prop × List Instr} (dom : Nat) (p : Nat) (s : State) (hs : MemGood pq s) : MemGood pq (doXabort dom p s) := by
  unfold doXabort
  repeat' first
    | with_reducible assumption
    | intro _
    | with_reducible apply State.hostWrite_mem
    | with_reducible apply State.xferEnd_mem
    | with_reducible apply good_ite

theorem doLnkCmdInvalid_mem {pq : Prop × List Instr} (dom : Nat) (p : Nat) (v : Word) (s : State) (hs : MemGood pq s) : MemGood pq (doLnkCmdInvalid dom p v s) := by
  unfold doLnkCmdInvalid
  repeat' first
    | with_reducible assumption
    | intro _
    | with_reducible apply State.hostWrite_mem
    | with_reducible apply State.noteReg_mem
    | with_reducible apply good_ite

end Sys2Proof.Machine
end

