-- ==== Sys2Proof/Laws/MemPel.lean ====
section
/-! SUPPORT. Every operation of Machine/Pel.lean keeps the canonical form of the byte memories and the queue. -/

namespace Sys2Proof.Machine

open Sys2Proof


theorem doPelValueWrite_mem {pq : Prop × List Instr} (dom : Nat) (c : Nat) (r : Nat) (v : Word) (s : State) (hs : MemGood pq s) : MemGood pq (doPelValueWrite dom c r v s) := by
  unfold doPelValueWrite
  repeat' first
    | with_reducible assumption
    | intro _
    | with_reducible apply State.hostWrite_mem
    | with_reducible apply State.irq_mem
    | with_reducible apply State.noteReg_mem
    | with_reducible apply State.stageWrite_mem
    | with_reducible apply State.wrN_mem
    | with_reducible apply good_ite
    | with_reducible apply good_ite_fst
    | fail_if_no_progress beta_reduce
    | fail_if_no_progress extract_lets +onlyGivenNames x
    | split

theorem doClearTrip_mem {pq : Prop × List Instr} (dom : Nat) (c : Nat) (s : State) (hs : MemGood pq s) : MemGood pq (doClearTrip dom c s) := by
  unfold doClearTrip
  repeat' first
    | with_reducible assumption
    | intro _
    | with_reducible apply State.hostWrite_mem
    | with_reducible apply State.irq_mem
    | with_reducible apply State.landSet_mem
    | with_reducible apply State.noteReg_mem
    | with_reducible apply State.wrF_mem
    | with_reducible apply State.wrN_mem
    | with_reducible apply good_ite

theorem doRefl_mem {pq : Prop × List Instr} (dom : Nat) (c : Nat) (s : State) (hs : MemGood pq s) : MemGood pq (doRefl dom c s) := by
  unfold doRefl
  repeat' first
    | with_reducible assumption
    | intro _
    | with_reducible apply State.hostWrite_mem
    | with_reducible apply State.irq_mem
    | with_reducible apply State.landOff_mem
    | with_reducible apply State.send_mem
    | with_reducible apply State.setCh_mem
    | with_reducible apply State.wakeNow_mem
    | with_reducible apply State.wrF_mem
    | with_reducible apply State.wrN_mem
    | with_reducible apply good_ite

theorem doPelCmdInvalid_mem {pq : Prop × List Instr} (dom : Nat) (c : Nat) (v : Word) (s : State) (hs : MemGood pq s) : MemGood pq (doPelCmdInvalid dom c v s) := by
  unfold doPelCmdInvalid
  repeat' first
    | with_reducible assumption
    | intro _
    | with_reducible apply State.hostWrite_mem
    | with_reducible apply State.noteReg_mem
    | with_reducible apply good_ite

theorem State.reflEnd_mem {pq : Prop × List Instr} (s : State) (c : Nat) (status : Nat) (tau : Nat) (hs : MemGood pq s) : MemGood pq (State.reflEnd s c status tau) := by
  unfold State.reflEnd
  repeat' first
    | with_reducible assumption
    | intro _
    | with_reducible apply State.irq_mem
    | with_reducible apply State.landSet_mem
    | with_reducible apply State.setCh_mem
    | with_reducible apply State.workNow_mem
    | with_reducible apply State.wrF_mem
    | with_reducible apply State.wrN_mem

theorem State.reflAbort_mem {pq : Prop × List Instr} (s : State) (c : Nat) (hs : MemGood pq s) : MemGood pq (State.reflAbort s c) := by
  unfold State.reflAbort
  repeat' first
    | with_reducible assumption
    | intro _
    | with_reducible apply State.reflEnd_mem
    | with_reducible apply good_ite

theorem doPelReflDone_mem {pq : Prop × List Instr} (c : Nat) (obs : List (Option (Nat × Option Nat))) (s : State) (hs : MemGood pq s) : MemGood pq (doPelReflDone c obs s) := by
  unfold doPelReflDone
  repeat' first
    | with_reducible assumption
    | intro _
    | with_reducible apply State.drawn_mem
    | with_reducible apply State.reflEnd_mem
    | with_reducible apply State.whenDue_mem
    | with_reducible apply State.wrN_mem
    | with_reducible apply good_ite

theorem doPelTrip_mem {pq : Prop × List Instr} (c : Nat) (s : State) (hs : MemGood pq s) : MemGood pq (doPelTrip c s) := by
  unfold doPelTrip
  repeat' first
    | with_reducible assumption
    | intro _
    | with_reducible apply State.pelTrip_mem
    | with_reducible apply State.whenDue_mem

theorem doPmuClampEntry_mem {pq : Prop × List Instr} (c : Nat) (s : State) (hs : MemGood pq s) : MemGood pq (doPmuClampEntry c s) := by
  unfold doPmuClampEntry
  repeat' first
    | with_reducible assumption
    | intro _
    | with_reducible apply State.count_mem
    | with_reducible apply State.irq_mem
    | with_reducible apply State.whenDue_mem
    | with_reducible apply State.wrF_mem
    | with_reducible apply good_ite

theorem doPmuClampExit_mem {pq : Prop × List Instr} (c : Nat) (s : State) (hs : MemGood pq s) : MemGood pq (doPmuClampExit c s) := by
  unfold doPmuClampExit
  repeat' first
    | with_reducible assumption
    | intro _
    | with_reducible apply State.whenDue_mem
    | with_reducible apply State.wrF_mem

theorem State.pmuOff_mem {pq : Prop × List Instr} (s : State) (c : Nat) (hs : MemGood pq s) : MemGood pq (State.pmuOff s c) := by
  unfold State.pmuOff
  repeat' first
    | with_reducible assumption
    | intro _
    | with_reducible apply State.pinChange_mem
    | with_reducible apply State.pmuApply_mem
    | with_reducible apply State.setApv_mem
    | with_reducible apply State.wrF_mem

theorem doPelTempCrossing_mem {pq : Prop × List Instr} (t : Nat) (deg : Word) (s : State) (hs : MemGood pq s) : MemGood pq (doPelTempCrossing t deg s) := by
  unfold doPelTempCrossing
  repeat' first
    | with_reducible assumption
    | intro _
    | with_reducible apply State.modFault_mem
    | with_reducible apply State.note_mem
    | with_reducible apply State.pelTrip_mem
    | with_reducible apply State.pmuOff_mem
    | with_reducible apply State.whenDue_mem
    | with_reducible apply State.wrN_mem
    | with_reducible apply forEach_mem
    | with_reducible apply good_ite

end Sys2Proof.Machine
end

