-- ==== Sys2Proof/Laws/MemMtb.lean ====
section
/-! SUPPORT. Every operation of Machine/Mtb.lean keeps the canonical form of the byte memories and the queue. -/

namespace Sys2Proof.Machine

open Sys2Proof


theorem State.setMtbState_mem {pq : Prop × List Instr} (s : State) (st : Nat) (hs : MemGood pq s) : MemGood pq (State.setMtbState s st) := by
  unfold State.setMtbState
  repeat' first
    | with_reducible assumption
    | intro _
    | with_reducible apply State.wrF_mem

theorem State.clearTheta_mem {pq : Prop × List Instr} (s : State) (hs : MemGood pq s) : MemGood pq (State.clearTheta s) := by
  unfold State.clearTheta
  repeat' first
    | with_reducible assumption
    | intro _
    | with_reducible apply good_ite
    | with_reducible apply good_ite_fst
    | fail_if_no_progress beta_reduce
    | fail_if_no_progress extract_lets +onlyGivenNames x
    | split
    | fail_if_no_progress with_reducible apply good_mk

theorem State.clockShow_mem {pq : Prop × List Instr} (s : State) (hs : MemGood pq s) : MemGood pq (State.clockShow s) := by
  unfold State.clockShow
  repeat' first
    | with_reducible assumption
    | intro _
    | with_reducible apply State.wrF_mem
    | with_reducible apply good_ite

theorem State.takeUp_mem {pq : Prop × List Instr} (s : State) (l : Nat) (hs : MemGood pq s) : MemGood pq (State.takeUp s l) := by
  unfold State.takeUp
  repeat' first
    | with_reducible assumption
    | intro _
    | with_reducible apply State.clearTheta_mem
    | with_reducible apply State.clockShow_mem
    | with_reducible apply State.setMtbState_mem
    | with_reducible apply State.wrF_mem

theorem State.dropUp_mem {pq : Prop × List Instr} (s : State) (hs : MemGood pq s) : MemGood pq (State.dropUp s) := by
  unfold State.dropUp
  repeat' first
    | with_reducible assumption
    | intro _
    | with_reducible apply State.wrF_mem

theorem State.slewFromNow_mem {pq : Prop × List Instr} (s : State) (hs : MemGood pq s) : MemGood pq (State.slewFromNow s) := by
  unfold State.slewFromNow
  repeat' first
    | with_reducible assumption
    | intro _
    | with_reducible apply good_ite
    | with_reducible apply good_ite_fst
    | fail_if_no_progress beta_reduce
    | fail_if_no_progress extract_lets +onlyGivenNames x
    | split
    | fail_if_no_progress with_reducible apply good_mk

theorem State.chooseUp_mem {pq : Prop × List Instr} (s : State) (hs : MemGood pq s) : MemGood pq (State.chooseUp s) := by
  unfold State.chooseUp
  repeat' first
    | with_reducible assumption
    | intro _
    | with_reducible apply State.slewFromNow_mem
    | with_reducible apply State.takeUp_mem
    | with_reducible apply good_ite
    | with_reducible apply good_ite_fst
    | fail_if_no_progress beta_reduce
    | fail_if_no_progress extract_lets +onlyGivenNames x
    | split

theorem State.upstreamLost_mem {pq : Prop × List Instr} (s : State) (hs : MemGood pq s) : MemGood pq (State.upstreamLost s) := by
  unfold State.upstreamLost
  repeat' first
    | with_reducible assumption
    | intro _
    | with_reducible apply State.chooseUp_mem
    | with_reducible apply State.clearTheta_mem
    | with_reducible apply State.dropUp_mem
    | with_reducible apply State.irq_mem
    | with_reducible apply State.setMtbState_mem
    | with_reducible apply State.slewFromNow_mem
    | with_reducible apply good_ite
    | with_reducible apply good_ite_fst
    | fail_if_no_progress beta_reduce
    | fail_if_no_progress extract_lets +onlyGivenNames x
    | split
    | fail_if_no_progress with_reducible apply good_mk

theorem State.discontinuity_mem {pq : Prop × List Instr} (s : State) (hs : MemGood pq s) : MemGood pq (State.discontinuity s) := by
  unfold State.discontinuity
  repeat' first
    | with_reducible assumption
    | intro _
    | with_reducible apply State.count_mem
    | with_reducible apply State.irq_mem

theorem State.masterFail_mem {pq : Prop × List Instr} (s : State) (hs : MemGood pq s) : MemGood pq (State.masterFail s) := by
  unfold State.masterFail
  repeat' first
    | with_reducible assumption
    | intro _
    | with_reducible apply State.setMtbState_mem
    | with_reducible apply good_ite
    | with_reducible apply good_ite_fst
    | fail_if_no_progress beta_reduce
    | fail_if_no_progress extract_lets +onlyGivenNames x
    | split
    | fail_if_no_progress with_reducible apply good_mk

theorem State.takeover_mem {pq : Prop × List Instr} (s : State) (cause : Nat) (hs : MemGood pq s) : MemGood pq (State.takeover s cause) := by
  unfold State.takeover
  repeat' first
    | with_reducible assumption
    | intro _
    | with_reducible apply State.countF_mem
    | with_reducible apply State.dropUp_mem
    | with_reducible apply State.irq_mem
    | with_reducible apply State.note_mem
    | with_reducible apply State.setMtbState_mem
    | with_reducible apply State.wrF_mem
    | with_reducible apply State.wrWide_mem
    | with_reducible apply good_ite
    | with_reducible apply good_ite_fst
    | fail_if_no_progress beta_reduce
    | fail_if_no_progress extract_lets +onlyGivenNames x
    | split
    | fail_if_no_progress with_reducible apply good_mk

theorem State.launch_mem {pq : Prop × List Instr} (s : State) (l : Nat) (sym : Nat) (data : List Byte) (hs : MemGood pq s) : MemGood pq (State.launch s l sym data) := by
  unfold State.launch
  repeat' first
    | with_reducible assumption
    | intro _
    | with_reducible apply State.timeSend_mem
    | with_reducible apply good_ite

theorem doMtbTimeSend_mem {pq : Prop × List Instr} (l : Nat) (s : State) (hs : MemGood pq s) : MemGood pq (doMtbTimeSend l s) := by
  unfold doMtbTimeSend
  repeat' first
    | with_reducible assumption
    | intro _
    | with_reducible apply State.launch_mem
    | with_reducible apply State.whenDue_mem

theorem doMtbEchoSend_mem {pq : Prop × List Instr} (l : Nat) (s : State) (hs : MemGood pq s) : MemGood pq (doMtbEchoSend l s) := by
  unfold doMtbEchoSend
  repeat' first
    | with_reducible assumption
    | intro _
    | with_reducible apply State.launch_mem
    | with_reducible apply State.setTl_mem
    | with_reducible apply State.whenDue_mem

theorem doEchoRequest_mem {pq : Prop × List Instr} (l : Nat) (q : Nat) (t : Nat) (s : State) (hs : MemGood pq s) : MemGood pq (doEchoRequest l q t s) := by
  unfold doEchoRequest
  repeat' first
    | with_reducible assumption
    | intro _
    | with_reducible apply State.launch_mem
    | with_reducible apply State.whenDue_mem

theorem doMtbMirrorSend_mem {pq : Prop × List Instr} (s : State) (hs : MemGood pq s) : MemGood pq (doMtbMirrorSend s) := by
  unfold doMtbMirrorSend
  repeat' first
    | with_reducible assumption
    | intro _
    | with_reducible apply State.launch_mem
    | with_reducible apply State.whenDue_mem
    | with_reducible apply good_ite
    | with_reducible apply good_ite_fst
    | fail_if_no_progress beta_reduce
    | fail_if_no_progress extract_lets +onlyGivenNames x
    | split
    | fail_if_no_progress with_reducible apply good_mk

theorem doTime_mem {pq : Prop × List Instr} (l : Nat) (tk : Nat) (t : Nat) (s : State) (hs : MemGood pq s) : MemGood pq (doTime l tk t s) := by
  unfold doTime
  repeat' first
    | with_reducible assumption
    | intro _
    | with_reducible apply State.setTl_mem
    | with_reducible apply State.whenDue_mem

theorem State.stepTime_mem {pq : Prop × List Instr} (s : State) (d : Int) (hs : MemGood pq s) : MemGood pq (State.stepTime s d) := by
  unfold State.stepTime
  repeat' first
    | with_reducible assumption
    | intro _
    | with_reducible apply good_ite
    | with_reducible apply good_ite_fst
    | fail_if_no_progress beta_reduce
    | fail_if_no_progress extract_lets +onlyGivenNames x
    | split
    | fail_if_no_progress with_reducible apply good_mk

theorem State.correct_mem {pq : Prop × List Instr} (s : State) (theta : Int) (hs : MemGood pq s) : MemGood pq (State.correct s theta) := by
  unfold State.correct
  repeat' first
    | with_reducible assumption
    | intro _
    | with_reducible apply State.discontinuity_mem
    | with_reducible apply State.stepTime_mem
    | with_reducible apply State.wrF_mem
    | with_reducible apply good_ite

theorem State.putOfs_mem {pq : Prop × List Instr} (s : State) (l : List Int) (hs : MemGood pq s) : MemGood pq (State.putOfs s l) := by
  unfold State.putOfs
  repeat' first
    | with_reducible assumption
    | intro _
    | with_reducible apply State.drawn_mem
    | with_reducible apply State.wrN_mem

theorem State.exchange_mem {pq : Prop × List Instr} (s : State) (theta : Int) (hs : MemGood pq s) : MemGood pq (State.exchange s theta) := by
  unfold State.exchange
  repeat' first
    | with_reducible assumption
    | intro _
    | with_reducible apply State.correct_mem
    | with_reducible apply State.irq_mem
    | with_reducible apply State.note_mem
    | with_reducible apply State.putOfs_mem
    | with_reducible apply State.setMtbState_mem
    | with_reducible apply good_ite
    | with_reducible apply good_ite_fst
    | fail_if_no_progress beta_reduce
    | fail_if_no_progress extract_lets +onlyGivenNames x
    | split
    | fail_if_no_progress with_reducible apply good_mk

theorem State.replyFlags_mem {pq : Prop × List Instr} (s : State) (l : Nat) (b : Nat) (hs : MemGood pq s) : MemGood pq (State.replyFlags s l b) := by
  unfold State.replyFlags
  repeat' first
    | with_reducible assumption
    | intro _
    | with_reducible apply State.chooseUp_mem
    | with_reducible apply State.setTl_mem
    | with_reducible apply State.upstreamLost_mem
    | with_reducible apply State.wrF_mem
    | with_reducible apply good_ite

theorem State.measureReply_mem {pq : Prop × List Instr} (s : State) (l : Nat) (t1 : Nat) (t2 : Nat) (tk : Nat) (t4 : Nat) (hs : MemGood pq s) : MemGood pq (State.measureReply s l t1 t2 tk t4) := by
  unfold State.measureReply
  repeat' first
    | with_reducible assumption
    | intro _
    | with_reducible apply State.exchange_mem
    | with_reducible apply State.note_mem
    | with_reducible apply State.setTl_mem
    | with_reducible apply State.upstreamLost_mem
    | with_reducible apply State.wrN_mem
    | with_reducible apply good_ite

theorem doEchoReply_mem {pq : Prop × List Instr} (l : Nat) (t2 : Nat) (q : Nat) (b : Nat) (t : Nat) (s : State) (hs : MemGood pq s) : MemGood pq (doEchoReply l t2 q b t s) := by
  unfold doEchoReply
  repeat' first
    | with_reducible assumption
    | intro _
    | with_reducible apply State.measureReply_mem
    | with_reducible apply State.replyFlags_mem
    | with_reducible apply State.whenDue_mem
    | with_reducible apply good_ite
    | with_reducible apply good_ite_fst
    | fail_if_no_progress beta_reduce
    | fail_if_no_progress extract_lets +onlyGivenNames x
    | split

theorem doMtbUpstreamLoss_mem {pq : Prop × List Instr} (s : State) (hs : MemGood pq s) : MemGood pq (doMtbUpstreamLoss s) := by
  unfold doMtbUpstreamLoss
  repeat' first
    | with_reducible assumption
    | intro _
    | with_reducible apply State.upstreamLost_mem
    | with_reducible apply State.whenDue_mem

theorem doMtbHoldoverLimit_mem {pq : Prop × List Instr} (s : State) (hs : MemGood pq s) : MemGood pq (doMtbHoldoverLimit s) := by
  unfold doMtbHoldoverLimit
  repeat' first
    | with_reducible assumption
    | intro _
    | with_reducible apply State.irq_mem
    | with_reducible apply State.note_mem
    | with_reducible apply State.setMtbState_mem
    | with_reducible apply State.whenDue_mem
    | with_reducible apply good_ite
    | with_reducible apply good_ite_fst
    | fail_if_no_progress beta_reduce
    | fail_if_no_progress extract_lets +onlyGivenNames x
    | split
    | fail_if_no_progress with_reducible apply good_mk

theorem State.peerActive_mem {pq : Prop × List Instr} (s : State) (hs : MemGood pq s) : MemGood pq (State.peerActive s) := by
  unfold State.peerActive
  repeat' first
    | with_reducible assumption
    | intro _
    | with_reducible apply State.note_mem
    | with_reducible apply State.takeUp_mem
    | with_reducible apply good_ite
    | with_reducible apply good_ite_fst
    | fail_if_no_progress beta_reduce
    | fail_if_no_progress extract_lets +onlyGivenNames x
    | split
    | fail_if_no_progress with_reducible apply good_mk

theorem doMirror_mem {pq : Prop × List Instr} (tk : Nat) (b : Nat) (t : Nat) (s : State) (hs : MemGood pq s) : MemGood pq (doMirror tk b t s) := by
  unfold doMirror
  repeat' first
    | with_reducible assumption
    | intro _
    | with_reducible apply State.peerActive_mem
    | with_reducible apply State.setTl_mem
    | with_reducible apply State.takeover_mem
    | with_reducible apply State.whenDue_mem
    | with_reducible apply good_ite
    | with_reducible apply good_ite_fst
    | fail_if_no_progress beta_reduce
    | fail_if_no_progress extract_lets +onlyGivenNames x
    | split
    | fail_if_no_progress with_reducible apply good_mk

theorem doMtbMirrorTimeout_mem {pq : Prop × List Instr} (s : State) (hs : MemGood pq s) : MemGood pq (doMtbMirrorTimeout s) := by
  unfold doMtbMirrorTimeout
  repeat' first
    | with_reducible assumption
    | intro _
    | with_reducible apply State.takeover_mem
    | with_reducible apply State.whenDue_mem

theorem doMtbMasterElect_mem {pq : Prop × List Instr} (s : State) (hs : MemGood pq s) : MemGood pq (doMtbMasterElect s) := by
  unfold doMtbMasterElect
  repeat' first
    | with_reducible assumption
    | intro _
    | with_reducible apply State.setMtbState_mem
    | with_reducible apply State.whenDue_mem
    | with_reducible apply State.wrF_mem
    | with_reducible apply good_ite
    | with_reducible apply good_ite_fst
    | fail_if_no_progress beta_reduce
    | fail_if_no_progress extract_lets +onlyGivenNames x
    | split
    | fail_if_no_progress with_reducible apply good_mk

theorem doTakeover_mem {pq : Prop × List Instr} (dom : Nat) (s : State) (hs : MemGood pq s) : MemGood pq (doTakeover dom s) := by
  unfold doTakeover
  repeat' first
    | with_reducible assumption
    | intro _
    | with_reducible apply State.hostWrite_mem
    | with_reducible apply State.noteReg_mem
    | with_reducible apply State.takeover_mem
    | with_reducible apply good_ite

theorem doYield_mem {pq : Prop × List Instr} (dom : Nat) (s : State) (hs : MemGood pq s) : MemGood pq (doYield dom s) := by
  unfold doYield
  repeat' first
    | with_reducible assumption
    | intro _
    | with_reducible apply State.hostWrite_mem
    | with_reducible apply State.masterFail_mem
    | with_reducible apply State.noteReg_mem
    | with_reducible apply good_ite

theorem doMtbCmdInvalid_mem {pq : Prop × List Instr} (dom : Nat) (v : Word) (s : State) (hs : MemGood pq s) : MemGood pq (doMtbCmdInvalid dom v s) := by
  unfold doMtbCmdInvalid
  repeat' first
    | with_reducible assumption
    | intro _
    | with_reducible apply State.hostWrite_mem
    | with_reducible apply State.noteReg_mem
    | with_reducible apply good_ite

theorem doMtbCtlWrite_mem {pq : Prop × List Instr} (dom : Nat) (v : Word) (s : State) (hs : MemGood pq s) : MemGood pq (doMtbCtlWrite dom v s) := by
  unfold doMtbCtlWrite
  repeat' first
    | with_reducible assumption
    | intro _
    | with_reducible apply State.clearTheta_mem
    | with_reducible apply State.clockShow_mem
    | with_reducible apply State.dropUp_mem
    | with_reducible apply State.hostWrite_mem
    | with_reducible apply State.setMtbState_mem
    | with_reducible apply State.wrRow_mem
    | with_reducible apply good_ite
    | with_reducible apply good_ite_fst
    | fail_if_no_progress beta_reduce
    | fail_if_no_progress extract_lets +onlyGivenNames x
    | split
    | fail_if_no_progress with_reducible apply good_mk

theorem State.alignLost_mem {pq : Prop × List Instr} (s : State) (l : Nat) (hs : MemGood pq s) : MemGood pq (State.alignLost s l) := by
  unfold State.alignLost
  repeat' first
    | with_reducible assumption
    | intro _
    | with_reducible apply State.irq_mem
    | with_reducible apply State.takeover_mem
    | with_reducible apply State.upstreamLost_mem
    | with_reducible apply State.wrF_mem
    | with_reducible apply good_ite

theorem State.alignGained_mem {pq : Prop × List Instr} (s : State) (l : Nat) (hs : MemGood pq s) : MemGood pq (State.alignGained s l) := by
  unfold State.alignGained
  repeat' first
    | with_reducible assumption
    | intro _
    | with_reducible apply State.irq_mem
    | with_reducible apply State.setTl_mem
    | with_reducible apply State.wrF_mem

theorem State.tlSymbol_mem {pq : Prop × List Instr} (s : State) (l : Nat) (x : TlSymbol) (hs : MemGood pq s) : MemGood pq (State.tlSymbol s l x) := by
  unfold State.tlSymbol
  repeat' first
    | with_reducible assumption
    | intro _
    | with_reducible apply State.alignGained_mem
    | with_reducible apply State.alignLost_mem
    | with_reducible apply State.countF_mem
    | with_reducible apply State.setTl_mem
    | with_reducible apply good_ite
    | with_reducible apply good_ite_fst
    | fail_if_no_progress beta_reduce
    | fail_if_no_progress extract_lets +onlyGivenNames x
    | split

theorem State.tlSymbols_mem {pq : Prop × List Instr} (s : State) (l : Nat) (xs : List TlSymbol) (hs : MemGood pq s) : MemGood pq (State.tlSymbols s l xs) := by
  unfold State.tlSymbols
  repeat' first
    | with_reducible assumption
    | intro _
    | with_reducible apply State.tlSymbol_mem
    | with_reducible apply foldl_mem

theorem doTlAlignment_mem {pq : Prop × List Instr} (l : Nat) (xs : List TlSymbol) (s : State) (hs : MemGood pq s) : MemGood pq (doTlAlignment l xs s) := by
  unfold doTlAlignment
  repeat' first
    | with_reducible assumption
    | intro _
    | with_reducible apply State.tlSymbols_mem
    | with_reducible apply State.whenDue_mem

theorem doTlMessageBad_mem {pq : Prop × List Instr} (l : Nat) (xs : List TlSymbol) (s : State) (hs : MemGood pq s) : MemGood pq (doTlMessageBad l xs s) := by
  unfold doTlMessageBad
  repeat' first
    | with_reducible assumption
    | intro _
    | with_reducible apply State.count_mem
    | with_reducible apply State.tlSymbols_mem
    | with_reducible apply State.whenDue_mem

theorem State.syncLate_mem {pq : Prop × List Instr} (s : State) (hs : MemGood pq s) : MemGood pq (State.syncLate s) := by
  unfold State.syncLate
  repeat' first
    | with_reducible assumption
    | intro _
    | with_reducible apply State.count_mem
    | with_reducible apply State.irq_mem
    | with_reducible apply State.note_mem
    | with_reducible apply good_ite
    | with_reducible apply good_ite_fst
    | fail_if_no_progress beta_reduce
    | fail_if_no_progress extract_lets +onlyGivenNames x
    | split
    | fail_if_no_progress with_reducible apply good_mk

theorem State.syncIn_mem {pq : Prop × List Instr} (s : State) (l : Nat) (kind : Nat) (line : Nat) (low : Nat) (hs : MemGood pq s) : MemGood pq (State.syncIn s l kind line low) := by
  unfold State.syncIn
  repeat' first
    | with_reducible assumption
    | intro _
    | with_reducible apply State.deliverAt_mem
    | with_reducible apply State.syncEvent_mem
    | with_reducible apply State.syncLate_mem
    | with_reducible apply State.syncOut_mem
    | with_reducible apply good_ite
    | with_reducible apply good_ite_fst
    | fail_if_no_progress beta_reduce
    | fail_if_no_progress extract_lets +onlyGivenNames x
    | split
    | fail_if_no_progress with_reducible apply good_mk

theorem doSync_mem {pq : Prop × List Instr} (l : Nat) (v : Word) (s : State) (hs : MemGood pq s) : MemGood pq (doSync l v s) := by
  unfold doSync
  repeat' first
    | with_reducible assumption
    | intro _
    | with_reducible apply State.syncIn_mem
    | with_reducible apply State.whenDue_mem

theorem doTrig_mem {pq : Prop × List Instr} (l : Nat) (v : Word) (s : State) (hs : MemGood pq s) : MemGood pq (doTrig l v s) := by
  unfold doTrig
  repeat' first
    | with_reducible assumption
    | intro _
    | with_reducible apply State.syncIn_mem
    | with_reducible apply State.whenDue_mem

theorem doMtbSyncDeliver_mem {pq : Prop × List Instr} (s : State) (hs : MemGood pq s) : MemGood pq (doMtbSyncDeliver s) := by
  unfold doMtbSyncDeliver
  repeat' first
    | with_reducible assumption
    | intro _
    | with_reducible apply State.syncEvent_mem
    | with_reducible apply State.whenDue_mem
    | with_reducible apply good_ite
    | with_reducible apply good_ite_fst
    | fail_if_no_progress beta_reduce
    | fail_if_no_progress extract_lets +onlyGivenNames x
    | split
    | fail_if_no_progress with_reducible apply good_mk

theorem doXtInputEdge_mem {pq : Prop × List Instr} (x : Nat) (rising : Bool) (t : Nat) (s : State) (hs : MemGood pq s) : MemGood pq (doXtInputEdge x rising t s) := by
  unfold doXtInputEdge
  repeat' first
    | with_reducible assumption
    | intro _
    | with_reducible apply State.deliverAt_mem
    | with_reducible apply State.ownMessage_mem
    | with_reducible apply State.syncSoon_mem
    | with_reducible apply State.whenDue_mem
    | with_reducible apply State.wrWide_mem
    | with_reducible apply good_ite
    | with_reducible apply good_ite_fst
    | fail_if_no_progress beta_reduce
    | fail_if_no_progress extract_lets +onlyGivenNames x
    | split
    | fail_if_no_progress with_reducible apply good_mk

theorem doXtPulseEnd_mem {pq : Prop × List Instr} (x : Nat) (s : State) (hs : MemGood pq s) : MemGood pq (doXtPulseEnd x s) := by
  unfold doXtPulseEnd
  repeat' first
    | with_reducible assumption
    | intro _
    | with_reducible apply State.send_mem
    | with_reducible apply State.whenDue_mem
    | with_reducible apply good_ite
    | with_reducible apply good_ite_fst
    | fail_if_no_progress beta_reduce
    | fail_if_no_progress extract_lets +onlyGivenNames x
    | split
    | fail_if_no_progress with_reducible apply good_mk

end Sys2Proof.Machine
end

