-- ==== Sys2Proof/Laws/MemTmg.lean ====
section
/-! SUPPORT. Every operation of Machine/Tmg.lean keeps the canonical form of the byte memories and the queue. -/

namespace Sys2Proof.Machine

open Sys2Proof


theorem State.periodWrite_mem {pq : Prop × List Instr} (s : State) (dom : Nat) (n : Nat) (e : Nat) (v : Word) (hs : MemGood pq s) : MemGood pq (State.periodWrite s dom n e v) := by
  unfold State.periodWrite
  repeat' first
    | with_reducible assumption
    | intro _
    | with_reducible apply State.irq_mem
    | with_reducible apply State.noteReg_mem
    | with_reducible apply State.wrN_mem
    | with_reducible apply good_ite
    | with_reducible apply good_ite_fst
    | fail_if_no_progress beta_reduce
    | fail_if_no_progress extract_lets +onlyGivenNames x
    | split
    | fail_if_no_progress with_reducible apply good_mk

theorem doTmgPerHiWrite_mem {pq : Prop × List Instr} (dom : Nat) (n : Nat) (e : Nat) (v : Word) (s : State) (hs : MemGood pq s) : MemGood pq (doTmgPerHiWrite dom n e v s) := by
  unfold doTmgPerHiWrite
  repeat' first
    | with_reducible assumption
    | intro _
    | with_reducible apply State.hostWrite_mem
    | with_reducible apply State.periodWrite_mem

theorem doPaceClr_mem {pq : Prop × List Instr} (dom : Nat) (s : State) (hs : MemGood pq s) : MemGood pq (doPaceClr dom s) := by
  unfold doPaceClr
  repeat' first
    | with_reducible assumption
    | intro _
    | with_reducible apply State.hostWrite_mem
    | with_reducible apply State.wrN_mem

theorem doTmgCmdInvalid_mem {pq : Prop × List Instr} (dom : Nat) (v : Word) (s : State) (hs : MemGood pq s) : MemGood pq (doTmgCmdInvalid dom v s) := by
  unfold doTmgCmdInvalid
  repeat' first
    | with_reducible assumption
    | intro _
    | with_reducible apply State.hostWrite_mem
    | with_reducible apply State.noteReg_mem
    | with_reducible apply good_ite

theorem doChnDskPathWrite_mem {pq : Prop × List Instr} (dom : Nat) (c : Nat) (v : Word) (s : State) (hs : MemGood pq s) : MemGood pq (doChnDskPathWrite dom c v s) := by
  unfold doChnDskPathWrite
  repeat' first
    | with_reducible assumption
    | intro _
    | with_reducible apply State.deny_mem
    | with_reducible apply State.hostWrite_mem
    | with_reducible apply State.wrN_mem
    | with_reducible apply good_ite

theorem State.tick_mem {pq : Prop × List Instr} (s : State) (hs : MemGood pq s) : MemGood pq (State.tick s) := by
  unfold State.tick
  repeat' first
    | with_reducible assumption
    | intro _
    | with_reducible apply State.runDrives_mem
    | with_reducible apply foldl_mem
    | with_reducible apply foldl_mem_fst
    | with_reducible apply good_ite
    | with_reducible apply good_ite_fst
    | fail_if_no_progress beta_reduce
    | fail_if_no_progress extract_lets +onlyGivenNames x
    | split
    | fail_if_no_progress with_reducible apply good_mk

theorem State.endAllRuns_mem {pq : Prop × List Instr} (s : State) (cause : Nat) (hs : MemGood pq s) : MemGood pq (State.endAllRuns s cause) := by
  unfold State.endAllRuns
  repeat' first
    | with_reducible assumption
    | intro _
    | with_reducible apply State.endRun_mem
    | with_reducible apply forEach_mem
    | with_reducible apply good_ite

theorem State.endMeasures_mem {pq : Prop × List Instr} (s : State) (hs : MemGood pq s) : MemGood pq (State.endMeasures s) := by
  unfold State.endMeasures
  repeat' first
    | with_reducible assumption
    | intro _
    | with_reducible apply State.acqEnd_mem
    | with_reducible apply State.tmuEnd_mem
    | with_reducible apply forEach_mem

theorem doPllLockLoss_mem {pq : Prop × List Instr} (s : State) (hs : MemGood pq s) : MemGood pq (doPllLockLoss s) := by
  unfold doPllLockLoss
  repeat' first
    | with_reducible assumption
    | intro _
    | with_reducible apply State.countF_mem
    | with_reducible apply State.discontinuity_mem
    | with_reducible apply State.endAllRuns_mem
    | with_reducible apply State.endMeasures_mem
    | with_reducible apply State.irq_mem
    | with_reducible apply State.masterFail_mem
    | with_reducible apply State.modFault_mem
    | with_reducible apply State.whenDue_mem
    | with_reducible apply State.wrF_mem

theorem State.pllLock_mem {pq : Prop × List Instr} (s : State) (hs : MemGood pq s) : MemGood pq (State.pllLock s) := by
  unfold State.pllLock
  repeat' first
    | with_reducible assumption
    | intro _
    | with_reducible apply State.clearTheta_mem
    | with_reducible apply State.setMtbState_mem
    | with_reducible apply State.wrF_mem
    | with_reducible apply good_ite

theorem doPllRelock_mem {pq : Prop × List Instr} (s : State) (hs : MemGood pq s) : MemGood pq (doPllRelock s) := by
  unfold doPllRelock
  repeat' first
    | with_reducible assumption
    | intro _
    | with_reducible apply State.pllLock_mem
    | with_reducible apply State.whenDue_mem

theorem doDllUnlock_mem {pq : Prop × List Instr} (g : Nat) (s : State) (hs : MemGood pq s) : MemGood pq (doDllUnlock g s) := by
  unfold doDllUnlock
  repeat' first
    | with_reducible assumption
    | intro _
    | with_reducible apply State.detect_mem
    | with_reducible apply State.note_mem
    | with_reducible apply State.whenDue_mem
    | with_reducible apply State.wrF_mem
    | with_reducible apply good_ite
    | with_reducible apply good_ite_fst
    | fail_if_no_progress beta_reduce
    | fail_if_no_progress extract_lets +onlyGivenNames x
    | split
    | fail_if_no_progress with_reducible apply good_mk

theorem State.calLockHook_mem {pq : Prop × List Instr} (s : State) (c : Nat) (hs : MemGood pq s) : MemGood pq (State.calLockHook s c) := by
  unfold State.calLockHook
  repeat' first
    | with_reducible assumption
    | intro _
    | with_reducible apply State.calAbort_mem
    | with_reducible apply good_ite
    | with_reducible apply good_ite_fst
    | fail_if_no_progress beta_reduce
    | fail_if_no_progress extract_lets +onlyGivenNames x
    | split

theorem State.tileSlotEnds_mem {pq : Prop × List Instr} (s : State) (t : Nat) (needs : CalSlot → Bool) (hs : MemGood pq s) : MemGood pq (State.tileSlotEnds s t needs) := by
  unfold State.tileSlotEnds
  repeat' first
    | with_reducible assumption
    | intro _
    | with_reducible apply State.calAbort_mem
    | with_reducible apply good_ite
    | with_reducible apply good_ite_fst
    | fail_if_no_progress beta_reduce
    | fail_if_no_progress extract_lets +onlyGivenNames x
    | split

theorem State.spareLost_mem {pq : Prop × List Instr} (s : State) (t : Nat) (hs : MemGood pq s) : MemGood pq (State.spareLost s t) := by
  unfold State.spareLost
  repeat' first
    | with_reducible assumption
    | intro _
    | with_reducible apply State.tileSlotEnds_mem
    | with_reducible apply State.wrF_mem
    | with_reducible apply good_ite
    | with_reducible apply good_ite_fst
    | fail_if_no_progress beta_reduce
    | fail_if_no_progress extract_lets +onlyGivenNames x
    | split

theorem State.dllFailed_mem {pq : Prop × List Instr} (s : State) (g : Nat) (hs : MemGood pq s) : MemGood pq (State.dllFailed s g) := by
  unfold State.dllFailed
  repeat' first
    | with_reducible assumption
    | intro _
    | with_reducible apply State.calLockHook_mem
    | with_reducible apply State.irq_mem
    | with_reducible apply State.note_mem
    | with_reducible apply State.spareLost_mem
    | with_reducible apply State.wrF_mem
    | with_reducible apply good_ite

theorem doDllRelockResult_mem {pq : Prop × List Instr} (g : Nat) (ok : Bool) (s : State) (hs : MemGood pq s) : MemGood pq (doDllRelockResult g ok s) := by
  unfold doDllRelockResult
  repeat' first
    | with_reducible assumption
    | intro _
    | with_reducible apply State.dllFailed_mem
    | with_reducible apply State.whenDue_mem
    | with_reducible apply State.wrF_mem
    | with_reducible apply good_ite
    | with_reducible apply good_ite_fst
    | fail_if_no_progress beta_reduce
    | fail_if_no_progress extract_lets +onlyGivenNames x
    | split
    | fail_if_no_progress with_reducible apply good_mk

theorem doPermanentSpareAssignment_mem {pq : Prop × List Instr} (c : Nat) (s : State) (hs : MemGood pq s) : MemGood pq (doPermanentSpareAssignment c s) := by
  unfold doPermanentSpareAssignment
  repeat' first
    | with_reducible assumption
    | intro _
    | with_reducible apply State.note_mem
    | with_reducible apply State.tileSlotEnds_mem
    | with_reducible apply State.whenDue_mem
    | with_reducible apply State.wrF_mem

theorem State.avsRaise_mem {pq : Prop × List Instr} (s : State) (low : Nat) (hs : MemGood pq s) : MemGood pq (State.avsRaise s low) := by
  unfold State.avsRaise
  repeat' first
    | with_reducible assumption
    | intro _
    | with_reducible apply State.irq_mem
    | with_reducible apply State.note_mem
    | with_reducible apply State.wrF_mem
    | with_reducible apply good_ite
    | with_reducible apply good_ite_fst
    | fail_if_no_progress beta_reduce
    | fail_if_no_progress extract_lets +onlyGivenNames x
    | split
    | fail_if_no_progress with_reducible apply good_mk

theorem doPaceMonitorUpdate_mem {pq : Prop × List Instr} (m : Nat) (margin : Word) (s : State) (hs : MemGood pq s) : MemGood pq (doPaceMonitorUpdate m margin s) := by
  unfold doPaceMonitorUpdate
  repeat' first
    | with_reducible assumption
    | intro _
    | with_reducible apply State.avsRaise_mem
    | with_reducible apply State.whenDue_mem
    | with_reducible apply State.wrN_mem
    | with_reducible apply good_ite
    | with_reducible apply good_ite_fst
    | fail_if_no_progress beta_reduce
    | fail_if_no_progress extract_lets +onlyGivenNames x
    | split
    | fail_if_no_progress with_reducible apply good_mk

theorem doAvsLower_mem {pq : Prop × List Instr} (s : State) (hs : MemGood pq s) : MemGood pq (doAvsLower s) := by
  unfold doAvsLower
  repeat' first
    | with_reducible assumption
    | intro _
    | with_reducible apply State.whenDue_mem
    | with_reducible apply State.wrF_mem
    | with_reducible apply good_ite
    | with_reducible apply good_ite_fst
    | fail_if_no_progress beta_reduce
    | fail_if_no_progress extract_lets +onlyGivenNames x
    | split
    | fail_if_no_progress with_reducible apply good_mk

end Sys2Proof.Machine
end

