-- ==== Sys2Proof/Laws/MemSti.lean ====
section
/-! SUPPORT. Every operation of Machine/Sti.lean keeps the canonical form of the byte memories and the queue. -/

namespace Sys2Proof.Machine

open Sys2Proof


theorem State.stiEnds_mem {pq : Prop × List Instr} (s : State) (rej : Bool) (hs : MemGood pq s) : MemGood pq (State.stiEnds s rej) := by
  unfold State.stiEnds
  repeat' first
    | with_reducible assumption
    | intro _
    | with_reducible apply State.clrBits_mem
    | with_reducible apply State.irq_mem
    | with_reducible apply State.setBits_mem
    | with_reducible apply good_ite
    | with_reducible apply good_ite_fst
    | fail_if_no_progress beta_reduce
    | fail_if_no_progress extract_lets +onlyGivenNames x
    | split
    | fail_if_no_progress with_reducible apply good_mk

theorem State.stiDone_mem {pq : Prop × List Instr} (s : State) (hs : MemGood pq s) : MemGood pq (State.stiDone s) := by
  unfold State.stiDone
  repeat' first
    | with_reducible assumption
    | intro _
    | with_reducible apply State.stiEnds_mem

theorem State.stiReject_mem {pq : Prop × List Instr} (s : State) (dom : Nat) (r : Rej) (chk : Nat) (inj : Bool) (retried : Bool) (hs : MemGood pq s) : MemGood pq (State.stiReject s dom r chk inj retried) := by
  unfold State.stiReject
  repeat' first
    | with_reducible assumption
    | intro _
    | with_reducible apply State.detect_mem
    | with_reducible apply State.stiEnds_mem
    | with_reducible apply State.wrN_mem

theorem State.stiBusy_mem {pq : Prop × List Instr} (s : State) (dom : Nat) (hs : MemGood pq s) : MemGood pq (State.stiBusy s dom) := by
  unfold State.stiBusy
  repeat' first
    | with_reducible assumption
    | intro _
    | with_reducible apply State.noteReg_mem
    | with_reducible apply State.wrN_mem

theorem State.stiCmd_mem {pq : Prop × List Instr} (s : State) (dom : Nat) (op : Nat) (v : Word) (k : State → State) (hs : MemGood pq s) (hk : ∀ (x0 : State), MemGood pq x0 → MemGood pq (k x0)) : MemGood pq (State.stiCmd s dom op v k) := by
  unfold State.stiCmd
  repeat' first
    | with_reducible assumption
    | intro _
    | with_reducible apply State.hostWrite_mem
    | with_reducible apply State.stiBusy_mem
    | with_reducible apply State.stiReject_mem
    | with_reducible apply hk
    | with_reducible apply good_ite

theorem State.stiDram_mem {pq : Prop × List Instr} (s : State) (a : Nat) (n : Nat) (hs : MemGood pq s) : MemGood pq (State.stiDram s a n).1 := by
  unfold State.stiDram
  repeat' first
    | with_reducible assumption
    | intro _
    | with_reducible apply State.dramAsk_mem

theorem State.stiFetch_mem {pq : Prop × List Instr} (s : State) (nor : Bool) (slot : Nat) (fails : Nat) (hs : MemGood pq s) : MemGood pq (State.stiFetch s nor slot fails).1 := by
  unfold State.stiFetch
  repeat' first
    | with_reducible assumption
    | intro _
    | with_reducible apply State.detect_mem
    | with_reducible apply State.stiDram_mem
    | with_reducible apply good_ite
    | with_reducible apply good_ite_fst
    | fail_if_no_progress beta_reduce
    | fail_if_no_progress extract_lets +onlyGivenNames x
    | split

theorem State.stiExamine_mem {pq : Prop × List Instr} (s : State) (dom : Nat) (nor : Bool) (slot : Nat) (fails : Nat) (op : Nat) (t : Nat) (k : List Byte → State → State) (hs : MemGood pq s) (hk : ∀ (x0 : List Byte) (x1 : State), MemGood pq x1 → MemGood pq (k x0 x1)) : MemGood pq (State.stiExamine s dom nor slot fails op t k) := by
  unfold State.stiExamine
  repeat' first
    | with_reducible assumption
    | intro _
    | with_reducible apply State.injTake_mem
    | with_reducible apply State.stiFetch_mem
    | with_reducible apply State.stiReject_mem
    | with_reducible apply hk
    | with_reducible apply good_ite
    | with_reducible apply good_ite_fst
    | fail_if_no_progress beta_reduce
    | fail_if_no_progress extract_lets +onlyGivenNames x
    | split

theorem State.stiBegin_mem {pq : Prop × List Instr} (s : State) (o : StiOp) (phase : Nat) (hs : MemGood pq s) : MemGood pq (State.stiBegin s o phase) := by
  unfold State.stiBegin
  repeat' first
    | with_reducible assumption
    | intro _
    | with_reducible apply State.clrBits_mem
    | with_reducible apply State.setBits_mem
    | with_reducible apply good_ite
    | with_reducible apply good_ite_fst
    | fail_if_no_progress beta_reduce
    | fail_if_no_progress extract_lets +onlyGivenNames x
    | split
    | fail_if_no_progress with_reducible apply good_mk

theorem State.stiLoad_mem {pq : Prop × List Instr} (s : State) (dom : Nat) (op : Nat) (v : Word) (fails : Nat) (hs : MemGood pq s) : MemGood pq (State.stiLoad s dom op v fails) := by
  unfold State.stiLoad
  repeat' first
    | with_reducible assumption
    | intro _
    | with_reducible apply State.stiBegin_mem
    | with_reducible apply State.stiCmd_mem
    | with_reducible apply State.stiExamine_mem

theorem doStiLoadWhole_mem {pq : Prop × List Instr} (dom : Nat) (v : Word) (fails : Nat) (s : State) (hs : MemGood pq s) : MemGood pq (doStiLoadWhole dom v fails s) := by
  unfold doStiLoadWhole
  repeat' first
    | with_reducible assumption
    | intro _
    | with_reducible apply State.stiLoad_mem

theorem doStiLoadTile_mem {pq : Prop × List Instr} (dom : Nat) (v : Word) (fails : Nat) (s : State) (hs : MemGood pq s) : MemGood pq (doStiLoadTile dom v fails s) := by
  unfold doStiLoadTile
  repeat' first
    | with_reducible assumption
    | intro _
    | with_reducible apply State.stiLoad_mem

theorem doStiCheck_mem {pq : Prop × List Instr} (dom : Nat) (v : Word) (fails : Nat) (s : State) (hs : MemGood pq s) : MemGood pq (doStiCheck dom v fails s) := by
  unfold doStiCheck
  repeat' first
    | with_reducible assumption
    | intro _
    | with_reducible apply State.stiCmd_mem
    | with_reducible apply State.stiDone_mem
    | with_reducible apply State.stiExamine_mem

theorem doStiStore_mem {pq : Prop × List Instr} (dom : Nat) (v : Word) (fails : Nat) (s : State) (hs : MemGood pq s) : MemGood pq (doStiStore dom v fails s) := by
  unfold doStiStore
  repeat' first
    | with_reducible assumption
    | intro _
    | with_reducible apply State.norPfw_mem
    | with_reducible apply State.norPush_mem
    | with_reducible apply State.stiBegin_mem
    | with_reducible apply State.stiBusy_mem
    | with_reducible apply State.stiCmd_mem
    | with_reducible apply State.stiExamine_mem
    | with_reducible apply State.stiReject_mem
    | with_reducible apply good_ite

theorem doRevoke_mem {pq : Prop × List Instr} (dom : Nat) (v : Word) (s : State) (hs : MemGood pq s) : MemGood pq (doRevoke dom v s) := by
  unfold doRevoke
  repeat' first
    | with_reducible assumption
    | intro _
    | with_reducible apply State.hostWrite_mem
    | with_reducible apply State.setBits_mem
    | with_reducible apply State.stiBusy_mem
    | with_reducible apply State.stiDone_mem
    | with_reducible apply State.stiReject_mem
    | with_reducible apply good_ite

theorem doStiBadCmd_mem {pq : Prop × List Instr} (dom : Nat) (v : Word) (s : State) (hs : MemGood pq s) : MemGood pq (doStiBadCmd dom v s) := by
  unfold doStiBadCmd
  repeat' first
    | with_reducible assumption
    | intro _
    | with_reducible apply State.hostWrite_mem
    | with_reducible apply State.stiBusy_mem
    | with_reducible apply State.stiReject_mem
    | with_reducible apply good_ite

theorem State.stiStopChan_mem {pq : Prop × List Instr} (s : State) (c : Nat) (hs : MemGood pq s) : MemGood pq (State.stiStopChan s c) := by
  unfold State.stiStopChan
  repeat' first
    | with_reducible assumption
    | intro _
    | with_reducible apply State.acqEnd_mem
    | with_reducible apply State.frameCut_mem
    | with_reducible apply State.reflAbort_mem
    | with_reducible apply State.ringCut_mem
    | with_reducible apply State.tmuEnd_mem

theorem doStiStopStep_mem {pq : Prop × List Instr} (s : State) (hs : MemGood pq s) : MemGood pq (doStiStopStep s) := by
  unfold doStiStopStep
  repeat' first
    | with_reducible assumption
    | intro _
    | with_reducible apply State.calTileStop_mem
    | with_reducible apply State.clrBits_mem
    | with_reducible apply State.dmaPause_mem
    | with_reducible apply State.endRun_mem
    | with_reducible apply State.stiStopChan_mem
    | with_reducible apply State.whenDue_mem
    | with_reducible apply State.wrF_mem
    | with_reducible apply State.wrN_mem
    | with_reducible apply forEach_mem
    | with_reducible apply good_ite
    | with_reducible apply good_ite_fst
    | fail_if_no_progress beta_reduce
    | fail_if_no_progress extract_lets +onlyGivenNames x
    | split
    | fail_if_no_progress with_reducible apply good_mk

theorem doStiDrainDone_mem {pq : Prop × List Instr} (s : State) (hs : MemGood pq s) : MemGood pq (doStiDrainDone s) := by
  unfold doStiDrainDone
  repeat' first
    | with_reducible assumption
    | intro _
    | with_reducible apply State.whenDue_mem
    | with_reducible apply State.wrF_mem
    | with_reducible apply good_ite
    | with_reducible apply good_ite_fst
    | fail_if_no_progress beta_reduce
    | fail_if_no_progress extract_lets +onlyGivenNames x
    | split
    | fail_if_no_progress with_reducible apply good_mk

theorem State.drainLose_mem {pq : Prop × List Instr} (s : State) (f : Nat) (hs : MemGood pq s) : MemGood pq (State.drainLose s f) := by
  unfold State.drainLose
  repeat' first
    | with_reducible assumption
    | intro _
    | with_reducible apply State.count_mem
    | with_reducible apply State.flogLosses_mem
    | with_reducible apply State.loseItem_mem
    | with_reducible apply State.setBits_mem
    | with_reducible apply State.setFw_mem
    | with_reducible apply foldl_mem
    | with_reducible apply foldl_mem_fst
    | with_reducible apply good_ite

theorem State.heldFree_mem {pq : Prop × List Instr} (s : State) (n : Nat) (hs : MemGood pq s) : MemGood pq (State.heldFree s n) := by
  unfold State.heldFree
  repeat' first
    | with_reducible assumption
    | intro _
    | with_reducible apply State.note_mem
    | with_reducible apply State.releaseHeld_mem
    | with_reducible apply State.setBits_mem
    | with_reducible apply good_ite

theorem doStiDrainExpiry_mem {pq : Prop × List Instr} (s : State) (hs : MemGood pq s) : MemGood pq (doStiDrainExpiry s) := by
  unfold doStiDrainExpiry
  repeat' first
    | with_reducible assumption
    | intro _
    | with_reducible apply State.drainLose_mem
    | with_reducible apply State.heldFree_mem
    | with_reducible apply State.whenDue_mem
    | with_reducible apply forEach_mem
    | with_reducible apply good_ite
    | with_reducible apply good_ite_fst
    | fail_if_no_progress beta_reduce
    | fail_if_no_progress extract_lets +onlyGivenNames x
    | split
    | fail_if_no_progress with_reducible apply good_mk

theorem State.freeFill_mem {pq : Prop × List Instr} (s : State) (a : Nat) (n : Nat) (hs : MemGood pq s) : MemGood pq (State.freeFill s a n) := by
  unfold State.freeFill
  repeat' first
    | with_reducible assumption
    | intro _
    | with_reducible apply State.sramWr_mem
    | with_reducible apply good_ite
    | with_reducible apply good_ite_fst
    | fail_if_no_progress beta_reduce
    | fail_if_no_progress extract_lets +onlyGivenNames x
    | split
    | fail_if_no_progress with_reducible apply good_mk

theorem State.carveMoved_mem {pq : Prop × List Instr} (s : State) (old : Carve) (new : Carve) (hs : MemGood pq s) : MemGood pq (State.carveMoved s old new) := by
  unfold State.carveMoved
  repeat' first
    | with_reducible assumption
    | intro _
    | with_reducible apply State.freeFill_mem
    | with_reducible apply good_ite

theorem State.graphState_mem {pq : Prop × List Instr} (s : State) (old : List Graph) (new : List Graph) (kept : List Nat) (hs : MemGood pq s) : MemGood pq (State.graphState s old new kept) := by
  unfold State.graphState
  repeat' first
    | with_reducible assumption
    | intro _
    | with_reducible apply State.sramWr_mem
    | with_reducible apply foldl_mem
    | with_reducible apply foldl_mem_fst
    | with_reducible apply good_ite
    | with_reducible apply good_ite_fst
    | fail_if_no_progress beta_reduce
    | fail_if_no_progress extract_lets +onlyGivenNames x
    | split

theorem State.graphsLoad_mem {pq : Prop × List Instr} (s : State) (x : Structure) (scope : List Graph) (hs : MemGood pq s) : MemGood pq (State.graphsLoad s x scope) := by
  unfold State.graphsLoad
  repeat' first
    | with_reducible assumption
    | intro _
    | with_reducible apply State.graphState_mem
    | with_reducible apply State.setEng_mem
    | with_reducible apply State.setFw_mem
    | with_reducible apply State.workNow_mem
    | with_reducible apply State.wrF_mem
    | with_reducible apply forEach_mem
    | with_reducible apply good_ite
    | with_reducible apply good_ite_fst
    | fail_if_no_progress beta_reduce
    | fail_if_no_progress extract_lets +onlyGivenNames x
    | split
    | fail_if_no_progress with_reducible apply good_mk

theorem State.sheetFresh_mem {pq : Prop × List Instr} (s : State) (n : Nat) (hs : MemGood pq s) : MemGood pq (State.sheetFresh s n) := by
  unfold State.sheetFresh
  repeat' first
    | with_reducible assumption
    | intro _
    | with_reducible apply State.setSq_mem
    | with_reducible apply State.wrWide_mem

theorem State.dropStaged_mem {pq : Prop × List Instr} (s : State) (a : Nat) (hs : MemGood pq s) : MemGood pq (State.dropStaged s a) := by
  unfold State.dropStaged
  repeat' first
    | with_reducible assumption
    | intro _
    | with_reducible apply State.unstage_mem
    | with_reducible apply State.wr_mem

theorem State.dropAllStaged_mem {pq : Prop × List Instr} (s : State) (seqs : List Nat) (chans : List Nat) (hs : MemGood pq s) : MemGood pq (State.dropAllStaged s seqs chans) := by
  unfold State.dropAllStaged
  repeat' first
    | with_reducible assumption
    | intro _
    | with_reducible apply State.dropStaged_mem
    | with_reducible apply State.setBits_mem
    | with_reducible apply State.wr_mem
    | with_reducible apply forEach_mem
    | with_reducible apply good_ite
    | with_reducible apply good_ite_fst
    | fail_if_no_progress beta_reduce
    | fail_if_no_progress extract_lets +onlyGivenNames x
    | split
    | fail_if_no_progress with_reducible apply good_mk

theorem State.protLoad_mem {pq : Prop × List Instr} (s : State) (b : List Byte) (seqs : List Nat) (hs : MemGood pq s) : MemGood pq (State.protLoad s b seqs) := by
  unfold State.protLoad
  repeat' first
    | with_reducible assumption
    | intro _
    | with_reducible apply State.setPt_mem
    | with_reducible apply forEach_mem

theorem State.lanesLoad_mem {pq : Prop × List Instr} (s : State) (old : Structure) (hs : MemGood pq s) : MemGood pq (State.lanesLoad s old) := by
  unfold State.lanesLoad
  repeat' first
    | with_reducible assumption
    | intro _
    | with_reducible apply State.portDown_mem
    | with_reducible apply State.portUp_mem
    | with_reducible apply forEach_mem
    | with_reducible apply good_ite

theorem State.genLoad_mem {pq : Prop × List Instr} (s : State) (b : List Byte) (hs : MemGood pq s) : MemGood pq (State.genLoad s b) := by
  unfold State.genLoad
  repeat' first
    | with_reducible assumption
    | intro _
    | with_reducible apply State.clrBits_mem
    | with_reducible apply State.wrN_mem
    | with_reducible apply forEach_mem
    | with_reducible apply good_ite

theorem State.idleOwned_mem {pq : Prop × List Instr} (s : State) (c : Nat) (hs : MemGood pq s) : MemGood pq (State.idleOwned s c) := by
  unfold State.idleOwned
  repeat' first
    | with_reducible assumption
    | intro _
    | with_reducible apply State.idleLevel_mem
    | with_reducible apply good_ite

theorem State.applyImage_mem {pq : Prop × List Instr} (s : State) (b : List Byte) (seqs : List Nat) (chans : List Nat) (hs : MemGood pq s) : MemGood pq (State.applyImage s b seqs chans) := by
  unfold State.applyImage
  repeat' first
    | with_reducible assumption
    | intro _
    | with_reducible apply State.carveMoved_mem
    | with_reducible apply State.dropAllStaged_mem
    | with_reducible apply State.genLoad_mem
    | with_reducible apply State.graphsLoad_mem
    | with_reducible apply State.idleOwned_mem
    | with_reducible apply State.landOff_mem
    | with_reducible apply State.noteNoEngine_mem
    | with_reducible apply State.protLoad_mem
    | with_reducible apply State.setCh_mem
    | with_reducible apply State.sheetFresh_mem
    | with_reducible apply foldl_mem
    | with_reducible apply foldl_mem_fst
    | with_reducible apply forEach_mem
    | with_reducible apply good_ite
    | with_reducible apply good_ite_fst
    | fail_if_no_progress beta_reduce
    | fail_if_no_progress extract_lets +onlyGivenNames x
    | split
    | fail_if_no_progress with_reducible apply good_mk

theorem doStiConfigureDone_mem {pq : Prop × List Instr} (s : State) (hs : MemGood pq s) : MemGood pq (doStiConfigureDone s) := by
  unfold doStiConfigureDone
  repeat' first
    | with_reducible assumption
    | intro _
    | with_reducible apply State.applyImage_mem
    | with_reducible apply State.dmaUnpause_mem
    | with_reducible apply State.lanesLoad_mem
    | with_reducible apply State.stiDone_mem
    | with_reducible apply State.whenDue_mem
    | with_reducible apply State.wrF_mem
    | with_reducible apply forEach_mem
    | with_reducible apply good_ite
    | with_reducible apply good_ite_fst
    | fail_if_no_progress beta_reduce
    | fail_if_no_progress extract_lets +onlyGivenNames x
    | split

theorem doStiBootWrite_mem {pq : Prop × List Instr} (dom : Nat) (v : Word) (s : State) (hs : MemGood pq s) : MemGood pq (doStiBootWrite dom v s) := by
  unfold doStiBootWrite
  repeat' first
    | with_reducible assumption
    | intro _
    | with_reducible apply State.hostWrite_mem
    | with_reducible apply State.norPfw_mem
    | with_reducible apply State.norPush_mem
    | with_reducible apply State.noteReg_mem
    | with_reducible apply State.wrRow_mem
    | with_reducible apply good_ite

end Sys2Proof.Machine
end

