-- ==== Sys2Proof/Laws/MemFlt.lean ====
section
/-! SUPPORT. Every operation of Machine/Flt.lean keeps the canonical form of the byte memories and the queue. -/

namespace Sys2Proof.Machine

open Sys2Proof


theorem State.modReact_mem {pq : Prop × List Instr} (s : State) (hs : MemGood pq s) : MemGood pq (State.modReact s) := by
  unfold State.modReact
  repeat' first
    | with_reducible assumption
    | intro _
    | with_reducible apply State.dmaStopNow_mem
    | with_reducible apply State.endAllRuns_mem
    | with_reducible apply State.endMeasures_mem
    | with_reducible apply State.masterFail_mem
    | with_reducible apply State.wrF_mem
    | with_reducible apply forEach_mem
    | with_reducible apply good_ite

theorem State.graveChan_mem {pq : Prop × List Instr} (s : State) (c : Nat) (hs : MemGood pq s) : MemGood pq (State.graveChan s c) := by
  unfold State.graveChan
  repeat' first
    | with_reducible assumption
    | intro _
    | with_reducible apply State.pmuOff_mem
    | with_reducible apply State.setApv_mem
    | with_reducible apply State.wrF_mem

theorem State.graveReact_mem {pq : Prop × List Instr} (s : State) (ws : List Nat) (hs : MemGood pq s) : MemGood pq (State.graveReact s ws) := by
  unfold State.graveReact
  repeat' first
    | with_reducible assumption
    | intro _
    | with_reducible apply State.graveChan_mem
    | with_reducible apply State.landOff_mem
    | with_reducible apply State.modReact_mem
    | with_reducible apply State.norAbort_mem
    | with_reducible apply State.norPush_mem
    | with_reducible apply State.portDown_mem
    | with_reducible apply State.wrF_mem
    | with_reducible apply forEach_mem
    | with_reducible apply good_ite

theorem State.siteReact_mem {pq : Prop × List Instr} (s : State) (r : FaultRec) (hs : MemGood pq s) : MemGood pq (State.siteReact s r) := by
  unfold State.siteReact
  repeat' first
    | with_reducible assumption
    | intro _
    | with_reducible apply State.endRun_mem
    | with_reducible apply State.wrF_mem
    | with_reducible apply good_ite
    | with_reducible apply good_ite_fst
    | fail_if_no_progress beta_reduce
    | fail_if_no_progress extract_lets +onlyGivenNames x
    | split

theorem State.putWords_mem {pq : Prop × List Instr} (s : State) (a : Nat) (z0 : List Nat) (hs : MemGood pq s) : MemGood pq (State.putWords s a z0) := by
  revert hs
  fun_induction State.putWords s a z0
  all_goals repeat' first
    | with_reducible assumption
    | intro _
    | with_reducible apply State.wrN_mem
    | with_reducible apply good_ite
    | with_reducible apply good_ite_fst
    | fail_if_no_progress beta_reduce
    | fail_if_no_progress extract_lets +onlyGivenNames x
    | split
    | fail_if_no_progress with_reducible apply good_mk
    | refine fst_mem (by assumption) ?_
    | apply_assumption

theorem State.record_mem {pq : Prop × List Instr} (s : State) (cls : Nat) (ws : List Nat) (hs : MemGood pq s) : MemGood pq (State.record s cls ws) := by
  unfold State.record
  repeat' first
    | with_reducible assumption
    | intro _
    | with_reducible apply State.count_mem
    | with_reducible apply State.irq_mem
    | with_reducible apply State.putWords_mem
    | with_reducible apply State.wrN_mem
    | with_reducible apply good_ite

theorem State.recordAll_mem {pq : Prop × List Instr} (s : State) (all : List FaultRec) (z0 : List (FaultRec × Nat)) (hs : MemGood pq s) : MemGood pq (State.recordAll s all z0) := by
  revert hs
  fun_induction State.recordAll s all z0
  all_goals repeat' first
    | with_reducible assumption
    | intro _
    | with_reducible apply State.record_mem
    | with_reducible apply good_ite
    | with_reducible apply good_ite_fst
    | fail_if_no_progress beta_reduce
    | fail_if_no_progress extract_lets +onlyGivenNames x
    | split
    | fail_if_no_progress with_reducible apply good_mk
    | refine fst_mem (by assumption) ?_
    | apply_assumption

theorem State.react_mem {pq : Prop × List Instr} (s : State) (l : List FaultRec) (n0 : Nat) (hs : MemGood pq s) : MemGood pq (State.react s l n0) := by
  unfold State.react
  repeat' first
    | with_reducible assumption
    | intro _
    | with_reducible apply State.graveReact_mem
    | with_reducible apply State.modReact_mem
    | with_reducible apply State.siteReact_mem
    | with_reducible apply foldl_mem
    | with_reducible apply foldl_mem_fst
    | with_reducible apply good_ite
    | with_reducible apply good_ite_fst
    | fail_if_no_progress beta_reduce
    | fail_if_no_progress extract_lets +onlyGivenNames x
    | split

theorem State.closeRound_mem {pq : Prop × List Instr} (s : State) (hs : MemGood pq s) : MemGood pq (State.closeRound s) := by
  unfold State.closeRound
  repeat' first
    | with_reducible assumption
    | intro _
    | with_reducible apply State.react_mem
    | with_reducible apply State.recordAll_mem
    | with_reducible apply good_ite
    | with_reducible apply good_ite_fst
    | fail_if_no_progress beta_reduce
    | fail_if_no_progress extract_lets +onlyGivenNames x
    | split
    | fail_if_no_progress with_reducible apply good_mk

theorem doFaultRound_mem {pq : Prop × List Instr} (s : State) (hs : MemGood pq s) : MemGood pq (doFaultRound s) := by
  unfold doFaultRound
  repeat' first
    | with_reducible assumption
    | intro _
    | with_reducible apply State.closeRound_mem
    | with_reducible apply State.whenOn_mem
    | with_reducible apply good_ite
    | with_reducible apply good_ite_fst
    | fail_if_no_progress beta_reduce
    | fail_if_no_progress extract_lets +onlyGivenNames x
    | split

theorem State.collect_mem {pq : Prop × List Instr} (s : State) (r : FaultRec) (hs : MemGood pq s) : MemGood pq (State.collect s r) := by
  unfold State.collect
  extract_lets +onlyGivenNames t
  have ht : MemGood pq t := by
    simp only [t]
    split
    · exact good_ite (State.closeRound_mem _ hs) hs
    · exact hs
  exact good_mk ht

theorem State.injected_mem {pq : Prop × List Instr} (s : State) (r : FaultRec) (e : CheckEnd) (hs : MemGood pq s) : MemGood pq (State.injected s r e).1 := by
  unfold State.injected
  repeat' first
    | with_reducible assumption
    | intro _
    | with_reducible apply State.injOnce_mem
    | with_reducible apply good_ite
    | with_reducible apply good_ite_fst

theorem State.captureLoss_mem {pq : Prop × List Instr} (s : State) (c : Nat) (x : Nat) (hs : MemGood pq s) : MemGood pq (State.captureLoss s c x) := by
  unfold State.captureLoss
  repeat' first
    | with_reducible assumption
    | intro _
    | with_reducible apply State.drawn_mem
    | with_reducible apply State.flogLosses_mem
    | with_reducible apply State.sampleLost_mem
    | with_reducible apply State.stampLost_mem
    | with_reducible apply good_ite
    | with_reducible apply good_ite_fst
    | fail_if_no_progress beta_reduce
    | fail_if_no_progress extract_lets +onlyGivenNames x
    | split

theorem doFaultReport_mem {pq : Prop × List Instr} (f : FaultIn) (s : State) (hs : MemGood pq s) : MemGood pq (doFaultReport f s) := by
  unfold doFaultReport
  repeat' first
    | with_reducible assumption
    | intro _
    | with_reducible apply State.captureLoss_mem
    | with_reducible apply State.collect_mem
    | with_reducible apply State.countF_mem
    | with_reducible apply State.injected_mem
    | with_reducible apply State.irq_mem
    | with_reducible apply State.whenOn_mem
    | with_reducible apply good_ite
    | with_reducible apply good_ite_fst
    | fail_if_no_progress beta_reduce
    | fail_if_no_progress extract_lets +onlyGivenNames x
    | split
    | fail_if_no_progress with_reducible apply good_mk

theorem doRaiseMod_mem {pq : Prop × List Instr} (dom : Nat) (s : State) (hs : MemGood pq s) : MemGood pq (doRaiseMod dom s) := by
  unfold doRaiseMod
  repeat' first
    | with_reducible assumption
    | intro _
    | with_reducible apply State.detect_mem
    | with_reducible apply State.hostWrite_mem

theorem State.clearRecord_mem {pq : Prop × List Instr} (s : State) (a : Nat) (hs : MemGood pq s) : MemGood pq (State.clearRecord s a) := by
  unfold State.clearRecord
  repeat' first
    | with_reducible assumption
    | intro _
    | with_reducible apply State.putWords_mem

theorem doClrFirst_mem {pq : Prop × List Instr} (dom : Nat) (s : State) (hs : MemGood pq s) : MemGood pq (doClrFirst dom s) := by
  unfold doClrFirst
  repeat' first
    | with_reducible assumption
    | intro _
    | with_reducible apply State.clearRecord_mem
    | with_reducible apply State.hostWrite_mem
    | with_reducible apply good_ite

theorem doClrCount_mem {pq : Prop × List Instr} (dom : Nat) (s : State) (hs : MemGood pq s) : MemGood pq (doClrCount dom s) := by
  unfold doClrCount
  repeat' first
    | with_reducible assumption
    | intro _
    | with_reducible apply State.hostWrite_mem
    | with_reducible apply State.wrN_mem
    | with_reducible apply forEach_mem

theorem doClrPgrave_mem {pq : Prop × List Instr} (dom : Nat) (s : State) (hs : MemGood pq s) : MemGood pq (doClrPgrave dom s) := by
  unfold doClrPgrave
  repeat' first
    | with_reducible assumption
    | intro _
    | with_reducible apply State.clearRecord_mem
    | with_reducible apply State.hostWrite_mem
    | with_reducible apply State.norPfw_mem
    | with_reducible apply State.norPush_mem
    | with_reducible apply State.noteReg_mem
    | with_reducible apply State.wrF_mem
    | with_reducible apply good_ite

theorem doFltCmdInvalid_mem {pq : Prop × List Instr} (dom : Nat) (v : Word) (s : State) (hs : MemGood pq s) : MemGood pq (doFltCmdInvalid dom v s) := by
  unfold doFltCmdInvalid
  repeat' first
    | with_reducible assumption
    | intro _
    | with_reducible apply State.hostWrite_mem
    | with_reducible apply State.noteReg_mem
    | with_reducible apply good_ite

theorem doFltInjWrite_mem {pq : Prop × List Instr} (dom : Nat) (v : Word) (s : State) (hs : MemGood pq s) : MemGood pq (doFltInjWrite dom v s) := by
  unfold doFltInjWrite
  repeat' first
    | with_reducible assumption
    | intro _
    | with_reducible apply State.hostWrite_mem
    | with_reducible apply State.noteReg_mem
    | with_reducible apply State.wrRow_mem
    | with_reducible apply good_ite

theorem doSupWatchdogExpiry_mem {pq : Prop × List Instr} (s : State) (hs : MemGood pq s) : MemGood pq (doSupWatchdogExpiry s) := by
  unfold doSupWatchdogExpiry
  repeat' first
    | with_reducible assumption
    | intro _
    | with_reducible apply State.modFault_mem
    | with_reducible apply State.whenOn_mem
    | with_reducible apply good_ite
    | with_reducible apply good_ite_fst
    | fail_if_no_progress beta_reduce
    | fail_if_no_progress extract_lets +onlyGivenNames x
    | split
    | fail_if_no_progress with_reducible apply good_mk

theorem doRailFault_mem {pq : Prop × List Instr} (s : State) (hs : MemGood pq s) : MemGood pq (doRailFault s) := by
  unfold doRailFault
  repeat' first
    | with_reducible assumption
    | intro _
    | with_reducible apply State.detect_mem
    | with_reducible apply State.whenOn_mem

theorem doJunctionTempCrossing_mem {pq : Prop × List Instr} (c120 : Bool) (rising : Bool) (s : State) (hs : MemGood pq s) : MemGood pq (doJunctionTempCrossing c120 rising s) := by
  unfold doJunctionTempCrossing
  repeat' first
    | with_reducible assumption
    | intro _
    | with_reducible apply State.detect_mem
    | with_reducible apply State.whenOn_mem
    | with_reducible apply good_ite
    | with_reducible apply good_ite_fst
    | fail_if_no_progress beta_reduce
    | fail_if_no_progress extract_lets +onlyGivenNames x
    | split
    | fail_if_no_progress with_reducible apply good_mk

theorem doSafelightToggle_mem {pq : Prop × List Instr} (s : State) (hs : MemGood pq s) : MemGood pq (doSafelightToggle s) := by
  unfold doSafelightToggle
  repeat' first
    | with_reducible assumption
    | intro _
    | with_reducible apply State.send_mem
    | with_reducible apply State.whenOn_mem
    | with_reducible apply good_ite
    | with_reducible apply good_ite_fst
    | fail_if_no_progress beta_reduce
    | fail_if_no_progress extract_lets +onlyGivenNames x
    | split
    | fail_if_no_progress with_reducible apply good_mk

end Sys2Proof.Machine
end

