-- ==== Sys2Proof/Laws/MemHif.lean ====
section
/-! SUPPORT. Every operation of Machine/Hif.lean keeps the canonical form of the byte memories and the queue. -/

namespace Sys2Proof.Machine

open Sys2Proof


theorem doMsixMessage_mem {pq : Prop × List Instr} (fn : Nat) (vec : Nat) (masked : Bool) (s : State) (hs : MemGood pq s) : MemGood pq (doMsixMessage fn vec masked s) := by
  unfold doMsixMessage
  repeat' first
    | with_reducible assumption
    | intro _
    | with_reducible apply State.send_mem
    | with_reducible apply State.setVecOn_mem
    | with_reducible apply State.vecFall_mem
    | with_reducible apply State.whenOn_mem
    | with_reducible apply good_ite
    | with_reducible apply good_ite_fst
    | fail_if_no_progress beta_reduce
    | fail_if_no_progress extract_lets +onlyGivenNames x
    | split
    | fail_if_no_progress with_reducible apply good_mk

theorem State.msixReset_mem {pq : Prop × List Instr} (s : State) (fn : Nat) (hs : MemGood pq s) : MemGood pq (State.msixReset s fn) := by
  unfold State.msixReset
  repeat' first
    | with_reducible assumption
    | intro _
    | with_reducible apply good_ite
    | with_reducible apply good_ite_fst
    | fail_if_no_progress beta_reduce
    | fail_if_no_progress extract_lets +onlyGivenNames x
    | split
    | fail_if_no_progress with_reducible apply good_mk

theorem State.latchClear_mem {pq : Prop × List Instr} (s : State) (dom : Nat) (hs : MemGood pq s) : MemGood pq (State.latchClear s dom) := by
  unfold State.latchClear
  repeat' first
    | with_reducible assumption
    | intro _
    | with_reducible apply good_ite
    | with_reducible apply good_ite_fst
    | fail_if_no_progress beta_reduce
    | fail_if_no_progress extract_lets +onlyGivenNames x
    | split
    | fail_if_no_progress with_reducible apply good_mk

theorem doFlrVf_mem {pq : Prop × List Instr} (k : Nat) (s : State) (hs : MemGood pq s) : MemGood pq (doFlrVf k s) := by
  unfold doFlrVf
  repeat' first
    | with_reducible assumption
    | intro _
    | with_reducible apply State.dmaStopNow_mem
    | with_reducible apply State.latchClear_mem
    | with_reducible apply State.msixReset_mem
    | with_reducible apply State.releaseHeld_mem
    | with_reducible apply State.whenOn_mem
    | with_reducible apply forEach_mem

theorem State.linkDown_mem {pq : Prop × List Instr} (s : State) (hs : MemGood pq s) : MemGood pq (State.linkDown s) := by
  unfold State.linkDown
  repeat' first
    | with_reducible assumption
    | intro _
    | with_reducible apply State.wrN_mem
    | with_reducible apply good_ite
    | with_reducible apply good_ite_fst
    | fail_if_no_progress beta_reduce
    | fail_if_no_progress extract_lets +onlyGivenNames x
    | split
    | fail_if_no_progress with_reducible apply good_mk

theorem doPcieLinkDown_mem {pq : Prop × List Instr} (s : State) (hs : MemGood pq s) : MemGood pq (doPcieLinkDown s) := by
  unfold doPcieLinkDown
  repeat' first
    | with_reducible assumption
    | intro _
    | with_reducible apply State.linkDown_mem
    | with_reducible apply State.whenOn_mem

theorem doPcieLinkUp_mem {pq : Prop × List Instr} (speed : Nat) (width : Nat) (vfs : Nat) (s : State) (hs : MemGood pq s) : MemGood pq (doPcieLinkUp speed width vfs s) := by
  unfold doPcieLinkUp
  repeat' first
    | with_reducible assumption
    | intro _
    | with_reducible apply State.whenOn_mem
    | with_reducible apply State.wrN_mem
    | with_reducible apply good_ite
    | with_reducible apply good_ite_fst
    | fail_if_no_progress beta_reduce
    | fail_if_no_progress extract_lets +onlyGivenNames x
    | split
    | fail_if_no_progress with_reducible apply good_mk

theorem doPerst_mem {pq : Prop × List Instr} (s : State) (hs : MemGood pq s) : MemGood pq (doPerst s) := by
  unfold doPerst
  repeat' first
    | with_reducible assumption
    | intro _
    | with_reducible apply State.linkDown_mem
    | with_reducible apply State.whenOn_mem
    | with_reducible apply good_ite
    | with_reducible apply good_ite_fst
    | fail_if_no_progress beta_reduce
    | fail_if_no_progress extract_lets +onlyGivenNames x
    | split
    | fail_if_no_progress with_reducible apply good_mk

theorem doHifDenyCntClear_mem {pq : Prop × List Instr} (dom : Nat) (v : Word) (s : State) (hs : MemGood pq s) : MemGood pq (doHifDenyCntClear dom v s) := by
  unfold doHifDenyCntClear
  repeat' first
    | with_reducible assumption
    | intro _
    | with_reducible apply State.hostWrite_mem
    | with_reducible apply State.wrF_mem
    | with_reducible apply State.wrN_mem
    | with_reducible apply good_ite

theorem doGlbModuleWrite_mem {pq : Prop × List Instr} (dom : Nat) (v : Word) (s : State) (hs : MemGood pq s) : MemGood pq (doGlbModuleWrite dom v s) := by
  unfold doGlbModuleWrite
  repeat' first
    | with_reducible assumption
    | intro _
    | with_reducible apply State.hostWrite_mem
    | with_reducible apply State.norPfw_mem
    | with_reducible apply State.norPush_mem
    | with_reducible apply State.noteReg_mem
    | with_reducible apply State.wrN_mem
    | with_reducible apply good_ite

end Sys2Proof.Machine
end

