-- ==== Sys2Proof/Laws/MemJtag.lean ====
section
/-! SUPPORT. Every operation of Machine/Jtag.lean keeps the canonical form of the byte memories and the queue. -/

namespace Sys2Proof.Machine

open Sys2Proof


theorem State.tck_mem {pq : Prop × List Instr} (s : State) (tms : Bool) (tdi : Bool) (lands : List Bool) (hs : MemGood pq s) : MemGood pq (State.tck s tms tdi lands) := by
  unfold State.tck
  repeat' first
    | with_reducible assumption
    | intro _
    | with_reducible apply good_ite
    | with_reducible apply good_ite_fst
    | fail_if_no_progress beta_reduce
    | fail_if_no_progress extract_lets +onlyGivenNames x
    | split
    | fail_if_no_progress with_reducible apply good_mk

theorem State.trst_mem {pq : Prop × List Instr} (s : State) (hs : MemGood pq s) : MemGood pq (State.trst s) := by
  unfold State.trst
  repeat' first
    | with_reducible assumption
    | intro _
    | with_reducible apply good_ite
    | with_reducible apply good_ite_fst
    | fail_if_no_progress beta_reduce
    | fail_if_no_progress extract_lets +onlyGivenNames x
    | split
    | fail_if_no_progress with_reducible apply good_mk

end Sys2Proof.Machine
end

