-- ==== Sys2Proof/Laws/MemPwr.lean ====
section
/-! SUPPORT. Every operation of Machine/Pwr.lean keeps the canonical form of the byte memories and the queue. -/

namespace Sys2Proof.Machine

open Sys2Proof


theorem doPwrIdleEntry_mem {pq : Prop × List Instr} (kind : Nat) (i : Nat) (s : State) (hs : MemGood pq s) : MemGood pq (doPwrIdleEntry kind i s) := by
  unfold doPwrIdleEntry
  repeat' first
    | with_reducible assumption
    | intro _
    | with_reducible apply State.enterUnit_mem
    | with_reducible apply State.whenDue_mem

theorem doPwrEntryAp2_mem {pq : Prop × List Instr} (kind : Nat) (i : Nat) (s : State) (hs : MemGood pq s) : MemGood pq (doPwrEntryAp2 kind i s) := by
  unfold doPwrEntryAp2
  repeat' first
    | with_reducible assumption
    | intro _
    | with_reducible apply State.setUnit_mem
    | with_reducible apply State.wakeUnit_mem
    | with_reducible apply State.whenOn_mem
    | with_reducible apply good_ite

theorem State.pllDown_mem {pq : Prop × List Instr} (s : State) (hs : MemGood pq s) : MemGood pq (State.pllDown s) := by
  unfold State.pllDown
  repeat' first
    | with_reducible assumption
    | intro _
    | with_reducible apply State.discontinuity_mem
    | with_reducible apply State.wrF_mem

theorem State.railsDownOf_mem {pq : Prop × List Instr} (s : State) (t : Nat) (hs : MemGood pq s) : MemGood pq (State.railsDownOf s t) := by
  unfold State.railsDownOf
  repeat' first
    | with_reducible assumption
    | intro _
    | with_reducible apply State.landOff_mem
    | with_reducible apply State.setUnit_mem
    | with_reducible apply State.wrF_mem
    | with_reducible apply forEach_mem

theorem doPwrEntryAp3_mem {pq : Prop × List Instr} (kind : Nat) (i : Nat) (s : State) (hs : MemGood pq s) : MemGood pq (doPwrEntryAp3 kind i s) := by
  unfold doPwrEntryAp3
  repeat' first
    | with_reducible assumption
    | intro _
    | with_reducible apply State.pllDown_mem
    | with_reducible apply State.railsDownOf_mem
    | with_reducible apply State.setUnit_mem
    | with_reducible apply State.wakeUnit_mem
    | with_reducible apply State.whenOn_mem
    | with_reducible apply State.wrF_mem
    | with_reducible apply good_ite
    | with_reducible apply good_ite_fst
    | fail_if_no_progress beta_reduce
    | fail_if_no_progress extract_lets +onlyGivenNames x
    | split

theorem doPwrWake_mem {pq : Prop × List Instr} (kind : Nat) (i : Nat) (source : Nat) (s : State) (hs : MemGood pq s) : MemGood pq (doPwrWake kind i source s) := by
  unfold doPwrWake
  repeat' first
    | with_reducible assumption
    | intro _
    | with_reducible apply State.wakeUnit_mem
    | with_reducible apply State.whenDue_mem

theorem doPwrWakeDone_mem {pq : Prop × List Instr} (kind : Nat) (i : Nat) (s : State) (hs : MemGood pq s) : MemGood pq (doPwrWakeDone kind i s) := by
  unfold doPwrWakeDone
  repeat' first
    | with_reducible assumption
    | intro _
    | with_reducible apply State.setUnit_mem
    | with_reducible apply State.whenOn_mem

theorem State.pwrCmd_mem {pq : Prop × List Instr} (s : State) (dom : Nat) (op : Nat) (v : Word) (k : State → State) (hs : MemGood pq s) (hk : ∀ (x0 : State), MemGood pq x0 → MemGood pq (k x0)) : MemGood pq (State.pwrCmd s dom op v k) := by
  unfold State.pwrCmd
  repeat' first
    | with_reducible assumption
    | intro _
    | with_reducible apply State.hostWrite_mem
    | with_reducible apply hk
    | with_reducible apply good_ite

theorem State.setPwrCmd_mem {pq : Prop × List Instr} (s : State) (op : Nat) (tiles : Nat) (hs : MemGood pq s) : MemGood pq (State.setPwrCmd s op tiles) := by
  unfold State.setPwrCmd
  repeat' first
    | with_reducible assumption
    | intro _
    | with_reducible apply good_ite
    | with_reducible apply good_ite_fst
    | fail_if_no_progress beta_reduce
    | fail_if_no_progress extract_lets +onlyGivenNames x
    | split
    | fail_if_no_progress with_reducible apply good_mk

theorem State.railsFallOf_mem {pq : Prop × List Instr} (s : State) (t : Nat) (hs : MemGood pq s) : MemGood pq (State.railsFallOf s t) := by
  unfold State.railsFallOf
  repeat' first
    | with_reducible assumption
    | intro _
    | with_reducible apply State.enterUnit_mem
    | with_reducible apply State.landOff_mem
    | with_reducible apply State.wrF_mem
    | with_reducible apply forEach_mem
    | with_reducible apply good_ite

theorem State.railsUpOf_mem {pq : Prop × List Instr} (s : State) (t : Nat) (hs : MemGood pq s) : MemGood pq (State.railsUpOf s t) := by
  unfold State.railsUpOf
  repeat' first
    | with_reducible assumption
    | intro _
    | with_reducible apply State.landSet_mem
    | with_reducible apply State.setUnit_mem
    | with_reducible apply State.wrF_mem
    | with_reducible apply forEach_mem

theorem doRailsOff_mem {pq : Prop × List Instr} (dom : Nat) (v : Word) (s : State) (hs : MemGood pq s) : MemGood pq (doRailsOff dom v s) := by
  unfold doRailsOff
  repeat' first
    | with_reducible assumption
    | intro _
    | with_reducible apply State.noteReg_mem
    | with_reducible apply State.pwrCmd_mem
    | with_reducible apply State.railsFallOf_mem
    | with_reducible apply State.setPwrCmd_mem
    | with_reducible apply forEach_mem
    | with_reducible apply good_ite

theorem doRailsOn_mem {pq : Prop × List Instr} (dom : Nat) (v : Word) (s : State) (hs : MemGood pq s) : MemGood pq (doRailsOn dom v s) := by
  unfold doRailsOn
  repeat' first
    | with_reducible assumption
    | intro _
    | with_reducible apply State.cmdWake_mem
    | with_reducible apply State.pwrCmd_mem
    | with_reducible apply State.setPwrCmd_mem
    | with_reducible apply forEach_mem

theorem doPllOff_mem {pq : Prop × List Instr} (dom : Nat) (s : State) (hs : MemGood pq s) : MemGood pq (doPllOff dom s) := by
  unfold doPllOff
  repeat' first
    | with_reducible assumption
    | intro _
    | with_reducible apply State.enterUnit_mem
    | with_reducible apply State.hostWrite_mem
    | with_reducible apply State.noteReg_mem
    | with_reducible apply State.setPwrCmd_mem
    | with_reducible apply State.wrF_mem
    | with_reducible apply good_ite

theorem State.pllUp_mem {pq : Prop × List Instr} (s : State) (hs : MemGood pq s) : MemGood pq (State.pllUp s) := by
  unfold State.pllUp
  repeat' first
    | with_reducible assumption
    | intro _
    | with_reducible apply State.setUnit_mem
    | with_reducible apply State.wrF_mem

theorem doPllOn_mem {pq : Prop × List Instr} (dom : Nat) (s : State) (hs : MemGood pq s) : MemGood pq (doPllOn dom s) := by
  unfold doPllOn
  repeat' first
    | with_reducible assumption
    | intro _
    | with_reducible apply State.cmdWake_mem
    | with_reducible apply State.hostWrite_mem
    | with_reducible apply State.setPwrCmd_mem

theorem doPwrCmdInvalid_mem {pq : Prop × List Instr} (dom : Nat) (v : Word) (s : State) (hs : MemGood pq s) : MemGood pq (doPwrCmdInvalid dom v s) := by
  unfold doPwrCmdInvalid
  repeat' first
    | with_reducible assumption
    | intro _
    | with_reducible apply State.hostWrite_mem
    | with_reducible apply State.noteReg_mem
    | with_reducible apply good_ite

theorem doPwrCmdDone_mem {pq : Prop × List Instr} (s : State) (hs : MemGood pq s) : MemGood pq (doPwrCmdDone s) := by
  unfold doPwrCmdDone
  repeat' first
    | with_reducible assumption
    | intro _
    | with_reducible apply State.irq_mem
    | with_reducible apply State.pllLock_mem
    | with_reducible apply State.pllUp_mem
    | with_reducible apply State.railsUpOf_mem
    | with_reducible apply State.setPwrCmd_mem
    | with_reducible apply State.whenOn_mem
    | with_reducible apply forEach_mem
    | with_reducible apply good_ite

end Sys2Proof.Machine
end

