-- ==== Sys2Proof/Laws/MemStart.lean ====
section
/-! SUPPORT. Every operation of Machine/Start.lean keeps the canonical form of the byte memories and the queue. -/

namespace Sys2Proof.Machine

open Sys2Proof


theorem State.coldKeep_mem {pq : Prop × List Instr} (s : State) (hs : MemGood pq s) : MemGood pq (State.coldKeep s) :=
  ⟨fun w => ⟨kwf_nil _, kwf_nil _, (hs.1 w).2.2⟩, hs.2⟩

theorem State.lightLow_mem {pq : Prop × List Instr} (s : State) (was : Bool) (hs : MemGood pq s) : MemGood pq (State.lightLow s was) := by
  unfold State.lightLow
  repeat' first
    | with_reducible assumption
    | intro _
    | with_reducible apply State.send_mem
    | with_reducible apply good_ite

theorem State.beginCold_mem {pq : Prop × List Instr} (s : State) (cause : Nat) (counts : Bool) (hs : MemGood pq s) : MemGood pq (State.beginCold s cause counts) := by
  unfold State.beginCold
  repeat' first
    | with_reducible assumption
    | intro _
    | with_reducible apply State.coldKeep_mem
    | with_reducible apply State.lightLow_mem
    | with_reducible apply State.norAbort_mem
    | with_reducible apply State.wrN_mem
    | with_reducible apply State.wr_mem
    | with_reducible apply good_ite
    | with_reducible apply good_ite_fst
    | fail_if_no_progress beta_reduce
    | fail_if_no_progress extract_lets +onlyGivenNames x
    | split
    | fail_if_no_progress with_reducible apply good_mk

theorem State.writesAtReset_mem {pq : Prop × List Instr} (s : State) (hs : MemGood pq s) : MemGood pq (State.writesAtReset s) := by
  unfold State.writesAtReset
  repeat' first
    | with_reducible assumption
    | intro _
    | with_reducible apply State.dramPutNow_mem
    | with_reducible apply State.drawn_mem
    | with_reducible apply foldl_mem
    | with_reducible apply foldl_mem_fst
    | with_reducible apply good_ite
    | with_reducible apply good_ite_fst
    | fail_if_no_progress beta_reduce
    | fail_if_no_progress extract_lets +onlyGivenNames x
    | split

theorem State.warmKeep_mem {pq : Prop × List Instr} (s : State) (hs : MemGood pq s) : MemGood pq (State.warmKeep s) :=
  ⟨fun w => ⟨(hs.1 w).1, kwf_filter (hs.1 w).2.1 _, (hs.1 w).2.2⟩, hs.2⟩

theorem State.beginWarm_mem {pq : Prop × List Instr} (s : State) (cause : Nat) (hs : MemGood pq s) : MemGood pq (State.beginWarm s cause) := by
  unfold State.beginWarm
  repeat' first
    | with_reducible assumption
    | intro _
    | with_reducible apply State.alignLost_mem
    | with_reducible apply State.norAbort_mem
    | with_reducible apply State.selfRefreshAll_mem
    | with_reducible apply State.warmKeep_mem
    | with_reducible apply State.wrF_mem
    | with_reducible apply State.wrN_mem
    | with_reducible apply State.writesAtReset_mem
    | with_reducible apply forEach_mem
    | with_reducible apply good_ite
    | with_reducible apply good_ite_fst
    | fail_if_no_progress beta_reduce
    | (extract_lets +onlyGivenNames x; have hx : MemGood pq x; on_goal 1 => subst x; on_goal 2 => clear_value x)
    | (extract_lets +onlyGivenNames x; have hx : MemGood pq x.1; on_goal 1 => subst x; on_goal 2 => clear_value x)
    | fail_if_no_progress extract_lets +onlyGivenNames x
    | split
    | fail_if_no_progress with_reducible apply good_mk
    | refine fst_mem (by assumption) ?_

theorem State.beginAgain_mem {pq : Prop × List Instr} (s : State) (hs : MemGood pq s) : MemGood pq (State.beginAgain s) := by
  unfold State.beginAgain
  repeat' first
    | with_reducible assumption
    | intro _
    | with_reducible apply State.beginCold_mem
    | with_reducible apply State.beginWarm_mem
    | with_reducible apply good_ite

theorem State.resetFor_mem {pq : Prop × List Instr} (s : State) (cause : Nat) (hs : MemGood pq s) : MemGood pq (State.resetFor s cause) := by
  unfold State.resetFor
  repeat' first
    | with_reducible assumption
    | intro _
    | with_reducible apply State.beginAgain_mem
    | with_reducible apply State.beginWarm_mem
    | with_reducible apply good_ite

theorem State.enterSafe_mem {pq : Prop × List Instr} (s : State) (why : Nat) (hs : MemGood pq s) : MemGood pq (State.enterSafe s why) := by
  unfold State.enterSafe
  repeat' first
    | with_reducible assumption
    | intro _
    | with_reducible apply State.wrF_mem
    | with_reducible apply good_ite
    | with_reducible apply good_ite_fst
    | fail_if_no_progress beta_reduce
    | fail_if_no_progress extract_lets +onlyGivenNames x
    | split
    | fail_if_no_progress with_reducible apply good_mk

theorem State.startFailed_mem {pq : Prop × List Instr} (s : State) (hs : MemGood pq s) : MemGood pq (State.startFailed s) := by
  unfold State.startFailed
  repeat' first
    | with_reducible assumption
    | intro _
    | with_reducible apply State.beginCold_mem
    | with_reducible apply State.beginWarm_mem
    | with_reducible apply State.enterSafe_mem
    | with_reducible apply State.wrF_mem
    | with_reducible apply good_ite

theorem State.trainFails_mem {pq : Prop × List Instr} (s : State) (c : Nat) (k : Nat) (hs : MemGood pq s) : MemGood pq (State.trainFails s c k) := by
  unfold State.trainFails
  repeat' first
    | with_reducible assumption
    | intro _
    | with_reducible apply State.irq_mem
    | with_reducible apply State.setTraining_mem
    | with_reducible apply State.wrF_mem
    | with_reducible apply State.wrN_mem
    | with_reducible apply good_ite
    | with_reducible apply good_ite_fst
    | fail_if_no_progress beta_reduce
    | (extract_lets +onlyGivenNames x; have hx : MemGood pq x; on_goal 1 => subst x; on_goal 2 => clear_value x)
    | (extract_lets +onlyGivenNames x; have hx : MemGood pq x.1; on_goal 1 => subst x; on_goal 2 => clear_value x)
    | fail_if_no_progress extract_lets +onlyGivenNames x
    | split
    | fail_if_no_progress with_reducible apply good_mk
    | refine fst_mem (by assumption) ?_

theorem doStartFail_mem {pq : Prop × List Instr} (train : Option (Fin 8 × Fin 8)) (s : State) (hs : MemGood pq s) : MemGood pq (doStartFail train s) := by
  unfold doStartFail
  repeat' first
    | with_reducible assumption
    | intro _
    | with_reducible apply State.startFailed_mem
    | with_reducible apply State.trainFails_mem
    | with_reducible apply State.whenOn_mem
    | with_reducible apply good_ite
    | with_reducible apply good_ite_fst
    | fail_if_no_progress beta_reduce
    | (extract_lets +onlyGivenNames x; have hx : MemGood pq x; on_goal 1 => subst x; on_goal 2 => clear_value x)
    | (extract_lets +onlyGivenNames x; have hx : MemGood pq x.1; on_goal 1 => subst x; on_goal 2 => clear_value x)
    | fail_if_no_progress extract_lets +onlyGivenNames x
    | split
    | fail_if_no_progress with_reducible apply good_mk
    | refine fst_mem (by assumption) ?_

theorem State.fwShow_mem {pq : Prop × List Instr} (s : State) (b : Nat) (hs : MemGood pq s) : MemGood pq (State.fwShow s b) := by
  unfold State.fwShow
  repeat' first
    | with_reducible assumption
    | intro _
    | with_reducible apply State.wrF_mem
    | with_reducible apply State.wrN_mem

theorem State.fwRun_mem {pq : Prop × List Instr} (s : State) (b : Nat) (hs : MemGood pq s) : MemGood pq (State.fwRun s b) := by
  unfold State.fwRun
  repeat' first
    | with_reducible assumption
    | intro _
    | with_reducible apply State.wrF_mem
    | with_reducible apply State.wrN_mem
    | with_reducible apply good_ite
    | with_reducible apply good_ite_fst
    | fail_if_no_progress beta_reduce
    | fail_if_no_progress extract_lets +onlyGivenNames x
    | split
    | fail_if_no_progress with_reducible apply good_mk

theorem State.step2_mem {pq : Prop × List Instr} (s : State) (hs : MemGood pq s) : MemGood pq (State.step2 s) := by
  unfold State.step2
  repeat' first
    | with_reducible assumption
    | intro _
    | with_reducible apply State.wrF_mem
    | with_reducible apply State.wrRow_mem

theorem State.step3_mem {pq : Prop × List Instr} (s : State) (digest : Bool) (hs : MemGood pq s) : OptGood pq (State.step3 s digest) := by
  unfold State.step3
  repeat' first
    | with_reducible assumption
    | intro _
    | with_reducible apply State.fwRun_mem
    | with_reducible apply State.fwShow_mem
    | with_reducible apply State.note_mem
    | with_reducible apply State.wrF_mem
    | with_reducible apply good_ite
    | with_reducible apply good_ite_fst
    | fail_if_no_progress beta_reduce
    | fail_if_no_progress extract_lets +onlyGivenNames x
    | split
    | fail_if_no_progress with_reducible apply good_mk
    | refine fst_mem (by assumption) ?_
    | with_reducible apply good_some
    | with_reducible apply good_none

theorem State.step4_mem {pq : Prop × List Instr} (s : State) (hs : MemGood pq s) : MemGood pq (State.step4 s) := by
  unfold State.step4
  repeat' first
    | with_reducible assumption
    | intro _
    | with_reducible apply State.pllLock_mem
    | with_reducible apply good_ite
    | with_reducible apply good_ite_fst
    | fail_if_no_progress beta_reduce
    | fail_if_no_progress extract_lets +onlyGivenNames x
    | split
    | fail_if_no_progress with_reducible apply good_mk

theorem State.reserveNow_mem {pq : Prop × List Instr} (s : State) (k : Nat) (r : Nat) (hs : MemGood pq s) : MemGood pq (State.reserveNow s k r) := by
  unfold State.reserveNow
  repeat' first
    | with_reducible assumption
    | intro _
    | with_reducible apply State.norDo_mem

theorem State.epochTake_mem {pq : Prop × List Instr} (s : State) (r : Nat) (hs : MemGood pq s) : MemGood pq (State.epochTake s r) := by
  unfold State.epochTake
  repeat' first
    | with_reducible assumption
    | intro _
    | with_reducible apply State.wrWide_mem

theorem State.epochStart_mem {pq : Prop × List Instr} (s : State) (hs : MemGood pq s) : OptGood pq (State.epochStart s) := by
  unfold State.epochStart
  extract_lets +onlyGivenNames copies
  cases copies with
  | cons a l => exact good_some (State.epochTake_mem _ _ (State.reserveNow_mem _ _ _ hs))
  | nil =>
    refine good_ite_opt good_none (good_some ?_)
    refine State.note_mem _ _ _ _ (State.epochTake_mem _ _ (State.reserveNow_mem _ _ _ (State.reserveNow_mem _ _ _ ?_)))
    exact good_mk hs

theorem State.graveRecord_mem {pq : Prop × List Instr} (s : State) (hs : MemGood pq s) : MemGood pq (State.graveRecord s) := by
  unfold State.graveRecord
  repeat' first
    | with_reducible assumption
    | intro _
    | with_reducible apply State.irq_mem
    | with_reducible apply State.putWords_mem
    | with_reducible apply State.wrF_mem
    | with_reducible apply good_ite

theorem State.step5_mem {pq : Prop × List Instr} (s : State) (calKept : Bool) (hs : MemGood pq s) : OptGood pq (State.step5 s calKept) := by
  unfold State.step5
  repeat' first
    | with_reducible assumption
    | intro _
    | with_reducible apply State.calColdLoad_mem
    | with_reducible apply State.calLoadChan_mem
    | with_reducible apply State.calTemps_mem
    | with_reducible apply State.epochStart_mem
    | with_reducible apply State.graveRecord_mem
    | with_reducible apply forEach_mem
    | with_reducible apply good_ite
    | with_reducible apply good_ite_fst
    | fail_if_no_progress beta_reduce
    | fail_if_no_progress extract_lets +onlyGivenNames x
    | split
    | fail_if_no_progress with_reducible apply good_mk
    | refine fst_mem (by assumption) ?_
    | with_reducible apply good_some
    | with_reducible apply good_none
    | with_reducible apply good_ite_opt
    | refine opt_mem (by assumption) ?_

theorem State.dramKept_mem {pq : Prop × List Instr} (s : State) (hs : MemGood pq s) : MemGood pq (State.dramKept s) := by
  unfold State.dramKept
  repeat' first
    | with_reducible assumption
    | intro _
    | with_reducible apply State.selfRefreshExit_mem
    | with_reducible apply State.waitsServed_mem
    | with_reducible apply State.wrF_mem
    | with_reducible apply good_ite
    | with_reducible apply good_ite_fst
    | fail_if_no_progress beta_reduce
    | fail_if_no_progress extract_lets +onlyGivenNames x
    | split
    | fail_if_no_progress with_reducible apply good_mk

theorem State.trainBegin_mem {pq : Prop × List Instr} (s : State) (hs : MemGood pq s) : MemGood pq (State.trainBegin s) := by
  unfold State.trainBegin
  repeat' first
    | with_reducible assumption
    | intro _
    | with_reducible apply State.selfRefreshExit_mem
    | with_reducible apply State.setTraining_mem
    | with_reducible apply good_ite
    | with_reducible apply good_ite_fst
    | fail_if_no_progress beta_reduce
    | fail_if_no_progress extract_lets +onlyGivenNames x
    | split
    | fail_if_no_progress with_reducible apply good_mk

theorem State.trainFound_mem {pq : Prop × List Instr} (s : State) (o : StartObs) (hs : MemGood pq s) : MemGood pq (State.trainFound s o) := by
  unfold State.trainFound
  repeat' first
    | with_reducible assumption
    | intro _
    | with_reducible apply State.wrN_mem
    | with_reducible apply good_ite
    | with_reducible apply good_ite_fst
    | fail_if_no_progress beta_reduce
    | fail_if_no_progress extract_lets +onlyGivenNames x
    | split
    | fail_if_no_progress with_reducible apply good_mk

theorem State.trainStored_mem {pq : Prop × List Instr} (s : State) (o : StartObs) (hs : MemGood pq s) : MemGood pq (State.trainStored s o) := by
  unfold State.trainStored
  repeat' first
    | with_reducible assumption
    | intro _
    | with_reducible apply State.drawn_mem
    | with_reducible apply State.setTraining_mem
    | with_reducible apply State.wrN_mem
    | with_reducible apply good_ite
    | with_reducible apply good_ite_fst
    | fail_if_no_progress beta_reduce
    | fail_if_no_progress extract_lets +onlyGivenNames x
    | split
    | fail_if_no_progress with_reducible apply good_mk

theorem State.trainReq_mem {pq : Prop × List Instr} (s : State) (req : Nat) (hs : MemGood pq s) : MemGood pq (State.trainReq s req) := by
  unfold State.trainReq
  repeat' first
    | with_reducible assumption
    | intro _
    | with_reducible apply State.wrF_mem
    | with_reducible apply good_ite
    | with_reducible apply good_ite_fst
    | fail_if_no_progress beta_reduce
    | fail_if_no_progress extract_lets +onlyGivenNames x
    | split
    | fail_if_no_progress with_reducible apply good_mk

theorem State.stepTo_mem {pq : Prop × List Instr} (s : State) (k : Nat) (hs : MemGood pq s) : MemGood pq (State.stepTo s k) := by
  unfold State.stepTo
  repeat' first
    | with_reducible assumption
    | intro _
    | with_reducible apply State.wrF_mem
    | with_reducible apply good_ite
    | with_reducible apply good_ite_fst
    | fail_if_no_progress beta_reduce
    | (extract_lets +onlyGivenNames x; have hx : MemGood pq x; on_goal 1 => subst x; on_goal 2 => clear_value x)
    | (extract_lets +onlyGivenNames x; have hx : MemGood pq x.1; on_goal 1 => subst x; on_goal 2 => clear_value x)
    | fail_if_no_progress extract_lets +onlyGivenNames x
    | split
    | fail_if_no_progress with_reducible apply good_mk
    | refine fst_mem (by assumption) ?_

theorem State.trainNext_mem {pq : Prop × List Instr} (s : State) (o : StartObs) (hs : MemGood pq s) : MemGood pq (State.trainNext s o) := by
  unfold State.trainNext
  extract_lets +onlyGivenNames k
  split
  · exact State.setTraining_mem _ _ _ (State.trainReq_mem _ _ hs)
  · extract_lets +onlyGivenNames t
    have ht : MemGood pq t := by
      subst t
      split
      · exact State.trainReq_mem _ _ hs
      · exact hs
    clear_value t
    split
    · exact good_ite (State.startFailed_mem _ (State.trainFails_mem _ _ _ (State.drawn_mem _ ht))) (State.drawn_mem _ ht)
    · extract_lets +onlyGivenNames w v
      have hv : MemGood pq v := ht
      clear_value v
      extract_lets +onlyGivenNames u
      have hu : MemGood pq u := good_ite (State.trainFound_mem _ _ hv) hv
      clear_value u
      exact good_ite (State.stepTo_mem _ _ (State.trainStored_mem _ _ hu)) (State.setTraining_mem _ _ _ hu)

theorem State.step6_mem {pq : Prop × List Instr} (s : State) (o : StartObs) (hs : MemGood pq s) : MemGood pq (State.step6 s o) := by
  unfold State.step6
  repeat' first
    | with_reducible assumption
    | intro _
    | with_reducible apply State.dramKept_mem
    | with_reducible apply State.stepTo_mem
    | with_reducible apply State.trainBegin_mem
    | with_reducible apply State.trainNext_mem
    | with_reducible apply good_ite

theorem State.step7_mem {pq : Prop × List Instr} (s : State) (hs : MemGood pq s) : MemGood pq (State.step7 s) := by
  unfold State.step7
  repeat' first
    | with_reducible assumption
    | intro _
    | with_reducible apply State.applyImage_mem
    | with_reducible apply State.detect_mem
    | with_reducible apply good_ite
    | with_reducible apply good_ite_fst
    | fail_if_no_progress beta_reduce
    | fail_if_no_progress extract_lets +onlyGivenNames x
    | split

theorem State.step8_mem {pq : Prop × List Instr} (s : State) (hs : MemGood pq s) : MemGood pq (State.step8 s) := by
  unfold State.step8
  refine forEach_mem _ _ _ (forEach_mem _ _ _ ?_ fun n x hx => State.setSq_mem _ _ _ hx) fun c x hx => State.pinChange_mem _ _ _ hx
  exact ⟨fun w => ⟨(hs.1 w).1, kwf_filter (hs.1 w).2.1 _, (hs.1 w).2.2⟩, hs.2⟩

theorem State.step9_mem {pq : Prop × List Instr} (s : State) (hs : MemGood pq s) : MemGood pq (State.step9 s) :=
  good_ite hs (State.waitsServed_mem _ (State.wrF_mem _ _ _ _ _ (State.wrF_mem _ _ _ _ _ ⟨fun w => ⟨kwf_nil _, (hs.1 w).2⟩, hs.2⟩)))

theorem State.lightRuns_mem {pq : Prop × List Instr} (s : State) (hs : MemGood pq s) : MemGood pq (State.lightRuns s) := by
  unfold State.lightRuns
  repeat' first
    | with_reducible assumption
    | intro _
    | with_reducible apply State.send_mem
    | with_reducible apply State.wrF_mem
    | with_reducible apply good_ite
    | with_reducible apply good_ite_fst
    | fail_if_no_progress beta_reduce
    | fail_if_no_progress extract_lets +onlyGivenNames x
    | split
    | fail_if_no_progress with_reducible apply good_mk

theorem State.step10_mem {pq : Prop × List Instr} (s : State) (ms : Nat) (hs : MemGood pq s) : MemGood pq (State.step10 s ms) := by
  unfold State.step10
  repeat' first
    | with_reducible assumption
    | intro _
    | with_reducible apply State.drawn_mem
    | with_reducible apply State.irq_mem
    | with_reducible apply State.lightRuns_mem
    | with_reducible apply State.portUp_mem
    | with_reducible apply State.wrF_mem
    | with_reducible apply State.wrN_mem
    | with_reducible apply forEach_mem
    | with_reducible apply good_ite
    | with_reducible apply good_ite_fst
    | fail_if_no_progress beta_reduce
    | fail_if_no_progress extract_lets +onlyGivenNames x
    | split
    | fail_if_no_progress with_reducible apply good_mk

theorem doStartStepDone_mem {pq : Prop × List Instr} (o : StartObs) (s : State) (hs : MemGood pq s) : MemGood pq (doStartStepDone o s) := by
  unfold doStartStepDone
  repeat' first
    | with_reducible assumption
    | intro _
    | with_reducible apply State.enterSafe_mem
    | with_reducible apply State.startFailed_mem
    | with_reducible apply State.step10_mem
    | with_reducible apply State.step2_mem
    | with_reducible apply State.step3_mem
    | with_reducible apply State.step4_mem
    | with_reducible apply State.step5_mem
    | with_reducible apply State.step6_mem
    | with_reducible apply State.step7_mem
    | with_reducible apply State.step8_mem
    | with_reducible apply State.step9_mem
    | with_reducible apply State.stepTo_mem
    | with_reducible apply State.trainBegin_mem
    | with_reducible apply State.whenOn_mem
    | with_reducible apply good_ite
    | with_reducible apply good_ite_fst
    | fail_if_no_progress beta_reduce
    | (extract_lets +onlyGivenNames x; have hx : MemGood pq x; on_goal 1 => subst x; on_goal 2 => clear_value x)
    | (extract_lets +onlyGivenNames x; have hx : MemGood pq x.1; on_goal 1 => subst x; on_goal 2 => clear_value x)
    | fail_if_no_progress extract_lets +onlyGivenNames x
    | split
    | fail_if_no_progress with_reducible apply good_mk
    | refine fst_mem (by assumption) ?_
    | with_reducible apply good_some
    | with_reducible apply good_none
    | with_reducible apply good_ite_opt
    | refine opt_mem (by assumption) ?_

theorem doPowerOn_mem {pq : Prop × List Instr} (rstLow : Bool) (s : State) (hs : MemGood pq s) : MemGood pq (doPowerOn rstLow s) := by
  unfold doPowerOn
  repeat' first
    | with_reducible assumption
    | intro _
    | with_reducible apply State.coldKeep_mem
    | with_reducible apply State.wrN_mem
    | with_reducible apply good_ite
    | with_reducible apply good_ite_fst
    | fail_if_no_progress beta_reduce
    | fail_if_no_progress extract_lets +onlyGivenNames x
    | split
    | fail_if_no_progress with_reducible apply good_mk

theorem doRailsFall_mem {pq : Prop × List Instr} (s : State) (hs : MemGood pq s) : MemGood pq (doRailsFall s) := by
  unfold doRailsFall
  repeat' first
    | with_reducible assumption
    | intro _
    | with_reducible apply State.coldKeep_mem
    | with_reducible apply State.norAbort_mem
    | with_reducible apply State.whenOn_mem
    | with_reducible apply good_ite
    | with_reducible apply good_ite_fst
    | fail_if_no_progress beta_reduce
    | (extract_lets +onlyGivenNames x; have hx : MemGood pq x; on_goal 1 => subst x; on_goal 2 => clear_value x)
    | (extract_lets +onlyGivenNames x; have hx : MemGood pq x.1; on_goal 1 => subst x; on_goal 2 => clear_value x)
    | fail_if_no_progress extract_lets +onlyGivenNames x
    | split
    | fail_if_no_progress with_reducible apply good_mk
    | refine fst_mem (by assumption) ?_

theorem State.holdReset_mem {pq : Prop × List Instr} (s : State) (hs : MemGood pq s) : MemGood pq (State.holdReset s) := by
  unfold State.holdReset
  repeat' first
    | with_reducible assumption
    | intro _
    | with_reducible apply good_ite
    | with_reducible apply good_ite_fst
    | fail_if_no_progress beta_reduce
    | fail_if_no_progress extract_lets +onlyGivenNames x
    | split
    | fail_if_no_progress with_reducible apply good_mk

theorem doRstNAssert_mem {pq : Prop × List Instr} (ns : Nat) (s : State) (hs : MemGood pq s) : MemGood pq (doRstNAssert ns s) := by
  unfold doRstNAssert
  repeat' first
    | with_reducible assumption
    | intro _
    | with_reducible apply State.drawn_mem
    | with_reducible apply State.holdReset_mem
    | with_reducible apply State.resetFor_mem
    | with_reducible apply State.whenOn_mem
    | with_reducible apply good_ite
    | with_reducible apply good_ite_fst
    | fail_if_no_progress beta_reduce
    | (extract_lets +onlyGivenNames x; have hx : MemGood pq x; on_goal 1 => subst x; on_goal 2 => clear_value x)
    | (extract_lets +onlyGivenNames x; have hx : MemGood pq x.1; on_goal 1 => subst x; on_goal 2 => clear_value x)
    | fail_if_no_progress extract_lets +onlyGivenNames x
    | split
    | fail_if_no_progress with_reducible apply good_mk
    | refine fst_mem (by assumption) ?_

theorem doRstNRelease_mem {pq : Prop × List Instr} (s : State) (hs : MemGood pq s) : MemGood pq (doRstNRelease s) := by
  unfold doRstNRelease
  repeat' first
    | with_reducible assumption
    | intro _
    | with_reducible apply State.whenOn_mem
    | with_reducible apply good_ite
    | with_reducible apply good_ite_fst
    | fail_if_no_progress beta_reduce
    | (extract_lets +onlyGivenNames x; have hx : MemGood pq x; on_goal 1 => subst x; on_goal 2 => clear_value x)
    | (extract_lets +onlyGivenNames x; have hx : MemGood pq x.1; on_goal 1 => subst x; on_goal 2 => clear_value x)
    | fail_if_no_progress extract_lets +onlyGivenNames x
    | split
    | fail_if_no_progress with_reducible apply good_mk
    | refine fst_mem (by assumption) ?_

theorem doPfFunctionLevelReset_mem {pq : Prop × List Instr} (s : State) (hs : MemGood pq s) : MemGood pq (doPfFunctionLevelReset s) := by
  unfold doPfFunctionLevelReset
  repeat' first
    | with_reducible assumption
    | intro _
    | with_reducible apply State.resetFor_mem
    | with_reducible apply State.whenOn_mem
    | with_reducible apply good_ite
    | with_reducible apply good_ite_fst
    | fail_if_no_progress beta_reduce
    | (extract_lets +onlyGivenNames x; have hx : MemGood pq x; on_goal 1 => subst x; on_goal 2 => clear_value x)
    | (extract_lets +onlyGivenNames x; have hx : MemGood pq x.1; on_goal 1 => subst x; on_goal 2 => clear_value x)
    | fail_if_no_progress extract_lets +onlyGivenNames x
    | split
    | fail_if_no_progress with_reducible apply good_mk
    | refine fst_mem (by assumption) ?_

theorem doSupReset_mem {pq : Prop × List Instr} (dom : Nat) (s : State) (hs : MemGood pq s) : MemGood pq (doSupReset dom s) := by
  unfold doSupReset
  repeat' first
    | with_reducible assumption
    | intro _
    | with_reducible apply State.hostWrite_mem
    | with_reducible apply State.resetFor_mem

theorem doRetry_mem {pq : Prop × List Instr} (dom : Nat) (s : State) (hs : MemGood pq s) : MemGood pq (doRetry dom s) := by
  unfold doRetry
  repeat' first
    | with_reducible assumption
    | intro _
    | with_reducible apply State.beginCold_mem
    | with_reducible apply State.hostWrite_mem
    | with_reducible apply State.noteReg_mem
    | with_reducible apply good_ite

end Sys2Proof.Machine
end

