-- ==== Sys2Proof/Laws/MemSup.lean ====
section
/-! SUPPORT. Every operation of Machine/Sup.lean keeps the canonical form of the byte memories and the queue. -/

namespace Sys2Proof.Machine

open Sys2Proof


theorem State.supStat_mem {pq : Prop × List Instr} (s : State) (busy : Bool) (phase : Nat) (err : Nat) (hs : MemGood pq s) : MemGood pq (State.supStat s busy phase err) := by
  unfold State.supStat
  repeat' first
    | with_reducible assumption
    | intro _
    | with_reducible apply State.wrN_mem

theorem State.supErr_mem {pq : Prop × List Instr} (s : State) (err : Nat) (hs : MemGood pq s) : MemGood pq (State.supErr s err) := by
  unfold State.supErr
  repeat' first
    | with_reducible assumption
    | intro _
    | with_reducible apply State.irq_mem
    | with_reducible apply State.supStat_mem
    | with_reducible apply State.wrF_mem
    | with_reducible apply good_ite

theorem State.supCmd_mem {pq : Prop × List Instr} (s : State) (dom : Nat) (op : Nat) (v : Word) (k : State → State) (hs : MemGood pq s) (hk : ∀ (x0 : State), MemGood pq x0 → MemGood pq (k x0)) : MemGood pq (State.supCmd s dom op v k) := by
  unfold State.supCmd
  repeat' first
    | with_reducible assumption
    | intro _
    | with_reducible apply State.hostWrite_mem
    | with_reducible apply State.supErr_mem
    | with_reducible apply hk
    | with_reducible apply good_ite

theorem State.fwFetch_mem {pq : Prop × List Instr} (s : State) (dram : Bool) (h : HostRead) (hs : MemGood pq s) : MemGood pq (State.fwFetch s dram h).1 := by
  unfold State.fwFetch
  repeat' first
    | with_reducible assumption
    | intro _
    | with_reducible apply State.detect_mem
    | with_reducible apply State.dramAsk_mem
    | with_reducible apply good_ite
    | with_reducible apply good_ite_fst

theorem State.fwStore_mem {pq : Prop × List Instr} (s : State) (b : Nat) (img : List Byte) (hs : MemGood pq s) : MemGood pq (State.fwStore s b img) := by
  unfold State.fwStore
  repeat' first
    | with_reducible assumption
    | intro _
    | with_reducible apply State.norPush_mem
    | with_reducible apply State.supStat_mem
    | with_reducible apply State.wrF_mem
    | with_reducible apply State.wrN_mem
    | with_reducible apply good_ite
    | with_reducible apply good_ite_fst
    | fail_if_no_progress beta_reduce
    | fail_if_no_progress extract_lets +onlyGivenNames x
    | split
    | fail_if_no_progress with_reducible apply good_mk

theorem doFwStore_mem {pq : Prop × List Instr} (dom : Nat) (v : Word) (h : HostRead) (s : State) (hs : MemGood pq s) : MemGood pq (doFwStore dom v h s) := by
  unfold doFwStore
  repeat' first
    | with_reducible assumption
    | intro _
    | with_reducible apply State.fwFetch_mem
    | with_reducible apply State.fwStore_mem
    | with_reducible apply State.norPfw_mem
    | with_reducible apply State.supCmd_mem
    | with_reducible apply State.supErr_mem
    | with_reducible apply good_ite
    | with_reducible apply good_ite_fst
    | fail_if_no_progress beta_reduce
    | fail_if_no_progress extract_lets +onlyGivenNames x
    | split

theorem State.supSwitchTo_mem {pq : Prop × List Instr} (s : State) (op : Nat) (hs : MemGood pq s) : MemGood pq (State.supSwitchTo s op) := by
  unfold State.supSwitchTo
  repeat' first
    | with_reducible assumption
    | intro _
    | with_reducible apply State.calAbort_mem
    | with_reducible apply State.supStat_mem
    | with_reducible apply good_ite
    | with_reducible apply good_ite_fst
    | fail_if_no_progress beta_reduce
    | fail_if_no_progress extract_lets +onlyGivenNames x
    | split
    | fail_if_no_progress with_reducible apply good_mk

theorem doFwActivate_mem {pq : Prop × List Instr} (dom : Nat) (s : State) (hs : MemGood pq s) : MemGood pq (doFwActivate dom s) := by
  unfold doFwActivate
  repeat' first
    | with_reducible assumption
    | intro _
    | with_reducible apply State.hostWrite_mem
    | with_reducible apply State.supErr_mem
    | with_reducible apply State.supSwitchTo_mem
    | with_reducible apply good_ite

theorem State.supDone_mem {pq : Prop × List Instr} (s : State) (isr : Nat) (hs : MemGood pq s) : MemGood pq (State.supDone s isr) := by
  unfold State.supDone
  repeat' first
    | with_reducible assumption
    | intro _
    | with_reducible apply State.irq_mem
    | with_reducible apply State.supStat_mem
    | with_reducible apply good_ite
    | with_reducible apply good_ite_fst
    | fail_if_no_progress beta_reduce
    | fail_if_no_progress extract_lets +onlyGivenNames x
    | split
    | fail_if_no_progress with_reducible apply good_mk

theorem doConfirm_mem {pq : Prop × List Instr} (dom : Nat) (s : State) (hs : MemGood pq s) : MemGood pq (doConfirm dom s) := by
  unfold doConfirm
  repeat' first
    | with_reducible assumption
    | intro _
    | with_reducible apply State.hostWrite_mem
    | with_reducible apply State.norPfw_mem
    | with_reducible apply State.norPush_mem
    | with_reducible apply State.supDone_mem
    | with_reducible apply State.supErr_mem
    | with_reducible apply State.wrF_mem
    | with_reducible apply good_ite

theorem doSupCmdInvalid_mem {pq : Prop × List Instr} (dom : Nat) (v : Word) (s : State) (hs : MemGood pq s) : MemGood pq (doSupCmdInvalid dom v s) := by
  unfold doSupCmdInvalid
  repeat' first
    | with_reducible assumption
    | intro _
    | with_reducible apply State.hostWrite_mem
    | with_reducible apply State.noteReg_mem
    | with_reducible apply good_ite

theorem doFwOperationDone_mem {pq : Prop × List Instr} (s : State) (hs : MemGood pq s) : MemGood pq (doFwOperationDone s) := by
  unfold doFwOperationDone
  repeat' first
    | with_reducible assumption
    | intro _
    | with_reducible apply State.fwRun_mem
    | with_reducible apply State.fwShow_mem
    | with_reducible apply State.note_mem
    | with_reducible apply State.supDone_mem
    | with_reducible apply State.supErr_mem
    | with_reducible apply State.whenOn_mem
    | with_reducible apply State.wrF_mem
    | with_reducible apply good_ite
    | with_reducible apply good_ite_fst
    | fail_if_no_progress beta_reduce
    | fail_if_no_progress extract_lets +onlyGivenNames x
    | split
    | fail_if_no_progress with_reducible apply good_mk

theorem doFwConfirmTimeout_mem {pq : Prop × List Instr} (s : State) (hs : MemGood pq s) : MemGood pq (doFwConfirmTimeout s) := by
  unfold doFwConfirmTimeout
  repeat' first
    | with_reducible assumption
    | intro _
    | with_reducible apply State.supSwitchTo_mem
    | with_reducible apply State.whenOn_mem

theorem doSupHeartbeat_mem {pq : Prop × List Instr} (s : State) (hs : MemGood pq s) : MemGood pq (doSupHeartbeat s) := by
  unfold doSupHeartbeat
  repeat' first
    | with_reducible assumption
    | intro _
    | with_reducible apply State.whenOn_mem
    | with_reducible apply State.wrN_mem
    | with_reducible apply good_ite
    | with_reducible apply good_ite_fst
    | fail_if_no_progress beta_reduce
    | fail_if_no_progress extract_lets +onlyGivenNames x
    | split
    | fail_if_no_progress with_reducible apply good_mk

theorem State.settingBack_mem {pq : Prop × List Instr} (s : State) (a : Nat) (hs : MemGood pq s) : MemGood pq (State.settingBack s a) := by
  unfold State.settingBack
  repeat' first
    | with_reducible assumption
    | intro _
    | with_reducible apply State.wrF_mem
    | with_reducible apply State.wrRow_mem
    | with_reducible apply good_ite

theorem State.norEnd_mem {pq : Prop × List Instr} (s : State) (op : NorOp) (code : Nat) (hs : MemGood pq s) : MemGood pq (State.norEnd s op code) := by
  unfold State.norEnd
  repeat' first
    | with_reducible assumption
    | intro _
    | with_reducible apply State.drawn_mem
    | with_reducible apply State.note_mem
    | with_reducible apply State.settingBack_mem
    | with_reducible apply State.stiDone_mem
    | with_reducible apply State.stiReject_mem
    | with_reducible apply State.supErr_mem
    | with_reducible apply State.wrWide_mem
    | with_reducible apply foldl_mem
    | with_reducible apply foldl_mem_fst
    | with_reducible apply good_ite
    | with_reducible apply good_ite_fst
    | fail_if_no_progress beta_reduce
    | fail_if_no_progress extract_lets +onlyGivenNames x
    | split
    | fail_if_no_progress with_reducible apply good_mk

theorem doNorOpDone_mem {pq : Prop × List Instr} (fails : Nat) (s : State) (hs : MemGood pq s) : MemGood pq (doNorOpDone fails s) := by
  unfold doNorOpDone
  repeat' first
    | with_reducible assumption
    | intro _
    | with_reducible apply State.detect_mem
    | with_reducible apply State.drawn_mem
    | with_reducible apply State.norDo_mem
    | with_reducible apply State.norEnd_mem
    | with_reducible apply State.norShow_mem
    | with_reducible apply State.whenOn_mem
    | with_reducible apply State.wrN_mem
    | with_reducible apply good_ite
    | with_reducible apply good_ite_fst
    | fail_if_no_progress beta_reduce
    | fail_if_no_progress extract_lets +onlyGivenNames x
    | split
    | fail_if_no_progress with_reducible apply good_mk

theorem State.norRefuseWaiting_mem {pq : Prop × List Instr} (s : State) (hs : MemGood pq s) : MemGood pq (State.norRefuseWaiting s) := by
  unfold State.norRefuseWaiting
  repeat' first
    | with_reducible assumption
    | intro _
    | with_reducible apply State.norEnd_mem
    | with_reducible apply State.norPfw_mem
    | with_reducible apply foldl_mem
    | with_reducible apply foldl_mem_fst
    | with_reducible apply good_ite
    | with_reducible apply good_ite_fst
    | fail_if_no_progress beta_reduce
    | fail_if_no_progress extract_lets +onlyGivenNames x
    | split
    | fail_if_no_progress with_reducible apply good_mk

theorem State.pfwStop_mem {pq : Prop × List Instr} (s : State) (hs : MemGood pq s) : MemGood pq (State.pfwStop s) := by
  unfold State.pfwStop
  repeat' first
    | with_reducible assumption
    | intro _
    | with_reducible apply State.applyTo_mem
    | with_reducible apply State.setSq_mem
    | with_reducible apply forEach_mem
    | with_reducible apply good_ite
    | with_reducible apply good_ite_fst
    | fail_if_no_progress beta_reduce
    | fail_if_no_progress extract_lets +onlyGivenNames x
    | split
    | fail_if_no_progress with_reducible apply good_mk

theorem doPfwAssert_mem {pq : Prop × List Instr} (s : State) (hs : MemGood pq s) : MemGood pq (doPfwAssert s) := by
  unfold doPfwAssert
  repeat' first
    | with_reducible assumption
    | intro _
    | with_reducible apply State.count_mem
    | with_reducible apply State.irq_mem
    | with_reducible apply State.masterFail_mem
    | with_reducible apply State.norRefuseWaiting_mem
    | with_reducible apply State.note_mem
    | with_reducible apply State.pfwStop_mem
    | with_reducible apply State.whenOn_mem
    | with_reducible apply State.wrF_mem
    | with_reducible apply good_ite
    | with_reducible apply good_ite_fst
    | fail_if_no_progress beta_reduce
    | fail_if_no_progress extract_lets +onlyGivenNames x
    | split
    | fail_if_no_progress with_reducible apply good_mk

theorem doPfwRelease_mem {pq : Prop × List Instr} (s : State) (hs : MemGood pq s) : MemGood pq (doPfwRelease s) := by
  unfold doPfwRelease
  repeat' first
    | with_reducible assumption
    | intro _
    | with_reducible apply State.irq_mem
    | with_reducible apply State.whenOn_mem
    | with_reducible apply State.wrF_mem
    | with_reducible apply good_ite
    | with_reducible apply good_ite_fst
    | fail_if_no_progress beta_reduce
    | fail_if_no_progress extract_lets +onlyGivenNames x
    | split
    | fail_if_no_progress with_reducible apply good_mk

end Sys2Proof.Machine
end

