-- ==== Sys2Proof/Laws/MemRegAccess.lean ====
section
/-! SUPPORT. Every operation of Machine/RegAccess.lean keeps the canonical form of the byte memories and the queue. -/

namespace Sys2Proof.Machine

open Sys2Proof


theorem State.readNowhere_mem {pq : Prop × List Instr} (s : State) (hs : MemGood pq s) : MemGood pq (State.readNowhere s) := by
  unfold State.readNowhere
  repeat' first
    | with_reducible assumption
    | intro _
    | with_reducible apply State.answer_mem

theorem State.readPlain_mem {pq : Prop × List Instr} (s : State) (dom : Nat) (a : Nat) (hs : MemGood pq s) : MemGood pq (State.readPlain s dom a) := by
  unfold State.readPlain
  repeat' first
    | with_reducible assumption
    | intro _
    | with_reducible apply State.drawn_mem
    | with_reducible apply State.hostRead_mem
    | with_reducible apply State.latchWords_mem
    | with_reducible apply good_ite

theorem State.misaligned_mem {pq : Prop × List Instr} (s : State) (dom : Nat) (a : Nat) (wr : Bool) (hs : MemGood pq s) : MemGood pq (State.misaligned s dom a wr) := by
  unfold State.misaligned
  repeat' first
    | with_reducible assumption
    | intro _
    | with_reducible apply State.r4Note_mem
    | with_reducible apply State.readNowhere_mem
    | with_reducible apply State.wr_mem
    | with_reducible apply good_ite

theorem doMisalignedAccess_mem {pq : Prop × List Instr} (dom : Nat) (a : Nat) (wr : Bool) (s : State) (hs : MemGood pq s) : MemGood pq (doMisalignedAccess dom a wr s) := by
  unfold doMisalignedAccess
  repeat' first
    | with_reducible assumption
    | intro _
    | with_reducible apply State.misaligned_mem

theorem State.readWindow_mem {pq : Prop × List Instr} (s : State) (dom : Nat) (a : Nat) (hs : MemGood pq s) : MemGood pq (State.readWindow s dom a) := by
  unfold State.readWindow
  repeat' first
    | with_reducible assumption
    | intro _
    | with_reducible apply State.deny_mem
    | with_reducible apply State.hostRead_mem
    | with_reducible apply State.readPlain_mem
    | with_reducible apply good_ite

theorem State.readBar0_mem {pq : Prop × List Instr} (s : State) (dom : Nat) (a : Nat) (hs : MemGood pq s) : MemGood pq (State.readBar0 s dom a) := by
  unfold State.readBar0
  repeat' first
    | with_reducible assumption
    | intro _
    | with_reducible apply State.misaligned_mem
    | with_reducible apply State.readNowhere_mem
    | with_reducible apply State.readPlain_mem
    | with_reducible apply State.readWindow_mem
    | with_reducible apply doAneFStatRead_mem
    | with_reducible apply doCshAcquire_mem
    | with_reducible apply doTmuRseqRead_mem
    | with_reducible apply good_ite
    | with_reducible apply good_ite_fst
    | fail_if_no_progress beta_reduce
    | fail_if_no_progress extract_lets +onlyGivenNames x
    | split

theorem doWideLowWordRead_mem {pq : Prop × List Instr} (dom : Nat) (a : Nat) (s : State) (hs : MemGood pq s) : MemGood pq (doWideLowWordRead dom a s) := by
  unfold doWideLowWordRead
  repeat' first
    | with_reducible assumption
    | intro _
    | with_reducible apply State.readBar0_mem

theorem State.writeByCode_mem {pq : Prop × List Instr} (s : State) (a : Nat) (v : Word) (hs : MemGood pq s) : MemGood pq (State.writeByCode s a v) := by
  unfold State.writeByCode
  repeat' first
    | with_reducible assumption
    | intro _
    | with_reducible apply State.clrBits_mem
    | with_reducible apply State.stageWrite_mem
    | with_reducible apply State.vecAgain_mem
    | with_reducible apply State.vecFall_mem
    | with_reducible apply State.wr_mem
    | with_reducible apply good_ite
    | with_reducible apply good_ite_fst
    | fail_if_no_progress beta_reduce
    | fail_if_no_progress extract_lets +onlyGivenNames x
    | split

theorem State.writePlain_mem {pq : Prop × List Instr} (s : State) (dom : Nat) (a : Nat) (v : Word) (hs : MemGood pq s) : MemGood pq (State.writePlain s dom a v) := by
  unfold State.writePlain
  repeat' first
    | with_reducible assumption
    | intro _
    | with_reducible apply State.hostWrite_mem
    | with_reducible apply State.writeByCode_mem

theorem State.writeSeq_mem {pq : Prop × List Instr} (s : State) (dom : Nat) (n : Nat) (o : Nat) (a : Nat) (v : Word) (hs : MemGood pq s) : MemGood pq (State.writeSeq s dom n o a v) := by
  unfold State.writeSeq
  repeat' first
    | with_reducible assumption
    | intro _
    | with_reducible apply State.hostWrite_mem
    | with_reducible apply State.setApv_mem
    | with_reducible apply State.stageWrite_mem
    | with_reducible apply State.writePlain_mem
    | with_reducible apply doSeqCmdInvalid_mem
    | with_reducible apply doSeqDropreq_mem
    | with_reducible apply doSeqHtrig_mem
    | with_reducible apply doSeqJreq_mem
    | with_reducible apply doSeqStartSync_mem
    | with_reducible apply doSeqStart_mem
    | with_reducible apply doSeqStop_mem
    | with_reducible apply good_ite

theorem State.writeTmg_mem {pq : Prop × List Instr} (s : State) (dom : Nat) (n : Nat) (o : Nat) (a : Nat) (v : Word) (hs : MemGood pq s) : MemGood pq (State.writeTmg s dom n o a v) := by
  unfold State.writeTmg
  repeat' first
    | with_reducible assumption
    | intro _
    | with_reducible apply State.hostWrite_mem
    | with_reducible apply State.wrF_mem
    | with_reducible apply State.wrRow_mem
    | with_reducible apply State.wr_mem
    | with_reducible apply State.writePlain_mem
    | with_reducible apply doPaceClr_mem
    | with_reducible apply doTmgCmdInvalid_mem
    | with_reducible apply doTmgPerHiWrite_mem
    | with_reducible apply good_ite

theorem State.writeTmu_mem {pq : Prop × List Instr} (s : State) (dom : Nat) (c : Nat) (o : Nat) (a : Nat) (v : Word) (hs : MemGood pq s) : MemGood pq (State.writeTmu s dom c o a v) := by
  unfold State.writeTmu
  repeat' first
    | with_reducible assumption
    | intro _
    | with_reducible apply State.writePlain_mem
    | with_reducible apply doTmuArm_mem
    | with_reducible apply doTmuCmdInvalid_mem
    | with_reducible apply doTmuConfigWrite_mem
    | with_reducible apply doTmuStop_mem
    | with_reducible apply good_ite

theorem State.writeAcq_mem {pq : Prop × List Instr} (s : State) (dom : Nat) (c : Nat) (o : Nat) (a : Nat) (v : Word) (hs : MemGood pq s) : MemGood pq (State.writeAcq s dom c o a v) := by
  unfold State.writeAcq
  repeat' first
    | with_reducible assumption
    | intro _
    | with_reducible apply State.writePlain_mem
    | with_reducible apply doAcqArm_mem
    | with_reducible apply doAcqCmdInvalid_mem
    | with_reducible apply doAcqConfigWrite_mem
    | with_reducible apply doAcqMonitor_mem
    | with_reducible apply doAcqSoft_mem
    | with_reducible apply doAcqStop_mem
    | with_reducible apply good_ite

theorem State.writePel_mem {pq : Prop × List Instr} (s : State) (dom : Nat) (c : Nat) (o : Nat) (a : Nat) (v : Word) (hs : MemGood pq s) : MemGood pq (State.writePel s dom c o a v) := by
  unfold State.writePel
  repeat' first
    | with_reducible assumption
    | intro _
    | with_reducible apply State.writePlain_mem
    | with_reducible apply doClearTrip_mem
    | with_reducible apply doPelCmdInvalid_mem
    | with_reducible apply doPelValueWrite_mem
    | with_reducible apply doRefl_mem
    | with_reducible apply good_ite

theorem State.writeAne_mem {pq : Prop × List Instr} (s : State) (dom : Nat) (a : Nat) (v : Word) (hs : MemGood pq s) : MemGood pq (State.writeAne s dom a v) := by
  unfold State.writeAne
  repeat' first
    | with_reducible assumption
    | intro _
    | with_reducible apply State.hostWrite_mem
    | with_reducible apply State.setDomSel_mem
    | with_reducible apply State.writePlain_mem
    | with_reducible apply doAneCmdInvalid_mem
    | with_reducible apply doAnePeakClr_mem
    | with_reducible apply doClrGraph_mem
    | with_reducible apply doClrmap_mem
    | with_reducible apply good_ite

theorem State.writeDrc_mem {pq : Prop × List Instr} (s : State) (dom : Nat) (d : Nat) (o : Nat) (a : Nat) (v : Word) (hs : MemGood pq s) : MemGood pq (State.writeDrc s dom d o a v) := by
  unfold State.writeDrc
  repeat' first
    | with_reducible assumption
    | intro _
    | with_reducible apply State.writePlain_mem
    | with_reducible apply doDrcCmdInvalid_mem
    | with_reducible apply doDrcInjWrite_mem
    | with_reducible apply doDrcPeakClr_mem
    | with_reducible apply doDrcSpeedWrite_mem
    | with_reducible apply doPwrdn_mem
    | with_reducible apply doPwrup_mem
    | with_reducible apply good_ite

theorem State.writeDma_mem {pq : Prop × List Instr} (s : State) (dom : Nat) (n : Nat) (o : Nat) (a : Nat) (v : Word) (hs : MemGood pq s) : MemGood pq (State.writeDma s dom n o a v) := by
  unfold State.writeDma
  repeat' first
    | with_reducible assumption
    | intro _
    | with_reducible apply State.hostWrite_mem
    | with_reducible apply State.noteReg_mem
    | with_reducible apply State.wrRow_mem
    | with_reducible apply State.writePlain_mem
    | with_reducible apply doDmaCmdInvalid_mem
    | with_reducible apply doDmaStart_mem
    | with_reducible apply doDmaStop_mem
    | with_reducible apply doDoorbell_mem
    | with_reducible apply doFlush_mem
    | with_reducible apply good_ite

theorem State.writeLnk_mem {pq : Prop × List Instr} (s : State) (dom : Nat) (p : Nat) (o : Nat) (a : Nat) (v : Word) (hs : MemGood pq s) : MemGood pq (State.writeLnk s dom p o a v) := by
  unfold State.writeLnk
  repeat' first
    | with_reducible assumption
    | intro _
    | with_reducible apply State.writePlain_mem
    | with_reducible apply doDown_mem
    | with_reducible apply doLnkCmdInvalid_mem
    | with_reducible apply doTxSleep_mem
    | with_reducible apply doTxWake_mem
    | with_reducible apply doUp_mem
    | with_reducible apply doXabort_mem
    | with_reducible apply doXfer_mem
    | with_reducible apply good_ite
    | with_reducible apply good_ite_fst
    | fail_if_no_progress beta_reduce
    | fail_if_no_progress extract_lets +onlyGivenNames x
    | split

theorem State.writeStiCmd_mem {pq : Prop × List Instr} (s : State) (dom : Nat) (v : Word) (hs : MemGood pq s) : MemGood pq (State.writeStiCmd s dom v) := by
  unfold State.writeStiCmd
  repeat' first
    | with_reducible assumption
    | intro _
    | with_reducible apply doRevoke_mem
    | with_reducible apply doStiBadCmd_mem
    | with_reducible apply doStiCheck_mem
    | with_reducible apply doStiLoadTile_mem
    | with_reducible apply doStiLoadWhole_mem
    | with_reducible apply doStiStore_mem
    | with_reducible apply good_ite
    | with_reducible apply good_ite_fst
    | fail_if_no_progress beta_reduce
    | fail_if_no_progress extract_lets +onlyGivenNames x
    | split

theorem State.writeSupCmd_mem {pq : Prop × List Instr} (s : State) (dom : Nat) (v : Word) (hs : MemGood pq s) : MemGood pq (State.writeSupCmd s dom v) := by
  unfold State.writeSupCmd
  repeat' first
    | with_reducible assumption
    | intro _
    | with_reducible apply doConfirm_mem
    | with_reducible apply doFwActivate_mem
    | with_reducible apply doFwStore_mem
    | with_reducible apply doSupCmdInvalid_mem
    | with_reducible apply doSupReset_mem
    | with_reducible apply good_ite
    | with_reducible apply good_ite_fst
    | fail_if_no_progress beta_reduce
    | fail_if_no_progress extract_lets +onlyGivenNames x
    | split
    | fail_if_no_progress with_reducible apply good_mk

theorem State.writePwrCmd_mem {pq : Prop × List Instr} (s : State) (dom : Nat) (v : Word) (hs : MemGood pq s) : MemGood pq (State.writePwrCmd s dom v) := by
  unfold State.writePwrCmd
  repeat' first
    | with_reducible assumption
    | intro _
    | with_reducible apply doPllOff_mem
    | with_reducible apply doPllOn_mem
    | with_reducible apply doPwrCmdInvalid_mem
    | with_reducible apply doRailsOff_mem
    | with_reducible apply doRailsOn_mem
    | with_reducible apply doRetry_mem
    | with_reducible apply good_ite
    | with_reducible apply good_ite_fst
    | fail_if_no_progress beta_reduce
    | fail_if_no_progress extract_lets +onlyGivenNames x
    | split

theorem State.writeFltCmd_mem {pq : Prop × List Instr} (s : State) (dom : Nat) (v : Word) (hs : MemGood pq s) : MemGood pq (State.writeFltCmd s dom v) := by
  unfold State.writeFltCmd
  repeat' first
    | with_reducible assumption
    | intro _
    | with_reducible apply doClrCount_mem
    | with_reducible apply doClrFirst_mem
    | with_reducible apply doClrPgrave_mem
    | with_reducible apply doFltCmdInvalid_mem
    | with_reducible apply doRaiseMod_mem
    | with_reducible apply good_ite
    | with_reducible apply good_ite_fst
    | fail_if_no_progress beta_reduce
    | fail_if_no_progress extract_lets +onlyGivenNames x
    | split

theorem State.writeCalCmd_mem {pq : Prop × List Instr} (s : State) (dom : Nat) (v : Word) (hs : MemGood pq s) : MemGood pq (State.writeCalCmd s dom v) := by
  unfold State.writeCalCmd
  repeat' first
    | with_reducible assumption
    | intro _
    | with_reducible apply doCalCmdInvalid_mem
    | with_reducible apply doCalStore_mem
    | with_reducible apply doClrSuspect_mem
    | with_reducible apply doSaveRej_mem
    | with_reducible apply good_ite
    | with_reducible apply good_ite_fst
    | fail_if_no_progress beta_reduce
    | fail_if_no_progress extract_lets +onlyGivenNames x
    | split

theorem State.writeMtbCmd_mem {pq : Prop × List Instr} (s : State) (dom : Nat) (v : Word) (hs : MemGood pq s) : MemGood pq (State.writeMtbCmd s dom v) := by
  unfold State.writeMtbCmd
  repeat' first
    | with_reducible assumption
    | intro _
    | with_reducible apply doMtbCmdInvalid_mem
    | with_reducible apply doTakeover_mem
    | with_reducible apply doYield_mem
    | with_reducible apply good_ite
    | with_reducible apply good_ite_fst
    | fail_if_no_progress beta_reduce
    | fail_if_no_progress extract_lets +onlyGivenNames x
    | split

theorem State.writeStgHold_mem {pq : Prop × List Instr} (s : State) (dom : Nat) (v : Word) (hs : MemGood pq s) : MemGood pq (State.writeStgHold s dom v) := by
  unfold State.writeStgHold
  repeat' first
    | with_reducible assumption
    | intro _
    | with_reducible apply State.wr_mem

theorem State.writeOne_mem {pq : Prop × List Instr} (s : State) (dom : Nat) (a : Nat) (v : Word) (hs : MemGood pq s) : MemGood pq (State.writeOne s dom a v) := by
  unfold State.writeOne
  repeat' first
    | with_reducible assumption
    | intro _
    | with_reducible apply State.writeCalCmd_mem
    | with_reducible apply State.writeFltCmd_mem
    | with_reducible apply State.writeMtbCmd_mem
    | with_reducible apply State.writePlain_mem
    | with_reducible apply State.writePwrCmd_mem
    | with_reducible apply State.hostWrite_mem
    | with_reducible apply State.writeStgHold_mem
    | with_reducible apply State.writeStiCmd_mem
    | with_reducible apply State.writeSupCmd_mem
    | with_reducible apply doFltInjWrite_mem
    | with_reducible apply doGlbApply_mem
    | with_reducible apply doGlbModuleWrite_mem
    | with_reducible apply doHifDenyCntClear_mem
    | with_reducible apply doMtbCtlWrite_mem
    | with_reducible apply doStiBootWrite_mem
    | with_reducible apply good_ite

theorem State.writePt_mem {pq : Prop × List Instr} (s : State) (dom : Nat) (a : Nat) (v : Word) (hs : MemGood pq s) : MemGood pq (State.writePt s dom a v) := by
  unfold State.writePt
  repeat' first
    | with_reducible assumption
    | intro _
    | with_reducible apply doHifPtCommit_mem
    | with_reducible apply doHifPtWordWrite_mem
    | with_reducible apply good_ite

theorem State.writeBar0_mem {pq : Prop × List Instr} (s : State) (dom : Nat) (a : Nat) (v : Word) (hs : MemGood pq s) : MemGood pq (State.writeBar0 s dom a v) := by
  unfold State.writeBar0
  repeat' first
    | with_reducible assumption
    | intro _
    | with_reducible apply State.misaligned_mem
    | with_reducible apply State.writeAcq_mem
    | with_reducible apply State.writeAne_mem
    | with_reducible apply State.writeDma_mem
    | with_reducible apply State.writeDrc_mem
    | with_reducible apply State.writeLnk_mem
    | with_reducible apply State.writeOne_mem
    | with_reducible apply State.writePel_mem
    | with_reducible apply State.writePt_mem
    | with_reducible apply State.writeSeq_mem
    | with_reducible apply State.writeTmg_mem
    | with_reducible apply State.writeTmu_mem
    | with_reducible apply doChnDskPathWrite_mem
    | with_reducible apply doCshForcedRelease_mem
    | with_reducible apply doCshRelease_mem
    | with_reducible apply good_ite

theorem doRegisterWrite_mem {pq : Prop × List Instr} (dom : Nat) (a : Nat) (v : Word) (poison : Bool) (s : State) (hs : MemGood pq s) : MemGood pq (doRegisterWrite dom a v poison s) := by
  unfold doRegisterWrite
  repeat' first
    | with_reducible assumption
    | intro _
    | with_reducible apply State.poisoned_mem
    | with_reducible apply State.writeBar0_mem
    | with_reducible apply good_ite

end Sys2Proof.Machine
end

