-- ==== Sys2Proof/WellFormed.lean ====
section
/-! DEFINITION. Which commands can reach the module: a command register write carries the OP of its row, and what the
world outside shows has the shape the manual gives it. -/

namespace Sys2Proof

/-- The low `n` bits of a command word: its OP field. -/
def Word.op (v : Word) (n : Nat) : Nat := v.toNat % 2 ^ n

/-- A received frame has the length that its LEN field gives it (R443), and its LEN is in range. -/
def frameShape (b : List Byte) (low high unit : Nat) : Bool :=
  let n := (b.getD 2 0).toNat + 256 * (b.getD 3 0).toNat
  decide (b.length = (n + 51) / 32 * 32 ∧ low ≤ n ∧ n ≤ high ∧ n % unit = 0)

/-- Bytes of an access. -/
def MemAcc.length : MemAcc → Nat
  | .read n => n
  | .write bs => bs.length

/-- The fields of a reported fault fit the record of R489. -/
def FaultIn.inRange : FaultIn → Bool
  | .detected => true
  | .checker src chk code addr rkind access rid _ =>
    decide (src < 2 ^ 16 ∧ chk ≤ 3 ∧ code < 2 ^ 8 ∧ addr < 2 ^ 64 ∧ rkind ≤ 7 ∧ access ≤ 4 ∧ rid < 2 ^ 16)
  | .aer _ => true

/-- A command that the module can receive. -/
def WellFormed (i : Instr) : Bool :=
  match i with
  | .registerWrite _ _ _ => true
  | .misalignedAccess _ _ _ _ => true
  | .wideLowWordRead _ addr => decide (addr.toNat % 4 = 0)
  | .stiLoadWhole _ v _ => decide (v.op 4 = 1)
  | .stiLoadTile _ v _ => decide (v.op 4 = 2)
  | .stiCheck _ v _ => decide (v.op 4 = 3)
  | .stiStore _ v _ => decide (v.op 4 = 4)
  | .revoke _ v => decide (v.op 4 = 6 ∧ v.toNat / 4096 % 8 < 4)
  | .stiBadCmd _ v => decide (v.op 4 = 0 ∨ v.op 4 = 5 ∨ 7 ≤ v.op 4 ∨ (v.op 4 = 6 ∧ 4 ≤ v.toNat / 4096 % 8))
  | .stiStopStep => true
  | .stiDrainDone => true
  | .stiDrainExpiry => true
  | .stiConfigureDone => true
  | .stiBootWrite _ _ => true
  | .seqStart _ _ => true
  | .seqStartSync _ _ => true
  | .seqStop _ _ => true
  | .seqCmdInvalid _ _ v => decide (v.op 3 = 0 ∨ 3 ≤ v.op 3)
  | .playBegin _ => true
  | .syncStartBegin => true
  | .seqHtrig _ _ _ => true
  | .seqJreq _ _ _ => true
  | .seqDropreq _ _ _ _ => true
  | .nop _ => true
  | .halt _ => true
  | .jmp _ => true
  | .jcc _ => true
  | .call _ => true
  | .rtn _ => true
  | .loop _ => true
  | .endl _ => true
  | .sett _ => true
  | .setm _ => true
  | .setp _ => true
  | .flag _ => true
  | .sig _ => true
  | .epoch _ => true
  | .waitt _ => true
  | .play _ => true
  | .playl _ => true
  | .spool _ => true
  | .leader _ => true
  | .matchSeg _ => true
  | .illegalOp _ => true
  | .runaway _ => true
  | .segmentEnd _ => true
  | .waittTimeout _ => true
  | .matchEnd _ => true
  | .siteDropout _ => true
  | .spoolCheckPoint _ => true
  | .spoolReadyPoll _ => true
  | .runEndComplete _ => true
  | .vectorFormat _ news => decide (news.length ≤ 128)
  | .paceFault _ _ => true
  | .vectorResult _ _ => true
  | .wftWordWrite _ _ _ _ _ _ => true
  | .wftCommit _ _ _ _ _ => true
  | .wftEntryTakesEffect _ _ _ => true
  | .glbApply _ _ => true
  | .explicitApply _ => true
  | .tmgPerHiWrite _ _ _ _ => true
  | .paceClr _ => true
  | .tmgCmdInvalid _ v => decide (v.op 1 = 0)
  | .chnDskPathWrite _ _ _ => true
  | .pllLockLoss => true
  | .pllRelock => true
  | .dllUnlock _ => true
  | .dllRelockResult _ _ => true
  | .paceMonitorUpdate _ _ => true
  | .avsLower => true
  | .epochPublish _ => true
  | .epochReserveExtend => true
  | .cshAcquire _ _ => true
  | .cshRelease _ _ _ => true
  | .cshForcedRelease _ _ _ => true
  | .tmuArm _ _ => true
  | .tmuStop _ _ => true
  | .tmuCmdInvalid _ _ v => decide (v.op 3 = 0 ∨ 3 ≤ v.op 3)
  | .tmuConfigWrite _ _ _ _ => true
  | .tmuRdWrite _ _ _ => true
  | .tmuRseqRead _ _ => true
  | .tmuShutterOpen _ => true
  | .tmuShutterClose _ => true
  | .tmuFreqLimit _ => true
  | .tmuBankLatch _ => true
  | .tdcHit _ _ _ code => decide (16 ≤ code.val)
  | .tdcBinTableBuild _ _ counts => decide (counts.length = 128)
  | .tdcCalStale _ => true
  | .stampRecordMove _ => true
  | .acqArm _ _ => true
  | .acqStop _ _ => true
  | .acqSoft _ _ => true
  | .acqMonitor _ _ => true
  | .acqCmdInvalid _ _ v => decide (v.op 3 = 0 ∨ 5 ≤ v.op 3)
  | .acqConfigWrite _ _ _ _ => true
  | .acqStartTick _ => true
  | .acqConversion _ code _ => decide (-131071 ≤ code.toInt)
  | .acqSampleStored _ _ => true
  | .acqPrefillEnd _ => true
  | .acqAnalogHit _ _ _ code => decide (16 ≤ code.val)
  | .acqTriggerDecision _ => true
  | .acqFrameComplete _ => true
  | .acqRearm _ => true
  | .acqTimeout _ => true
  | .pelValueWrite _ _ _ _ => true
  | .clearTrip _ _ => true
  | .refl _ _ => true
  | .pelCmdInvalid _ _ v => decide (v.op 2 = 0 ∨ v.op 2 = 3)
  | .pelReflDone _ obs => decide (16 ≤ obs.length ∧ obs.length ≤ 4096)
  | .pelTrip _ => true
  | .pmuClampEntry _ => true
  | .pelTempCrossing _ _ => true
  | .calSlotStart => true
  | .calPhaseEnd obs => decide (obs.bytes.length = 0 ∨ obs.bytes.length = 316 ∨ obs.bytes.length = 392)
  | .calSwitchPoint => true
  | .calSlotEnd => true
  | .calTempCorrection _ => true
  | .calAgeLimit _ => true
  | .calStore _ => true
  | .saveRej _ => true
  | .clrSuspect _ => true
  | .calCmdInvalid _ v => decide (v.op 2 = 0)
  | .calStoreDone => true
  | .aneItemAdmit _ => true
  | .aneSpillReturn _ => true
  | .aneOperation _ _ => true
  | .aneMarkerPass _ _ => true
  | .aneCompressTimeout _ _ => true
  | .clrGraph _ _ => true
  | .clrmap _ _ => true
  | .anePeakClr _ => true
  | .aneCmdInvalid _ v => decide (v.op 4 = 0 ∨ 4 ≤ v.op 4)
  | .aneClrmapDone => true
  | .aneFStatRead _ => true
  | .dramRequest _ _ _ _ _ _ => true
  | .dramRefresh _ _ => true
  | .dramTempPoll _ _ => true
  | .dramSelfRefreshEntry _ => true
  | .dramScrub _ => true
  | .dramClearDone => true
  | .pwrdn _ _ => true
  | .pwrup _ _ => true
  | .drcPeakClr _ => true
  | .drcCmdInvalid _ v => decide (v.op 4 = 0 ∨ 4 ≤ v.op 4)
  | .drcSpeedWrite _ _ => true
  | .drcSpeedDone => true
  | .drcInjWrite _ _ _ => true
  | .dmaStart _ _ => true
  | .dmaStop _ _ => true
  | .doorbell _ _ => true
  | .flush _ _ => true
  | .dmaCmdInvalid _ _ v => decide (v.op 3 = 0 ∨ 5 ≤ v.op 3)
  | .dmaDescFetch _ src => decide (src.fails ≤ 2)
  | .dmaPiece _ src => decide (src.fails ≤ 2)
  | .dmaPacedBurst _ => true
  | .dmaPaceWithdraw _ _ => true
  | .dmaDescComplete _ _ _ => true
  | .dmaPoll _ => true
  | .dmaResume _ => true
  | .bar2Access _ off acc => decide (acc.acc.length ≠ 0 ∧ off.toNat + acc.acc.length ≤ 2 ^ 36)
  | .bar4Access _ off _ => decide (off.toNat % 4 = 0)
  | .hifPtWordWrite _ _ _ _ => true
  | .hifPtCommit _ _ _ => true
  | .hifDenyCntClear _ _ => true
  | .glbModuleWrite _ _ => true
  | .flrVf k => decide (k.val ≠ 0)
  | .msixMessage _ _ => true
  | .pcieLinkDown => true
  | .pcieLinkUp speed host =>
    decide ((3 ≤ speed.val ∧ speed.val ≤ 5) ∧ [1, 2, 4, 8].contains host.width.val)
  | .perst => true
  | .laneBlockReceived _ _ _ => true
  | .align _ blocks => decide (blocks.length = 4)
  | .lnkAlignSend _ => true
  | .lnkFrameSend _ => true
  | .item _ head arg rest => frameShape (rxFrame head arg rest) 16 64 16
  | .write _ head arg data tail => frameShape (rxFrame head arg (data ++ tail)) 64 4096 64
  | .ack _ head rest => frameShape (rxBytes head rest) 0 0 1
  | .nak _ b => frameShape b 0 0 1
  | .credit _ head rest => frameShape (rxBytes head rest) 16 16 1
  | .hello _ b => frameShape b 16 16 1
  | .frameBad _ => true
  | .lnkAckTimer _ => true
  | .lnkCreditTimer _ => true
  | .lnkReplayTimeout _ => true
  | .lnkLastingFailure _ => true
  | .lnkEyeUpdate _ _ _ _ => true
  | .lnkEyeRetrain _ => true
  | .lnkTrainDone _ => true
  | .lnkTrainTimeout _ => true
  | .up _ _ => true
  | .down _ _ => true
  | .txSleep _ _ => true
  | .txWake _ _ => true
  | .xfer _ _ => true
  | .xabort _ _ => true
  | .lnkCmdInvalid _ _ v => decide (v.op 4 = 0 ∨ 7 ≤ v.op 4)
  | .lnkSleepAp2 _ => true
  | .lnkSleepAp2Timeout _ => true
  | .sleep _ => true
  | .lnkWakeBurst _ => true
  | .tlAlignment _ _ => true
  | .tlMessageBad _ _ => true
  | .mtbTimeSend _ => true
  | .mtbEchoSend _ => true
  | .time _ _ _ => true
  | .echoRequest _ _ _ => true
  | .echoReply _ _ _ _ _ => true
  | .mirror _ _ _ => true
  | .mtbMirrorSend => true
  | .mtbMirrorTimeout => true
  | .mtbMasterElect => true
  | .mtbUpstreamLoss => true
  | .mtbHoldoverLimit => true
  | .takeover _ => true
  | .yield _ => true
  | .mtbCmdInvalid _ _ => true
  | .mtbCtlWrite _ _ => true
  | .sync _ _ => true
  | .trig _ _ => true
  | .mtbSyncDeliver => true
  | .xtInputEdge _ _ _ => true
  | .xtPulseEnd _ => true
  | .faultReport f => f.inRange
  | .faultRound => true
  | .raiseMod _ => true
  | .clrFirst _ => true
  | .clrCount _ => true
  | .clrPgrave _ => true
  | .fltCmdInvalid _ v => decide (v.op 4 = 0 ∨ 5 ≤ v.op 4)
  | .fltInjWrite _ _ => true
  | .supWatchdogExpiry => true
  | .railFault => true
  | .junctionTempCrossing _ _ => true
  | .pwrIdleEntry kind _ => decide (1 ≤ kind.val ∧ kind.val ≤ 3)
  | .pwrEntryAp2 kind _ => decide (1 ≤ kind.val)
  | .pwrEntryAp3 kind _ => decide (1 ≤ kind.val)
  | .pwrWake kind _ source => decide (1 ≤ kind.val ∧ 1 ≤ source.val)
  | .pwrWakeDone kind _ => decide (1 ≤ kind.val)
  | .railsOff _ v => decide (v.op 4 = 1)
  | .railsOn _ v => decide (v.op 4 = 2)
  | .pllOff _ => true
  | .pllOn _ => true
  | .retry _ => true
  | .pwrCmdInvalid _ v => decide (v.op 4 = 0 ∨ 6 ≤ v.op 4)
  | .pwrCmdDone => true
  | .pfwAssert => true
  | .pfwRelease => true
  | .railsFall => true
  | .powerOn _ => true
  | .rstNAssert _ => true
  | .startStepDone o => o.dimms.all fun l => l.all fun d => decide (d.grade ≤ 2)
  | .startFail _ => true
  | .fwStore _ v src => decide (v.op 4 = 1 ∧ src.fails ≤ 2)
  | .fwActivate _ => true
  | .confirm _ => true
  | .supReset _ => true
  | .supCmdInvalid _ v => decide (v.op 4 = 0 ∨ 5 ≤ v.op 4)
  | .fwOperationDone => true
  | .fwConfirmTimeout => true
  | .norOpDone _ => true
  | .pfFunctionLevelReset => true
  | .rstNRelease => true
  | .supHeartbeat => true
  | .safelightToggle => true
  | .pmuClampExit _ => true
  | .permanentSpareAssignment _ => true

end Sys2Proof
end

