-- ==== Sys2Proof/Tests/Slice0.lean ====
section
/-! SUPPORT. Tests of the model. A `witness` shows, for the obligation it is named after, concrete states and operands
that meet the hypotheses of each of its clauses. A `test` checks the model against a value that the specification
states: an ill-formed command for each check, and its worked examples. -/

namespace Sys2Proof.Tests

set_option Elab.async false

open Sys2Proof Sys2Proof.Machine Sys2Proof.Laws

/-- Right after reset, with the link of the host up and every virtual function enabled. -/
def R : State := { State.reset with regs := (State.reset.wrN Reg.HIF_LINK 1).regs, vfs := 15 }

/-- Registers hold the values given. -/
def put (l : List (Nat × Nat)) (s : State) : State := l.foldl (fun s x => s.wrN x.1 x.2) s

/-- Channel 0 is in site 0, which SQ0 owns with a carve of every kind; the PLL has locked. -/
def own : State :=
  { put [(Reg.TMG_CLK_STAT, 2 ^ 31)] R with
    str := { siteOf := [(0, some 0)], ownerOf := [(0, some 0)],
             carve := [(0, { sqsSize := 1, vbpSize := 2, vblSize := 1, csSize := 1 })] } }

/-- SQ0 in the state given. -/
def seqIn (st : Nat) (u : SeqUnit) : State := { put [(Reg.SEQ_STAT 0, st)] own with seq := [(0, u)] }

/-- SQ0 plays, with the instruction word `w` at its decode front. -/
def run (w : Nat) (u : SeqUnit := {}) : State := { seqIn 2 u with sram := memWrite sramFill [] 0 (leBytes 8 w) }

/-- An instruction word by opcode, condition, A and B (R78). -/
def iw (op cond a b : Nat) : Nat := op * 2 ^ 58 + cond * 2 ^ 54 + a * 2 ^ 32 + b

/-- Whether a host write reaches its register with the block awake. -/
def writesB (s : State) (d a : Nat) : Bool :=
  match s.access d a true with
  | .serve t => decide (t = s)
  | .answer _ _ => false

theorem writes_of {s : State} {d a : Nat} (h : writesB s d a = true) : s.Writes d a := by
  unfold writesB at h
  split at h
  · rename_i t ht
    rw [of_decide_eq_true h] at ht
    exact ht
  · cases h

/-- Whether a host read reaches its register with the block awake. -/
def readsB (s : State) (d a : Nat) : Bool :=
  match s.access d a false with
  | .serve t => decide (t = s)
  | .answer _ _ => false

theorem reads_of {s : State} {d a : Nat} (h : readsB s d a = true) : s.Reads d a := by
  unfold readsB at h
  split at h
  · rename_i t ht
    rw [of_decide_eq_true h] at ht
    exact ht
  · cases h

theorem witness_StepRunsFrontCommand : ({ R with pending := [.perst] } : State).pending = .perst :: [] := rfl

theorem witness_IdleStepCountsOneTick : (R.pending = [] ∧ R.pwr.on = true ∧ bit (R.rd Reg.TMG_CLK_STAT) 31 = false ∧
    bit ((put [(Reg.TMG_CLK_STAT, 2 ^ 31)] R).rd Reg.TMG_CLK_STAT) 31 = true ∧
    ({ R with pwr := { on := false } } : State).pwr.on = false) ∧ ∀ c, (R.ch c).drvQ = [] := ⟨by decide, fun _ => rfl⟩

theorem witness_CommandsLeaveTheQueue : ∃ t, exec .perst R = .next t := ⟨_, rfl⟩

theorem witness_EveryStepKeepsMemoryForm : Memory.wf R ∧ ∃ t, step { R with pending := [.perst] } = .next t := ⟨by decide, _, rfl⟩

theorem witness_TmgCommandsComplete : writesB R 0 (Reg.TMG_PER_HI 0 0) = true ∧
    163840 ≤ (R.rd (Reg.TMG_PER_LO 0 0)).toNat + 2 ^ 32 * 0 ∧ (R.rd (Reg.TMG_PER_LO 0 0)).toNat + 2 ^ 32 * 0 ≤ 2 ^ 38 ∧
    2 ^ 38 < (R.rd (Reg.TMG_PER_LO 0 0)).toNat + 2 ^ 32 * 64 ∧ 
    ((put [(Reg.TMG_PER_LO 0 0, 163839)] R).rd (Reg.TMG_PER_LO 0 0)).toNat + 2 ^ 32 * 0 < 163840 ∧
    writesB R 0 Reg.TMG_CMD = true ∧ bit (0 : Word) 0 = false ∧
    writesB R 0 (Reg.CHN_DSK_PATH 127) = true ∧ R.chStopped 127 = true := by decide

/-- Whether SQn decodes `i`. -/
def decodesB (s : State) (n : Nat) (i : SInstr) : Bool :=
  s.decodeDue n && s.pcInRange n (s.sq n).prog.pc && decide (s.fetchSeq n (s.sq n).prog.pc = i) &&
    s.staticFault n i == 0 && (isPlayOp i.op || decide ((s.sq n).sincePlay + 1 < runawayLimit))

theorem decodes_of {s : State} {n : Nat} {i : SInstr} (h : decodesB s n i = true) : s.Decodes n i := by
  simpa [decodesB, State.Decodes, and_assoc] using h

/-- A power unit in the state given. -/
def unitIn (kind i st : Nat) (s : State) : State := { s with pwr := { s.pwr with units := [(unitKey kind i, st)] } }

/-- The descriptor of a segment in DRAM entry 0 of SQ0, with DRAM of 1 GB. -/
def desc (ws : List Nat) (s : State) : State :=
  { put [(Reg.DRC_CFG, 1)] s with dram := memWrite dramFill [] 0 (ws.flatMap (leBytes 4)) }

/-- A local segment of 64 vectors, and one in DRAM of 1,024. -/
def local64 : List Nat := [0, 3 * 2 ^ 30, 0, 0]

def dram1024 : List Nat := [0x1000000, 2 ^ 31, 15, 0]

theorem witness_TmgEventsComplete :
    (let s := put [(Reg.TMG_CLK_STAT, 2 ^ 31)] R
     s.runs = true ∧ bit (s.rd Reg.TMG_CLK_STAT) 31 = true ∧ s.unit 7 0 = 0) ∧
    (bit (R.rd Reg.TMG_CLK_STAT) 31 = false ∧ R.unit 7 0 = 0) ∧
    (bit (own.rd (Reg.CHN_EDGE_STAT 0)) 31 = true ∧ bit (own.rd (Reg.CHN_EDGE_STAT 0)) 30 = false ∧
      own.seqOfCh 0 = some 0 ∧ R.seqOfCh 0 = none) ∧
    (let s := put [(Reg.CHN_EDGE_STAT 0, 0)] R
     bit (s.rd (Reg.CHN_EDGE_STAT 0)) 31 = false ∧ bit (s.rd (Reg.CHN_EDGE_STAT 0)) 30 = false) ∧
    (let s := put [(Reg.CHN_EDGE_STAT 0, 2 ^ 30)] R
     bit (s.rd (Reg.CHN_EDGE_STAT 0)) 30 = true ∧ bit (s.rd Reg.TMG_DLL_FAIL_SP) 0 = false ∧
      bit (s.rd Reg.CAL_TILE) 0 = false) := by decide

theorem witness_ResetMachine : ∀ x ∈ factorySpans, (0 : Nat) < x.1 ∨ x.1 + x.2 ≤ 0 := by decide

theorem witness_PaceLoopComplete :
    (let s : State := { R with mt := 4000000 }
     s.runs = true ∧ bit (s.rd Reg.TMG_AVS_CTL) 0 = false ∧ (∀ k : Fin 67, 0x167 ≤ s.shown k) ∧
      650 < s.rdF Reg.TMG_VCORE 9 0 ∧ s.avsFrom + 4000000 ≤ s.mt) ∧
    (R.demand 0x20 = true ∧ R.demand 0 = false) ∧ bit ((put [(Reg.TMG_AVS_CTL, 1)] R).rd Reg.TMG_AVS_CTL) 0 = true ∧ (0x13F : Nat) < 0x140 ∧ 850 ≤ R.rdF Reg.TMG_VCORE 9 0 ∧ R.paceNoted = false ∧
    (put [(Reg.TMG_VCORE, 845)] R).rdF Reg.TMG_VCORE 9 0 < 850 := by decide

theorem witness_HostInterfaceComplete :
    (writesB R 0 Reg.HIF_DENY_CNT = true ∧ writesB R 0 Reg.GLB_MODULE = true) ∧
    (R.pfw = false ∧ (put [(Reg.PWR_STAT, 2 ^ 25)] R).pfw = true ∧ writesB (put [(Reg.PWR_STAT, 2 ^ 25)] R) 0 Reg.GLB_MODULE = true) ∧
    (let s := put [(Reg.SEQ_ISTAT 0, 1), (Reg.SEQ_IEN 0, 1)] R
     s.hostOn 0 = true ∧ s.vecFall.summary 0 0 = true ∧ s.vecFall.vecOn 0 = false ∧
      ∀ pend ∈ [[], [(0, true)]],
        let t : State := { s with msixOn := [(0, true)], msixPend := pend }
        t.hostOn 0 = true ∧ t.vecFall.summary 0 0 = true ∧ t.vecFall.vecOn 0 = true ∧
          kget (fun _ => false) t.vecFall.msixPend 0 = !pend.isEmpty) ∧
    (R.hostOn 1 = true ∧ (1 : Fin 16) ≠ 0 ∧ bit (R.rd Reg.HIF_LINK) 0 = true ∧ bit (State.reset.rd Reg.HIF_LINK) 0 = false) := by decide

theorem witness_PowerUnitsComplete :
    (let s : State := { put [(Reg.PWR_IDLE_CH, 1)] R with mt := 4000 }
     s.unitIdle 1 127 = true ∧ s.idleTimer 1 ≠ 0 ∧ s.unit 1 127 = 0 ∧
      max s.pwr.startAt (kget (fun _ => 0) s.pwr.workAt (unitKey 1 127)) + 4000 * s.idleTimer 1 ≤ s.mt) ∧
    (R.runs = true ∧ kget (fun _ => none) R.pwr.srcAt (unitKey 1 127) = none ∧
      (let s : State := { R with pwr := { srcAt := [(unitKey 1 127, some (0, 1))] } }
       (kget (fun _ => none) s.pwr.srcAt (unitKey 1 127)).filter (fun x => x.1 / 16 == s.mt / 16) = some (0, 1)) ∧
      (unitIn 4 0 2 R).entryBroken 4 0 = false ∧ (unitIn 4 0 2 (seqIn 2 {})).entryBroken 4 0 = true) ∧
    ((unitIn 1 0 1 R).unit 1 0 = 1 ∧ (unitIn 7 0 2 R).unit 7 0 = 2 ∧ (unitIn 1 0 2 R).unit 1 0 = 2 ∧
      R.wakeSource 1 0 1 = true ∧ (unitIn 5 0 4 R).unit 5 0 = 4) ∧
    (let s : State := { R with pwr := { cmd := 1, cmdTiles := 1 } }
     s.pwrCmdDue = true) ∧
    (writesB R 0 Reg.PWR_CMD = true ∧ (∀ t ∈ bitsOf 4 8, R.railsMayFall t = true) ∧
      writesB (unitIn 6 3 4 R) 0 Reg.PWR_CMD = true ∧ (∃ t ∈ bitsOf 4 8, (unitIn 6 3 4 R).railsMayFall t = false) ∧
      (put [(Reg.CAL_CTL, 0)] R).pllMayFall = true ∧ writesB (put [(Reg.CAL_CTL, 0)] R) 0 Reg.PWR_CMD = true ∧ R.unit 7 0 = 0 ∧ (unitIn 7 0 4 R).pllMayFall = false ∧ writesB (unitIn 7 0 4 R) 0 Reg.PWR_CMD = true ∧
      (unitIn 7 0 3 (put [(Reg.CAL_CTL, 0)] R)).pllMayFall = true ∧ (unitIn 7 0 3 R).unit 7 0 ≠ 0 ∧ writesB (unitIn 7 0 3 (put [(Reg.CAL_CTL, 0)] R)) 0 Reg.PWR_CMD = true) := by decide

theorem witness_FaultCommandsComplete :
    (({ R with detected := [{}] } : State).detected = {} :: [] ∧ hasChecker 0x1000 1 = true ∧ R.injArmed 0x1000 1 = false ∧
      (let s : State := { R with round := [{}], mt := 16 }
       s.round = {} :: [] ∧ (0 : Nat) / 16 ≠ s.mt / 16) ∧
      (let s : State := { R with sup := { watch := some 0 }, mt := 4000000 }
       s.sup.watch = some 0 ∧ 0 + 4000000 ≤ s.mt) ∧
      R.pfw = false ∧ R.pwr.jt110 = false ∧ R.pwr.jt120 = false ∧
      ({ R with pwr := { jt110 := true, jt120 := true } } : State).pwr.jt110 = true ∧
      bit ((put [(Reg.FLT_STAT, 2 ^ 29)] R).rd Reg.FLT_STAT) 29 = true) ∧
    (writesB R 0 Reg.FLT_CMD = true ∧ R.modHeld = false ∧ writesB (put [(Reg.FLT_STAT, 2 ^ 30)] R) 0 Reg.FLT_CMD = true ∧
      (put [(Reg.FLT_STAT, 2 ^ 30)] R).modHeld = true ∧ writesB (put [(Reg.PWR_STAT, 2 ^ 25)] R) 0 Reg.FLT_CMD = true ∧
      (put [(Reg.PWR_STAT, 2 ^ 25)] R).pfw = true) ∧
    (writesB R 0 Reg.FLT_INJ = true ∧ fld (0x81000D00 : Word) 26 24 < 4 ∧
      hasChecker (fld (0x81000D00 : Word) 15 0) (fld (0x81000D00 : Word) 26 24) = true ∧ 4 ≤ fld (0x04000000 : Word) 26 24) := by decide

/-- DRAM trains at step 6 of a start, in its step `k`. -/
def training (k : Nat) (d : Drc) : State :=
  { put [(Reg.PWR_STAT, 6), (Reg.DRC_STAT, 2 ^ 29 + k * 2 ^ 24)] R with drc := d }

set_option maxRecDepth 8000 in
theorem witness_StartCommandsComplete :
    (({ R with pwr := { on := false } } : State).pwr.on = false ∧ (put [(Reg.PWR_STAT, 2 ^ 25)] R).pfw = true ∧
      R.pwr.on = true ∧ R.pwr.rstLow = false ∧ R.graveHeld = false ∧ R.safeMode = false ∧
      (put [(Reg.FLT_STAT, 2 ^ 31)] R).graveHeld = true ∧ (put [(Reg.PWR_STAT, 2 ^ 30)] R).safeMode = true ∧
      ({ R with pwr := { starting := false } } : State).pwr.starting = false ∧
      (let s : State := { R with pwr := { rstLow := true } }
       s.pwr.rstLow = true ∧ bit (s.rd Reg.PWR_STAT) 26 = false ∧ bit ((put [(Reg.PWR_STAT, 2 ^ 26)] s).rd Reg.PWR_STAT) 26 = true)) ∧
    (∀ k ∈ [1, 2, 3, 4, 5, 6, 7, 8, 9, 10],
      let s := put [(Reg.PWR_STAT, k)] R
      s.startRuns = true ∧ s.startStep = k ∧ s.startWaits = false) ∧
    ((put [(Reg.PWR_STAT, 3)] R).step3 false = none ∧
      (let s : State := { put [(Reg.PWR_STAT, 2 ^ 26 + 3)] R with sup := { digest := some (R.fwDigest 0) } }
       s.step3 true = some ((s.wrF Reg.SUP_FW 31 31 0).fwRun 0))) ∧
    ((put [(Reg.PWR_STAT, 6)] R).trains = false ∧ (put [(Reg.PWR_STAT, 6)] R).dramStays {} = false ∧
      (∀ k ∈ [1, 2, 3, 4, 5, 6, 7], (training k {}).trains = true ∧ (training k {}).trainStep = k ∧
        (training k {}).trainFaulty {} = none) ∧
      (∀ tries ∈ [false, true], (training 4 { tries := tries }).trainFaulty { trainFail := some 7 } = some 7) ∧
      (training 1 {}).trainFaulty { dimms := [{ x4 := false }] :: List.replicate 7 [{}] } = some 0 ∧
      popSupported {} 2 = true ∧ popSupported { dimms := List.replicate 8 [{ tRFC1 := 411 }] } 2 = false ∧
      popBad { dimms := List.replicate 7 [{}] ++ [[{ tRC := [48, 48, 49] }]] } 2 = [7] ∧
      popAlike { dimms := List.replicate 7 [{}] ++ [[{}, {}]] } = false ∧
      ({ newReq := some 1 } : Drc).newReq = some 1) ∧
    (let t : Trained := { temps := [640], supply := 1100, serials := [7], crc := crc32c (trainedBytes [640] 1100 [7] 0) }
     let s : State := { put [(Reg.PWR_STAT, 2 ^ 26 + 6)] R with drc := { trained := some t } }
     let o : StartObs := { trainKept := true, temps := [720], supply := 1122, dimms := [[{ serial := 7 }]] }
     s.dramStays o = true ∧ s.dramStays { o with temps := [721] } = false ∧ s.dramStays { o with supply := 1123 } = false) ∧
    ((put [(Reg.PWR_STAT, 2 ^ 25 + 5)] R).startWaits = true ∧
      ({ put [(Reg.PWR_STAT, 4)] R with mt := 40000000 } : State).startLate = true ∧
      ({ put [(Reg.PWR_STAT, 4)] R with mt := 39999999 } : State).startLate = false ∧
      ({ put [(Reg.PWR_STAT, 2 ^ 25 + 5)] R with mt := 2 ^ 40 } : State).startLate = false) ∧
    (writesB R 0 Reg.SUP_CMD = true ∧ writesB R 0 Reg.PWR_CMD = true ∧ writesB (put [(Reg.PWR_STAT, 2 ^ 30)] R) 0 Reg.PWR_CMD = true) ∧
    bit (R.rd Reg.PWR_STAT) 26 = false ∧ 3 ≤ (put [(Reg.PWR_BOOT, 2 * 2 ^ 8)] R).rdF Reg.PWR_BOOT 15 8 + 1 ∧
    (let s : State := { R with jtag := { ir := 3 }, pwr := { rstLow := true } }
     s.jtag.lock = false ∧ s.boundaryDrive = some s.jtag.cells ∧ ({ R with jtag := { lock := true } } : State).jtag.lock = true) := by decide

/-- The clauses on an accepted firmware image and on a valid slot have their witnesses in `witness_ImageCommandsRun`. -/
theorem witness_SupervisorCommandsComplete :
    (writesB R 0 Reg.SUP_CMD = true ∧ R.sup.op = 0 ∧ R.pfw = false ∧ bit (R.rd Reg.SUP_FW) 31 = false ∧
      (R.fwFetch false {}).2.isSome = true) ∧
    (let s := put [(Reg.SUP_FW, 2 ^ 31)] R
     writesB s 0 Reg.SUP_CMD = true ∧ bit (s.rd Reg.SUP_FW) 31 = true ∧ s.pfw = false) ∧
    (let s : State := { R with sup := { op := 1, stored := some 0 } }
     writesB s 0 Reg.SUP_CMD = true ∧ s.sup.op ≠ 0 ∧ s.sup.op = 1 ∧ s.sup.stored = some 0) ∧
    (({ R with sup := { op := 2 } } : State).storeRuns = false ∧
      (let s : State := { put [(Reg.SUP_FW, 2 ^ 31)] R with mt := 40000000000 }
       bit (s.rd Reg.SUP_FW) 31 = true ∧ s.sup.op = 0 ∧ s.sup.activated + 40000000000 ≤ s.mt) ∧
      (put [(Reg.PWR_STAT, 4)] R).fwRuns = true ∧ ({ R with norq := [{}] } : State).norq = {} :: [] ∧
      (put [(Reg.PWR_STAT, 2 ^ 25)] R).pfw = true) := by decide

theorem witness_SequencerCommandsComplete :
    (writesB own 15 (Reg.SEQ_CMD 0) = false) ∧
    (writesB own 0 (Reg.SEQ_CMD 0) = true ∧ own.startOk 0 = true ∧ writesB R 0 (Reg.SEQ_CMD 15) = true ∧ R.startOk 15 = false ∧
      writesB (seqIn 2 {}) 0 (Reg.SEQ_CMD 0) = true ∧ (seqIn 2 {}).seqState 0 = 2 ∧ own.seqState 0 = 0) ∧
    (writesB R 0 Reg.GLB_APPLY = true ∧ writesB R 0 (Reg.SEQ_HTRIG 0) = true ∧ writesB R 0 (Reg.SEQ_JREQ 0) = true ∧
      writesB (seqIn 2 {}) 0 (Reg.SEQ_DROPREQ_LO 0) = true ∧ writesB (seqIn 2 {}) 0 (Reg.SEQ_DROPREQ_HI 0) = true ∧
      (seqIn 2 {}).seqRuns 0 = true ∧ writesB own 0 (Reg.SEQ_DROPREQ_LO 0) = true ∧ own.seqRuns 0 = false) := by decide

theorem witness_SequencerEventsComplete :
    (let s := seqIn 1 { decodeHalt := true }
     s.runs = true ∧ s.primed 0 = true ∧ bit (s.rd (Reg.SEQ_STAT 0)) 12 = false ∧ bit (s.rd Reg.TMG_CLK_STAT) 31 = true) ∧
    (let s := seqIn (2 ^ 12 + 1) { decodeHalt := true, syncGroup := some 5, syncReached := true }
     s.syncReady = some 5 ∧ bit (s.rd Reg.TMG_CLK_STAT) 31 = true) ∧
    ((seqIn 1 { applyReq := true }).sq 0).applyReq = true ∧
    (let s := seqIn 4 {}
     s.seqState 0 = 4 ∧ (s.sq 0).epochs = [] ∧ s.resultsBefore 0 ((s.sq 0).vcnt + 1) = true) := by decide

/-- Each sequence instruction stands decoded at a decode front, conditions true and false, the call stack empty, with
an entry and full, and a loop counter at 0, 1 and 2. -/
theorem witness_SequencerProgramSteps :
    (∀ w ∈ [iw 0 0 0 0, iw 2 0 5 0, iw 3 0 5 0, iw 3 8 5 0, iw 3 2 5 0, iw 4 0 5 0, iw 4 8 5 0, iw 4 2 5 0, iw 5 0 0 0,
        iw 5 8 0 0, iw 5 2 0 0, iw 1 0 0 0, iw 1 8 0 0, iw 1 2 0 0, iw 6 0 7 1, iw 7 0 7 0],
      ∀ u ∈ [({} : SeqUnit), { prog := { lc := [(7, 1)], stack := [3] } },
        { prog := { lc := [(7, 2)], stack := List.replicate 16 3 } }],
      decodesB (run w u) 0 (sInstr w) = true) ∧
    condClass 0 = .program ∧ condProgram 0 0 {} = true ∧ condClass 8 = .program ∧ condProgram 8 0 {} = false ∧
    condClass 2 ≠ .program := by decide

theorem witness_SequencerPointActions :
    ∀ w ∈ [iw 8 0 31 0, iw 9 0 15 0, iw 10 0 15 0, iw 11 0 0xFFFF 0, iw 12 0 0x100 0, iw 13 0 0 0xFFFFFFFF],
      decodesB (run w) 0 (sInstr w) = true := by decide

theorem witness_SequencerPlayInstructions :
    (∀ w ∈ [iw 0xE 0 0 1, iw 0x10 0 0 1, iw 0x11 0 0 1, iw 0x12 0 0 1, iw 0x13 0 0 1, iw 0x14 0 0 1],
      decodesB (run w) 0 (sInstr w) = true ∧ ((run w).sq 0).jtaken = false) ∧
    (((desc local64 (run 0)).entryDesc 0 0).2 = some { loc := true, nvec := 64 } ∧
      ((desc dram1024 (run 0)).entryDesc 0 0).2 = some { addr := 0x1000000, loc := false, nvec := 1024 } ∧
      ((desc [] (run 0)).entryDesc 0 0).2 = none) ∧
    bit (((run 0).setApv (Reg.SEQ_LEADER 0) (word (2 ^ 31))).apv (Reg.SEQ_LEADER 0)) 31 = true ∧
    bit ((run 0).apv (Reg.SEQ_LEADER 0)) 31 = false ∧
    (((run 0).setApv (Reg.SEQ_SPL_LEN 0) 1).ringOf 0).2 ≠ 0 ∧ ((run 0).ringOf 0).2 = 0 := by decide

theorem witness_SequencerDecodeFaults :
    (let s := run (iw 0xF 0 0 0)
     s.runs = true ∧ s.decodeDue 0 = true ∧ s.pcInRange 0 0 = true ∧ opDefined (s.fetchSeq 0 0).op = false) ∧
    (let s := run 0 { sincePlay := 4095 }
     s.decodeDue 0 = true ∧ s.staticFault 0 (s.fetchSeq 0 0) = 0 ∧ isPlayOp (s.fetchSeq 0 0).op = false) ∧
    (let s := run 0 { prog := { pc := 512 } }
     s.decodeDue 0 = true ∧ s.pcInRange 0 512 = false) ∧
    (let s := run (iw 2 0 0x100000 0)
     s.decodeDue 0 = true ∧ (s.fetchSeq 0 0).op = 2 ∧ s.staticFault 0 (s.fetchSeq 0 0) ≠ 0) := by decide

theorem witness_LoopBodyRunsCountTimes :
    (let s := run (iw 6 0 7 0)
     s.decodeDue 0 = true ∧ s.pcInRange 0 0 = true ∧ (s.fetchSeq 0 0).op = 6 ∧ (s.fetchSeq 0 0).cond = 0 ∧
      (s.fetchSeq 0 0).b = 0) ∧
    (let l := sInstr (iw 6 0 7 3)
     let e := sInstr (iw 7 0 7 0)
     let body : Prog → Prog := fun q => { q with pc := 9 }
     l.op = 6 ∧ e.op = 7 ∧ bits e.a 2 0 = bits l.a 2 0 ∧ 0 < l.b ∧
      ∀ q : Prog, q.pc = 1 → (body q).pc = 9 ∧ (body q).lcAt 7 = q.lcAt 7 ∧
        kget (fun _ => 0) (body q).lcStart 7 = kget (fun _ => 0) q.lcStart 7) :=
  ⟨by decide, by decide, by decide, by decide, by decide, fun _ _ => ⟨rfl, rfl, rfl⟩⟩

theorem witness_SegmentEndsComplete :
    (let c : CurPlay := { pos := 64, desc := { nvec := 64 } }
     (seqIn 2 { cur := some c }).atSegmentEnd 0 = some c) ∧
    (let c : CurPlay := { pos := 64, item := { kind := .waitt, reps := 1 } }
     (seqIn 3 { cur := some c }).atSegmentEnd 0 = some c ∧ c.item.kind = .waitt ∧ waittEnds c = some true) ∧
    (let c : CurPlay := { pos := 64, rep := 9, item := { kind := .matching, reps := 9 } }
     (seqIn 2 { cur := some c }).atSegmentEnd 0 = some c ∧ c.item.kind = .matching ∧ (matchEnds c).isSome) := by decide

theorem witness_VectorEventsComplete :
    (let s := put [(Reg.SEQ_DROPEN_LO 0, 1)] (seqIn 2 { sites := [(0, { enabled := true, active := true, byMatch := true })] })
     let s := s.setApv (Reg.SEQ_DROPEN_LO 0) 1
     s.seqPlays 0 = true ∧ s.atGranule 0 = true ∧ s.dropDue 0 ≠ []) ∧
    ((seqIn 2 { acc := 65536 * 20 }).armed 0 0 = true ∧ (seqIn 2 { acc := 65536 * 20 + 1 }).armed 0 0 = false) ∧
    (let c : CurPlay := {}
     let s := seqIn 2 { cur := some c }
     s.seqPlays 0 = true ∧ s.dryChan 0 = some 0 ∧ (s.nextPlay 0).isSome = true) ∧
    (let c : CurPlay := { pos := 63 }
     let s := seqIn 2 { cur := some c }
     (s.sq 0).cur = some c ∧ c.pos < c.desc.nvec ∧ c.pos % 64 ≠ 0 ∧ (s.askVector 0 c.desc c.pos).2 = false ∧
      s.checkDue 0 = false ∧ s.switchDue 0 = false ∧ bit (s.rd Reg.TMG_CLK_STAT) 31 = true ∧ s.ownedChans 0 = [0] ∧
      s.armed 0 0 = true ∧ (s.fifoFills 0 0 [0] [1]).dryChan 0 = none ∧ (s.fifoFills 0 0 [0] [0]).dryChan 0 = some 0) ∧
    (let c : CurPlay := {}
     let s := seqIn 2 { cur := some c }
     c.pos < c.desc.nvec ∧ s.checkDue 0 = false ∧ s.switchDue 0 = false ∧ s.dropDue 0 = [] ∧ s.resultsBefore 0 ((s.sq 0).vcnt - 383) = true) ∧
    (let c : CurPlay := { desc := { addr := 0x1000000, loc := false, nvec := 1024 } }
     let s : State := { put [(Reg.DRC_CFG, 1)] (seqIn 2 { cur := some c }) with drc := { bad := [(0x40000, 3)] } }
     (s.askVector 0 c.desc 0).2 = true ∧ s.checkDue 0 = false ∧ s.switchDue 0 = false ∧ s.dropDue 0 = []) := by decide

theorem witness_SpoolEventsComplete :
    (let s := desc [0, 0, 0, 2 ^ 31] (seqIn 2 { cur := some { item := { kind := .spool } }, ringLen := 2 })
     s.seqRuns 0 = true ∧ s.pollsRing 0 = true ∧ s.pollsNext 0 = false ∧
      (s.dramAsk { cls := 5, id := 0, rkind := 3 } 0 (segEntry 0 (s.nextUnseen 0)) 16).2 = false ∧
      s.readyMark 0 (s.nextUnseen 0) = true ∧ (desc [] s).readyMark 0 0 = false) ∧
    (let s := seqIn 2 { cur := some { item := { kind := .spool }, seg := 5 }, queue := [.play { kind := .spool }], ringPend := true }
     let s := s.setApv (Reg.SEQ_SPL_LEN 0) 2
     s.seqRuns 0 = true ∧ s.pollsRing 0 = false ∧ s.pollsNext 0 = true) ∧
    (let s := seqIn 2 { cur := some { item := { kind := .spool }, seg := 5 }, queue := [.play { kind := .spool }], ringLen := 2, ringPend := true }
     let s := s.setApv (Reg.SEQ_SPL_LEN 0) 1
     s.seqRuns 0 = true ∧ s.pollsRing 0 = true ∧ s.pollsNext 0 = true) ∧
    (let s := seqIn 2 { cur := some { item := { kind := .spool } }, ringLen := 1 }
     s.seqPlays 0 = true ∧ (s.sq 0).warned = false ∧ (s.seenNext 0 (s.spoolGoesOn 0)).1 = [] ∧
      ∃ b ≤ (s.sq 0).vcnt + 1024, s.spoolDue 0 = some b) ∧
    (let s := seqIn 2 { cur := some { item := { kind := .spool }, desc := { nvec := 64 } }, ringLen := 2, ready := [7], readyAt := [(7, 1)] }
     s.seqPlays 0 = true ∧ s.seenNext 0 (s.spoolGoesOn 0) = ([7], [(7, 1)]) ∧ s.spoolDue 0 = some 64 ∧
      64 < kget (fun _ => 0) [(7, 1)] 7 + 1024 ∧ kget (fun _ => 0) [(7, 1)] 7 ≠ 0) :=
  ⟨by decide, by decide, by decide, ⟨by decide, by decide, by decide, _, by decide, rfl⟩, by decide⟩

theorem witness_VectorResultCompletes :
    let v : CmpVec := { evs := [{ exp := 0, land := 1024 }] }
    let s : State := { own with mt := 1, chn := [(0, { cmpQ := [v] })] }
    s.runs = true ∧ (s.ch 0).cmpQ = v :: [] ∧ s.seqOfCh 0 = some 0 ∧ v.landed s.mt = true ∧ v.landed 0 = false ∧
      (verdict s.free v [[(0, 0)]]).failed = 0 ∧ (verdict s.free v [[(1, 0)]]).failed ≠ 0 := by decide

/-- Whether a host write through BAR4 reaches its place with its unit awake. -/
def writes4B (s : State) (dom : Nat) (may : Bool) (u : Nat × Nat) (blk : Nat) : Bool :=
  s.hostOn dom && !s.graveHeld && may && !s.safeMode && decide (s.reach (some u) (bit (s.rd Reg.HIF_WOA) (blk / 256)) = .awake s)

theorem writes4_of {s : State} {dom : Nat} {may : Bool} {u : Nat × Nat} {blk : Nat} (h : writes4B s dom may u blk = true) :
    s.Writes4 dom may u blk := by
  simpa [writes4B, State.Writes4, and_assoc] using h

/-- SQ0 with a contact sheet. -/
def sheetS (h : Sheet) : State := { own with seq := [(0, { sheet := h })] }

/-- The unit of channel 0 with registers in the values given. -/
def tmS (l : List (Nat × Nat)) (u : TmuUnit) : State := { put l R with tmu := [(0, u)] }

def aqS (l : List (Nat × Nat)) (u : AcqUnit) : State := { put l R with acq := [(0, u)] }

/-- Channel 0 has a capture area. -/
def acqr (s : State) : State := { s with str := { s.str with acqr := [(0, { capSize := 16 })] } }

theorem witness_StoredBytesReadBack : (0 : Nat) < 1 ∨ 1 + 4 ≤ 0 := by decide

theorem witness_RegisterUpdateFrame : (8 : Nat) ≤ 15 ∧ (15 : Nat) < 32 ∧ ((7 : Nat) < 8 ∨ (15 : Nat) < 0) ∧
    ((15 : Nat) < 8 ∨ (15 : Nat) < 16) := by decide

theorem witness_WaveformTableCommandsComplete :
    writes4B own 0 (own.owns 0 2 0) (1, 0) 0x400 = true ∧
    entryError ((own.wftAbandon 0 (wftAddr 0 0 0)).wftBytes 0 (wftAddr 0 0 0) 0) false = 0 ∧
    entryError ((own.wftAbandon 0 (wftAddr 0 0 0)).wftBytes 0 (wftAddr 0 0 0) 0xFFFFFFFF) false ≠ 0 ∧
    (let s : State := { own with wold := [(wftAddr 0 0 0, [{}])] }
     s.runs = true ∧ s.wftDue (wftAddr 0 0 0) = true) := by decide

theorem witness_ContactSheetCommandsComplete :
    readsB (sheetS { held := some 1 }) 0 (Reg.CSH_ACQ 0) = true ∧ ((sheetS { held := some 1 }).sq 0).sheet.held = some 1 ∧
    readsB (sheetS { newest := some 2 }) 0 (Reg.CSH_ACQ 0) = true ∧ ((sheetS { newest := some 2 }).sq 0).sheet.held = none ∧
    ((sheetS { newest := some 2 }).sq 0).sheet.newest = some 2 ∧
    readsB own 0 (Reg.CSH_ACQ 0) = true ∧ (own.sq 0).sheet.held = none ∧ (own.sq 0).sheet.newest = none ∧
    writesB (sheetS { held := some 1 }) 0 (Reg.CSH_REL 0) = true ∧ some (fld (1 : Word) 1 0) = some 1 ∧
    some 1 ≠ some (fld (2 : Word) 1 0) ∧ writesB (sheetS { held := some 1 }) 0 (Reg.CSH_FREL 0) = true := by decide

theorem witness_SheetReleaseFreesOnlyTheHeldBuffer :
    (∀ forced ∈ [true, false], writesB (sheetS { held := some 1, newest := some 1 }) 0
      (if forced then Reg.CSH_FREL 0 else Reg.CSH_REL 0) = true) ∧
    writesB (sheetS { held := some 1, newest := some 2 }) 0 (Reg.CSH_REL 0) = true ∧ (1 : Word).toNat % 4 = 1 ∧
    (2 : Word).toNat % 4 ≠ 1 := by decide

theorem witness_EpochEventsComplete :
    (let s := seqIn 0 { epochs := [{ cause := 1 }] }
     s.runs = true ∧ s.newestComplete 0 = some { cause := 1 } ∧ s.epochStop = false) ∧
    R.eres ≤ R.enext + 2 ^ 31 ∧ R.norHas 4 = false ∧ R.pfw = false ∧ R.graveHeld = false ∧
    (put [(Reg.PWR_STAT, 2 ^ 25)] R).pfw = true := by decide

theorem witness_TmuCommandsComplete :
    (let s := put [(Reg.TMU_CTL 0, 1), (Reg.TMU_LEN_LO 0, 4000), (Reg.TMU_HWID 0, 1)] R
     writesB s 0 (Reg.TMU_CMD 0) = true ∧ s.tmState 0 = 0 ∧ (s.ch 0).refl = false ∧ s.modHeld = false ∧ s.pllOff = false ∧
      s.armError 0 = 0) ∧
    (writesB R 0 (Reg.TMU_CMD 0) = true ∧ R.tmState 0 = 0 ∧ R.armError 0 ≠ 0) ∧
    (let s := put [(Reg.TMU_STAT 0, 2)] R
     writesB s 0 (Reg.TMU_CMD 0) = true ∧ s.tmState 0 ≠ 0 ∧ writesB s 0 (Reg.TMU_CTL 0 + 4 * 19) = true) ∧
    ((3 : Word).toNat % 8 ≠ 1 ∧ (3 : Word).toNat % 8 ≠ 2) ∧
    (writesB R 0 (Reg.TMU_CTL 0) = true ∧ writesB R 0 (Reg.TMU_CTL 0 + 4 * 19) = true) ∧
    (writesB R 0 (Reg.TMU_RD 0) = true ∧ R.pacedBy 1 0 = false ∧
      ((R.rd (Reg.TMU_WR 0)).toNat + 2 ^ 32 - (0 : Word).toNat) % 2 ^ 32 ≤ (R.rd (Reg.TMU_RSIZE 0)).toNat ∧
      ¬ ((R.rd (Reg.TMU_WR 0)).toNat + 2 ^ 32 - (1 : Word).toNat) % 2 ^ 32 ≤ (R.rd (Reg.TMU_RSIZE 0)).toNat) ∧
    readsB R 0 (Reg.TMU_RSEQ 0) = true := by decide

set_option maxRecDepth 8000 in
theorem witness_TmuEventsComplete :
    (tmS [(Reg.TMU_STAT 0, 1)] { openT := some 0 }).tmuOpenDue 0 = true ∧
    (let s := tmS [(Reg.TMU_STAT 0, 2)] { openT := some 0, closeT := some 0 }
     s.runs = true ∧ s.tmuEndDue 0 1 = true ∧ s.tmReopens 0 1 = false) ∧
    (let s : State := { tmS [(Reg.TMU_STAT 0, 2), (Reg.TMU_CTL 0, 2 ^ 8)] { openT := some 0, closeT := some 0 } with mt := 2 }
     s.tmuEndDue 0 1 = true ∧ s.tmReopens 0 1 = true ∧ s.stampsPast 0 ((s.tm 0).closeT.getD 0) = true) ∧
    (let s : State := { tmS [(Reg.TMU_STAT 0, 2), (Reg.TMU_CTL 0, 2 * 2 ^ 18 + 5)] { openT := some 0 } with mt := 2 ^ 60 }
     s.tmuEndDue 0 4 = true) ∧
    (let s := tmS [] { done := some {} }
     (s.tm 0).done.isSome = true ∧ (s.tm 0).ending = none) ∧
    (let s : State := { tmS [] { ending := some (0, 3) } with mt := 2 }
     (s.tm 0).ending = some (0, 3) ∧ s.stampsPast 0 0 = true) ∧
    (let s : State := { tmS [] { hold := [[]] } with stampQ := [(0, 0)] }
     (s.tm 0).hold ≠ [] ∧ s.nextServed = some 0) ∧
    (let s := tmS [(Reg.TMU_STAT 0, 2)] {}
     s.tmState 0 = 2 ∧ 100 * s.rdF Reg.TMU_CAL_CTL 15 1 < s.calAge 0 ∧ (0 : Nat) ≤ s.mt ∧ 16 ≤ (143 : Fin 144).val) ∧
    (let s := put [(Reg.TMU_CAL_CTL, 1)] R
     s.tmState 0 = 0 ∧ (s.tm 0).ending = none ∧ (6 : Fin 7) = 6 ∧ s.binCollect 0 = true ∧
      (let more := List.replicate 128 8192
       let h := List.zipWith (· + ·) ((s.tm 0).codeCounts 0) more
       2 ^ 20 ≤ h.sum ∧ more.length = 128 ∧ binsOk h = true) ∧
      (let more := 2 ^ 20 :: List.replicate 127 0
       let h := List.zipWith (· + ·) ((s.tm 0).codeCounts 1) more
       2 ^ 20 ≤ h.sum ∧ more.length = 128 ∧ binsOk h = false)) := by decide

theorem witness_AcqCommandsComplete :
    (let s := acqr (put [(Reg.ACQ_TC 0, 1000), (Reg.ACQ_LEN 0, 16), (Reg.ACQ_NFRAME 0, 1)] R)
     writesB s 0 (Reg.ACQ_CMD 0) = true ∧ s.acqCannot 0 = false ∧ s.modHeld = false ∧ s.acqError 0 = 0 ∧ s.convBad 0 = false ∧
      s.acqStartDue 0 = false ∧ s.aqState 0 < 2) ∧
    (let s := put [(Reg.ACQ_TC 0, 999)] R
     writesB s 0 (Reg.ACQ_CMD 0) = true ∧ s.acqCannot 0 = false ∧ s.modHeld = false ∧ s.acqError 0 ≠ 0 ∧ s.acqError 0 < 5 ∧
      s.convBad 0 = true) ∧
    (let s := acqr (put [(Reg.ACQ_TC 0, 1000), (Reg.ACQ_LEN 0, 16), (Reg.ACQ_NFRAME 0, 1), (Reg.ACQ_CTL 0, 2 ^ 13)] R)
     writesB s 0 (Reg.ACQ_CMD 0) = true ∧ s.acqCannot 0 = false ∧ s.modHeld = false ∧ 5 ≤ s.acqError 0) ∧
    (let s := put [(Reg.FLT_STAT, 2 ^ 30)] R
     writesB s 0 (Reg.ACQ_CMD 0) = true ∧ s.modHeld = true) ∧
    (let s := put [(Reg.ACQ_STAT 0, 2)] R
     writesB s 0 (Reg.ACQ_CMD 0) = true ∧ s.acqCannot 0 = true ∧ s.acqStartDue 0 = false ∧ 2 ≤ s.aqState 0) ∧
    (let s := aqS [(Reg.ACQ_STAT 0, 1)] { start := some 0 }
     s.acqStartDue 0 = true ∧ 2 ≤ (s.acqBegin 0).aqState 0) ∧
    (let s := put [(Reg.ACQ_STAT 0, 1)] R
     writesB s 0 (Reg.ACQ_CMD 0) = true ∧ s.aqState 0 = 1 ∧ s.acqStartDue 0 = false) ∧
    ((5 : Word).toNat % 8 = 0 ∨ 4 < (5 : Word).toNat % 8) ∧
    (writesB R 0 (Reg.ACQ_CTL 0) = true ∧ R.aqState 0 = 0 ∧ writesB R 0 (Reg.ACQ_CTL 0 + 4 * 23) = true) ∧
    (let s := put [(Reg.ACQ_STAT 0, 1)] R
     writesB s 0 (Reg.ACQ_CTL 0) = true ∧ s.aqState 0 ≠ 0) := by decide

theorem witness_AcqEventsComplete :
    (aqS [(Reg.ACQ_STAT 0, 1)] { start := some 0 }).acqStartDue 0 = true ∧
    (let s := put [(Reg.ACQ_STAT 0, 2)] R
     s.converts 0 = true ∧ s.aqStart 0 + (s.aq 0).conv * s.aqTC 0 ≤ s.mt ∧ (s.aq 0).nC < s.aqA 0) ∧
    (let s := aqS [(Reg.ACQ_STAT 0, 2)] { nC := 1 }
     s.converts 0 = true ∧ s.aqA 0 ≤ (s.aq 0).nC ∧ s.aqState 0 ≠ 0) ∧
    (let s := aqS [(Reg.ACQ_STAT 0, 2 ^ 11)] { nC := 1, start := some 0 }
     s.converts 0 = true ∧ s.aqA 0 ≤ (s.aq 0).nC ∧ s.aqState 0 = 0) ∧
    (let s := put [(Reg.ACQ_STAT 0, 2)] R
     s.aqState 0 = 2 ∧ s.aqPre 0 ≤ (s.aq 0).nextJ ∧ s.aqT 0 (s.aqPre 0) ≤ s.mt) ∧
    (let s := put [(Reg.ACQ_STAT 0, 2), (Reg.ACQ_TA 0, 9 * 2 ^ 28)] R
     2 ≤ s.aqState 0 ∧ s.trigOn 0 0 1 = true ∧ (s.tm 0).freePath 2 16 = some 0) ∧
    (let s : State := { put [(Reg.ACQ_STAT 0, 2), (Reg.ACQ_TA 0, 9 * 2 ^ 28)] R with
      tmu := [(0, { pathFree := [(0, 99), (1, 99)] })] }
     2 ≤ s.aqState 0 ∧ s.trigOn 0 0 1 = true ∧ (s.tm 0).freePath 0 16 = none) ∧
    (let s := aqS [(Reg.ACQ_STAT 0, 3), (Reg.ACQ_TC 0, 1000)] { firings := [{}], nextJ := 9 }
     2 ≤ s.aqState 0 ∧ ∃ j ∈ s.dueSample 0, s.allReported 0 j = true) ∧
    ((aqS [] { complete := [{}] }).aq 0).complete = {} :: [] ∧
    (let s := aqS [(Reg.ACQ_STAT 0, 5)] { rearm := some 0 }
     s.rearmAt 0 = some 0 ∧ s.aqState 0 = 5 ∧ 0 ≤ 65536 * s.mt) ∧
    (let s : State := { aqS [(Reg.ACQ_STAT 0, 3), (Reg.ACQ_TMO 0, 1)] {} with mt := 4000 }
     s.aqState 0 = 3 ∧ (s.rd (Reg.ACQ_TMO 0)).toNat ≠ 0 ∧ (s.aq 0).waitFrom + 4000 * 1 ≤ s.mt ∧ (s.aq 0).firings = []) := by decide

theorem witness_PinCommandsComplete :
    (writesB R 0 (Reg.PEL_DRV_CTL 0) = true ∧ (regRow (Reg.PEL_DRV_CTL 0)).isSome = true ∧
      R.pelAccepts 0 0 0 = true ∧ writesB R 0 (Reg.PEL_DRV_CTL 0 + 4 * 11) = true ∧ R.pelAccepts 0 (4 * 11) (0x70 : Word) = false) ∧
    writesB R 0 (Reg.PEL_CMD 0) = true ∧ R.chStopped 0 = true ∧ R.tripped 0 = false ∧ R.reflOk 0 = true ∧
    (let s := put [(Reg.PEL_STAT 0, 2 ^ 31)] R
     writesB s 0 (Reg.PEL_CMD 0) = true ∧ s.chStopped 0 = true ∧ s.tripped 0 = true) ∧
    (let s := seqIn 2 {}
     writesB s 0 (Reg.PEL_CMD 0) = true ∧ s.chStopped 0 = false) ∧
    (let s := put [(Reg.PEL_REFL_CTL 0, 15)] R
     writesB s 0 (Reg.PEL_CMD 0) = true ∧ s.reflOk 0 = false) ∧
    ((3 : Word).toNat % 4 ≠ 1 ∧ (3 : Word).toNat % 4 ≠ 2) := by decide

/-- What the launches of a reflection measurement gave, in 2^-16 tick. -/
def launches (x : Option (Nat × Option Nat)) : List (Option (Nat × Option Nat)) := List.replicate 16 x

theorem witness_PinEventsComplete :
    R.tripped 0 = false ∧
    (ownsLand ((put [(Reg.PEL_STAT 0, 1)] R).pmuMode 0) = true ∧ bit ((put [(Reg.PEL_STAT 0, 1)] R).rd (Reg.PEL_STAT 0)) 30 = false) ∧
    bit ((put [(Reg.PEL_STAT 0, 2 ^ 30)] R).rd (Reg.PEL_STAT 0)) 30 = true ∧
    (let s : State := { put [(Reg.PEL_REFL_CTL 0, 16)] R with chn := [(0, { refl := true })] }
     (s.ch 0).refl = true ∧
      ∀ obs ∈ [launches none, launches (some (0, none)), launches (some (0, some 640)), launches (some (0, some 0)) ++ []],
        obs.length = s.rdF (Reg.PEL_REFL_CTL 0) 12 0) ∧
    none ∈ launches none ∧
    (none ∉ launches (some (0, none)) ∧ ((launches (some (0, none))).filterMap reflX).length < 16) ∧
    (let xs := (launches (some (0, some 640))).filterMap reflX
     none ∉ launches (some (0, some 640)) ∧ xs.length = 16 ∧
      reflSpread xs.length xs.sum (xs.map fun x => x * x).sum = false ∧ 0 ≤ reflTau xs.length xs.sum 0 ∧
      reflTau xs.length xs.sum 0 ≤ 65535 ∧ reflTau xs.length xs.sum 900 < 0) ∧
    (code16 0 < 880 ∧ 880 ≤ code16 960 ∧ 960 ≤ code16 960) := by decide

theorem witness_CalibrationCommandsComplete :
    (writesB R 0 Reg.CAL_CMD = true ∧ R.modHeld = false ∧ R.storeBar = 0 ∧ R.cal.reject = none ∧
      (4 : Word).toNat % 4 = 0) ∧
    (let s := put [(Reg.FLT_STAT, 2 ^ 30)] R
     writesB s 0 Reg.CAL_CMD = true ∧ s.modHeld = true) ∧
    (let s : State := { R with cal := { storing := some 1 } }
     writesB s 0 Reg.CAL_CMD = true ∧ s.storeBar = 2) ∧
    (let s : State := { R with cal := { reject := some (0, []) } }
     writesB s 0 Reg.CAL_CMD = true ∧ s.storeBar = 0 ∧ s.cal.reject = some (0, []) ∧ s.injTake 0x800 3 = (s, false)) ∧
    (let s := put [(Reg.PWR_STAT, 2 ^ 25)] R
     writesB s 0 Reg.CAL_CMD = true ∧ s.storeBar ≠ 0 ∧ s.storeBar ≠ 2) ∧
    (let s : State := { R with cal := { storing := some 1, stored := some 0 } }
     s.runs = true ∧ s.cal.storing = some 1 ∧ s.cal.stored = some 0) := by decide

theorem witness_CalibrationEventsComplete :
    (let s := put [(Reg.CAL_CTL, 1), (Reg.PWR_STAT, 2 ^ 31)] R
     bit (s.rd Reg.CAL_CTL) 0 = true ∧ s.cal.slot = none ∧ s.modHeld = false ∧ bit (s.rd Reg.PWR_STAT) 31 = true ∧
      s.supSwitch = false ∧ s.slotSkipped s.cal.target = false ∧
      (let t := put [(Reg.CAL_TILE, 0xF0F0F0F + 2)] s
       t.slotSkipped t.cal.target = true ∧ t.supSwitch = false ∧ t.modHeld = false)) ∧
    (∀ p ∈ [1, 2, 3, 4, 5, 6, 7, 8],
      let s : State := { put [(Reg.CAL_STAT, p * 2 ^ 20)] R with cal := { slot := some {} } }
      s.cal.slot = some {} ∧ s.slotPhase = p) ∧
    (({ R with mt := 4000 } : State).switchReady {} = true ∧ (seqIn 2 {}).switchReady { vecB := some 0 } = true) ∧
    (let s := put [(Reg.PEL_TEMP 0, 4)] R
     4 ≤ sext 16 (s.rdF (Reg.PEL_TEMP 0) 15 0) - sext 16 (kget (fun _ => 0) s.cal.temps 0)) ∧
    (let s : State := { R with mt := 2 ^ 40, cal := { ageFrom := [(0, some 0)] } }
     (kget (fun _ => none) s.cal.ageFrom 0).isSome = true ∧ kget (fun _ => false) s.cal.aged 0 = false ∧
      10000 < s.calChAge 0) := by decide

/-- Graph 7: node 0 takes flow 1 to flow 2, and node 1, a COMPRESS, takes flow 3. -/
def g7 : Graph :=
  { id := 7, engines := 1, nodes := [{ op := 2, ins := [1], outs := [2] }, { op := 4, ins := [3] }],
    flows := [{ flow := 1, credit := 4, spillSize := 1, spillBase := 2 ^ 24 }, { flow := 2, credit := 4 },
      { flow := 3, credit := 4 }] }

def gS (a : Ane) : State := { R with str := { graphs := [g7] }, ane := a }

/-- DRAM of 1 GB is trained. -/
def dramS : State := put [(Reg.DRC_CFG, 1), (Reg.DRC_STAT, 2 ^ 28)] R

theorem witness_EngineCommandsComplete :
    (writesB (gS {}) 0 Reg.ANE_CMD = true ∧ (gS {}).graphNum 7 = some g7 ∧ g7.owner = none ∧ (gS {}).ane.clearing = none ∧
      (gS { clearing := some 3 }).ane.clearing ≠ none ∧ writesB (gS { clearing := some 3 }) 0 Reg.ANE_CMD = true ∧
      (gS {}).graphNum 8 = none ∧ (4 : Word).toNat % 16 = 4) ∧
    (let s : State := { seqIn 2 {} with str := { (seqIn 2 {}).str with graphs := [{ g7 with owner := some 0 }] } }
     writesB s 0 Reg.ANE_CMD = true ∧ s.graphNum 7 = some { g7 with owner := some 0 } ∧ s.seqStopped 0 = false) ∧
    (readsB R 0 Reg.ANE_F_STAT = true ∧ R.flowMay 0 (fld (R.domSel 0 Reg.ANE_FSEL) 13 0) = true ∧
      readsB R 1 Reg.ANE_F_STAT = true ∧ R.flowMay 1 (fld (R.domSel 1 Reg.ANE_FSEL) 13 0) = false) := by decide

theorem witness_EngineEventsComplete :
    (let s := seqIn 2 { capq := [{}] }
     (s.sq 0).nextRec = some {} ∧ s.recDue 0 {} = true) ∧
    (let s := seqIn 2 { marks := [(4, 0)] }
     (s.sq 0).marks = (4, 0) :: [] ∧ s.markDue 0 (4, 0) = true ∧ (s.sq 0).nextRec = none) ∧
    ((gS { flows := [(1, { spill := [.marker 5] })] }).graphOf 1 = some g7 ∧
      ((gS { flows := [(1, { spill := [.marker 5] })] }).fw 1).spill = .marker 5 :: []) ∧
    (let s : State := { dramS with str := { graphs := [g7] }, ane := { flows := [(1, { spill := [.item (List.replicate 16 0) 0] })] } }
     s.graphOf 1 = some g7 ∧ (s.fw 1).spill = .item (List.replicate 16 0) 0 :: [] ∧ s.hasCredit g7 1 = true ∧
      s.dramHeld (2 ^ 24) 16 = false ∧
      (s.dramAsk { cls := 1, id := 1, rkind := 4 } 0 (2 ^ 24) 16).2 = false ∧
      (let t : State := { s with drc := { bad := [(2 ^ 18, 3)] } }
       t.graphOf 1 = some g7 ∧ t.dramHeld (2 ^ 24) 16 = false ∧ (t.dramAsk { cls := 1, id := 1, rkind := 4 } 0 (2 ^ 24) 16).2 = true)) ∧
    (let s := gS { flows := [(1, { pool := [.item [] 0] })], engines := [(0, { ready := [1] })] }
     (s.eng 0).ready = 1 :: [] ∧ (s.eng 0).offline = false ∧ s.unit 3 0 = 0 ∧ s.graphOf 1 = some g7 ∧
      (g7.consumer 1).isSome = true ∧ s.nodeReady g7 (g7.nodes.getD 0 {}) = true) ∧
    (let s := gS { flows := [(3, { pool := [.marker 5] })] }
     let n := g7.nodes.getD 1 {}
     s.graphNum 7 = some g7 ∧ s.markerAt n = some 5 ∧ s.openRun g7 1 n = none) ∧
    (let s : State := { gS { runAt := [(g7.nodeAt 1, 1)] } with sram := memWrite sramFill [] (g7.nodeAt 1 + 12) [1], mt := 40000 }
     let n := g7.nodes.getD 1 {}
     s.graphNum 7 = some g7 ∧ s.openRun g7 1 n ≠ none ∧ s.runAt (g7.nodeAt 1) ≠ 0 ∧
      s.runAt (g7.nodeAt 1) + 40000 ≤ s.mt + 1 ∧ s.outsFree g7 n = true) ∧
    (gS { clearing := some 7 }).ane.clearing = some 7 := by decide

theorem witness_MemoryCommandsComplete :
    (writesB R 0 Reg.DRC_CMD = true ∧ R.allStopped = true ∧ (∀ i ∈ bitsOf 8 1, R.unit 4 i ≠ 4)) ∧
    (writesB (seqIn 2 {}) 0 Reg.DRC_CMD = true ∧ (seqIn 2 {}).allStopped = false) ∧
    (4 : Word).toNat % 16 = 4 ∧
    (writesB R 0 Reg.DRC_SPEED = true ∧ (3 : Word).toNat % 4 = 3 ∧ (2 : Word).toNat % 4 ≠ 3 ∧
      bit (R.rd Reg.DRC_STAT) 29 = false) ∧
    (let s := put [(Reg.DRC_STAT, 2 ^ 29)] R
     writesB s 0 Reg.DRC_SPEED = true ∧ bit (s.rd Reg.DRC_STAT) 29 = true) ∧
    (writesB (seqIn 2 {}) 0 Reg.DRC_SPEED = true ∧ bit ((seqIn 2 {}).rd Reg.DRC_STAT) 29 = false) ∧
    writesB R 0 (Reg.DRC_INJ 0) = true := by decide

theorem witness_MemoryEventsComplete :
    (dramS.runs = true ∧ dramS.dramUp = true ∧ dramS.dramHeld 0 64 = false ∧ dramS.dramHeld (64 * 2 ^ 24) 64 = false ∧
      bit (dramS.rd Reg.DRC_STAT) 30 = false ∧ ({ dramS with drc := { closed := true } } : State).dramHeld 0 64 = true ∧
      (let s := put [(Reg.DRC_STAT, 2 ^ 30)] dramS
       bit (s.rd Reg.DRC_STAT) 30 = true ∧ s.dramUp = true ∧ 64 * (2 ^ 24 - 1) + 64 ≤ s.dramSize)) ∧
    ((∀ d : Fin 8, ∀ sub : Fin 2, dramS.unit 4 d < 3 ∧ kget (fun _ => 0) dramS.drc.refBusy (32 * (2 * d.val + sub.val)) ≤ dramS.mt) ∧
      bit (dramS.rd Reg.DRC_STAT) 29 = false ∧ 0 < dramS.logicalRanks ∧
      (∀ d : Fin 8, dramS.unit 4 d = 0 ∧ dramS.rdF (Reg.DRC_CH_STAT d) 31 29 = 0) ∧
      (∀ d : Fin 8, ({ dramS with mt := 400000 } : State).idleFor 4 d (max 10 (dramS.rdF Reg.DRC_SR_IDLE 15 0)) = true) ∧
      dramS.allStopped = true ∧ bit (dramS.rd Reg.DRC_SCRUB) 31 = true ∧ dramS.lineDown dramS.drc.scrubLine = false) ∧
    bit ((put [(Reg.DRC_STAT, 2 ^ 30)] R).rd Reg.DRC_STAT) 30 = true ∧
    (∀ new ∈ [none, some 2],
      let s : State := { R with drc := { speed := some 1, newReq := new } }
      s.drc.speed = some 1 ∧ s.drc.newReq = new) := by decide

/-- DC0 in a state, with registers and a unit as given. -/
def dcS (st : Nat) (l : List (Nat × Nat)) (u : DmaUnit) : State :=
  { put ((Reg.DMA_STAT 0, st) :: l) dramS with dma := [(0, u)] }

/-- A descriptor of 16 bytes between two addresses in DRAM, and ones paced by the record ring and by the frames of channel 0. -/
def descPlain : List Word := [0x80500000, 16, 0x1000000, 0, 0x2000000, 0, 1, 0, 0, 0, 0, 0, 0, 0, 0, 0]

def descRing : List Word := [0x80500000, 64, 0, 0, 0x2000000, 0, 1, 0, 0xA0000001, 0, 0, 0, 0, 0, 0, 0]

def descFrame : List Word := [0x80500000, 64, 0, 0, 0x2000000, 0, 1, 0, 0xC0000001, 0, 0, 0, 0, 0, 0, 0]

theorem witness_DmaCommandsComplete :
    (∀ s ∈ [R, dcS 2 [] {}, dcS 1 [] { desc := some descPlain }, dcS 3 [] { desc := some descRing }],
      writesB s 0 (Reg.DMA_CMD 0) = true) ∧
    (R.modHeld = false ∧ R.dmaState 0 = 0 ∧ R.descSpace 0 < 2) ∧
    ((dcS 2 [] {}).dmaState 0 = 2) ∧
    (({ desc := some descPlain } : DmaUnit).desc.isSome = true ∧ (dcS 1 [] { desc := some descPlain }).dmaState 0 = 1) ∧
    (({ desc := some descRing } : DmaUnit).paceKind = 1 ∧ ({} : DmaUnit).paceKind ≠ 1) ∧
    (5 : Word).toNat % 8 = 5 := by decide

theorem witness_DmaEventsComplete_descriptors :
    (let s := dcS 1 [] {}
     s.runs = true ∧ s.dmaState 0 = 1 ∧ (s.dc 0).desc = none ∧ s.descSpace 0 = 0 ∧ s.dmaHeld 0 (s.dmaCur 0) 64 = false ∧
      2 ≤ ({ fails := 2 } : HostRead).fails ∧
      ({ data := List.replicate 64 0 } : HostRead).data.length = 64) ∧
    (let s : State := { dcS 2 [(Reg.DMA_CTL 0, 0x100)] {} with mt := 4000 }
     s.dmaState 0 = 2 ∧ s.rdF (Reg.DMA_CTL 0) 15 8 ≠ 0 ∧ (s.dc 0).readAt + 4000 * s.rdF (Reg.DMA_CTL 0) 15 8 ≤ s.mt) ∧
    (let s : State := { dcS 0 [] { resume := true } with pwr := { starting := false } }
     (s.dc 0).resume = true ∧ s.dmaState 0 = 0 ∧ s.pwr.starting = false ∧ s.modHeld = false) ∧
    (let s := dcS 1 [] { desc := some descPlain }
     s.dmaState 0 = 1 ∧ (s.dc 0).desc.isSome = true ∧ (s.dc 0).code = none ∧ (s.dc 0).paceKind = 0 ∧ (s.dc 0).sspace ≠ 0 ∧
      s.dmaHeld (s.dc 0).sspace ((s.dc 0).src + (s.dc 0).piece.2) (s.dc 0).piece.1 = false) := by decide

theorem witness_DmaEventsComplete :
    (let s := dcS 3 [(Reg.TMU_WR 0, 1), (Reg.TMU_RSIZE 0, 64)] { desc := some descRing }
     (s.dc 0).paceKind ≠ 0 ∧ s.paceAsked 0 (s.dc 0) = false ∧ (s.dc 0).paused = none ∧ (s.dc 0).cut = none ∧
      (s.dc 0).code = none ∧ s.placesHeld (s.burstPlaces 0 1) = false ∧
      (let t := dcS 3 [(Reg.TMU_WR 0, 16), (Reg.TMU_RSIZE 0, 64), (Reg.TMU_CTL 0, 2 ^ 10)] { desc := some descRing }
       t.paceAsked 0 (t.dc 0) = true ∧ t.placesHeld (t.burstPlaces 0 (4 * (t.dc 0).paceBurst)) = false) ∧
      (let t := dcS 3 [(Reg.TMU_WR 0, 1), (Reg.TMU_RSIZE 0, 64)] { desc := some descRing, flushReq := true }
       t.paceAsked 0 (t.dc 0) = false ∧ (t.dc 0).flushReq = true ∧ t.ringHeld (t.dc 0).paceCh ≠ 0 ∧
        t.placesHeld (t.burstPlaces 0 (t.ringHeld (t.dc 0).paceCh)) = false) ∧
      (let t := dcS 3 [(Reg.TMU_RSIZE 0, 64)] { desc := some descRing, flushReq := true }
       t.paceAsked 0 (t.dc 0) = false ∧ t.ringHeld (t.dc 0).paceCh = 0)) ∧
    (let s := dcS 3 [] { desc := some descFrame, cut := some ([(true, 0, 4)], [1, 2, 3, 4]), stride := 64 }
     s.dmaState 0 = 3 ∧ (s.dc 0).code = none ∧ (s.dc 0).cut = some ([(true, 0, 4)], [1, 2, 3, 4]) ∧
      (4 : BitVec 32).toNat ≤ [1, 2, 3, 4].length ∧ s.placesHeld (cutPlaces 4 [(true, 0, 4)]) = false) ∧
    (let s := dcS 1 [] { desc := some descPlain, code := some 0 }
     s.dmaState 0 = 1 ∧ (s.dc 0).desc.isSome = true ∧ (s.dc 0).code = some 0 ∧ (s.dc 0).wrote = none ∧
      s.dmaHeld (s.descSpace 0) (s.dmaCur 0) 64 = false) ∧
    (let s := dcS 1 [] { desc := some descPlain, code := some 0, wrote := some 0x2000000 }
     (s.dc 0).wrote = some 0x2000000 ∧ s.dmaHeld (s.dc 0).dspace 0x2000000 4 = false) := by decide

theorem witness_WindowAccessesComplete :
    R.hostOn 0 = true ∧ R.hostOn 15 = true ∧ R.graveHeld = false ∧ R.safeMode = false ∧ R.dramHeld (R.bar2Addr 0 0) 4 = false ∧
    (let s : State := { dramS with drc := { closed := true } }
     s.dramHeld (s.bar2Addr 0 0) 4 = true ∧ s.byteMay 0 false (s.bar2Addr 0 0) = true) ∧
    (∀ i < 4, R.byteMay 0 false (R.bar2Addr 0 0 + i) = true) ∧ R.byteMay 1 false (R.bar2Addr 1 0x1000000) = false ∧
    (∀ r ∈ enabledRuns 0x1000000 [some 1, none, some 2], ∀ i < r.2.length, R.byteMay 0 true (r.1 + i) = true) ∧
    R.byteMay 1 true 0x1000000 = false ∧
    ((0 : Nat) % 4 = 0 ∧ bar4Reserved 0 = false ∧ bar4Unit 0 = none ∧ R.bar4MayRead 0 0 = true ∧
      R.bar4MayRead 1 0x2B00000 = false ∧ bar4Reserved 0x2B00000 = false ∧ (1 : Nat) % 4 ≠ 0 ∧ bar4Reserved 0x3000000 = true ∧
      own.bar4MayWrite 0 0 = true ∧ own.bar4MayWrite 0 0x2680000 = false ∧ bar4Reserved 0x2680000 = false ∧
      own.bar4MayWrite 0 0x2400000 = true ∧ bar4Unit 0x2400000 = some (1, 0) ∧
      own.reach (some (1, 0)) (bit (own.rd Reg.HIF_WOA) (bar4Block 0x2400000 / 256)) = .awake own) := by decide

theorem witness_ProtectionTableCommandsComplete :
    writesB R 0 (ptAddr 0 1) = true ∧ writesB R 0 (ptAddr 0 0) = true ∧
    ptCheck 0 ((R.ptAbandon 0).ptMade 0 (word (2 ^ 20))) = 0 ∧ (R.ptAbandon 0).ptOverlap 0 ((R.ptAbandon 0).ptMade 0 (word (2 ^ 20))) = false ∧
    ptCheck 0 ((R.ptAbandon 0).ptMade 0 0) ≠ 0 ∧
    (let e : PtEntry := (0x80500000, 0, 16, 0)
     let s := R.setPt 176 e
     let t : State := { s with ptbuf := some ⟨177, [(2, some 16)]⟩ }
     writesB t 0 (ptAddr 177 0) = true ∧
      ptCheck 177 ((t.ptAbandon 177).ptMade 177 0x80500001) = 0 ∧
      (t.ptAbandon 177).ptOverlap 177 ((t.ptAbandon 177).ptMade 177 0x80500001) = true) := by decide

theorem witness_RegisterAccessesComplete :
    (∀ x ∈ [(Reg.TMG_IEN, Acc.rw), (Reg.TMG_ISTAT, .w1c), (Reg.SEQ_LEADER 0, .st), (Reg.TMG_ID, .ro)],
      writesB R 0 x.1 = true ∧ x.1 % 4 = 0 ∧ x.1 < 0x1900000 ∧ (regRow x.1).map (·.acc) = some x.2) ∧
    (¬ ownWrite Reg.TMG_ISTAT ∧ ¬ ownWrite (Reg.SEQ_LEADER 0) ∧ ¬ ownWrite Reg.TMG_ID ∧ ¬ ownWrite Reg.TMG_IEN) ∧
    (readsB R 0 Reg.TMG_ID = true ∧ ¬ ownRead Reg.TMG_ID) ∧
    ((regRow 0x1FFFFC).isNone = true ∧ ¬ ownWrite 0x1FFFFC ∧ writesB R 0 0x1FFFFC = true) ∧
    R.hostOn 0 = true ∧ R.graveHeld = false ∧ (2 : Word).toNat % 16 = 2 ∧
    writesB R 1 Reg.GLB_STG_HOLD = true ∧ R.owns 1 1 0 = false ∧ R.owns 0 1 0 = true :=
  ⟨by decide, ⟨by unfold ownWrite; decide, by unfold ownWrite; decide, by unfold ownWrite; decide, by unfold ownWrite; decide⟩,
    ⟨by decide, by unfold ownRead; decide⟩, ⟨by decide, by unfold ownWrite; decide, by decide⟩, by decide⟩

theorem witness_DeniedAccessesAreCountedAndNoted :
    R.hostOn 0 = true ∧ R.hostOn 1 = true ∧ R.graveHeld = false ∧ bit (R.rd Reg.HIF_DENY_INFO) 31 = false ∧
    bit ((put [(Reg.HIF_DENY_INFO, 2 ^ 31)] R).rd Reg.HIF_DENY_INFO) 31 = true ∧
    (R.regMayRead 1 0x1500100 = false ∧ ¬ ownRead 0x1500100) ∧
    (R.regMayWrite 1 (Reg.SEQ_LEADER 0) = false ∧ ¬ ownWrite (Reg.SEQ_LEADER 0)) := by
  simp only [ownWrite, ownRead]; decide

theorem witness_GraveHeldDiscardsHostWrites :
    (put [(Reg.FLT_STAT, 2 ^ 31)] R).graveHeld = true ∧ ¬ (Reg.TMG_ID < 0x100000 ∨ 0x1500000 ≤ Reg.TMG_ID ∧ Reg.TMG_ID < 0x1700000) := by decide

/-- Port 0 with its LNK_STAT, its unit, and other registers in the values given; module 7 is its peer. -/
def fpS (st : Nat) (u : Port) (l : List (Nat × Nat) := []) : State :=
  { put ((Reg.LNK_STAT 0, st * 2 ^ 29) :: l) R with port := [(0, u)], str := { lane := [(0, some 7)] }, mt := 2 ^ 30 }

theorem witness_PortCommandsComplete :
    (∀ s ∈ [R, fpS 0 {}, fpS 3 {}, unitIn 5 0 4 (fpS 3 {}), fpS 3 {} [(Reg.LNK_XSTAT 0, 2 ^ 31)], fpS 3 {} [(Reg.LNK_XLEN 0, 64)]],
      writesB s 0 (Reg.LNK_CMD 0) = true) ∧
    ((fpS 0 {}).peerOf 0 = some 7 ∧ R.peerOf 0 = none ∧ (fpS 3 {}).lnkState 0 = 3 ∧ (fpS 0 {}).lnkState 0 = 0 ∧
      (fpS 3 {}).unit 5 0 = 0 ∧ (unitIn 5 0 4 (fpS 3 {})).unit 5 0 = 4) ∧
    (bit ((fpS 3 {} [(Reg.LNK_XSTAT 0, 2 ^ 31)]).rd (Reg.LNK_XSTAT 0)) 31 = true ∧
      bit ((fpS 3 {}).rd (Reg.LNK_XSTAT 0)) 31 = false ∧ (((fpS 3 {}).rd (Reg.LNK_XLEN 0)).toNat) = 0 ∧
      ((fpS 3 {} [(Reg.LNK_XLEN 0, 64)]).rd (Reg.LNK_XLEN 0)).toNat % 64 = 0 ∧
      ((fpS 3 {} [(Reg.LNK_XLEN 0, 64)]).rd (Reg.LNK_XLEN 0)).toNat ≠ 0) ∧
    (7 : Word).toNat % 16 = 7 := by decide

/-- A frame of a type with its payload, of 16 bytes where none is given. -/
def frameOf (typ : Nat) (data : List Byte := List.replicate 16 0) (seq : Nat := 0) : Frame := { typ := typ, seq := seq, data := data }

/-- Frames of every type that the module takes pass their check with the fields they were sent with (R443). -/
theorem frames_read : (∀ typ ∈ [1, 5, 6], Frame.read (frameOf typ).bytes = some (frameOf typ)) ∧
    Frame.read (frameOf 2 (List.replicate 64 7)).bytes = some (frameOf 2 (List.replicate 64 7)) ∧
    (∀ typ ∈ [3, 4], Frame.read (frameOf typ []).bytes = some (frameOf typ [])) ∧
    Frame.read ((frameOf 1).bytes.set 16 1) = none := by decide +kernel

/-- A received frame's bytes, split as the operands of ITEM, WRITE, ACK and CREDIT are, are the frame again. -/
theorem frames_split : ∀ f ∈ [frameOf 1, frameOf 2 (List.replicate 64 7), frameOf 3 [], frameOf 5],
    let b := f.bytes
    let head := BitVec.ofNat 64 (getLE b 0 8)
    rxBytes head (b.drop 8) = b ∧ rxFrame head (BitVec.ofNat 64 (getLE b 8 8)) ((b.drop 16).take 64 ++ b.drop 80) = b := by
  decide +kernel

theorem witness_PortStateEventsComplete :
    (let s := fpS 1 { aligned := true } [(Reg.LNK_STAT 0, 2 ^ 29 + 15 * 2 ^ 22)]
     s.lnkState 0 = 1 ∧ s.rdF (Reg.LNK_STAT 0) 25 22 = 15 ∧ (s.fp 0).aligned = true ∧ bit (s.rd (Reg.LNK_STAT 0)) 26 = false ∧
      s.unit 5 0 ≤ 2 ∧ (s.fp 0).rowFrom + 16384 * 704 * (1 + (s.fp 0).rate) ≤ 75 * s.mt) ∧
    (frameOf 6).typ = 6 ∧
    ((fpS 1 {}).runs = true ∧ (fpS 1 {}).lnkState 0 = 1 ∧ (fpS 2 {}).lnkState 0 = 2 ∧
      ((fpS 1 {}).fp 0).mismatch = false ∧ ((fpS 1 {}).fp 0).trainFrom + 40000000 ≤ (fpS 1 {}).mt) ∧
    (let s := fpS 3 { eyeFrom := [(1, 5)] }
     s.lnkState 0 = 3 ∧ kget (fun _ => 0) (s.fp 0).eyeFrom 1 = 5 ∧ 5 + 4000000 ≤ s.mt + 1) ∧
    (let s := unitIn 5 0 1 (fpS 3 {})
     s.unit 5 0 = 1 ∧ (s.fp 0).drained = true ∧ kget (fun _ => 0) s.pwr.entryAt (unitKey 5 0) + 400000 ≤ s.mt) ∧
    bit ((fpS 3 {} [(Reg.LNK_STAT 0, 7 * 2 ^ 26)]).rd (Reg.LNK_STAT 0)) 26 = true := by decide

theorem witness_FrameEventsComplete :
    ((fpS 3 {}).lnkState 0 = 3 ∧ (fpS 3 {}).unit 5 0 ≤ 1 ∧ (fpS 3 {}).rxOn 0 = true ∧ ((fpS 3 {}).fp 0).vc0 = [] ∧
      ((fpS 3 {}).fp 0).again = [] ∧ ((fpS 3 {}).fp 0).txq = []) ∧
    ((fpS 3 { vc0 := [{}] }).fp 0).vc0 = {} :: [] ∧
    (((fpS 3 { again := [{}] }).fp 0).again = {} :: [] ∧ ((fpS 3 { again := [{}] }).fp 0).vc0 = []) ∧
    (let u := (fpS 3 { txq := [{}], grant1 := 1 }).fp 0
     u.vc0 = [] ∧ u.again = [] ∧ u.txq = {} :: [] ∧ ({} : Frame).rows ≤ creditLeft u.grant1 u.sent1 ∧ u.replayFits {} = true) ∧
    ¬ ({} : Frame).rows ≤ creditLeft ((fpS 3 { txq := [{}] }).fp 0).grant1 ((fpS 3 { txq := [{}] }).fp 0).sent1 ∧
    0 < ((fpS 3 { ackDue := 1 }).fp 0).ackDue ∧ ((fpS 3 {}).fp 0).rgrant1 ≠ ((fpS 3 {}).fp 0).told1 ∧
    (let s := fpS 3 { replay := [{ seq := 4 }] }
     (s.fp 0).replay ≠ [] ∧ (s.fp 0).ackFrom + 16000 ≤ s.mt ∧ (∃ f ∈ (s.fp 0).replay, f.seq = 4) ∧
      ∀ f ∈ (s.fp 0).replay, f.seq ≠ 5) ∧
    ((fpS 3 { lasting := true }).fp 0).lasting = true ∧
    ((fpS 3 {}).frameFails 0 [] = true ∧ (∀ typ ∈ [1, 2, 3, 4, 5], (frameOf typ).typ = typ)) := by decide

/-- The time base with MTB_CTL and MTB_STAT given; both time lanes are aligned. -/
def tbS (role en st : Nat) (m : Mtb := {}) (l : KMap Lane := []) : State :=
  { put [(Reg.MTB_CTL, role * 2 ^ 30 + en * 2 ^ 24), (Reg.MTB_STAT, st), (Reg.LNK_TL_STAT 4, 2 ^ 31), (Reg.LNK_TL_STAT 5, 2 ^ 31)] R
    with mtb := m, lane := l, mt := 2 ^ 40 }

theorem witness_TimeBaseCommandsComplete :
    (writesB R 0 Reg.MTB_CMD = true ∧ R.standby = false ∧ R.mtbState ≠ 5 ∧ (3 : Word).toNat % 4 = 3 ∧
      writesB (tbS 1 3 (2 * 2 ^ 29)) 0 Reg.MTB_CMD = true ∧ (tbS 1 3 (2 * 2 ^ 29)).standby = true ∧
      writesB (tbS 1 3 (5 * 2 ^ 29) { standbyAligned := true }) 0 Reg.MTB_CMD = true ∧
      (tbS 1 3 (5 * 2 ^ 29) { standbyAligned := true }).mtbState = 5 ∧ writesB R 0 Reg.MTB_CTL = true) ∧
    (let s := tbS 1 3 (2 ^ 29) { atStart := true }
     s.runs = true ∧ s.canLaunch 0 = true ∧ s.timeLane 0 = true ∧ s.canLaunch 1 = true ∧ s.pairRole = true ∧ s.role = 1 ∧
      s.mtbState = 1 ∧ s.mtb.atStart = true ∧ (s.tl 1).alignedAt + 40000 ≤ s.mt) ∧
    (tbS 1 1 (2 ^ 29)).laneUp 1 = false ∧
    (tbS 3 0 (2 ^ 29 + 2 ^ 28)).upLostNow = true ∧
    (let s := tbS 1 3 (4 * 2 ^ 29)
     s.mtbState = 4 ∧ s.mtb.holdFrom + 4000000 * s.rdF Reg.MTB_HOLD_MAX 15 0 < s.mt) ∧
    (let s := tbS 2 3 (4 * 2 ^ 29) {} [(1, { time := some (9, 8) })]
     s.standby = true ∧ s.mtbState ≠ 1 ∧ s.mtbState = 4 ∧ s.silentFor 1 4000 = true) ∧
    (let s := tbS 2 3 (2 ^ 29) {} [(1, { time := some (9, 8) })]
     s.standby = true ∧ s.mtb.causeNoted ≠ 1 ∧ s.laneUp 1 = true ∧ s.silentFor 1 4000 = true) ∧
    (let s := tbS 0 0 0 { deliver := [(0, 1, 7)], xtEnd := [(2, 9)] }
     s.mtb.deliver.find? (fun x => decide (x.2.2 ≤ s.mt)) = some (0, 1, 7) ∧
      kget (fun _ => 0) s.mtb.xtEnd 2 ≠ 0 ∧ kget (fun _ => 0) s.mtb.xtEnd 2 ≤ s.mt) := by decide

theorem witness_TimeBaseEventsComplete :
    (let s := tbS 1 3 (2 ^ 29)
     s.laneUp 0 = true ∧ s.laneUp 1 = true ∧ s.pairRole = true ∧ 9 ≤ 65536 * s.mt ∧
      bit (s.rd (Reg.LNK_TL_STAT 4)) 31 = true ∧ bit (R.rd (Reg.LNK_TL_STAT 4)) 31 = false ∧
      bit ((s.countF (Reg.LNK_TL_STAT 4) 15 0 1).rd (Reg.LNK_TL_STAT 4)) 31 = true ∧
      bit ((R.countF (Reg.LNK_TL_STAT 4) 15 0 1).rd (Reg.LNK_TL_STAT 4)) 31 = false) ∧
    ((∀ n ∈ [0, 1, 2], let u : Lane := { commas := (3, n) }
        u.commas.1 = (3 : Fin 10).val ∧ u.commas.1 ≠ (4 : Fin 10).val ∧ (u.commas.2 < 2 ∨ 2 ≤ u.commas.2)) ∧
      TlSymbol.other ≠ .violation ∧ (([] : List Bool).take 63).count true < 16) ∧
    (let s := tbS 1 3 (2 ^ 29) {} [(0, { reqs := [(5, 8)], time := some (3, 4) })]
     (s.tl 0).reqs.find? (fun r => r.1 % 256 == (5 : BitVec 8).toNat && decide (9 ≤ r.2 + 16000 * 65536)) = some (5, 8) ∧
      ((s.replyFlags 0 0).tl 0).time = some (3, 4)) ∧
    (let s := tbS 1 3 (2 ^ 29) {} [(0, { reqs := [(5, 8)] })]
     (s.tl 0).reqs.find? (fun r => r.1 % 256 == (5 : BitVec 8).toNat && decide (9 ≤ r.2 + 16000 * 65536)) = some (5, 8) ∧
      ((s.replyFlags 0 0).tl 0).time = none) ∧
    (let s := tbS 0 0 0 { xtLast := [(1, 5)] }
     bit (s.rd (Reg.MTB_XT_CFG 0)) 31 = false ∧ s.xtEdge 0 true = true ∧ kget (fun _ => 0) s.mtb.xtLast 0 = 0 ∧
      kget (fun _ => 0) s.mtb.xtLast 1 - 1 + 8 * 65536 ≤ 2 ^ 30) := by decide

/-! ### Signed images

The public key of each image fits a signature with s = e and r = 2e, for its digest e: with u1 = 1 and u2 = 2 the check
adds the base point to twice the key. No private key is known or needed. -/

/-- A byte list in DRAM from address 0, key slot 0 programmed with `key`, and DRAM of 1 GB that is not scrubbed. -/
def imageIn (key : Nat × Nat) (img : List Byte) : State :=
  { put [(Reg.DRC_CFG, 1), (Reg.DRC_SCRUB, 0), (Reg.STI_KEYS, 1)] R with keys := [(0, key)], dram := memWrite dramFill [] 0 img }

theorem imageIn_bytes {key : Nat × Nat} {img : List Byte} {n : Nat} (h : n ≤ img.length) (hn : n ≤ 2 ^ 30) :
    (imageIn key img).dramBytes 0 n = img.take n := by
  refine List.ext_getElem (by simp [State.dramBytes, h]) fun i h1 h2 => ?_
  have hi : i < n := by simpa [State.dramBytes] using h1
  have hs : (imageIn key img).dramSize = 2 ^ 30 :=
    (show _ = (put [(Reg.DRC_CFG, 1), (Reg.DRC_SCRUB, 0), (Reg.STI_KEYS, 1)] R).dramSize from rfl).trans (by decide)
  have hd : (imageIn key img).drc.pdown = [] := rfl
  have hg := kget_memWrite_in dramFill [] 0 img (i := i) (by omega)
  simp only [Nat.zero_add] at hg
  simp only [State.dramBytes, List.getElem_map, List.getElem_range, List.getElem_take, Nat.zero_add, State.dramByte,
    State.lineDown, hs, hd]
  rw [if_neg (by omega)]
  exact hg

theorem imageIn_fetch {key : Nat × Nat} {img : List Byte} (h64 : 64 ≤ img.length) (hn : img.length ≤ 2 ^ 30)
    (h1 : (imageIn key img).dramAsk { cls := 2, rkind := 7 } 0 0 64 = (imageIn key img, false))
    (h2 : (imageIn key img).dramAsk { cls := 2, rkind := 7 } 0 0 img.length = (imageIn key img, false))
    (h3 : imgLenOk (img.take 64) = true) (h4 : imgLen (img.take 64) = img.length) (slot : Nat) :
    (imageIn key img).stiFetch false slot 0 = (imageIn key img, some img) := by
  have ha : (imageIn key img).rdWide Reg.STI_SRC_LO 2 % 2 ^ 42 = 0 := rfl
  have hf : (imageIn key img).stiDram 0 64 = (imageIn key img, some (img.take 64)) := by
    simp only [State.stiDram, h1, imageIn_bytes h64 (by omega), Bool.false_eq_true, if_false]
  simp only [State.stiFetch, ha, hf, h3, Bool.false_eq_true, if_false, if_true, Nat.zero_ne_one,
    show ¬ 2 ≤ 0 by omega]
  simp only [State.stiDram, h4, h2, imageIn_bytes (Nat.le_refl _) hn, Bool.false_eq_true, if_false, List.take_length]

/-! CRC-32C registers after blocks of 64 zeros. -/

theorem crc64_1 : (List.replicate 64 (0 : Byte)).foldl crcByte 4294967295 = 4231468184 := by decide +kernel
theorem crc64_2 : (List.replicate 64 (0 : Byte)).foldl crcByte 4231468184 = 4158167844 := by decide +kernel
theorem crc64_3 : (List.replicate 64 (0 : Byte)).foldl crcByte 4158167844 = 2345306063 := by decide +kernel
theorem crc64_4 : (List.replicate 64 (0 : Byte)).foldl crcByte 2345306063 = 1200442991 := by decide +kernel
theorem crc64_5 : (List.replicate 64 (0 : Byte)).foldl crcByte 1200442991 = 64332339 := by decide +kernel
theorem crc64_6 : (List.replicate 64 (0 : Byte)).foldl crcByte 64332339 = 1158271177 := by decide +kernel
theorem crc64_7 : (List.replicate 64 (0 : Byte)).foldl crcByte 1158271177 = 3425213895 := by decide +kernel
theorem crc64_8 : (List.replicate 64 (0 : Byte)).foldl crcByte 3425213895 = 3473084991 := by decide +kernel

theorem crc_zero0 : crc32c (List.replicate 0 0) = 0 := rfl
theorem crc_zero16 : crc32c (List.replicate 16 0) = 1114675946 := by decide +kernel
theorem crc_zero128 : crc32c (List.replicate 128 0) = 136799451 := by
  rw [crc32c, show 128 = 64 + 64 from rfl]; simp only [crc_zeros, crc64_1, crc64_2]; rfl
theorem crc_zero256 : crc32c (List.replicate 256 0) = 3094524304 := by
  rw [crc32c, show 256 = 64 + (64 + (64 + 64)) from rfl]; simp only [crc_zeros, crc64_1, crc64_2, crc64_3, crc64_4]; rfl
theorem crc_zero512 : crc32c (List.replicate 512 0) = 821882304 := by
  rw [crc32c, show 512 = 64 + (64 + (64 + (64 + (64 + (64 + (64 + 64)))))) from rfl]
  simp only [crc_zeros, crc64_1, crc64_2, crc64_3, crc64_4, crc64_5, crc64_6, crc64_7, crc64_8]; rfl

/-- The public key of `tileImg`. -/
def tileKey : Nat × Nat :=
  (0x5135F5C360951536297CB15315B8E8D6CEEEEE6A57050E0A05CA9A545245709BEA23BD76B844DDD3670EFAB69100CACD,
   0xCA326F94456790736C1995EDDC7A510C90E275DBC63095E6951984D780F5F464A7D48F708E36C832726380227C5A1638)

/-- An image of tile 0 with no site, no owner and no carve. -/
def tileImg : List Byte :=
  [76, 82, 83, 73, 0, 1, 177, 0, 2, 0, 3, 0, 112, 4] ++ List.replicate 46 0 ++ [111, 0, 220, 142, 1, 0, 0, 0, 112, 0,
  0, 0, 128, 0, 0, 0, 219, 100, 39, 8, 2, 0, 0, 0, 240, 0, 0, 0, 0, 1, 0, 0] ++ [144, 177, 114, 184, 3, 0, 0, 0, 240,
  1, 0, 0, 0, 2, 0, 0, 192, 237, 252, 48] ++ List.replicate 896 0 ++ [76, 82, 83, 71, 0, 0, 0, 0, 143, 51, 54, 87,
  254, 138, 2, 28, 114, 13, 240, 106, 47, 71, 67, 209, 176, 19, 39, 44, 158, 102, 82, 112] ++ [116, 249, 78, 228, 225,
  114, 105, 11, 137, 61, 19, 213, 194, 119, 213, 130, 70, 96, 28, 213, 16, 46, 84, 74, 71, 153, 155, 43, 255, 69, 1,
  14] ++ [57, 6, 248, 53, 23, 163, 161, 232, 216, 9, 147, 150, 79, 51, 41, 56, 58, 124, 167, 114, 112, 185, 52, 133,
  196, 158, 137, 234, 225, 59, 234, 193] ++ [35, 48, 14, 106, 136, 23, 42, 37] ++ List.replicate 24 0

theorem tile_head : headReject tileImg 2 0 = none := by decide +kernel
theorem tile_own : headReject tileImg 0 0 = none := by decide +kernel
theorem tile_crc : crc32c (tileImg.take 0x3C) = getLE tileImg 0x3C 4 := by decide +kernel
theorem tile_dir : dirReject tileImg = none := by decide +kernel
theorem tile_sections : imgDir tileImg = [⟨64, 1, 0, 112, 128, 136799451⟩, ⟨80, 2, 0, 240, 256, 3094524304⟩, ⟨96, 3, 0, 496, 512, 821882304⟩] := by decide +kernel
theorem tile_zero : ∀ e ∈ imgDir tileImg, ZeroSec tileImg e := by rw [tile_sections]; unfold ZeroSec; decide +kernel
theorem tile_secs : crcReject tileImg = none := by
  refine crcReject_none tile_sections fun e he => ?_
  rw [tile_zero e (by rw [tile_sections]; exact he)]
  simp only [List.mem_cons, List.not_mem_nil, or_false] at he
  rcases he with rfl | rfl | rfl <;> simp only [crc_zero128, crc_zero256, crc_zero512]

/-- tileImg in DRAM. -/
def tileS : State := imageIn tileKey tileImg

theorem tile_sign : signReject (tileS.rd Reg.STI_KEYS) tileS.keyOf tileImg = none := by decide +kernel
theorem tile_gen : getLE tileImg 0x14 4 = (tileS.rd Reg.STI_GEN).toNat := by decide +kernel
theorem tile_form : ((imgDir tileImg).all (secLenOk tileImg) && (imgSec tileImg 4).isNone && (imgSec tileImg 5).isNone &&
    (imgSec tileImg 6).isNone && (imgSec tileImg 8).all fun e => e.len == 0) = true := by decide +kernel
theorem tile_owners : ownerFails tileImg {} = [] := by decide +kernel
theorem tile_carves : carveFails tileImg {} = [] := by decide +kernel
theorem tile_routes : acqrFails tileImg {} = [] ∧ routeFails tileImg {} = [] := by decide +kernel

theorem tile_str : tileS.imgStr tileImg = {} := by
  have h := tile_form
  simp only [Bool.and_eq_true, Option.isNone_iff_eq_none] at h
  exact imgStr_empty rfl h.1.1.1.2 h.1.1.2 h.1.2 tile_zero

theorem tile_content : firstRej (tileS.contentFails tileImg) = none := by
  have h := tile_form
  simp only [Bool.and_eq_true, Option.isNone_iff_eq_none, Option.all_eq_true, beq_iff_eq] at h
  rw [contentFails_empty tile_str rfl h.1.2 tile_zero h.1.1.1.1 h.2 tile_owners tile_carves tile_routes.1 tile_routes.2]
  rfl

theorem tile_scope : imgKind tileImg = 2 → firstRej (tileS.scopeFails tileImg) = none := fun _ => by
  have h := tile_form
  simp only [Bool.and_eq_true, Option.isNone_iff_eq_none] at h
  rw [scopeFails_empty tile_str rfl h.1.2 h.1.1.1.1]
  rfl
theorem tile_ask : tileS.dramAsk { cls := 2, rkind := 7 } 0 0 1136 = (tileS, false) := by decide +kernel
theorem tile_ask64 : tileS.dramAsk { cls := 2, rkind := 7 } 0 0 64 = (tileS, false) := by decide +kernel

theorem tile_len : tileImg.length = 1136 := by decide +kernel
theorem tile_fetch (slot : Nat) : tileS.stiFetch false slot 0 = (tileS, some tileImg) :=
  imageIn_fetch (by rw [tile_len]; omega) (by rw [tile_len]; omega) tile_ask64 (by rw [tile_len]; exact tile_ask)
    (by decide +kernel) (by rw [tile_len]; decide +kernel) slot
theorem tile_accepted : tileS.imgReject tileImg 2 0 false = none :=
  imgReject_none tile_head tile_crc tile_dir tile_secs tile_sign tile_gen tile_content tile_scope
theorem tile_checked : tileS.imgReject tileImg 0 0 false = none :=
  imgReject_none tile_own tile_crc tile_dir tile_secs tile_sign tile_gen tile_content tile_scope

/-- The public key of `wholeImg`. -/
def wholeKey : Nat × Nat :=
  (0xA0AB4F66426F40B650AB0902B4927E9C8ECF6A36554FE0AA1CF13B8A2D680291A978A0BD165FBA733EC72E928691F5CB,
   0x252BFA6FED1F6116FC46347FC76C268DA647FAF4D4185F547A145846BD9D70CD81FFF553F2547D0967B18435DC6F5549)

/-- A whole image with no site, no owner, no carve, no peer and no protection entry. -/
def wholeImg : List Byte :=
  [76, 82, 83, 73, 1, 1, 177, 0, 1, 255, 5, 0, 32, 6] ++ List.replicate 46 0 ++ [87, 131, 248, 180, 1, 0, 0, 0, 144,
  0, 0, 0, 0, 2, 0, 0, 192, 237, 252, 48, 2, 0, 0, 0, 144, 2, 0, 0, 0, 1, 0, 0] ++ [144, 177, 114, 184, 3, 0, 0, 0,
  144, 3, 0, 0, 0, 2, 0, 0, 192, 237, 252, 48, 7, 0, 0, 0, 144, 5, 0, 0, 16, 0, 0, 0] ++ [234, 154, 112, 66, 8, 0, 0,
  0, 160, 5] ++ List.replicate 1306 0 ++ [76, 82, 83, 71, 0, 0, 0, 0, 55, 222, 110, 141, 70, 52, 98, 251, 7, 108, 175,
  32, 47, 162, 139, 160, 238, 56, 49, 171, 255, 243, 79, 162] ++ [148, 138, 235, 151, 168, 53, 112, 53, 48, 6, 118,
  216, 5, 189, 99, 10, 107, 128, 218, 210, 235, 132, 210, 82, 27, 239, 55, 70, 163, 26, 49, 125] ++ [131, 182, 87,
  144, 23, 209, 69, 208, 119, 28, 24, 213, 255, 249, 167, 209, 74, 69, 117, 203, 212, 26, 184, 26, 152, 3, 59, 108, 2,
  222, 177, 133] ++ [53, 192, 109, 105, 117, 194, 105, 41] ++ List.replicate 24 0

theorem whole_head : headReject wholeImg 1 0 = none := by decide +kernel
theorem whole_own : headReject wholeImg 0 0 = none := by decide +kernel
theorem whole_crc : crc32c (wholeImg.take 0x3C) = getLE wholeImg 0x3C 4 := by decide +kernel
theorem whole_dir : dirReject wholeImg = none := by decide +kernel
theorem whole_sections : imgDir wholeImg = [⟨64, 1, 0, 144, 512, 821882304⟩, ⟨80, 2, 0, 656, 256, 3094524304⟩, ⟨96, 3, 0, 912, 512, 821882304⟩, ⟨112, 7, 0, 1424, 16, 1114675946⟩, ⟨128, 8, 0, 1440, 0, 0⟩] := by decide +kernel
theorem whole_zero : ∀ e ∈ imgDir wholeImg, ZeroSec wholeImg e := by rw [whole_sections]; unfold ZeroSec; decide +kernel
theorem whole_secs : crcReject wholeImg = none := by
  refine crcReject_none whole_sections fun e he => ?_
  rw [whole_zero e (by rw [whole_sections]; exact he)]
  simp only [List.mem_cons, List.not_mem_nil, or_false] at he
  rcases he with rfl | rfl | rfl | rfl | rfl <;> simp only [crc_zero0, crc_zero16, crc_zero256, crc_zero512]

/-- wholeImg in DRAM. -/
def wholeS : State := imageIn wholeKey wholeImg

theorem whole_sign : signReject (wholeS.rd Reg.STI_KEYS) wholeS.keyOf wholeImg = none := by decide +kernel
theorem whole_gen : getLE wholeImg 0x14 4 = (wholeS.rd Reg.STI_GEN).toNat := by decide +kernel
theorem whole_form : ((imgDir wholeImg).all (secLenOk wholeImg) && (imgSec wholeImg 4).isNone && (imgSec wholeImg 5).isNone &&
    (imgSec wholeImg 6).isNone && (imgSec wholeImg 8).all fun e => e.len == 0) = true := by decide +kernel
theorem whole_owners : ownerFails wholeImg {} = [] := by decide +kernel
theorem whole_carves : carveFails wholeImg {} = [] := by decide +kernel
theorem whole_routes : acqrFails wholeImg {} = [] ∧ routeFails wholeImg {} = [] := by decide +kernel

theorem whole_str : wholeS.imgStr wholeImg = {} := by
  have h := whole_form
  simp only [Bool.and_eq_true, Option.isNone_iff_eq_none] at h
  exact imgStr_empty rfl h.1.1.1.2 h.1.1.2 h.1.2 whole_zero

theorem whole_content : firstRej (wholeS.contentFails wholeImg) = none := by
  have h := whole_form
  simp only [Bool.and_eq_true, Option.isNone_iff_eq_none, Option.all_eq_true, beq_iff_eq] at h
  rw [contentFails_empty whole_str rfl h.1.2 whole_zero h.1.1.1.1 h.2 whole_owners whole_carves whole_routes.1 whole_routes.2]
  rfl

theorem whole_scope : imgKind wholeImg = 2 → firstRej (wholeS.scopeFails wholeImg) = none := fun _ => by
  have h := whole_form
  simp only [Bool.and_eq_true, Option.isNone_iff_eq_none] at h
  rw [scopeFails_empty whole_str rfl h.1.2 h.1.1.1.1]
  rfl
theorem whole_ask : wholeS.dramAsk { cls := 2, rkind := 7 } 0 0 1568 = (wholeS, false) := by decide +kernel
theorem whole_ask64 : wholeS.dramAsk { cls := 2, rkind := 7 } 0 0 64 = (wholeS, false) := by decide +kernel

theorem whole_len : wholeImg.length = 1568 := by decide +kernel
theorem whole_fetch (slot : Nat) : wholeS.stiFetch false slot 0 = (wholeS, some wholeImg) :=
  imageIn_fetch (by rw [whole_len]; omega) (by rw [whole_len]; omega) whole_ask64 (by rw [whole_len]; exact whole_ask)
    (by decide +kernel) (by rw [whole_len]; decide +kernel) slot
theorem whole_accepted : wholeS.imgReject wholeImg 1 0 false = none :=
  imgReject_none whole_head whole_crc whole_dir whole_secs whole_sign whole_gen whole_content whole_scope
theorem whole_checked : wholeS.imgReject wholeImg 0 0 false = none :=
  imgReject_none whole_own whole_crc whole_dir whole_secs whole_sign whole_gen whole_content whole_scope

/-- The public key of `fwImg`. -/
def fwKey : Nat × Nat :=
  (0xB3D5FDCF74DCB7F505DF8DBDD9900FC694E1D4424A69D9ADF824B3EDC6923BBCC6BA607C83B97360A0C5FA00F85333A9,
   0x58C9A8AE2D9AFE9EB6DA4C64095EA4D437CF8D28875F418DDCA66EF3F9AA4273EF1D35653B83376536A56FB4624B7D22)

/-- A firmware image of 192 bytes, version 0. -/
def fwImg : List Byte :=
  [76, 82, 70, 87, 0, 1, 177, 0, 0, 0, 0, 0, 192] ++ List.replicate 47 0 ++ [223, 18, 32, 244, 76, 82, 83, 71, 0, 0,
  0, 0, 92, 130, 237, 105, 176, 180, 5, 213, 243, 216, 201, 193, 207, 7, 96, 49, 132, 52, 185, 134] ++ [233, 110, 253,
  39, 61, 51, 194, 84, 136, 82, 234, 134, 65, 153, 218, 76, 227, 129, 230, 207, 197, 148, 170, 144, 198, 31, 51, 100,
  46, 65, 118, 180] ++ [216, 90, 2, 234, 249, 236, 100, 224, 231, 131, 176, 24, 194, 26, 92, 195, 116, 183, 126, 147,
  158, 153, 225, 42, 68, 41, 117, 67, 32, 204, 237, 38] ++ [113, 192, 243, 103, 226, 202, 85, 72, 99, 15, 153, 178] ++
  List.replicate 24 0

/-- The firmware image in slot B with its trailer, key slot 0 programmed. -/
def fwS : State :=
  { put [(Reg.STI_KEYS, 1), (Reg.SUP_LEN, 192)] R with
    keys := [(0, fwKey)], nor := memWrite norFill (memWrite norFill [] (norFw 1) fwImg) (fwTrailer 1) (leBytes 4 192 ++ leBytes 4 3488520310) }

theorem fw_accepted : fwReject (fwS.rd Reg.STI_KEYS) fwS.keyOf fwImg (fwS.rdF Reg.SUP_LEN 22 0) = 0 := by decide +kernel
theorem fw_fetch : fwS.fwFetch false { data := fwImg } = (fwS, some fwImg) := by decide +kernel
theorem fw_slot : fwS.fwSlotOk 1 = true := by decide +kernel

theorem witness_ImageCommandsRun :
    (writesB wholeS 0 Reg.STI_CMD = true ∧ wholeS.sti = none ∧ fld (0x11 : Word) 3 0 = 1 ∧ fld (0x11 : Word) 9 8 = 0 ∧
      bit (0x11 : Word) 11 = false ∧ wholeS.modHeld = false ∧ wholeS.injArmed blkSTI 3 = false) ∧
    (wholeS.stiFetch false 0 0 = (wholeS, some wholeImg) ∧ wholeS.imgReject wholeImg 1 0 false = none) ∧
    (writesB tileS 0 Reg.STI_CMD = true ∧ tileS.sti = none ∧ fld (2 : Word) 3 0 = 2 ∧ fld (3 : Word) 3 0 = 3 ∧
      fld (4 : Word) 3 0 = 4 ∧ tileS.modHeld = false ∧ tileS.supSwitch = false ∧ tileS.pfw = false ∧
      tileS.injArmed blkSTI 3 = false) ∧
    (tileS.stiFetch false 0 0 = (tileS, some tileImg) ∧ tileS.imgReject tileImg 2 0 false = none ∧
      tileS.imgReject tileImg 0 0 false = none) ∧
    (let s := put [(Reg.STI_KEYS, 3)] R
     writesB s 0 Reg.STI_CMD = true ∧ s.sti = none ∧ s.modHeld = false ∧ s.pfw = false ∧ fld (6 : Word) 3 0 = 6 ∧
      fld (6 : Word) 14 12 < 4 ∧ bit (s.rd Reg.STI_KEYS) 0 = true ∧ bit (s.rd Reg.STI_KEYS) 4 = false ∧
      bit (s.rd Reg.STI_KEYS) 1 = true ∧ bit (s.rd Reg.STI_KEYS) 5 = false) ∧
    (fld (0x4006 : Word) 3 0 = 6 ∧ 4 ≤ fld (0x4006 : Word) 14 12 ∧ fld (5 : Word) 3 0 = 5 ∧ 7 ≤ fld (7 : Word) 3 0 ∧
      writesB R 0 Reg.STI_BOOT = true ∧ R.pfw = false) ∧
    (writesB fwS 0 Reg.SUP_CMD = true ∧ fwS.sup.op = 0 ∧ bit (fwS.rd Reg.SUP_FW) 31 = false ∧ fld (1 : Word) 3 0 = 1 ∧
      fwS.pfw = false ∧ fwS.safeMode = false ∧ fwS.rdF Reg.SUP_FW 0 0 = 0) ∧
    (fwS.fwFetch false { data := fwImg } = (fwS, some fwImg) ∧
      fwReject (fwS.rd Reg.STI_KEYS) fwS.keyOf fwImg (fwS.rdF Reg.SUP_LEN 22 0) = 0 ∧ fwS.fwSlotOk (1 - 0) = true) :=
  ⟨by decide +kernel, ⟨whole_fetch 0, whole_accepted⟩, by decide +kernel, ⟨tile_fetch 0, tile_accepted, tile_checked⟩,
    by decide, by decide, by decide +kernel, ⟨fw_fetch, fw_accepted, fw_slot⟩⟩

theorem witness_StructureCommandsComplete :
    (writesB R 0 Reg.STI_CMD = true ∧ R.sti = none ∧ R.modHeld = false ∧ R.supSwitch = false ∧ R.pfw = false ∧
      (6 : Word).toNat % 16 = 6 ∧ R.revokeBar 0 ≠ 0) ∧
    (∃ b r, (R.stiFetch true 0 0).2 = some b ∧ headReject b 0 0 = some r ∧ R.imgReject b 0 0 false = some r) ∧
    (R.stiFetch true 0 2).2 = none ∧
    ((wholeS.stiFetch false 0 0).2 = some wholeImg ∧ (headReject wholeImg 1 0).isSome = false ∧
      (wholeS.injTake blkSTI 3).2 = false ∧ wholeS.imgReject wholeImg 1 0 false = none) ∧
    (let s := put [(Reg.STI_KEYS, 3)] R
     writesB s 0 Reg.STI_CMD = true ∧ s.sti = none ∧ s.revokeBar 0 = 0) ∧
    (let s : State := { R with sti := some {} }
     writesB s 0 Reg.STI_CMD = true ∧ s.sti ≠ none) ∧
    (let s := put [(Reg.FLT_STAT, 2 ^ 30)] R
     writesB s 0 Reg.STI_CMD = true ∧ s.sti = none ∧ s.modHeld = true) ∧
    (let s : State := { R with sup := { op := 2 } }
     writesB s 0 Reg.STI_CMD = true ∧ s.supSwitch = true) ∧
    (let s := put [(Reg.PWR_STAT, 2 ^ 25)] R
     writesB s 0 Reg.STI_CMD = true ∧ s.pfw = true ∧ s.supSwitch = false ∧ writesB s 0 Reg.STI_BOOT = true) ∧
    writesB R 0 Reg.STI_BOOT = true :=
  ⟨by decide, ⟨List.replicate 64 0xFF, ⟨1, 0, 0⟩, by rfl, by decide, by rfl⟩, rfl,
    ⟨by rw [whole_fetch], by rw [show headReject wholeImg 1 0 = none from whole_head]; rfl, by decide +kernel, whole_accepted⟩,
    by decide, by decide, by decide, by decide, by decide, by decide⟩

theorem witness_StructureLoadCompletes :
    (∀ p ∈ [0, 1, 2, 3], ({ R with sti := some { op := 2, phase := p } } : State).stiAt p = some { op := 2, phase := p }) ∧
    (let o : StiOp := { op := 2, phase := 1 }
     let s : State := { R with sti := some o, mt := 2 ^ 30 }
     s.drained o = true ∧ s.csMoved o = [] ∧ o.stopAt + s.drainLimit ≤ s.mt) := by decide
/-! ### Ill-formed commands, one for each check -/

theorem test_illFormedHostCommands : ∀ i ∈ [
    Instr.wideLowWordRead 0 2, .stiLoadWhole 0 2 0, .stiLoadTile 0 1 0, .stiCheck 0 1 0, .stiStore 0 1 0, .revoke 0 1,
    .revoke 0 0x4006, .stiBadCmd 0 1, .stiBadCmd 0 6, .seqCmdInvalid 0 0 1, .seqCmdInvalid 0 0 2, .tmgCmdInvalid 0 1,
    .tmuCmdInvalid 0 0 1, .acqCmdInvalid 0 0 4, .pelCmdInvalid 0 0 1, .calCmdInvalid 0 1, .aneCmdInvalid 0 3,
    .drcCmdInvalid 0 3, .dmaCmdInvalid 0 0 4, .lnkCmdInvalid 0 0 6, .fltCmdInvalid 0 4, .pwrCmdInvalid 0 5,
    .supCmdInvalid 0 4, .railsOff 0 2, .railsOn 0 1, .fwStore 0 2 {}, .fwStore 0 1 { fails := 3 }],
    WellFormed i = false := by decide

theorem test_illFormedAccesses : ∀ i ∈ [
    Instr.bar2Access 0 0 ⟨.read 0, false⟩, .bar2Access 0 0xFFFFFFFFF ⟨.read 2, false⟩,
    .bar2Access 0 0xFFFFFFFFF ⟨.write [none, none], false⟩,
    .bar4Access 0 2 none, .flrVf 0], WellFormed i = false := by decide

/-- The bytes of a frame of a type with `n` bytes of payload, but for its CRC. -/
def sent (typ n : Nat) : List Byte :=
  leBytes 1 typ ++ leBytes 1 0 ++ leBytes 2 n ++ List.replicate ((n + 51) / 32 * 32 - 4) 0

/-- The first eight of a list of bytes as one number. -/
def head8 (b : List Byte) : BitVec 64 := BitVec.ofNat 64 (getLE b 0 8)

/-- ITEM and WRITE at port 0 with the bytes of a received frame. -/
def rxItem (b : List Byte) : Instr := .item 0 (head8 b) (head8 (b.drop 8)) (b.drop 16)
def rxWrite (b : List Byte) : Instr := .write 0 (head8 b) (head8 (b.drop 8)) ((b.drop 16).take 64) (b.drop 80)

set_option maxRecDepth 4000 in
theorem test_illFormedEvents : ∀ i ∈ [
    Instr.vectorFormat 0 (List.replicate 129 0), .tdcHit 0 0 0 15, .tdcBinTableBuild 0 0 [], .acqConversion 0 0x20000 false,
    .acqAnalogHit 0 0 0 15, .pelReflDone 0 [], .calPhaseEnd { bytes := [0] }, .dmaDescFetch 0 { fails := 3 },
    .dmaPiece 0 { fails := 3 }, .pcieLinkUp 2 ⟨1, 0⟩, .pcieLinkUp 3 ⟨3, 0⟩, .item 0 0 0 [], rxItem (sent 1 80), rxItem (sent 1 20),
    rxItem ((sent 1 16).drop 1), rxWrite (sent 2 0), rxWrite (sent 2 96), .ack 0 (head8 (sent 3 16)) ((sent 3 16).drop 8),
    .nak 0 (sent 4 16), .credit 0 (head8 (sent 5 0)) ((sent 5 0).drop 8), .hello 0 (sent 6 0),
    .align 0 [],
    .faultReport (.checker 0 4 0 0 0 0 0 .lasting), .faultReport (.checker 0x10000 0 0 0 0 0 0 .transient), .pwrIdleEntry 4 0,
    .pwrEntryAp2 0 0, .pwrEntryAp3 0 0, .pwrWake 0 0 1, .pwrWake 1 0 0, .pwrWakeDone 0 0, .startStepDone { dimms := [[{ grade := 3 }]] }],
    WellFormed i = false := by decide

theorem test_wellFormed : ∀ i ∈ [Instr.registerWrite 0 0x400000 ⟨1, false⟩, .stiLoadWhole 0 0x801 0, .revoke 0 0x3006, .seqCmdInvalid 0 0 3,
    .bar2Access 15 0 ⟨.write [some 1], false⟩, rxItem (sent 1 16), rxWrite (sent 2 64),
    .ack 0 (head8 (sent 3 0)) ((sent 3 0).drop 8),
    .align 0 [⟨0, 0, 0⟩, ⟨1, 0, 0⟩, ⟨2, 0, 0⟩, ⟨3, 0, 0⟩], .pwrWake 1 127 1], WellFormed i = true := by decide

/-- The opcode table gives no row any bits. -/
theorem test_noWordSpellsACommand : ∀ nbits ∈ [0, 8, 32], decodeTableWord nbits 1 = none := by decide

/-! ### Worked examples of the spec -/

/-- The register at offset 0x40 of CHN[37] stands at 0x0062_5040 (00_scope.md), and TMG[9]_PER3 at 0x0040_9118 and
0x0040_911C (06_edge_timing.md). -/
theorem test_registerAddresses : Reg.CHN_FMT_CTL 37 + 0x40 = 0x625040 ∧ Reg.TMG_PER_LO 9 3 = 0x409118 ∧
    Reg.TMG_PER_HI 9 3 = 0x40911C := by decide

/-- The JCC and LOOP of the nested march test (03_sequencer.md). -/
theorem test_marchWords : sInstr 0x0C80001000000000 = ⟨3, 2, 0x10, 0⟩ ∧ sInstr 0x1800000100000040 = ⟨6, 0, 1, 64⟩ ∧
    opDefined (sInstr 0x4400000300000000).op = true ∧ badOperand (sInstr 0x0C80001000000000) = false := by decide

/-- SQ7's record: CH41 (k = 6) has code 5 and every other channel code 1 (04_vector_segments.md). -/
theorem test_vectorRecord : (List.range 10).map (codeAt (leBytes 4 0x15111111 ++ leBytes 4 0x11)) = [1, 1, 1, 1, 1, 1, 5, 1, 1, 1] := by
  decide

/-- DQ5's entry for set 2 and code 2, and its slots (05_waveforms.md). -/
theorem test_waveformEntry :
    let e : List Byte := leBytes 4 0xA00 ++ leBytes 4 0x1E0020 ++ leBytes 4 0x1000 ++ leBytes 28 0
    wftAddr 70 2 2 = 0x255E550 ∧ entryError e false = 0 ∧
      (slotsOf e).map (fun x => (x.typ, x.ofs)) = [(2, 0xA00), (1, 0x1E00), (0, 0), (0, 0), (0, 0), (0, 0), (0, 0), (0, 0)] := by
  decide

/-- The serial templates of CH96 and CH97, and DQ's read preamble with its window (05_waveforms.md). -/
theorem test_otherEntries :
    entryError (leBytes 4 0 ++ leBytes 4 0x20 ++ leBytes 32 0) true = 0 ∧
    entryError (leBytes 4 0 ++ leBytes 4 0x314000 ++ leBytes 4 0x6000 ++ leBytes 28 0) true = 0 ∧
    entryError (leBytes 5 0x4000000000 ++ leBytes 5 0x8000000200 ++ leBytes 5 0x5000000800 ++ leBytes 5 0x9000001300 ++ leBytes 20 0)
      false = 0 := by decide

/-- Vector 3 of SQ9's run: the four drives in 1/1024 tick, and their launches (06_edge_timing.md). -/
theorem test_eventTimes : (List.range 4).map (evTime 655359 0 218453) = [10240, 11093, 11947, 12800] ∧
    evTime (4 * 218453) 0 218453 0 = 13653 ∧
    (let s : State := { R with chn := [(10, { path := 1180, drvRes := -37 })], str := { siteOf := [(10, some 0)] } }
     s.launchAt 10 11093 = 9876 ∧ [(s.launchOf 10 1 11093).coarse, (s.launchOf 10 1 11093).tap, (s.launchOf 10 1 11093).vern] =
      [9, 82, 4]) := by decide

/-- Where a = 0x0_4123_4540 lies with 32 Gb dies (14_dram.md). -/
theorem test_addressMap : linesOf 0x41234540 64 = [0x1048D15] ∧ dramPlace 3 0x1048D15 = ⟨5, 0, 1, 2, 1120, 260, 0⟩ := by decide

/-- Lasting faults (19_faults.md, R487): sequence store SITE, waveform tables SITE, capture memory NOTE, graph state MOD,
protection table GRAVE, register parity MOD. -/
theorem test_lastingClasses : [(0x203, 0), (0x428, 0), (0x600, 0), (0xA00, 0), (0xD00, 0), (0x428, 1)].map
    (fun x => lastingClass x.1 x.2) = [2, 2, 0, 3, 4, 3] ∧ R.faultSite 0x203 0 = some 3 := by decide

/-- τ of CH10's path is 1,180 (11_pin_electronics.md). -/
theorem test_reflectometry : reflTau 256 (256 * 160640) 9600 = 1180 := by decide

/-- A MATCH of 64-vector repeats ends 6 repeats after the last one that counts (03_sequencer.md). -/
theorem test_matchLag : matchLag 64 = 6 := by decide

/-- SQ8's three buffers (08_contact_sheet.md). -/
theorem test_sheetBuffers :
    (List.range 3).map (({ R with str := { carve := [(8, { csBase := 256, csSize := 4 })] } } : State).bufOfs 8) =
      [0x2C40000, 0x2C41000, 0x2C42000] := by decide

set_option maxRecDepth 4000 in
/-- The CRC-32C of "123456789", the function's published check value. -/
theorem test_crc : crc32c [0x31, 0x32, 0x33, 0x34, 0x35, 0x36, 0x37, 0x38, 0x39] = 0xE3069283 := by decide

/-- The pair that P3 needs is staged, and a pair of 2.5 ns less a unit is not (06_edge_timing.md). -/
theorem test_periodPair :
    (doTmgPerHiWrite 0 9 3 0 (put [(Reg.TMG_PER_LO 9 3, 0x35555)] R)).perStg = [(147, some (0x35555, 0))] ∧
    (doTmgPerHiWrite 0 9 3 0 (put [(Reg.TMG_PER_LO 9 3, 163839)] R)).perStg = [] := by decide

/-- Three faults in one round, 906 before them (19_faults.md). -/
def threeFaults : State :=
  { put [(Reg.SEQ_STAT 3, 2), (Reg.FLT_CTL, 2)] R with
    mt := 16, fltNum := 906
    round := [{ src := 0xC05, chk := 3, code := 0x15, retried := true },
      { src := 0x203, cls := 2, chk := 7, code := 0x0D, seqNamed := some 3 },
      { src := 0x428, cls := 3, chk := 1, addr := 0x628000, rkind := 1, access := 0, rid := 1, retried := true }] }

set_option maxRecDepth 4000 in
theorem test_faultRound :
    let l := threeFaults.ordered threeFaults.round
    (List.range 4).map (fun i => (threeFaults.recordAll l l.zipIdx).rd (Reg.FLT_FIRST (4 + i))) =
    [0x04286900, 0x10000001, 0x05001004, 907] := by decide

/-- The idle pair K28.5 D16.2 at negative running disparity, as the 8b/10b code of R457 has it, leaves it negative. -/
theorem test_idlePair :
    codeGroups false [(true, symK 5), (false, 80)] = (false, [0b0011111010, 0b1001000101]) := by decide

end Sys2Proof.Tests
end

section
/-! SUPPORT. Writing one register, or a field of one, as a change of that register alone (O10). -/

namespace Sys2Proof.Machine

open Sys2Proof

/-- Setting a register changes that register only. -/
theorem RegsOnly.wr_self (s : State) (a : Nat) (v : Word) : RegsOnly [a] s (s.wr a v) :=
  (RegsOnly.refl [a] s).wr a v (List.mem_singleton_self a)

/-- A field that was set in a register reads back what it was set to, cut to its width. -/
theorem State.rdF_wrF_same (s : State) (a : Nat) {hi lo : Nat} (x : Nat) (hl : lo ≤ hi) (h : hi < 32) :
    (s.wrF a hi lo x).rdF a hi lo = x % 2 ^ (hi + 1 - lo) := by
  rw [State.rdF_eq, State.wrF_eq, State.rd_wr_same, fld_setFld_same _ _ _ _ h hl]

/-- A field of a register apart from the one set reads as before. -/
theorem State.rdF_wrF_apart (s : State) (a : Nat) {hi lo : Nat} (x : Nat) {hi2 lo2 : Nat} (hl : lo ≤ hi) (h : hi < 32)
    (hd : hi2 < lo ∨ hi < lo2) : (s.wrF a hi lo x).rdF a hi2 lo2 = s.rdF a hi2 lo2 := by
  rw [State.rdF_eq, State.wrF_eq, State.rd_wr_same, fld_setFld_other _ _ _ _ _ _ h hl hd, ← State.rdF_eq]

/-- Settles O10: the register written reads back, by the read-after-write law of the register map, and a field by
its bits. -/
theorem registerUpdateFrame : Obligations.RegisterUpdateFrame := by
  intro s a v hi lo x
  exact ⟨s.rd_wr_same a v, .wr_self s a v, .wr_self s a _, s.rdF_wrF_same a x,
    fun _ _ hl h hd => s.rdF_wrF_apart a x hl h hd⟩

end Sys2Proof.Machine
end

section
/-! SUPPORT. What the host's accesses of BAR2 and BAR4 come to once they reach the module (R423, R424, R434). -/

namespace Sys2Proof.Machine

open Sys2Proof

section arms
variable (d : Fin 16) (s : State)

theorem exec_bar2Access_read (off : BitVec 36) (n : Nat) :
    exec (.bar2Access d off ⟨.read n, false⟩) s = .next (s.bar2Read d off.toNat n) := rfl

theorem exec_bar2Access_write (off : BitVec 36) (bs : List (Option Byte)) :
    exec (.bar2Access d off ⟨.write bs, false⟩) s = .next (s.bar2Write d off.toNat bs) := rfl

theorem exec_bar2Access_poisoned (off : BitVec 36) (bs : List (Option Byte)) :
    exec (.bar2Access d off ⟨.write bs, true⟩) s = .next (s.poisoned d off.toNat) := rfl

theorem exec_bar4Access_read (off : BitVec 26) :
    exec (.bar4Access d off none) s = .next (s.bar4Get d off.toNat) := rfl

theorem exec_bar4Access_write (off : BitVec 26) (v : Word) :
    exec (.bar4Access d off (some ⟨v, false⟩)) s = .next (s.bar4Put d off.toNat v) := rfl

theorem exec_bar4Access_poisoned (off : BitVec 26) (v : Word) :
    exec (.bar4Access d off (some ⟨v, true⟩)) s = .next (s.poisoned d off.toNat) := rfl

end arms

/-! ### What the checks look at -/

/-- The domain may read, or write, every byte of a stretch of DRAM. -/
theorem State.spanMay_iff (s : State) (dom : Nat) (wr : Bool) (a n : Nat) :
    ((List.range n).all fun i => s.byteMay dom wr (a + i)) = true ↔ ∀ i < n, s.byteMay dom wr (a + i) = true := by
  simp only [List.all_eq_true, List.mem_range]

/-- The domain may write every byte of the runs of a BAR2 write. -/
theorem State.runsMay_iff (s : State) (dom : Nat) (runs : List (Nat × List Byte)) :
    (runs.all fun r => (List.range r.2.length).all fun i => s.byteMay dom true (r.1 + i)) = true ↔
      ∀ r ∈ runs, ∀ i < r.2.length, s.byteMay dom true (r.1 + i) = true := by
  simp only [List.all_eq_true, s.spanMay_iff]

/-- BAR4 holds an aligned word at the offset. -/
abbrev Bar4There (o : Nat) : Prop := o % 4 = 0 ∧ bar4Reserved o = false

/-- The power unit that a BAR4 offset rests on, if any, is awake and is not about to sleep. -/
abbrev State.Bar4Awake (s : State) (o : Nat) : Prop :=
  ∀ u, bar4Unit o = some u → s.reach (some u) (bit (s.rd Reg.HIF_WOA) (bar4Block o / 256)) = .awake s

/-- The offsets of BAR4 whose access R4 does not allow are those where it holds no aligned word. -/
theorem bar4There_not {o : Nat} : ¬ Bar4There o ↔ o % 4 ≠ 0 ∨ bar4Reserved o = true := by
  rw [not_and_or, Bool.not_eq_false]

theorem Bar4There.allowed {o : Nat} (h : Bar4There o) : ¬ (o % 4 ≠ 0 ∨ bar4Reserved o = true) :=
  fun hno => bar4There_not.2 hno h

/-- A BAR4 offset that rests on no sleeping unit is reached in the state as it is. -/
theorem State.reach_bar4 {s : State} {o : Nat} (h : s.Bar4Awake o) :
    s.reach (bar4Unit o) (bit (s.rd Reg.HIF_WOA) (bar4Block o / 256)) = .awake s := by
  cases hu : bar4Unit o with
  | none => rfl
  | some u => exact h u hu

/-- The word a BAR4 read answers: the scheduler's own state gives a free value (log entry 105). -/
theorem State.bar4Word_eq (s : State) (o : Nat) :
    (s.bar4Word o).1.answer [(s.bar4Word o).2] =
      if 0x2680000 ≤ o ∧ o < 0x2B00000 then s.drawn.answer [word s.freeNow] else s.answer [s.sramW o] := by
  simp only [State.bar4Word, bar4Open, Bool.and_eq_true, decide_eq_true_eq]
  split <;> rfl

section served
variable {s : State} {dom o : Nat} (hon : s.hostOn dom = true) (hg : s.graveHeld = false)
include hon hg

/-! ### BAR2 -/

/-- A BAR2 read of bytes that the domain may read is served by the DRAM, or waits for it. -/
theorem State.bar2Read_may {n : Nat} (hs : s.safeMode = false)
    (hmay : ∀ i < n, s.byteMay dom false (s.bar2Addr dom o + i) = true) :
    s.bar2Read dom o n =
      if s.dramHeld (s.bar2Addr dom o) n then s.dramWaits (.read (bar2Req dom false) dom (s.bar2Addr dom o) n)
      else s.dramAnswer (bar2Req dom false) dom (s.bar2Addr dom o) n := by
  simp only [State.bar2Read, hon, hg, hs, (s.spanMay_iff dom false _ n).2 hmay, Bool.not_true, Bool.or_self,
    Bool.false_eq_true, if_false]

/-- A BAR2 read with a byte that the domain may not read is denied and answers ones. -/
theorem State.bar2Read_denied {n : Nat} (hmay : ¬ ∀ i < n, s.byteMay dom false (s.bar2Addr dom o + i) = true) :
    s.bar2Read dom o n = (s.deny 1 dom 0 false o).answer (fillWords n 0xFFFFFFFF) := by
  have hall := Bool.eq_false_iff.2 fun h => hmay ((s.spanMay_iff dom false _ n).1 h)
  simp only [State.bar2Read, hon, hg, hall, Bool.not_true, Bool.not_false, Bool.or_self,
    Bool.false_eq_true, if_false, if_true]

/-- A BAR2 write of bytes that the domain may write keeps the old bytes of active entries and puts its runs. -/
theorem State.bar2Write_may {bs : List (Option Byte)} (hs : s.safeMode = false)
    (hmay : ∀ r ∈ enabledRuns (s.bar2Addr dom o) bs, ∀ i < r.2.length, s.byteMay dom true (r.1 + i) = true) :
    s.bar2Write dom o bs =
      if enabledRuns (s.bar2Addr dom o) bs = [] then s
      else (s.keepOld (s.bar2Addr dom o) bs.length).dramPutRuns (bar2Req dom true) dom
        (enabledRuns (s.bar2Addr dom o) bs) := by
  simp only [State.bar2Write, hon, hg, hs, (s.runsMay_iff dom _).2 hmay, List.isEmpty_iff, Bool.not_true, Bool.or_self,
    Bool.false_eq_true, if_false]

/-- A BAR2 write with a byte that the domain may not write is denied. -/
theorem State.bar2Write_denied {bs : List (Option Byte)}
    (hmay : ¬ ∀ r ∈ enabledRuns (s.bar2Addr dom o) bs, ∀ i < r.2.length, s.byteMay dom true (r.1 + i) = true) :
    s.bar2Write dom o bs = s.deny 1 dom 0 true o := by
  have hall := Bool.eq_false_iff.2 fun h => hmay ((s.runsMay_iff dom _).1 h)
  simp only [State.bar2Write, hon, hg, hall, Bool.not_true, Bool.not_false, Bool.or_self,
    Bool.false_eq_true, if_false, if_true]

/-! ### BAR4 -/

/-- A BAR4 read of a word that the domain may read answers it. -/
theorem State.bar4Get_may (hs : s.safeMode = false) (hth : Bar4There o) (haw : s.Bar4Awake o)
    (hmay : s.bar4MayRead dom o = true) :
    s.bar4Get dom o = (s.bar4Word o).1.answer [(s.bar4Word o).2] := by
  simp only [State.bar4Get, hon, hg, hs, hth.allowed, hmay, s.reach_bar4 haw, Bool.not_true, Bool.or_self,
    Bool.false_eq_true, if_false]

/-- A BAR4 read of a word that the domain may not read is denied and answers ones. -/
theorem State.bar4Get_denied (hth : Bar4There o) (hmay : s.bar4MayRead dom o = false) :
    s.bar4Get dom o = (s.deny 2 dom 0 false o).answer [word 0xFFFFFFFF] := by
  simp only [State.bar4Get, hon, hg, hth.allowed, hmay, Bool.not_true, Bool.not_false, Bool.or_self,
    Bool.false_eq_true, if_false, if_true]

/-- A BAR4 read of an unaligned or reserved offset is noted and answers ones. -/
theorem State.bar4Get_notThere (hth : ¬ Bar4There o) :
    s.bar4Get dom o = (s.r4Note dom blkHIF o false).answer [word 0xFFFFFFFF] := by
  simp only [State.bar4Get, hon, hg, bar4There_not.1 hth, Bool.not_true, Bool.or_self,
    Bool.false_eq_true, if_false, if_true]

/-- A BAR4 write of a word that the domain may write stores it, or enters the waveform tables. -/
theorem State.bar4Put_may {v : Word} (hs : s.safeMode = false) (hth : Bar4There o) (haw : s.Bar4Awake o)
    (hmay : s.bar4MayWrite dom o = true) :
    s.bar4Put dom o v =
      if 0x2400000 ≤ o ∧ o < 0x2680000 then s.wftWrite dom o v else s.sramWr o (leBytes 4 v.toNat) := by
  simp only [State.bar4Put, State.bar4Write, hon, hg, hs, hth.allowed, hmay, s.reach_bar4 haw, Bool.not_true,
    Bool.or_self, Bool.false_eq_true, if_false]

/-- A BAR4 write of a word that the domain may not write is denied. -/
theorem State.bar4Put_denied {v : Word} (hth : Bar4There o) (hmay : s.bar4MayWrite dom o = false) :
    s.bar4Put dom o v = s.deny 2 dom 0 true o := by
  simp only [State.bar4Put, State.bar4Write, hon, hg, hth.allowed, hmay, Bool.not_true, Bool.not_false, Bool.or_self,
    Bool.false_eq_true, if_false, if_true]

/-- A BAR4 write of an unaligned or reserved offset is noted. -/
theorem State.bar4Put_notThere {v : Word} (hth : ¬ Bar4There o) : s.bar4Put dom o v = s.r4Note dom blkHIF o true := by
  simp only [State.bar4Put, hon, hg, bar4There_not.1 hth, Bool.not_false, Bool.and_self, if_true]

end served

/-! ### The two windows -/

/-- Settles O46: each clause is the branch of the access that its conditions leave. -/
theorem windowAccessesComplete : Obligations.WindowAccessesComplete := by
  intro s d hon hg hs
  refine ⟨fun off => ⟨fun n => ⟨fun hmay hheld => ?_, fun hmay hheld => ?_, fun hmay => ?_⟩,
    fun bs => ⟨fun hmay => ?_, fun hmay => ?_, exec_bar2Access_poisoned d s off bs⟩⟩,
    fun off => ⟨fun hth haw hmay => ?_, fun hth hmay => ?_, fun hth => ?_,
      fun v => ⟨fun hth haw hmay => ?_, fun hth hmay => ?_, fun hth => ?_, exec_bar4Access_poisoned d s off v⟩⟩⟩
  · rw [exec_bar2Access_read, State.bar2Read_may hon hg hs hmay, hheld]
    rfl
  · rw [exec_bar2Access_read, State.bar2Read_may hon hg hs hmay, hheld]
    rfl
  · rw [exec_bar2Access_read, State.bar2Read_denied hon hg hmay]
  · rw [exec_bar2Access_write, State.bar2Write_may hon hg hs hmay]
  · rw [exec_bar2Access_write, State.bar2Write_denied hon hg hmay]
  · rw [exec_bar4Access_read, State.bar4Get_may hon hg hs hth haw hmay, State.bar4Word_eq]
  · rw [exec_bar4Access_read, State.bar4Get_denied hon hg hth hmay]
  · rw [exec_bar4Access_read, State.bar4Get_notThere hon hg hth]
  · rw [exec_bar4Access_write, State.bar4Put_may hon hg hs hth haw hmay]
  · rw [exec_bar4Access_write, State.bar4Put_denied hon hg hth hmay]
  · rw [exec_bar4Access_write, State.bar4Put_notThere hon hg hth]

end Sys2Proof.Machine
end

section
/-! SUPPORT. The way from a host access of BAR0 to its register (R3–R6, R420): which writes take effect by the access
code alone, which reads answer the plain value, and what the access codes do. -/

namespace Sys2Proof.Machine

open Sys2Proof

section arms
variable (d : Fin 16) (addr : BitVec 26) (s : State)

theorem exec_registerWrite_clean (v : Word) :
    exec (.registerWrite d addr ⟨v, false⟩) s = .next (s.writeBar0 d addr.toNat v) := rfl

theorem exec_registerWrite_poisoned (v : Word) :
    exec (.registerWrite d addr ⟨v, true⟩) s = .next (s.poisoned d addr.toNat) := rfl

theorem exec_wideLowWordRead : exec (.wideLowWordRead d addr) s = .next (s.readBar0 d addr.toNat) := rfl

theorem exec_misalignedAccess (bar4 wr : Bool) :
    exec (.misalignedAccess d bar4 wr addr) s = .next (s.misaligned d addr.toNat wr) := rfl

end arms

/-! ### What the access codes do (R5) -/

section codes
variable {s : State} {a : Nat} {v : Word} {r : RegRow} (hr : regRow a = some r)
include hr

theorem State.writeByCode_rw (h : r.acc = .rw) : s.writeByCode a v = (s.wr a (v &&& word r.mask)).vecFall := by
  simp only [State.writeByCode, hr, h]

theorem State.writeByCode_w1c (h : r.acc = .w1c) :
    s.writeByCode a v = (s.clrBits a (v &&& word r.mask).toNat).vecAgain a := by
  simp only [State.writeByCode, hr, h]

theorem State.writeByCode_st (h : r.acc = .st) : s.writeByCode a v = s.stageWrite a (v &&& word r.mask) := by
  simp only [State.writeByCode, hr, h]

theorem State.writeByCode_kept (h : r.acc = .ro ∨ r.acc = .wo) : s.writeByCode a v = s := by
  rcases h with h | h <;> simp only [State.writeByCode, hr, h]

end codes

/-- A write at an offset without a register changes nothing (R420). -/
theorem State.writeByCode_none {s : State} {a : Nat} {v : Word} (hr : regRow a = none) : s.writeByCode a v = s := by
  simp only [State.writeByCode, hr]

/-! ### Writes that no row of the command table names, block by block -/

section blocks
variable (s : State) (dom n a : Nat) (v : Word) {o : Nat}

theorem State.writeSeq_plain (h : o ∉ [0, 4, 0x48, 0x4C, 0x50, 0x54, 0x60, 0xA0]) :
    s.writeSeq dom n o a v = s.writePlain dom a v := by
  simp only [List.mem_cons, List.not_mem_nil, or_false, not_or] at h
  simp only [State.writeSeq, h, or_self, if_false]

theorem State.writeTmg_plain (hcmd : a ≠ Reg.TMG_CMD) (havs : a ≠ Reg.TMG_AVS_CTL)
    (hper : ¬(n < 16 ∧ 0x100 ≤ o ∧ o < 0x180)) : s.writeTmg dom n o a v = s.writePlain dom a v := by
  rw [State.writeTmg, if_neg hcmd, if_neg havs, if_neg hper]

theorem State.writeTmu_plain (h : ¬(0x100 ≤ o ∧ o ≤ 0x150)) : s.writeTmu dom n o a v = s.writePlain dom a v := by
  rw [State.writeTmu, if_neg (by omega), if_neg (by omega)]

theorem State.writeAcq_plain (h : ¬(0x100 ≤ o ∧ o ≤ 0x160)) : s.writeAcq dom n o a v = s.writePlain dom a v := by
  rw [State.writeAcq, if_neg (by omega), if_neg (by omega)]

theorem State.writePel_plain (h : ¬(0x100 ≤ o ∧ o ≤ 0x144)) : s.writePel dom n o a v = s.writePlain dom a v := by
  rw [State.writePel, if_neg (by omega), if_neg (by omega)]

theorem State.writeAne_plain (hcmd : a ≠ Reg.ANE_CMD) (hn : a ≠ Reg.ANE_NSEL) (hf : a ≠ Reg.ANE_FSEL) :
    s.writeAne dom a v = s.writePlain dom a v := by
  rw [State.writeAne, if_neg hcmd, if_neg hn, if_neg hf]

theorem State.writeDrc_plain (hcmd : a ≠ Reg.DRC_CMD) (hsp : a ≠ Reg.DRC_SPEED) (hinj : ¬(n < 8 ∧ o = 0x12C)) :
    s.writeDrc dom n o a v = s.writePlain dom a v := by
  rw [State.writeDrc, if_neg hcmd, if_neg hsp, if_neg hinj]

theorem State.writeDma_plain (h : o ∉ [0x100, 0x104, 0x10C, 0x110]) :
    s.writeDma dom n o a v = s.writePlain dom a v := by
  simp only [List.mem_cons, List.not_mem_nil, or_false, not_or] at h
  simp only [State.writeDma, h, or_self, if_false]

theorem State.writeLnk_plain (h : ¬(n < 4 ∧ o = 0x104)) : s.writeLnk dom n o a v = s.writePlain dom a v := by
  rw [State.writeLnk, if_neg h]

/-- The registers of blocks of several units that serve the whole block and whose writes have rows of their own. -/
def blockRegs : List Nat :=
  [Reg.TMG_CMD, Reg.TMG_AVS_CTL, Reg.ANE_CMD, Reg.ANE_NSEL, Reg.ANE_FSEL, Reg.DRC_CMD, Reg.DRC_SPEED]

/-- The registers of the whole module whose writes have rows of their own. -/
def oneRegs : List Nat :=
  [Reg.GLB_APPLY, Reg.GLB_MODULE, Reg.STI_CMD, Reg.STI_BOOT, Reg.CAL_CMD, Reg.HIF_DENY_CNT, Reg.MTB_CTL, Reg.MTB_CMD,
    Reg.FLT_CMD, Reg.FLT_INJ, Reg.PWR_CMD, Reg.SUP_CMD, Reg.GLB_STG_HOLD]

theorem State.writeOne_plain (h : a ∉ oneRegs) : s.writeOne dom a v = s.writePlain dom a v := by
  simp only [oneRegs, List.mem_cons, List.not_mem_nil, or_false, not_or] at h
  simp only [State.writeOne, h, if_false]

end blocks

/-- Of an address in the timing block, its registers of period pairs by sequencer and offset. -/
theorem tmgPer_of_seq {a : Nat} (h : 0x400000 ≤ a ∧ a < 0x600000)
    (hp : a % 0x200000 / 0x1000 < 16 ∧ 0x100 ≤ a % 0x1000 ∧ a % 0x1000 < 0x180) :
    0x400000 ≤ a ∧ a < 0x410000 ∧ 0x100 ≤ a % 0x1000 ∧ a % 0x1000 < 0x180 := by
  omega

/-- Of an address in the DRAM controller's block, the injection registers by channel and offset. -/
theorem drcInj_of_chan {a : Nat} (h : 0x1000000 ≤ a ∧ a < 0x1100000)
    (hp : (a - 0x1000000) / 0x10000 < 8 ∧ a % 0x10000 = 0x12C) :
    0x1000000 ≤ a ∧ a < 0x1080000 ∧ a % 0x10000 = 0x12C := by
  omega

/-- Of an address in the lanes' block, the command registers by port and offset. -/
theorem lnkCmd_of_port {a : Nat} (h : 0x1300000 ≤ a ∧ a < 0x1400000)
    (hp : (a - 0x1300000) / 0x1000 < 4 ∧ a % 0x1000 = 0x104) :
    0x1300000 ≤ a ∧ a < 0x1304000 ∧ a % 0x1000 = 0x104 := by
  omega

/-- A write of an aligned register of a block that no row of the command table names is a plain one: its block sends
it to its access code. -/
theorem State.writeBar0_plain (s : State) (dom : Nat) {a : Nat} (v : Word) (h4 : a % 4 = 0) (htop : a < 0x1900000)
    (h : ¬ ownWrite a) : s.writeBar0 dom a v = s.writePlain dom a v := by
  simp only [ownWrite, not_or] at h
  obtain ⟨hseq, hper, hdsk, htmu, hacq, hpel, hcsh, hinj, hdma, hpt, hlnk, hlist⟩ := h
  have hblock : ∀ r ∈ blockRegs, a ≠ r := fun r hr e => hlist (List.mem_append_left oneRegs (e ▸ hr))
  have hone : a ∉ oneRegs := fun hr => hlist (List.mem_append_right blockRegs hr)
  unfold State.writeBar0
  dsimp only
  rw [if_neg (not_not.2 h4), if_neg (by omega)]
  refine ite_eq_iff'.2 ⟨fun hSeq => s.writeSeq_plain dom _ a v fun hk => hseq ⟨hSeq.1, hSeq.2, hk⟩, fun _ => ?_⟩
  refine ite_eq_iff'.2 ⟨fun hTmg => s.writeTmg_plain dom _ a v (hblock _ (by decide)) (hblock _ (by decide))
    fun hp => hper (tmgPer_of_seq hTmg hp), fun _ => ?_⟩
  refine ite_eq_iff'.2 ⟨fun hDsk => absurd hDsk hdsk, fun _ => ?_⟩
  refine ite_eq_iff'.2 ⟨fun hTmu => s.writeTmu_plain dom _ a v fun ho => htmu ⟨hTmu.1, hTmu.2, ho⟩, fun _ => ?_⟩
  refine ite_eq_iff'.2 ⟨fun hAcq => s.writeAcq_plain dom _ a v fun ho => hacq ⟨hAcq.1, hAcq.2, ho⟩, fun _ => ?_⟩
  refine ite_eq_iff'.2 ⟨fun hPel => s.writePel_plain dom _ a v fun ho => hpel ⟨hPel.1, hPel.2, ho⟩, fun _ => ?_⟩
  refine ite_eq_iff'.2 ⟨fun hRel => absurd ⟨hRel.1, hRel.2.1, by simp [hRel.2.2]⟩ hcsh, fun _ => ?_⟩
  refine ite_eq_iff'.2 ⟨fun hFrel => absurd ⟨hFrel.1, hFrel.2.1, by simp [hFrel.2.2]⟩ hcsh, fun _ => ?_⟩
  refine ite_eq_iff'.2 ⟨fun hAne => s.writeAne_plain dom a v (hblock _ (by decide)) (hblock _ (by decide))
    (hblock _ (by decide)), fun _ => ?_⟩
  refine ite_eq_iff'.2 ⟨fun hDrc => s.writeDrc_plain dom _ a v (hblock _ (by decide)) (hblock _ (by decide))
    fun hp => hinj (drcInj_of_chan hDrc hp), fun _ => ?_⟩
  refine ite_eq_iff'.2 ⟨fun hDma => s.writeDma_plain dom _ a v fun ho => hdma ⟨hDma.1, hDma.2, ho⟩, fun _ => ?_⟩
  refine ite_eq_iff'.2 ⟨fun hPt => absurd hPt hpt, fun _ => ?_⟩
  refine ite_eq_iff'.2 ⟨fun hLnk => s.writeLnk_plain dom _ a v fun hp => hlnk (lnkCmd_of_port hLnk hp), fun _ => ?_⟩
  exact s.writeOne_plain dom a v hone

/-- A write that reaches a register of no row of its own takes effect by the access code. -/
theorem State.writeBar0_byCode {s : State} {dom a : Nat} (v : Word) (hw : s.Writes dom a) (h4 : a % 4 = 0)
    (htop : a < 0x1900000) (h : ¬ ownWrite a) : s.writeBar0 dom a v = s.writeByCode a v :=
  (s.writeBar0_plain dom v h4 htop h).trans (State.hostWrite_writes hw _)

/-! ### Writes with rows of their own -/

section rows
variable (s : State) (dom : Nat) (v : Word)

theorem State.writeBar0_glbApply : s.writeBar0 dom Reg.GLB_APPLY v = doGlbApply dom v s := rfl

theorem State.writeBar0_hifDenyCnt : s.writeBar0 dom Reg.HIF_DENY_CNT v = doHifDenyCntClear dom v s := rfl

theorem State.writeBar0_supCmd : s.writeBar0 dom Reg.SUP_CMD v = s.writeSupCmd dom v := rfl

theorem State.writeBar0_stgHold : s.writeBar0 dom Reg.GLB_STG_HOLD v =
    s.hostWrite dom Reg.GLB_STG_HOLD fun s => s.writeStgHold dom v := rfl

end rows

/-- The OP field of a command register is the value written, modulo 16. -/
theorem fld_op (v : Word) : fld v 3 0 = v.toNat % 16 := by
  simp [fld]

/-- OP 2 of SUP_CMD is FW_ACTIVATE (R523). -/
theorem State.writeSupCmd_fwActivate (s : State) (dom : Nat) {v : Word} (h : v.toNat % 16 = 2) :
    s.writeSupCmd dom v = doFwActivate dom s := by
  simp only [State.writeSupCmd, fld_op, h]

/-! ### GLB_STG_HOLD (R220) -/

theorem testBit_foldl_or (l : List Nat) (m k : Nat) :
    (l.foldl (fun a i => a ||| 2 ^ i) m).testBit k = (m.testBit k || decide (k ∈ l)) := by
  induction l generalizing m with
  | nil => simp
  | cons i l ih =>
    rw [List.foldl_cons, ih, Nat.testBit_or, Nat.testBit_two_pow, Bool.or_assoc]
    simp [eq_comm]

/-- A bit of the mask of a list of numbers is 1 for the numbers of the list. -/
theorem testBit_maskOf (l : List Nat) (k : Nat) : (maskOf l).testBit k = decide (k ∈ l) := by
  rw [maskOf, testBit_foldl_or, Nat.zero_testBit, Bool.false_or]

/-- The bits of GLB_STG_HOLD that a domain may write: those of the sequencers that it owns. -/
def State.stgMask (s : State) (dom : Nat) : Word := word (maskOf ((List.range 16).filter fun n => s.owns dom 1 n))

theorem State.stgMask_getLsbD (s : State) (dom : Nat) {k : Nat} (hk : k < 32) :
    (s.stgMask dom).getLsbD k = decide (k < 16 ∧ s.owns dom 1 k = true) := by
  rw [State.stgMask, word, BitVec.getLsbD_ofNat, testBit_maskOf]
  simp [hk]

/-- What GLB_STG_HOLD holds after a write of a domain. -/
def State.stgHeld (s : State) (dom : Nat) (v : Word) : Word :=
  (s.rd Reg.GLB_STG_HOLD &&& ~~~ s.stgMask dom) ||| (v &&& s.stgMask dom)

theorem State.writeStgHold_eq (s : State) (dom : Nat) (v : Word) :
    s.writeStgHold dom v = s.wr Reg.GLB_STG_HOLD (s.stgHeld dom v) := rfl

/-- A bit of a sequencer that the domain owns takes the value written, and any other keeps its own. -/
theorem State.stgHeld_getLsbD (s : State) (dom : Nat) (v : Word) {k : Nat} (hk : k < 32) :
    (s.stgHeld dom v).getLsbD k =
      if k < 16 ∧ s.owns dom 1 k = true then v.getLsbD k else (s.rd Reg.GLB_STG_HOLD).getLsbD k := by
  have hm := s.stgMask_getLsbD dom hk
  rw [State.stgHeld, BitVec.getLsbD_or, BitVec.getLsbD_and, BitVec.getLsbD_and, BitVec.getLsbD_not, hm]
  split
  · next hown => simp [hown]
  · next hown => simp [hown, hk]

/-! ### Reads -/

/-- A read of an aligned register whose read has no row of its own is a plain one. -/
theorem State.readBar0_plain (s : State) (dom : Nat) {a : Nat} (h4 : a % 4 = 0) (htop : a < 0x1900000)
    (h : ¬ ownRead a) : s.readBar0 dom a = s.readPlain dom a := by
  simp only [ownRead, not_or] at h
  obtain ⟨hacq, hwin, hseq⟩ := h
  have hstat : a ≠ Reg.ANE_F_STAT := fun e => hwin (by rw [e]; decide)
  have hchan : chanAt 0x800000 0x200 a = none := if_neg hseq
  rw [State.readBar0, if_neg (by omega), if_neg (by omega), if_neg hacq, if_neg hstat, if_neg hwin, hchan]

/-- A plain read that reaches its register answers what it reads for the domain, and latches the upper words. -/
theorem State.readPlain_reads {s : State} {dom a : Nat} (hr : s.Reads dom a) :
    s.readPlain dom a =
      (if drawsFree a then (s.latchWords dom (a + 4) (s.upWords dom a)).drawn
        else s.latchWords dom (a + 4) (s.upWords dom a)).answer [s.regRead dom a] :=
  State.hostRead_reads hr _

theorem State.readBar0_aneFStat (s : State) (dom : Nat) : s.readBar0 dom Reg.ANE_F_STAT = doAneFStatRead dom s := rfl

theorem State.readBar0_cshAcq (s : State) (dom : Nat) (n : Fin 16) :
    s.readBar0 dom (Reg.CSH_ACQ n) = doCshAcquire dom n s := by
  have hn := n.isLt
  have ha : Reg.CSH_ACQ n = 0xE00100 + 0x1000 * n := rfl
  rw [State.readBar0, if_neg (by omega), if_neg (by omega), if_pos (by omega)]
  congr 1
  omega

theorem State.readBar0_tmuRseq (s : State) (dom : Nat) (c : Fin 128) :
    s.readBar0 dom (Reg.TMU_RSEQ c) = doTmuRseqRead dom c s := by
  have hc := c.isLt
  have ha : Reg.TMU_RSEQ c = 0x800200 + 0x1000 * c := rfl
  have hi : (Reg.TMU_RSEQ c - 0x800000) / 0x1000 = c := by omega
  have hchan : chanAt 0x800000 0x200 (Reg.TMU_RSEQ c) = some c.val := by
    rw [chanAt, if_pos (by omega), hi]
  have hstat : Reg.TMU_RSEQ c ≠ Reg.ANE_F_STAT := by
    rw [ha, Reg.ANE_F_STAT]
    omega
  rw [State.readBar0, if_neg (by omega), if_neg (by omega), if_neg (by omega), if_neg hstat, if_neg (by omega), hchan]

/-! ### Misaligned accesses (R4) -/

/-- What a module notes of an access that R4 does not allow. -/
theorem State.misaligned_eq (s : State) (dom a : Nat) (wr : Bool) :
    s.misaligned dom a wr =
      let t := if s.hostOn dom = true ∧ s.graveHeld = false then s.r4Note dom blkHIF a wr else s
      if wr then t else t.answer [word 0xFFFFFFFF] := by
  simp only [State.misaligned, Bool.and_eq_true, Bool.not_eq_true', State.readNowhere]

/-! ### Accesses of registers -/

/-- Settles O48: a write and a read without a row of their own come to the access code and the plain value, and the
others to their rows. -/
theorem registerAccessesComplete : Obligations.RegisterAccessesComplete := by
  intro s d addr v a held t noted
  have hwrite : exec (.registerWrite d addr ⟨v, false⟩) s = .next (s.writeBar0 d a v) :=
    exec_registerWrite_clean d addr s v
  have hread : exec (.wideLowWordRead d addr) s = .next (s.readBar0 d a) := exec_wideLowWordRead d addr s
  refine ⟨fun hw h4 htop hown => ?_, fun hr h4 htop hown => ?_, fun ha => ?_, fun ha hw => ?_, fun ha => ?_,
    fun ha hop => ?_, fun ha => ?_, fun n ha => ?_, fun c ha => ?_, fun bar4 => ⟨?_, ?_⟩,
    exec_registerWrite_poisoned d addr s v⟩
  · rw [hwrite, State.writeBar0_byCode v hw h4 htop hown]
    exact ⟨fun hr => congrArg _ (State.writeByCode_none hr), fun r hr =>
      ⟨fun h => congrArg _ (State.writeByCode_rw hr h), fun h => congrArg _ (State.writeByCode_w1c hr h),
        fun h => congrArg _ (State.writeByCode_st hr h), fun h => congrArg _ (State.writeByCode_kept hr h)⟩⟩
  · rw [hread, s.readBar0_plain d h4 htop hown, State.readPlain_reads hr]
    rfl
  · rw [hwrite, ha, s.writeBar0_glbApply]
    rfl
  · rw [hwrite, ha, s.writeBar0_stgHold, State.hostWrite_writes (ha ▸ hw), s.writeStgHold_eq]
    exact ⟨s.stgHeld d v, rfl, fun k hk => s.stgHeld_getLsbD d v hk⟩
  · rw [hwrite, ha, s.writeBar0_hifDenyCnt]
    rfl
  · rw [hwrite, ha, s.writeBar0_supCmd, s.writeSupCmd_fwActivate d hop]
    rfl
  · rw [hread, ha, s.readBar0_aneFStat]
    rfl
  · rw [hread, ha, s.readBar0_cshAcq]
    rfl
  · rw [hread, ha, s.readBar0_tmuRseq]
    rfl
  · rw [exec_misalignedAccess, s.misaligned_eq]
    rfl
  · rw [exec_misalignedAccess, s.misaligned_eq]
    rfl

end Sys2Proof.Machine
end

section
/-! SUPPORT. Events of the timing block (R22, R170, R177–R179, R461): a channel's generator among the delay lines, and
when a loss of lock, a relock and an assignment of a spare are due. -/

namespace Sys2Proof.Machine

open Sys2Proof

section arms
variable (s : State)

theorem exec_pllLockLoss : exec .pllLockLoss s = .next (doPllLockLoss s) := rfl

theorem exec_pllRelock : exec .pllRelock s = .next (doPllRelock s) := rfl

theorem exec_dllUnlock (g : Fin 132) : exec (.dllUnlock g) s = .next (doDllUnlock g s) := rfl

theorem exec_dllRelockResult (g : Fin 132) (ok : Bool) :
    exec (.dllRelockResult g ok) s = .next (doDllRelockResult g ok s) := rfl

theorem exec_permanentSpareAssignment (c : Fin 128) :
    exec (.permanentSpareAssignment c) s = .next (doPermanentSpareAssignment c s) := rfl

end arms

/-- The timing PLL of an ACTIVE unit is not down by command. -/
theorem State.pllOff_active {s : State} (h : s.unit 7 0 = 0) : s.pllOff = false := by
  rw [State.pllOff, h]
  rfl

/-- The owner of a channel is a matter of the structure in force, which no register holds. -/
@[simp] theorem State.seqOfCh_wrF (s : State) (a hi lo x c : Nat) : (s.wrF a hi lo x).seqOfCh c = s.seqOfCh c := rfl

section channel
variable {s : State} {c : Nat} (hrun : s.runs = true) (hc : c < 128)
include hrun hc

/-- The delay line of a channel that unlocks is a SITE-class fault of the channel's sequencer, or a NOTE fault where it
has none (R179). -/
theorem doDllUnlock_chan (hlock : bit (s.rd (Reg.CHN_EDGE_STAT c)) 31 = true)
    (hfail : bit (s.rd (Reg.CHN_EDGE_STAT c)) 30 = false) :
    doDllUnlock c s =
      (s.seqOfCh c).elim ((s.wrF (Reg.CHN_EDGE_STAT c) 31 31 0).note (0x400 + c)) fun n =>
        (s.wrF (Reg.CHN_EDGE_STAT c) 31 31 0).detect { src := 0x400 + c, cls := 2, seqNamed := some n } := by
  rw [doDllUnlock, if_pos hc, State.whenDue_due hrun (by rw [hlock, hfail]; rfl)]
  cases hown : s.seqOfCh c with
  | none => simp only [State.seqOfCh_wrF, hown, Option.elim_none]
  | some n => simp only [State.seqOfCh_wrF, hown, Option.elim_some]

/-- The one relock of a channel's delay line shows LOCK again, or marks the generator failed (R179). -/
theorem doDllRelockResult_chan (ok : Bool) (hlock : bit (s.rd (Reg.CHN_EDGE_STAT c)) 31 = false)
    (hfail : bit (s.rd (Reg.CHN_EDGE_STAT c)) 30 = false) :
    doDllRelockResult c ok s = if ok then s.wrF (Reg.CHN_EDGE_STAT c) 31 31 1 else s.dllFailed c := by
  rw [doDllRelockResult, if_pos hc, State.whenDue_due hrun (by rw [hlock, hfail]; rfl)]

end channel

/-- A channel's generator that has failed is marked in its own register and its tile's, and ends a slot on it (R334). -/
theorem State.dllFailed_chan (s : State) {c : Nat} (hc : c < 128) :
    s.dllFailed c =
      (((s.irq Reg.TMG_ISTAT 4).wrF (Reg.CHN_EDGE_STAT c) 30 30 1).wrF (Reg.TMG_DLL_FAIL (c / 32)) (c % 32) (c % 32)
        1).calLockHook c :=
  if_pos hc

/-- Settles O12: each event acts, since its clause's conditions make it due, and takes the branch of a channel's
generator. -/
theorem tmgEventsComplete : Obligations.TmgEventsComplete := by
  intro s c hrun
  refine ⟨fun hlock hact => ?_, fun hlock hact => ?_, fun hlock hfail => ⟨fun n hown => ?_, fun hown => ?_⟩,
    fun hlock hfail => ⟨?_, ?_⟩, fun hfail hspare hperm => ?_⟩
  · rw [exec_pllLockLoss, doPllLockLoss,
      State.whenDue_due hrun (by rw [State.pllLocked, hlock, State.pllOff_active hact]; rfl)]
  · rw [exec_pllRelock, doPllRelock,
      State.whenDue_due hrun (by rw [State.pllLocked, hlock, State.pllOff_active hact]; rfl)]
  · rw [exec_dllUnlock, doDllUnlock_chan hrun c.isLt hlock hfail, hown, Option.elim_some]
  · rw [exec_dllUnlock, doDllUnlock_chan hrun c.isLt hlock hfail, hown, Option.elim_none]
  · rw [exec_dllRelockResult, doDllRelockResult_chan hrun c.isLt true hlock hfail, if_pos rfl]
  · rw [exec_dllRelockResult, doDllRelockResult_chan hrun c.isLt false hlock hfail, if_neg Bool.false_ne_true,
      s.dllFailed_chan c.isLt]
  · rw [exec_permanentSpareAssignment, doPermanentSpareAssignment,
      State.whenDue_due hrun (by rw [State.sparePermanent, hfail, hspare, hperm]; rfl)]

end Sys2Proof.Machine
end

section
/-! SUPPORT. What happens at the play front with a vector (R33, R102, R172, R185, R186, R391): when the next vector is
due, and the three ways it can go: its line is lost, an edge FIFO is dry, or it is formatted. -/

namespace Sys2Proof.Machine

open Sys2Proof

section arms
variable (s : State) (n : Fin 16)

theorem exec_siteDropout : exec (.siteDropout n) s = .next (doSiteDropout n s) := rfl

theorem exec_paceFault (ch : Fin 128) : exec (.paceFault n ch) s = .next (doPaceFault n ch s) := rfl

theorem exec_vectorFormat (news : List Nat) : exec (.vectorFormat n news) s = .next (doVectorFormat n news s) := rfl

end arms

/-- What must hold for SQn's next vector, of the segment repeat `c`, to start. -/
structure State.VectorDue (s : State) (n : Nat) (c : CurPlay) : Prop where
  runs : s.runs = true
  plays : s.seqPlays n = true
  cur : (s.sq n).cur = some c
  follows : c.pos < c.desc.nvec
  noCheck : s.checkDue n = false
  noSwitch : s.switchDue n = false
  locked : bit (s.rd Reg.TMG_CLK_STAT) 31 = true
  armed : ∀ k ∈ s.ownedChans n, s.armed n k = true
  boundary : c.pos % 64 ≠ 0 ∨ s.dropDue n = [] ∧ s.resultsBefore n ((s.sq n).vcnt - 383) = true

/-- The play front formats the next vector of the repeat `c`, with the entries of every edge FIFO present (R152, R172). -/
def State.formatVector (s : State) (n : Nat) (c : CurPlay) : State :=
  let a := forEach (s.ownedChans n) (fun c s => s.fifoPop c) (s.fixVecB n)
  let t := if c.pos % 64 = 0 then a.granuleSample n c else a
  let u := t.sq n
  let sel := t.rd (Reg.SEQ_SEL n)
  let p := t.period n (fld sel 19 16)
  let v : VecCtx :=
    { n := n, vec := u.vcnt, start := u.acc, p := p, tset := fld sel 4 0, mset := fld sel 11 8,
      inMatch := if c.item.kind = .matching then some c.rep else none, segpos := c.pos, seg := c.seg,
      ldr := c.item.kind == .urLeader, lcs := c.item.prog.lc }
  let w := t.playChannels v (t.vecRecord n c.desc c.pos) 0 (t.ownedChans n)
  let x := w.setSq n { w.sq n with acc := (w.sq n).acc + p, vcnt := (w.sq n).vcnt + 1,
                                   cur := (w.sq n).cur.map fun c => { c with pos := c.pos + 1 } }
  (x.wrWide (Reg.SEQ_VCNT_LO n) 2 (u.vcnt + 1)).wrWide (Reg.TMG_ACC0 n) 3 u.acc

/-- The prefetch of the next vector's line, and whether the line is lost. -/
abbrev State.prefetched (s : State) (n : Nat) (c : CurPlay) : State × Bool := s.askVector n c.desc c.pos

/-- The state after the prefetch once the edge FIFOs have taken in what the pipeline has delivered. -/
abbrev State.filled (s : State) (n : Nat) (c : CurPlay) (news : List Nat) : State :=
  let t := (s.prefetched n c).1
  t.fifoFills n (t.fifoCredits n c) (t.ownedChans n) news

section vector
variable {s : State} {n : Nat} {c : CurPlay} (h : s.VectorDue n c)
include h

/-- A vector that is due meets its guard: the drop-outs and results matter at a granule boundary only (R102, R106). -/
theorem State.VectorDue.guard :
    (s.seqPlays n && decide (c.pos < c.desc.nvec) && !s.checkDue n && !s.switchDue n && s.pllLocked &&
        ((s.ownedChans n).all fun k => s.armed n k) &&
        (!(c.pos % 64 == 0) || ((s.dropDue n).isEmpty && s.resultsBefore n ((s.sq n).vcnt - 383)))) = true := by
  have harm : ((s.ownedChans n).all fun k => s.armed n k) = true := List.all_eq_true.2 h.armed
  have hbound : (!(c.pos % 64 == 0) || ((s.dropDue n).isEmpty && s.resultsBefore n ((s.sq n).vcnt - 383))) = true := by
    rcases h.boundary with hpos | ⟨hdrop, hres⟩
    · simp [hpos]
    · simp [hdrop, hres]
  rw [h.plays, decide_eq_true h.follows, h.noCheck, h.noSwitch, State.pllLocked, h.locked, harm, hbound]
  rfl

/-- A vector that is due stops its sequencer where its line is lost or an edge FIFO is dry, and is formatted else. -/
theorem State.VectorDue.acts (news : List Nat) :
    doVectorFormat n news s =
      if (s.prefetched n c).2 then
        (s.prefetched n c).1.paceStop n (((s.prefetched n c).1.ownedChans n).headD 0)
          ((s.prefetched n c).1.lostRecord n c.desc c.pos)
      else ((s.filled n c news).dryChan n).elim ((s.filled n c news).formatVector n c)
        fun k => (s.filled n c news).paceStop n k { src := 0x200 + n, code := 0x0D } := by
  simp only [doVectorFormat, h.cur]
  rw [State.whenDue_due h.runs h.guard]
  refine if_congr Iff.rfl rfl ?_
  cases (s.filled n c news).dryChan n with
  | none => simp only [State.formatVector, beq_iff_eq, Option.elim_none]
  | some k => rfl

/-- A vector whose line is lost stops the sequencer on its lowest channel (R391). -/
theorem State.VectorDue.lost (news : List Nat) (hl : (s.prefetched n c).2 = true) :
    doVectorFormat n news s =
      (s.prefetched n c).1.paceStop n (((s.prefetched n c).1.ownedChans n).headD 0)
        ((s.prefetched n c).1.lostRecord n c.desc c.pos) := by
  rw [h.acts, if_pos hl]

/-- An edge FIFO that is dry at its arming instant stops the sequencer as a pace fault (R33, R186). -/
theorem State.VectorDue.dry {news : List Nat} {k : Nat} (hl : (s.prefetched n c).2 = false)
    (hd : (s.filled n c news).dryChan n = some k) :
    doVectorFormat n news s = (s.filled n c news).paceStop n k { src := 0x200 + n, code := 0x0D } := by
  rw [h.acts, if_neg (Bool.eq_false_iff.1 hl), hd, Option.elim_some]

/-- A vector with its line read and an entry in every edge FIFO is formatted (R172). -/
theorem State.VectorDue.formatted {news : List Nat} (hl : (s.prefetched n c).2 = false)
    (hd : (s.filled n c news).dryChan n = none) :
    doVectorFormat n news s = (s.filled n c news).formatVector n c := by
  rw [h.acts, if_neg (Bool.eq_false_iff.1 hl), hd, Option.elim_none]

end vector

/-- The failing sites due drop out where a sequencer that plays stands at a granule boundary (R106). -/
theorem doSiteDropout_due {s : State} {n : Nat} (hrun : s.runs = true) (hplay : s.seqPlays n = true)
    (hgran : s.atGranule n = true) (hdrop : s.dropDue n ≠ []) :
    doSiteDropout n s = forEach (s.dropDue n) (fun t s => s.dropSite n t false) s := by
  have hsome : (!(s.dropDue n).isEmpty) = true := by simpa using hdrop
  rw [doSiteDropout, State.whenDue_due hrun (by rw [hplay, hgran, hsome]; rfl)]

/-- The guard of a pace fault on channel `c`, the lowest dry one, where a vector follows (R186). -/
theorem State.paceFault_guard {s : State} {n c : Nat} (hplay : s.seqPlays n = true) (hdry : s.dryChan n = some c)
    (hnext : (s.nextPlay n).isSome = true) :
    (s.seqPlays n && s.dryChan n == some c && (s.nextPlay n).isSome) = true := by
  rw [hplay, hdry, hnext, beq_self_eq_true]
  rfl

/-- Settles O26: each event acts, since its clause's conditions make it due, and a vector that is due goes the way that
its line and the edge FIFOs leave. -/
theorem vectorEventsComplete : Obligations.VectorEventsComplete := by
  intro s n ch news hrun hplay
  refine ⟨fun hgran hdrop => ?_, fun hdry hnext => ?_, fun c hcur hpos hcheck hswitch hlock harm hbound => ?_⟩
  · rw [exec_siteDropout, doSiteDropout_due hrun hplay hgran hdrop]
  · rw [exec_paceFault, doPaceFault]
    exact congrArg _ (State.whenDue_due hrun (State.paceFault_guard hplay hdry hnext) _)
  · have hdue : s.VectorDue n c := ⟨hrun, hplay, hcur, hpos, hcheck, hswitch, hlock, harm, hbound⟩
    rw [exec_vectorFormat]
    exact ⟨fun hread hdry => congrArg _ (hdue.formatted hread hdry),
      fun k hread hdry => congrArg _ (hdue.dry hread hdry), fun hlost => congrArg _ (hdue.lost news hlost)⟩

end Sys2Proof.Machine
end

section
/-! SUPPORT. The registers right after reset: the reset value of a register that a block repeats for each of its
units (R420). -/

namespace Sys2Proof.Machine

open Sys2Proof

/-- Of blocks in ascending order, the one that an address lies in is the one found. -/
theorem findBlock_of_mem {a : Nat} {b : RegBlock} {l : List RegBlock} (hl : l.Pairwise fun x y => x.top ≤ y.base)
    (hb : b ∈ l) (hlo : b.base ≤ a) (hhi : a < b.top) : findBlock a l = some b := by
  induction l with
  | nil => cases hb
  | cons x l ih =>
    obtain ⟨hx, hl⟩ := List.pairwise_cons.1 hl
    rw [findBlock]
    rcases List.mem_cons.1 hb with rfl | hb
    · exact if_pos ⟨hlo, hhi⟩
    · have hbefore := hx b hb
      rw [if_neg (by omega), ih hl hb]

/-- The blocks up to CSH stand in ascending order. -/
theorem blocksA_ascending : blocksA.Pairwise fun x y => x.top ≤ y.base := by decide

/-- The units of the blocks up to CSH lie in their blocks, below the protection table and LNK. -/
theorem blocksA_room : ∀ b ∈ blocksA, b.base + b.stride * b.insts ≤ b.top ∧ b.top ≤ 0x1201000 := by decide

section units
variable {b : RegBlock} {n o : Nat} (hn : n < b.insts) (ho : o < b.stride) (hg : findRow o b.globals = none)
include hn ho hg

/-- The row of offset `o` in one of a block's units is the block's row of `o`, where no global register stands there. -/
theorem rowIn_unit : rowIn b (b.base + (b.stride * n + o)) = findRow o b.rows := by
  have hdiv : (b.stride * n + o) / b.stride = n := by
    rw [Nat.mul_add_div (by omega), Nat.div_eq_of_lt ho, Nat.add_zero]
  have hmod : (b.stride * n + o) % b.stride = o := by rw [Nat.mul_add_mod, Nat.mod_eq_of_lt ho]
  simp only [rowIn, Nat.add_sub_cancel_left, hdiv, hmod, if_pos hn]
  by_cases h0 : n = 0
  · simp [h0, hg]
  · simp [h0]

/-- The same of the register map as a whole. -/
theorem regRow_unit (hb : b ∈ blocksA) : regRow (b.base + (b.stride * n + o)) = findRow o b.rows := by
  have hlt : b.stride * n + o < b.stride * b.insts :=
    (Nat.add_lt_add_left ho _).trans_le (Nat.mul_le_mul_left b.stride hn)
  obtain ⟨htop, hlow⟩ := blocksA_room b hb
  rw [regRow, if_neg (by omega), if_neg (by omega),
    findBlock_of_mem blocksA_ascending hb (Nat.le_add_right _ _) (by omega)]
  exact rowIn_unit hn ho hg

/-- Right after reset the register at offset `o` of every unit of a block reads the reset value of the block's
row; `x` is its address in unit 0. -/
theorem State.rd_reset_unit (hb : b ∈ blocksA) {x : Nat} (hx : x = b.base + o) {r : RegRow}
    (hr : findRow o b.rows = some r) : State.reset.rd (x + b.stride * n) = word r.reset := by
  have hrow : regRow (x + b.stride * n) = some r := by
    rw [hx, Nat.add_assoc, Nat.add_comm o, regRow_unit hn ho hg hb, hr]
  change regReset (x + b.stride * n) = word r.reset
  rw [regReset, hrow]
  rfl

end units

/-- No global register of TMG stands at a period pair, whose words have the rows of the pairs (R191). -/
theorem tmgPair_rows (e : Fin 16) :
    (findRow (0x100 + 8 * e) rowsTMGG0 = none ∧
      findRow (0x100 + 8 * e) rowsTMG0 = some ⟨0x100, 8, 16, .st, 0x40000, 0xFFFFFFFF⟩) ∧
    (findRow (0x104 + 8 * e) rowsTMGG0 = none ∧
      findRow (0x104 + 8 * e) rowsTMG0 = some ⟨0x104, 8, 16, .st, 0x0, 0x7F⟩) := by
  decide +revert

/-- Every period pair reads 4.0 ticks right after reset (R191). -/
theorem State.rd_reset_period (n e : Fin 16) :
    State.reset.rd (Reg.TMG_PER_LO n e) = 0x00040000 ∧ State.reset.rd (Reg.TMG_PER_HI n e) = 0 := by
  obtain ⟨⟨hglo, hlo⟩, hghi, hhi⟩ := tmgPair_rows e
  have hTMG : blocksA[3] ∈ blocksA := List.getElem_mem _
  have he := e.isLt
  rw [Reg.TMG_PER_LO, Reg.TMG_PER_HI, Nat.add_right_comm, Nat.add_right_comm 0x400104]
  have hofs : 0x104 + 8 * e.val < 0x1000 := by omega
  exact ⟨State.rd_reset_unit n.isLt (Nat.lt_trans (by omega) hofs) hglo hTMG (Nat.add_assoc 0x400000 0x100 _) hlo,
    State.rd_reset_unit n.isLt hofs hghi hTMG (Nat.add_assoc 0x400000 0x104 _) hhi⟩

/-- Right after reset a register of every channel, at `x` for channel 0, reads the reset value of its row, where no
global register of its block stands at its offset. -/
theorem State.rd_reset_chan (c : Fin 128) {b : RegBlock} (hb : b ∈ blocksA) (hinsts : b.insts = 128)
    (hstride : b.stride = 0x1000) (x : Nat) (hx : b.base ≤ x ∧ x - b.base < 0x1000)
    (hg : findRow (x - b.base) b.globals = none) {v : Word}
    (hr : (findRow (x - b.base) b.rows).map (fun r => word r.reset) = some v) :
    State.reset.rd (x + 0x1000 * c) = v := by
  obtain ⟨r, hrow, rfl⟩ := Option.map_eq_some_iff.1 hr
  have hc : c.val < b.insts := by omega
  rw [← hstride]
  exact State.rd_reset_unit hc (by omega) hg hb (by omega) hrow

/-- Settles O5: the registers that stand once read as the register map has them, those of every sequencer and channel as
the rows of their blocks have them. -/
theorem resetRegisters : Obligations.ResetRegisters := by
  have hCHN : blocksA[4] ∈ blocksA := List.getElem_mem _
  have hTMU : blocksA[5] ∈ blocksA := List.getElem_mem _
  have hPEL : blocksA[7] ∈ blocksA := List.getElem_mem _
  have hCAL : blocksA[8] ∈ blocksA := List.getElem_mem _
  refine ⟨by decide, by decide, by decide, by decide, by decide, by decide, by decide, State.rd_reset_period,
    fun c => ⟨?_, ?_, ?_, ?_, ?_, ?_, ?_⟩, by decide, by decide, by decide⟩
  · exact State.rd_reset_chan c hCHN rfl rfl 0x60020C (by decide) rfl rfl
  · exact State.rd_reset_chan c hCHN rfl rfl 0x600210 (by decide) rfl rfl
  · exact State.rd_reset_chan c hCHN rfl rfl 0x600064 (by decide) rfl rfl
  · exact State.rd_reset_chan c hCHN rfl rfl 0x60001C (by decide) rfl rfl
  · exact State.rd_reset_chan c hTMU rfl rfl 0x800184 (by decide) rfl rfl
  · exact State.rd_reset_chan c hCAL rfl rfl 0xD00100 (by decide) rfl rfl
  · exact State.rd_reset_chan c hPEL rfl rfl 0xC00100 (by decide) rfl rfl

end Sys2Proof.Machine
end

section
/-! SUPPORT. A structure load (R62–R65, R71, R235): its phases, and what each of its steps does when its phase has
come. -/

namespace Sys2Proof.Machine

open Sys2Proof

section arms
variable (s : State)

theorem exec_stiStopStep : exec .stiStopStep s = .next (doStiStopStep s) := rfl

theorem exec_stiDrainDone : exec .stiDrainDone s = .next (doStiDrainDone s) := rfl

theorem exec_stiDrainExpiry : exec .stiDrainExpiry s = .next (doStiDrainExpiry s) := rfl

theorem exec_stiConfigureDone : exec .stiConfigureDone s = .next (doStiConfigureDone s) := rfl

end arms

/-- A load is in one phase: the one its operation records. -/
theorem State.stiAt_eq_some {s : State} {p : Nat} {o : StiOp} :
    s.stiAt p = some o ↔ s.sti = some o ∧ (o.op = 1 ∨ o.op = 2) ∧ o.phase = p := by
  rw [State.stiAt]
  cases s.sti with
  | none => simp
  | some o' =>
    simp only [Option.ite_none_right_eq_some, Option.some.injEq]
    exact ⟨fun ⟨h, ho⟩ => ⟨ho, ho ▸ h⟩, fun ⟨ho, h⟩ => ⟨ho ▸ h, ho⟩⟩

/-- A load past its drain limit no longer drains before it. -/
theorem State.stiAt_draining_of_expired {s : State} {o : StiOp} (h : s.stiAt 2 = some o) : s.stiAt 1 = none := by
  obtain ⟨hsti, -, hphase⟩ := State.stiAt_eq_some.1 h
  refine Option.eq_none_iff_forall_ne_some.2 fun o' h' => ?_
  obtain ⟨hsti', -, hphase'⟩ := State.stiAt_eq_some.1 h'
  obtain rfl := Option.some.inj (hsti.symm.trans hsti')
  omega

section steps
variable {s : State} {o : StiOp} (hrun : s.runs = true)
include hrun

/-- Before the limit the configure step begins once everything in scope has drained and no moved sheet is held (R63,
R235). -/
theorem doStiDrainDone_draining (h : s.stiAt 1 = some o) (hdrained : s.drained o = true)
    (hfree : ∀ n ∈ s.csMoved o, (s.sq n).sheet.held = none) :
    doStiDrainDone s = { s with sti := some { o with phase := 3 } }.wrF Reg.STI_STAT 3 1 5 := by
  have hdue : (s.drained o && (s.csMoved o).all fun n => (s.sq n).sheet.held.isNone) = true := by
    rw [hdrained, Bool.true_and, List.all_eq_true]
    exact fun n hn => Option.isNone_iff_eq_none.2 (hfree n hn)
  rw [doStiDrainDone, h]
  exact State.whenDue_due hrun hdue _

/-- After the limit it begins once everything in scope has drained (R65). -/
theorem doStiDrainDone_expired (h : s.stiAt 2 = some o) (hdrained : s.drained o = true) :
    doStiDrainDone s = { s with sti := some { o with phase := 3 } }.wrF Reg.STI_STAT 3 1 5 := by
  rw [doStiDrainDone, State.stiAt_draining_of_expired h, h]
  exact State.whenDue_due hrun hdrained _

end steps

/-- Settles O55: each step acts, since its phase has come and what it waits for has come about. -/
theorem structureLoadCompletes : Obligations.StructureLoadCompletes := by
  intro s o hrun
  refine ⟨fun h => ?_, fun h => ⟨fun hdrained hfree => ?_, fun hlimit => ?_⟩, fun h hdrained => ?_, fun h => ?_⟩
  · rw [exec_stiStopStep, doStiStopStep, h]
    exact congrArg _ (State.whenDue_due hrun rfl _)
  · rw [exec_stiDrainDone, doStiDrainDone_draining hrun h hdrained hfree]
  · rw [exec_stiDrainExpiry, doStiDrainExpiry, h]
    exact congrArg _ (State.whenDue_due hrun (decide_eq_true hlimit) _)
  · rw [exec_stiDrainDone, doStiDrainDone_expired hrun h hdrained]
  · rw [exec_stiConfigureDone, doStiConfigureDone, h]
    exact congrArg _ (State.whenDue_due hrun rfl _)

end Sys2Proof.Machine
end

section
/-! SUPPORT. Commands on structure images, key slots and firmware (R56–R58, R67, R68, R70, R72, R515–R519): when a
command is taken up, and when an image it works on is accepted. -/

namespace Sys2Proof.Machine

open Sys2Proof

section arms
variable (d : Fin 16) (v : Word) (fails : Fin 3) (s : State)

theorem exec_stiLoadWhole : exec (.stiLoadWhole d v fails) s = .next (doStiLoadWhole d v fails s) := rfl

theorem exec_stiLoadTile : exec (.stiLoadTile d v fails) s = .next (doStiLoadTile d v fails s) := rfl

theorem exec_stiCheck : exec (.stiCheck d v fails) s = .next (doStiCheck d v fails s) := rfl

theorem exec_stiStore : exec (.stiStore d v fails) s = .next (doStiStore d v fails s) := rfl

theorem exec_revoke : exec (.revoke d v) s = .next (doRevoke d v s) := rfl

theorem exec_stiBadCmd : exec (.stiBadCmd d v) s = .next (doStiBadCmd d v s) := rfl

theorem exec_stiBootWrite : exec (.stiBootWrite d v) s = .next (doStiBootWrite d v s) := rfl

theorem exec_fwStore (h : HostRead) : exec (.fwStore d v h) s = .next (doFwStore d v h s) := rfl

theorem exec_fwActivate : exec (.fwActivate d) s = .next (doFwActivate d s) := rfl

end arms

/-! ### Taking up a command -/

/-- A command of STI_CMD is taken up where no operation runs and, but for a CHECK, no MOD fault is held (R57). -/
theorem State.stiCmd_free {s : State} {dom op : Nat} {v : Word} (hw : s.Writes dom Reg.STI_CMD) (hop : fld v 3 0 = op)
    (hsti : s.sti = none) (hmod : op = 3 ∨ s.modHeld = false) (k : State → State) : s.stiCmd dom op v k = k s := by
  have hfault : ¬ (op ≠ 3 ∧ s.modHeld = true) := fun ⟨hcheck, hheld⟩ =>
    hmod.elim hcheck fun hno => Bool.false_ne_true (hno.symm.trans hheld)
  rw [State.stiCmd, State.hostWrite_writes hw, if_neg (not_not.2 hop), hsti, if_neg (by simp), if_neg hfault]

/-- A command of SUP_CMD is taken up where no operation runs (R519). -/
theorem State.supCmd_free {s : State} {dom op : Nat} {v : Word} (hw : s.Writes dom Reg.SUP_CMD) (hop : fld v 3 0 = op)
    (hsup : s.sup.op = 0) (k : State → State) : s.supCmd dom op v k = k s := by
  rw [State.supCmd, State.hostWrite_writes hw, if_neg (not_not.2 hop), if_neg (not_not.2 hsup)]

/-! ### Accepting an image -/

/-- Where no injection waits for a checker, none is taken (R492). -/
theorem State.injTake_unarmed {s : State} {src chk : Nat} (h : s.injArmed src chk = false) :
    s.injTake src chk = (s, false) := by
  rw [State.injTake, State.injMeets, if_pos (by rw [h]; rfl)]

/-- An image that the checks accept has a header that they accept: it is the first of them (R58). -/
theorem State.headReject_of_accepted {s : State} {b : List Byte} {op t : Nat} {inj : Bool}
    (h : s.imgReject b op t inj = none) : headReject b op t = none := by
  cases hh : headReject b op t with
  | none => rfl
  | some r => rw [State.imgReject, hh] at h; cases h

/-- An image that is read and that the checks accept goes to the command's continuation (R58, R68). -/
theorem State.stiExamine_accepts {s t : State} {nor : Bool} {slot fails op tile : Nat} {img : List Byte}
    (hread : s.stiFetch nor slot fails = (t, some img)) (hinj : t.injArmed blkSTI 3 = false)
    (hok : t.imgReject img op tile false = none) (dom : Nat) (k : List Byte → State → State) :
    s.stiExamine dom nor slot fails op tile k = k img t := by
  simp only [State.stiExamine, hread, State.headReject_of_accepted hok, State.injTake_unarmed hinj, Option.isSome_none,
    Bool.false_eq_true, if_false, hok]

/-! ### The commands -/

/-- A load of an accepted image begins in its stop phase (R57, R58). -/
theorem State.stiLoad_accepts {s t : State} {dom op fails : Nat} {v : Word} {img : List Byte}
    (hw : s.Writes dom Reg.STI_CMD) (hop : fld v 3 0 = op) (hsti : s.sti = none) (hmod : s.modHeld = false)
    (hread : s.stiFetch (bit v 11) (fld v 14 12) fails = (t, some img)) (hinj : t.injArmed blkSTI 3 = false)
    (hok : t.imgReject img op (fld v 9 8) false = none) :
    s.stiLoad dom op v fails = t.stiBegin { op := op, tile := fld v 9 8, image := img } 4 := by
  rw [State.stiLoad, State.stiCmd_free hw hop hsti (.inr hmod), State.stiExamine_accepts hread hinj hok]

/-- A programmed key slot that is not revoked may be revoked where another usable slot is left and power is good
(R56). -/
theorem State.revokeBar_free {s : State} {k : Nat} (hpfw : s.pfw = false) (hprog : bit (s.rd Reg.STI_KEYS) k = true)
    (hkept : bit (s.rd Reg.STI_KEYS) (4 + k) = false)
    (hother : ∃ j, j < 4 ∧ j ≠ k ∧ bit (s.rd Reg.STI_KEYS) j = true ∧ bit (s.rd Reg.STI_KEYS) (4 + j) = false) :
    s.revokeBar k = 0 := by
  obtain ⟨j, hj, hjk, hjprog, hjkept⟩ := hother
  have hleft : ¬ ((List.range 4).all fun j =>
      j == k || !bit (s.rd Reg.STI_KEYS) j || bit (s.rd Reg.STI_KEYS) (4 + j)) = true := fun hall => by
    simpa [hjk, hjprog, hjkept] using List.all_eq_true.1 hall j (List.mem_range.2 hj)
  simp only [State.revokeBar, hprog, hkept, hpfw, if_neg hleft, Bool.not_true, Bool.false_eq_true, if_false]

/-- A REVOKE that nothing bars sets the slot's bit and is done (R56). -/
theorem doRevoke_free {s : State} {dom : Nat} {v : Word} (hw : s.Writes dom Reg.STI_CMD) (hop : fld v 3 0 = 6)
    (hk : fld v 14 12 < 4) (hsti : s.sti = none) (hmod : s.modHeld = false) (hbar : s.revokeBar (fld v 14 12) = 0) :
    doRevoke dom v s = (s.setBits Reg.STI_KEYS (2 ^ (4 + fld v 14 12))).stiDone := by
  rw [doRevoke, State.hostWrite_writes hw, if_neg (by omega), hsti, hmod, hbar]
  rfl

/-- An OP that the table does not give, or a REVOKE of slots 4 to 7, is answered with BAD_CMD (R57). -/
theorem doStiBadCmd_free {s : State} {dom : Nat} {v : Word} (hw : s.Writes dom Reg.STI_CMD) (hsti : s.sti = none)
    (hop : fld v 3 0 = 0 ∨ fld v 3 0 = 5 ∨ 7 ≤ fld v 3 0 ∨ fld v 3 0 = 6 ∧ 4 ≤ fld v 14 12) :
    doStiBadCmd dom v s = s.stiReject dom ⟨0x12, 0, 0⟩ := by
  have hbad : (fld v 3 0 == 0 || fld v 3 0 == 5 || decide (7 ≤ fld v 3 0) ||
      (fld v 3 0 == 6 && decide (4 ≤ fld v 14 12))) = true := by
    simpa [or_assoc] using hop
  rw [doStiBadCmd, State.hostWrite_writes hw, hbad, hsti]
  rfl

/-- A STORE of an accepted image goes to the flash while power is good and no supervisor switch runs (R70). -/
theorem doStiStore_accepts {s t : State} {dom fails : Nat} {v : Word} {img : List Byte}
    (hw : s.Writes dom Reg.STI_CMD) (hop : fld v 3 0 = 4) (hsti : s.sti = none) (hmod : s.modHeld = false)
    (hsw : s.supSwitch = false) (hpfw : s.pfw = false)
    (hread : s.stiFetch false (fld v 14 12) fails = (t, some img)) (hinj : t.injArmed blkSTI 3 = false)
    (hok : t.imgReject img 0 0 false = none) :
    doStiStore dom v fails s =
      (t.stiBegin { op := 4, slot := fld v 14 12 } 6).norPush
        { user := 1, region := 5, erases := [(norTrailer (fld v 14 12), 65536), (norImage (fld v 14 12), 0x100000)],
          writes := [(norImage (fld v 14 12), img),
            (norTrailer (fld v 14 12), leBytes 4 img.length ++ leBytes 4 (crc32c img))] } := by
  rw [doStiStore, State.stiCmd_free hw hop hsti (.inr hmod), hsw, hpfw, State.stiExamine_accepts hread hinj hok]
  rfl

/-- A write of STI_BOOT is stored and goes to the flash while power is good (R72, R514). -/
theorem doStiBootWrite_good {s : State} {dom : Nat} (v : Word) (hw : s.Writes dom Reg.STI_BOOT) (hpfw : s.pfw = false) :
    doStiBootWrite dom v s = (s.wrRow Reg.STI_BOOT v).norPush (identityOp 1 norBoot (fld v 2 0)) := by
  rw [doStiBootWrite, State.hostWrite_writes hw, hpfw]
  rfl

/-- Firmware that is read and that the checks accept is stored in the slot that does not run (R515, R518). -/
theorem doFwStore_accepts {s t : State} {dom : Nat} {v : Word} {h : HostRead} {img : List Byte}
    (hw : s.Writes dom Reg.SUP_CMD) (hop : fld v 3 0 = 1) (hsup : s.sup.op = 0) (hpend : s.pending? = false)
    (hpfw : s.pfw = false) (hread : s.fwFetch (bit v 8) h = (t, some img))
    (hok : fwReject (s.rd Reg.STI_KEYS) s.keyOf img (s.rdF Reg.SUP_LEN 22 0) = 0) :
    doFwStore dom v h s = t.fwStore (1 - s.rdF Reg.SUP_FW 0 0) img := by
  rw [doFwStore, State.supCmd_free hw hop hsup, hpfw, hpend]
  simp only [hread, hok, ne_eq, not_true_eq_false, Bool.false_eq_true, if_false]

/-- FW_ACTIVATE switches to the other slot where it is valid (R519). -/
theorem doFwActivate_valid {s : State} {dom : Nat} (hw : s.Writes dom Reg.SUP_CMD) (hsup : s.sup.op = 0)
    (hpend : s.pending? = false) (hsafe : s.safeMode = false) (hok : s.fwSlotOk (1 - s.rdF Reg.SUP_FW 0 0) = true) :
    doFwActivate dom s = s.supSwitchTo 2 := by
  rw [doFwActivate, State.hostWrite_writes hw, if_neg (not_not.2 hsup), hpend, hsafe, hok]
  rfl

/-- Settles O60: each command is taken up, and what it works on is accepted, so it runs. -/
theorem imageCommandsRun : Obligations.ImageCommandsRun := by
  intro s t d v fails h img
  refine ⟨fun hw hsti => ⟨?_, ?_, ?_, ?_, ?_, fun hop => ?_⟩, fun hw hpfw => ?_, fun hw hsup hpend => ⟨?_, ?_⟩⟩
  · rintro hop hmod ⟨hread, hinj, hok⟩
    rw [exec_stiLoadWhole, doStiLoadWhole, State.stiLoad_accepts hw hop hsti hmod hread hinj hok]
  · rintro hop hmod ⟨hread, hinj, hok⟩
    rw [exec_stiLoadTile, doStiLoadTile, State.stiLoad_accepts hw hop hsti hmod hread hinj hok]
  · rintro hop ⟨hread, hinj, hok⟩
    rw [exec_stiCheck, doStiCheck, State.stiCmd_free hw hop hsti (.inl rfl), State.stiExamine_accepts hread hinj hok]
  · rintro hop hmod hsw hpfw ⟨hread, hinj, hok⟩
    rw [exec_stiStore, doStiStore_accepts hw hop hsti hmod hsw hpfw hread hinj hok]
  · intro hop hk hmod hpfw hprog hkept hother
    rw [exec_revoke, doRevoke_free hw hop hk hsti hmod (State.revokeBar_free hpfw hprog hkept hother)]
  · rw [exec_stiBadCmd, doStiBadCmd_free hw hsti hop]
  · rw [exec_stiBootWrite, doStiBootWrite_good v hw hpfw]
  · intro hop hpfw hread hok
    rw [exec_fwStore, doFwStore_accepts hw hop hsup hpend hpfw hread hok]
  · intro hsafe hok
    rw [exec_fwActivate, doFwActivate_valid hw hsup hpend hsafe hok]

end Sys2Proof.Machine
end

section
/-! SUPPORT. The decode front of a sequencer (R73–R101): what a decoded instruction does, by the kind of meaning it has:
a step of the program state, a condition, an action queued for the play front, or a play. -/

namespace Sys2Proof.Machine

open Sys2Proof

section arms
variable (s : State) (n : Fin 16)

theorem exec_nop : exec (.nop n) s = .next (doNop n s) := rfl

theorem exec_halt : exec (.halt n) s = .next (doHalt n s) := rfl

theorem exec_jmp : exec (.jmp n) s = .next (doJmp n s) := rfl

theorem exec_jcc : exec (.jcc n) s = .next (doJcc n s) := rfl

theorem exec_call : exec (.call n) s = .next (doCall n s) := rfl

theorem exec_rtn : exec (.rtn n) s = .next (doRtn n s) := rfl

theorem exec_loop : exec (.loop n) s = .next (doLoop n s) := rfl

theorem exec_endl : exec (.endl n) s = .next (doEndl n s) := rfl

theorem exec_sett : exec (.sett n) s = .next (doSett n s) := rfl

theorem exec_setm : exec (.setm n) s = .next (doSetm n s) := rfl

theorem exec_setp : exec (.setp n) s = .next (doSetp n s) := rfl

theorem exec_flag : exec (.flag n) s = .next (doFlag n s) := rfl

theorem exec_sig : exec (.sig n) s = .next (doSig n s) := rfl

theorem exec_epoch : exec (.epoch n) s = .next (doEpoch n s) := rfl

theorem exec_waitt : exec (.waitt n) s = .next (doWaitt n s) := rfl

theorem exec_play : exec (.play n) s = .next (doPlay n s) := rfl

theorem exec_playl : exec (.playl n) s = .next (doPlayl n s) := rfl

theorem exec_spool : exec (.spool n) s = .next (doSpool n s) := rfl

theorem exec_leader : exec (.leader n) s = .next (doLeader n s) := rfl

theorem exec_matchSeg : exec (.matchSeg n) s = .next (doMatch n s) := rfl

end arms

/-! ### What an instruction does to the program state (R87, R88, R96) -/

/-- What ENDL leaves of a program state whose counter `k` is not 0 (R88). -/
def Prog.endl (p : Prog) (k : Nat) : Prog :=
  { p with pc := if p.lcAt k = 1 then p.pc + 1 else kget (fun _ => 0) p.lcStart k,
           lc := kset (fun _ => 0) p.lc k (p.lcAt k - 1) }

section progStep
variable {i : SInstr} (c : Bool) (p : Prog)

/-- An instruction that neither branches nor loops nor sets flags only goes on. -/
theorem progStep_succ (h : i.op ∉ [2, 3, 4, 5, 6, 7, 0xB]) : progStep i c p = .next { p with pc := p.pc + 1 } := by
  simp only [List.mem_cons, List.not_mem_nil, or_false, not_or] at h
  obtain ⟨h2, h3, h4, h5, h6, h7, hB⟩ := h
  simp only [progStep, Prog.succ]

theorem progStep_jmp (h : i.op = 2) : progStep i c p = .next { p with pc := bits i.a 19 0 } := by
  simp only [progStep, h]

theorem progStep_jcc (h : i.op = 3) :
    progStep i c p = .next { p with pc := if c then bits i.a 19 0 else p.pc + 1 } := by
  cases c <;> simp only [progStep, h] <;> rfl

/-- CALL and RTN, as every conditional instruction, go on where the condition is false. -/
theorem progStep_false (h : i.op ∈ [1, 3, 4, 5]) : progStep i false p = .next { p with pc := p.pc + 1 } := by
  simp only [List.mem_cons, List.not_mem_nil, or_false] at h
  rcases h with h | h | h | h <;> simp only [progStep, h] <;> rfl

theorem progStep_call_room (h : i.op = 4) (hroom : p.stack.length < 16) :
    progStep i true p = .next { p with pc := bits i.a 19 0, stack := (p.pc + 1) :: p.stack } := by
  simp only [progStep, h, Bool.not_true, Bool.false_eq_true, if_false, Nat.not_le.2 hroom]

theorem progStep_call_full (h : i.op = 4) (hfull : 16 ≤ p.stack.length) : progStep i true p = .fault 5 := by
  simp only [progStep, h, Bool.not_true, Bool.false_eq_true, if_false, hfull, if_true]

theorem progStep_rtn (h : i.op = 5) {r : Nat} {st : List Nat} (hst : p.stack = r :: st) :
    progStep i true p = .next { p with pc := r, stack := st } := by
  simp only [progStep, h, Bool.not_true, Bool.false_eq_true, if_false, hst]

theorem progStep_rtn_empty (h : i.op = 5) (hst : p.stack = []) : progStep i true p = .fault 6 := by
  simp only [progStep, h, Bool.not_true, Bool.false_eq_true, if_false, hst]

theorem progStep_loop (h : i.op = 6) :
    progStep i c p = .next
      { p with pc := p.pc + 1, lc := kset (fun _ => 0) p.lc (bits i.a 2 0) i.b,
               lcStart := kset (fun _ => 0) p.lcStart (bits i.a 2 0) (p.pc + 1) } := by
  simp only [progStep, h]
  rfl

theorem progStep_endl_zero (h : i.op = 7) (hv : p.lcAt (bits i.a 2 0) = 0) : progStep i c p = .fault 7 := by
  simp only [progStep, h, hv, if_true]

theorem progStep_endl (h : i.op = 7) (hv : p.lcAt (bits i.a 2 0) ≠ 0) :
    progStep i c p = .next (p.endl (bits i.a 2 0)) := by
  simp only [progStep, h, if_neg hv]
  by_cases h1 : p.lcAt (bits i.a 2 0) = 1 <;> simp only [Prog.endl, Prog.succ, h1, if_true, if_false]

theorem progStep_flag (h : i.op = 0xB) :
    progStep i c p = .next
      { p with pc := p.pc + 1, flags := (p.flags &&& (255 - bits i.a 15 8)) ||| bits i.a 7 0 } := by
  simp only [progStep, h]
  rfl

end progStep

/-- A counter at 1 ends its loop (R88). -/
theorem Prog.endl_last {p : Prog} {k : Nat} (h : p.lcAt k = 1) :
    p.endl k = { p with pc := p.pc + 1, lc := kset (fun _ => 0) p.lc k (p.lcAt k - 1) } := by
  rw [Prog.endl, if_pos h]

/-- Another counter sends the loop back to its start (R88). -/
theorem Prog.endl_again {p : Prog} {k : Nat} (h : p.lcAt k ≠ 1) :
    p.endl k = { p with pc := kget (fun _ => 0) p.lcStart k, lc := kset (fun _ => 0) p.lc k (p.lcAt k - 1) } := by
  rw [Prog.endl, if_neg h]

theorem Prog.lcAt_endl (p : Prog) (k : Nat) : (p.endl k).lcAt k = p.lcAt k - 1 := kget_kset_same ..

/-! ### What the decode front does with a decoded instruction -/

section step
variable {s : State} {n : Nat} {i : SInstr} {c : Bool}

theorem State.stepProg_next {q : Prog} (h : progStep i c (s.sq n).prog = .next q) :
    s.stepProg n i c = s.setSq n { s.sq n with prog := q, sincePlay := (s.sq n).sincePlay + 1 } := by
  simp only [State.stepProg, h]
  rfl

theorem State.stepProg_fault {code : Nat} (h : progStep i c (s.sq n).prog = .fault code) :
    s.stepProg n i c = s.selfFault n code (s.sq n).prog.pc := by
  simp only [State.stepProg, h]

/-- A conditional instruction but a HALT that holds is a step of the program state. -/
theorem State.condTaken_step (h : i.op ≠ 1 ∨ c = false) : s.condTaken n i c = s.stepProg n i c :=
  if_neg fun ⟨hop, hc⟩ => h.elim (fun hno => hno hop) fun hno => absurd (hc.symm.trans hno) (by decide)

/-- A HALT that holds queues the end of the run at its play point and stops decode (R97). -/
theorem State.condTaken_halt (h : i.op = 1) :
    s.condTaken n i true =
      (s.setSq n { s.sq n with queue := (s.sq n).queue ++ [.point .halt (s.sq n).prog.pc], decodeHalt := true }).front
        n :=
  if_pos ⟨h, rfl⟩

theorem State.condOp_program (h : condClass i.cond = .program) (hc : condProgram i.cond i.b (s.sq n).prog = c) :
    s.condOp n i = s.condTaken n i c := by
  rw [State.condOp, if_pos h, hc]

theorem State.condOp_branch (h : condClass i.cond ≠ .program) : s.condOp n i = s.condBranch n i := if_neg h

/-- An action is queued for the play front, and the decode front makes its step (R75). -/
theorem State.queuePoint_next {op : PointOp} {q : Prog} (h : progStep i false (s.sq n).prog = .next q) :
    s.queuePoint n i op =
      ((s.setSq n { s.sq n with queue := (s.sq n).queue ++ [.point op (s.sq n).prog.pc] }).setSq n
        { (s.setSq n { s.sq n with queue := (s.sq n).queue ++ [.point op (s.sq n).prog.pc] }).sq n with
          prog := q, sincePlay := (s.sq n).sincePlay + 1 }).front n := by
  rw [State.queuePoint]
  refine congrArg (State.front · n) ?_
  rw [State.stepProg_next (q := q) (by rw [State.sq_setSq_same]; exact h), State.sq_setSq_same]

end step

section decode
variable {s : State} {n : Nat} {i : SInstr}

/-- The instruction that the decode front stands at, decoded, has its own meaning. -/
theorem State.Decodes.acts (h : s.Decodes n i) (hrun : s.runs = true) {op : Nat} (hop : i.op = op)
    (k : SInstr → State → State) : s.decodeOp n op k = k i s := by
  obtain ⟨hdue, hpc, hfetch, hok, hroom⟩ := h
  have hcount : (!isPlayOp op && decide (runawayLimit ≤ (s.sq n).sincePlay + 1)) = false := by
    rcases hroom with hplay | hless
    · rw [← hop, hplay]
      rfl
    · rw [decide_eq_false (Nat.not_le.2 hless), Bool.and_false]
  rw [State.decodeOp, State.whenDue_due hrun hdue]
  simp only [hpc, hfetch, hop, hok, hcount, bne_self_eq_false, Bool.not_true, Bool.false_eq_true, if_false]

/-- An instruction that is wrong as it stands ends the run with the code of what is wrong (R78–R81). -/
theorem State.decodeOp_wrong (hrun : s.runs = true) (hdue : s.decodeDue n = true)
    (hpc : s.pcInRange n (s.sq n).prog.pc = true) (hfetch : s.fetchSeq n (s.sq n).prog.pc = i) {op code : Nat}
    (hop : i.op = op) (hcode : s.staticFault n i = code) (hne : code ≠ 0) (k : SInstr → State → State) :
    s.decodeOp n op k = s.selfFault n code (s.sq n).prog.pc := by
  have hbad : (code != 0) = true := bne_iff_ne.2 hne
  rw [State.decodeOp, State.whenDue_due hrun hdue]
  simp only [hpc, hfetch, hop, hcode, hbad, bne_self_eq_false, Bool.not_true, Bool.false_eq_true, if_false, if_true]

variable (h : s.Decodes n i) (hrun : s.runs = true) {op : Nat} (hop : i.op = op) {c : Bool}
include h hrun hop

/-- A decoded instruction of the program state leaves what its step gives. -/
theorem State.Decodes.steps {q : Prog} (hq : progStep i c (s.sq n).prog = .next q) :
    s.decodeOp n op (fun i s => s.stepProg n i c) =
      s.setSq n { s.sq n with prog := q, sincePlay := (s.sq n).sincePlay + 1 } := by
  rw [h.acts hrun hop, State.stepProg_next hq]

/-- A decoded instruction of the program state whose step faults ends the run. -/
theorem State.Decodes.faults {code : Nat} (hq : progStep i c (s.sq n).prog = .fault code) :
    s.decodeOp n op (fun i s => s.stepProg n i c) = s.selfFault n code (s.sq n).prog.pc := by
  rw [h.acts hrun hop, State.stepProg_fault hq]

/-- A decoded instruction with an action queues it for the play front. -/
theorem State.Decodes.queues (pt : SInstr → PointOp) {q : Prog}
    (hq : progStep i false (s.sq n).prog = .next q) :
    s.decodeOp n op (fun i s => s.queuePoint n i (pt i)) =
      ((s.setSq n { s.sq n with queue := (s.sq n).queue ++ [.point (pt i) (s.sq n).prog.pc] }).setSq n
        { (s.setSq n { s.sq n with queue := (s.sq n).queue ++ [.point (pt i) (s.sq n).prog.pc] }).sq n with
          prog := q, sincePlay := (s.sq n).sincePlay + 1 }).front n := by
  rw [h.acts hrun hop, State.queuePoint_next hq]

/-- A decoded instruction with a Late-class or Trigger-class condition is left to the play front (R82). -/
theorem State.Decodes.branches (hcls : condClass i.cond ≠ .program) :
    s.decodeOp n op (fun i s => s.condOp n i) = s.condBranch n i := by
  rw [h.acts hrun hop, State.condOp_branch hcls]

variable (hcls : condClass i.cond = .program) (hc : condProgram i.cond i.b (s.sq n).prog = c)
include hcls hc

/-- A decoded instruction with a Program-class condition makes the step that the condition's value gives. -/
theorem State.Decodes.condSteps (hno : i.op ≠ 1 ∨ c = false) {q : Prog}
    (hq : progStep i c (s.sq n).prog = .next q) :
    s.decodeOp n op (fun i s => s.condOp n i) =
      s.setSq n { s.sq n with prog := q, sincePlay := (s.sq n).sincePlay + 1 } := by
  rw [h.acts hrun hop, State.condOp_program hcls hc, State.condTaken_step hno, State.stepProg_next hq]

/-- The same of a step that faults. -/
theorem State.Decodes.condFaults (hno : i.op ≠ 1 ∨ c = false) {code : Nat}
    (hq : progStep i c (s.sq n).prog = .fault code) :
    s.decodeOp n op (fun i s => s.condOp n i) = s.selfFault n code (s.sq n).prog.pc := by
  rw [h.acts hrun hop, State.condOp_program hcls hc, State.condTaken_step hno, State.stepProg_fault hq]

end decode

/-- Settles O21: each instruction is decoded, its condition has its value, and its step of the program state is the one
that its clause gives. -/
theorem sequencerProgramSteps : Obligations.SequencerProgramSteps := by
  intro s n i hrun h
  refine ⟨fun hop => ?nop, fun hop => ?jmp, fun hop hp => ?jcc,
    fun hop hp => ⟨fun hc => ?callNot, fun hc hroom => ?call, fun hc hfull => ?callFull⟩,
    fun hop hp => ⟨fun hc => ?rtnNot, fun r st hc hst => ?rtn, fun hc hst => ?rtnEmpty⟩,
    fun hop hp => ⟨fun hc => ?haltNot, fun hc => ?halt⟩,
    fun hp => ⟨fun hop => ?lateHalt, fun hop => ?lateJcc, fun hop => ?lateCall, fun hop => ?lateRtn⟩,
    fun hop => ?loop, fun hop => ⟨fun hv => ?endlZero, fun hv => ?endlLast, fun hv => ?endlAgain⟩⟩
  case nop => rw [exec_nop, doNop, h.steps hrun hop (progStep_succ _ _ (by rw [hop]; decide))]
  case jmp => rw [exec_jmp, doJmp, h.steps hrun hop (progStep_jmp _ _ hop)]
  case jcc => rw [exec_jcc, doJcc, h.condSteps hrun hop hp rfl (.inl (hop ▸ by decide)) (progStep_jcc _ _ hop)]
  case callNot =>
    rw [exec_call, doCall, h.condSteps hrun hop hp hc (.inr rfl) (progStep_false _ (by rw [hop]; decide))]
  case call =>
    rw [exec_call, doCall, h.condSteps hrun hop hp hc (.inl (hop ▸ by decide)) (progStep_call_room _ hop hroom)]
  case callFull =>
    rw [exec_call, doCall, h.condFaults hrun hop hp hc (.inl (hop ▸ by decide)) (progStep_call_full _ hop hfull)]
  case rtnNot =>
    rw [exec_rtn, doRtn, h.condSteps hrun hop hp hc (.inr rfl) (progStep_false _ (by rw [hop]; decide))]
  case rtn =>
    rw [exec_rtn, doRtn, h.condSteps hrun hop hp hc (.inl (hop ▸ by decide)) (progStep_rtn _ hop hst)]
  case rtnEmpty =>
    rw [exec_rtn, doRtn, h.condFaults hrun hop hp hc (.inl (hop ▸ by decide)) (progStep_rtn_empty _ hop hst)]
  case haltNot =>
    rw [exec_halt, doHalt, h.condSteps hrun hop hp hc (.inr rfl) (progStep_false _ (by rw [hop]; decide))]
  case halt => rw [exec_halt, doHalt, h.acts hrun hop, State.condOp_program hp hc, State.condTaken_halt hop]
  case lateHalt => rw [exec_halt, doHalt, h.branches hrun hop hp]
  case lateJcc => rw [exec_jcc, doJcc, h.branches hrun hop hp]
  case lateCall => rw [exec_call, doCall, h.branches hrun hop hp]
  case lateRtn => rw [exec_rtn, doRtn, h.branches hrun hop hp]
  case loop => rw [exec_loop, doLoop, h.steps hrun hop (progStep_loop _ _ hop)]
  case endlZero => rw [exec_endl, doEndl, h.faults hrun hop (progStep_endl_zero _ _ hop hv)]
  case endlLast => rw [exec_endl, doEndl, h.steps hrun hop (progStep_endl _ _ hop (hv ▸ by decide)), Prog.endl_last hv]
  case endlAgain => rw [exec_endl, doEndl, h.steps hrun hop (progStep_endl _ _ hop hv.ne_zero), Prog.endl_again hv.ne']

end Sys2Proof.Machine
end

section
/-! SUPPORT. A loop of the program (R88): the state before each run of a body between LOOP and its ENDL. -/

namespace Sys2Proof.Machine

open Sys2Proof

/-- The program states before the runs of a body that ENDL on counter `k` ends, from the first run's. -/
def loopRun (body : Prog → Prog) (k : Nat) (first : Prog) : Nat → Prog
  | 0 => first
  | m + 1 => (body (loopRun body k first m)).endl k

/-- The program stands at the start `a` of the loop of counter `k`, with `left` runs to go. -/
structure Prog.AtLoop (p : Prog) (k a left : Nat) : Prop where
  pc : p.pc = a
  left : p.lcAt k = left
  start : kget (fun _ => 0) p.lcStart k = a

/-- A body that starts at `a` comes to an ENDL at `b` and leaves counter `k` and its start (R88). -/
def LoopBody (body : Prog → Prog) (k a b : Nat) : Prop :=
  ∀ q, q.pc = a → (body q).pc = b ∧ (body q).lcAt k = q.lcAt k ∧
    kget (fun _ => 0) (body q).lcStart k = kget (fun _ => 0) q.lcStart k

/-- LOOP leads to the start of its loop with its count to go (R88). -/
theorem progStep_loop_atLoop {l : SInstr} (c : Bool) (p : Prog) (h : l.op = 6) :
    ∃ q, progStep l c p = .next q ∧ q.AtLoop (bits l.a 2 0) (p.pc + 1) l.b :=
  ⟨_, progStep_loop c p h, rfl, kget_kset_same .., kget_kset_same (fun _ => 0) p.lcStart _ (p.pc + 1)⟩

section body
variable {body : Prog → Prog} {k a b : Nat} (hbody : LoopBody body k a b)
include hbody

/-- With more than one run to go, the body and ENDL lead back to the start, with one run less to go. -/
theorem LoopBody.again {q : Prog} {left : Nat} (h : q.AtLoop k a (left + 1)) (hleft : left ≠ 0) :
    ((body q).endl k).AtLoop k a left := by
  obtain ⟨-, hlc, hstart⟩ := hbody q h.pc
  have hv : (body q).lcAt k = left + 1 := hlc.trans h.left
  have hback : kget (fun _ => 0) (body q).lcStart k = a := hstart.trans h.start
  refine ⟨?_, ?_, ?_⟩
  · rw [Prog.endl_again (by omega), hback]
  · rw [Prog.lcAt_endl, hv, Nat.add_sub_cancel]
  · exact hback

/-- The ENDL of the last run leaves the counter at 0 and goes on behind itself. -/
theorem LoopBody.last {q : Prog} (h : q.AtLoop k a 1) :
    ((body q).endl k).pc = b + 1 ∧ ((body q).endl k).lcAt k = 0 := by
  obtain ⟨hpc, hlc, -⟩ := hbody q h.pc
  have hv : (body q).lcAt k = 1 := hlc.trans h.left
  constructor
  · rw [Prog.endl_last hv, hpc]
  · rw [Prog.lcAt_endl, hv]

/-- Before run `m` of a loop of `cnt` runs, `cnt - m` runs are to go. -/
theorem LoopBody.atLoop {first : Prog} {cnt : Nat} (h : first.AtLoop k a cnt) {m : Nat} (hm : m < cnt) :
    (loopRun body k first m).AtLoop k a (cnt - m) := by
  induction m with
  | zero => exact h
  | succ m ih =>
    have hcnt : cnt - m = cnt - (m + 1) + 1 := by omega
    exact hbody.again (hcnt ▸ ih (by omega)) (by omega)

end body

/-- An ENDL behind a body that leaves a counter with runs to go makes its step (R88). -/
theorem progStep_endl_atLoop {e : SInstr} {body : Prog → Prog} {k a b left : Nat} (c : Bool) (he : e.op = 7)
    (hk : bits e.a 2 0 = k) (hbody : LoopBody body k a b) {q : Prog} (h : q.AtLoop k a left) (hleft : left ≠ 0) :
    progStep e c (body q) = .next ((body q).endl k) := by
  obtain ⟨-, hlc, -⟩ := hbody q h.pc
  subst hk
  exact progStep_endl c _ he (by rw [hlc, h.left]; exact hleft)

/-- A LOOP without a condition whose count is 0 has a bad operand (R88). -/
theorem State.staticFault_loop_zero (s : State) (n : Nat) {i : SInstr} (hop : i.op = 6) (hcond : i.cond = 0)
    (hb : i.b = 0) : s.staticFault n i = 3 := by
  have hbad : badOperand i = true := by simp [badOperand, hop, hb]
  simp only [State.staticFault, hop, hcond, hbad, Bool.true_or, if_true]
  rfl

/-- Settles O56: the steps of LOOP and ENDL are those of the decode front, and the runs of a loop are counted by
induction on the run. -/
theorem loopBodyRunsCountTimes : Obligations.LoopBodyRunsCountTimes := by
  refine ⟨fun s n i hrun => ⟨fun h hop => ?_, fun h hop => ⟨fun hv => ?_, fun hv hleft => ?_, fun hv hleft => ?_⟩,
    fun hdue hpc hfetch hop hcond hb => ?_⟩, ?_⟩
  · rw [exec_loop, doLoop, h.steps hrun hop (progStep_loop _ _ hop)]
  · rw [exec_endl, doEndl, h.faults hrun hop (progStep_endl_zero _ _ hop hv)]
  · rw [exec_endl, doEndl, h.steps hrun hop (progStep_endl _ _ hop hv), Prog.endl_again (by omega)]
  · rw [exec_endl, doEndl, h.steps hrun hop (progStep_endl _ _ hop hv), Prog.endl_last (by omega)]
  · rw [exec_loop, doLoop,
      State.decodeOp_wrong hrun hdue hpc hfetch hop (s.staticFault_loop_zero n hop hcond hb) (by decide)]
  · intro l e p body at' k hl he hek hcnt hbody
    obtain ⟨first, hfirst, hat⟩ := progStep_loop_atLoop true p hl
    have hloop : LoopBody body k (p.pc + 1) at' := hbody
    have hruns : ∀ m < l.b, (loopRun body k first m).AtLoop k (p.pc + 1) (l.b - m) := fun m hm => hloop.atLoop hat hm
    refine ⟨loopRun body k first, hfirst, fun m hm => ⟨(hruns m hm).pc, (hruns m hm).left, ?_⟩, ?_⟩
    · exact progStep_endl_atLoop true he hek hloop (hruns m hm) (Nat.sub_ne_zero_of_lt hm)
    · obtain ⟨m, hm⟩ := Nat.exists_eq_add_one_of_ne_zero hcnt.ne'
      have hlast := hruns m (by omega)
      rw [hm, Nat.add_sub_cancel_left] at hlast
      rw [hm]
      exact hloop.last hlast

end Sys2Proof.Machine
end

section
/-! SUPPORT. Instructions that the decode front hands to the play front: actions at a play point (R86, R94–R96), and
plays with their descriptors (R83–R85, R91, R92, R104, R122). -/

namespace Sys2Proof.Machine

open Sys2Proof

/-- Settles O22: each instruction is decoded and queues its action, and its step of the program state is to go on, which
FLAG does with its flags changed. -/
theorem sequencerPointActions : Obligations.SequencerPointActions := by
  intro s n i hrun h
  refine ⟨fun hop => ?sett, fun hop => ?setm, fun hop => ?setp, fun hop => ?flag, fun hop => ?sig, fun hop => ?epoch⟩
  case flag =>
    rw [exec_flag, doFlag,
      h.queues hrun hop (fun i => .flag (bits i.a 15 8) (bits i.a 7 0)) (progStep_flag _ _ hop)]
  all_goals have hon := progStep_succ false (s.sq n).prog (i := i) (by rw [hop]; decide)
  case sett => rw [exec_sett, doSett, h.queues hrun hop (fun i => .sett (bits i.a 4 0)) hon]
  case setm => rw [exec_setm, doSetm, h.queues hrun hop (fun i => .setm (bits i.a 3 0)) hon]
  case setp => rw [exec_setp, doSetp, h.queues hrun hop (fun i => .setp (bits i.a 3 0)) hon]
  case sig => rw [exec_sig, doSig, h.queues hrun hop (fun i => .sig i.a) hon]
  case epoch => rw [exec_epoch, doEpoch, h.queues hrun hop (fun i => .epoch i.b) hon]

section plays
variable {s : State} {n : Nat}

/-- A play instruction that a jump vector may reach first, or that none has just been taken to, acts (R104). -/
theorem State.targetOk_ok {i : SInstr} (h : (s.sq n).jtaken = false ∨ jumpPlayOp i.op = true) (k : State → State) :
    s.targetOk n i k = k s := by
  have hok : ((s.sq n).jtaken && !jumpPlayOp i.op) = false := by
    rcases h with h | h <;> rw [h]
    · rfl
    · exact Bool.and_false _
  simp only [State.targetOk, hok, Bool.false_eq_true, if_false]

/-- A decoded play instruction that may play here does what it says of its operands. -/
theorem State.Decodes.plays {i : SInstr} (h : s.Decodes n i) (hrun : s.runs = true)
    (hj : (s.sq n).jtaken = false ∨ jumpPlayOp i.op = true) {op : Nat} (hop : i.op = op)
    (k : SInstr → State → State) : (s.decodeOp n op fun i s => s.targetOk n i (k i)) = k i s := by
  rw [h.acts hrun hop, State.targetOk_ok hj]

/-- A segment-table entry is played where its descriptor is valid and of the kind asked for, and ends the run else
(R83, R84, R91, R92, R122). -/
theorem State.queueSeg_eq (s : State) (n seg : Nat) (loc : Bool) (p : PlayItem) :
    s.queueSeg n seg loc p =
      let r := s.entryDesc n seg
      r.2.elim (r.1.selfFault n 9 (r.1.sq n).prog.pc) fun d =>
        if d.loc = loc then r.1.queuePlay n { p with seg := seg, desc := d }
        else r.1.selfFault n 8 (r.1.sq n).prog.pc := by
  rw [State.queueSeg]
  rcases s.entryDesc n seg with ⟨t, _ | d⟩
  · rfl
  · simp only [Option.elim_some, bne_iff_ne, ne_eq, ite_not]

/-- The three ways of a command that plays a segment-table entry. -/
theorem State.queueSeg_outcomes {seg : Nat} {loc : Bool} {p : PlayItem} {c : Instr}
    (hc : exec c s = .next (s.queueSeg n seg loc p)) :
    let r := s.entryDesc n seg
    (∀ d, r.2 = some d → d.loc = loc → exec c s = .next (r.1.queuePlay n { p with seg := seg, desc := d })) ∧
    (∀ d, r.2 = some d → d.loc ≠ loc → exec c s = .next (r.1.selfFault n 8 (r.1.sq n).prog.pc)) ∧
    (r.2 = none → exec c s = .next (r.1.selfFault n 9 (r.1.sq n).prog.pc)) := by
  rw [hc, State.queueSeg_eq]
  refine ⟨fun d hd hloc => ?_, fun d hd hloc => ?_, fun hd => ?_⟩
  · simp only [hd, Option.elim_some, if_pos hloc]
  · simp only [hd, Option.elim_some, if_neg hloc]
  · simp only [hd, Option.elim_none]

end plays

/-- Settles O23: each instruction is decoded and may play here, and then plays its segment-table entry, or asks for its
leader or its ring first. -/
theorem sequencerPlayInstructions : Obligations.SequencerPlayInstructions := by
  intro s n i hrun h hj l seg loc r bad plays
  have hlocal : i.op ≠ 0x10 → loc = true := fun hop => congrArg Bool.not (decide_eq_false hop)
  have hdram : i.op = 0x10 → loc = false := fun hop => congrArg Bool.not (decide_eq_true hop)
  have hentry : i.op ≠ 0x13 → seg = bits i.a 15 0 := fun hop => if_neg hop
  have hleader : i.op = 0x13 → seg = fld l 15 0 := fun hop => if_pos hop
  refine ⟨fun hop => ?waitt, fun hop => ?play, fun hop => ?playl, fun hop => ?matching,
    fun hop => ⟨fun hl => ?leader, fun hl => ?noLeader⟩, fun hop => ⟨fun hring => ?spool, fun hring => ?noRing⟩⟩
  case waitt =>
    refine State.queueSeg_outcomes ?_
    rw [exec_waitt, doWaitt, h.plays hrun hj hop, hlocal (hop ▸ by decide), hentry (hop ▸ by decide)]
  case play =>
    refine State.queueSeg_outcomes ?_
    rw [exec_play, doPlay, h.plays hrun hj hop, hdram hop, hentry (hop ▸ by decide)]
  case playl =>
    refine State.queueSeg_outcomes ?_
    rw [exec_playl, doPlayl, h.plays hrun hj hop, hlocal (hop ▸ by decide), hentry (hop ▸ by decide)]
  case matching =>
    refine State.queueSeg_outcomes ?_
    rw [exec_matchSeg, doMatch, h.plays hrun hj hop, hlocal (hop ▸ by decide), hentry (hop ▸ by decide)]
  case leader =>
    refine State.queueSeg_outcomes ?_
    rw [exec_leader, doLeader, h.plays hrun hj hop, hlocal (hop ▸ by decide), hleader hop]
    exact congrArg _ (if_pos hl)
  case noLeader =>
    rw [exec_leader, doLeader, h.plays hrun hj hop]
    exact congrArg _ (if_neg (Bool.eq_false_iff.1 hl))
  case spool =>
    rw [exec_spool, doSpool, h.plays hrun hj hop, if_neg hring]
  case noRing =>
    rw [exec_spool, doSpool, h.plays hrun hj hop, if_pos hring]

end Sys2Proof.Machine
end

section
/-! SUPPORT. Run control of a sequencer (R98, R103, R105, R107, R110–R113, R217, R219): the host's commands, the start
of play and the end of a run. -/

namespace Sys2Proof.Machine

open Sys2Proof

section arms
variable (d n : Fin 16) (v : Word) (s : State)

theorem exec_seqStart : exec (.seqStart d n) s = .next (doSeqStart d n s) := rfl

theorem exec_seqStartSync : exec (.seqStartSync d n) s = .next (doSeqStartSync d n s) := rfl

theorem exec_seqStop : exec (.seqStop d n) s = .next (doSeqStop d n s) := rfl

theorem exec_seqCmdInvalid : exec (.seqCmdInvalid d n v) s = .next (doSeqCmdInvalid d n v s) := rfl

theorem exec_glbApply : exec (.glbApply d v) s = .next (doGlbApply d v s) := rfl

theorem exec_seqHtrig : exec (.seqHtrig d n v) s = .next (doSeqHtrig d n v s) := rfl

theorem exec_seqJreq : exec (.seqJreq d n v) s = .next (doSeqJreq d n v s) := rfl

theorem exec_seqDropreq (hi : Bool) : exec (.seqDropreq d n hi v) s = .next (doSeqDropreq d n hi v s) := rfl

theorem exec_playBegin : exec (.playBegin n) s = .next (doPlayBegin n s) := rfl

theorem exec_syncStartBegin : exec .syncStartBegin s = .next (doSyncStartBegin s) := rfl

theorem exec_explicitApply : exec (.explicitApply n) s = .next (doExplicitApply n s) := rfl

theorem exec_runEndComplete : exec (.runEndComplete n) s = .next (doRunEndComplete n s) := rfl

end arms

/-! ### The host's commands -/

/-- A sequencer is in a run in PRIMING, RUNNING and WAITING. -/
theorem State.seqRuns_iff (s : State) (n : Nat) :
    s.seqRuns n = true ↔ s.seqState n = 1 ∨ s.seqState n = 2 ∨ s.seqState n = 3 := by
  simp only [State.seqRuns, State.seqPlays, Bool.or_eq_true, beq_iff_eq]

/-- The OP field of a run command. -/
theorem fld_seqOp (v : Word) : fld v 2 0 = v.toNat % 8 := by
  simp [fld]

section commands
variable {s : State} {dom n : Nat} (hw : s.Writes dom (Reg.SEQ_CMD n))
include hw

/-- A START that meets its conditions starts the run (R98, R110). -/
theorem State.startCmd_ok (sync : Bool) (h : s.startOk n = true) : s.startCmd dom n sync = s.startRun n sync := by
  rw [State.startCmd, State.hostWrite_writes hw, if_pos h]

/-- Another START is discarded with a NOTE fault (R110). -/
theorem State.startCmd_refused (sync : Bool) (h : s.startOk n = false) :
    s.startCmd dom n sync = s.noteReg dom (Reg.SEQ_CMD n) := by
  rw [State.startCmd, State.hostWrite_writes hw, if_neg (Bool.eq_false_iff.1 h)]

/-- STOP is noted for the next apply point of a run (R112). -/
theorem doSeqStop_runs (h : s.seqRuns n = true) : doSeqStop dom n s = s.setSq n { s.sq n with stopReq := true } := by
  rw [doSeqStop, State.hostWrite_writes hw, if_pos h]

/-- STOP does nothing outside a run (R112). -/
theorem doSeqStop_rests (h : ¬ s.seqRuns n = true) : doSeqStop dom n s = s := by
  rw [doSeqStop, State.hostWrite_writes hw, if_neg h]

/-- An OP other than START and STOP is discarded with a NOTE fault (R115). -/
theorem doSeqCmdInvalid_noted {v : Word} (hstart : v.toNat % 8 ≠ 1) (hstop : v.toNat % 8 ≠ 2) :
    doSeqCmdInvalid dom n v s = s.noteReg dom (Reg.SEQ_CMD n) := by
  rw [doSeqCmdInvalid, State.hostWrite_writes hw, fld_seqOp, if_neg (not_or.2 ⟨hstart, hstop⟩)]

end commands

/-- Settles O19: each write reaches its register, and takes the branch that its clause's condition names. -/
theorem sequencerCommandsComplete : Obligations.SequencerCommandsComplete := by
  intro s d n hi v
  refine ⟨fun hw => ⟨fun hok => ⟨?_, ?_⟩, fun hno => ⟨?_, ?_⟩, fun hrun => ?_, fun hrest => ?_, fun h1 h2 => ?_⟩,
    fun hw => ?_, fun hw => ?_, fun hw => ?_, fun hw => ?_⟩
  · rw [exec_seqStart, doSeqStart, State.startCmd_ok hw false hok]
  · rw [exec_seqStartSync, doSeqStartSync, State.startCmd_ok hw true hok]
  · rw [exec_seqStart, doSeqStart, State.startCmd_refused hw false hno]
  · rw [exec_seqStartSync, doSeqStartSync, State.startCmd_refused hw true hno]
  · rw [exec_seqStop, doSeqStop_runs hw ((s.seqRuns_iff n).2 hrun)]
  · rw [exec_seqStop, doSeqStop_rests hw fun hrun => absurd ((s.seqRuns_iff n).1 hrun) (by omega)]
  · rw [exec_seqCmdInvalid, doSeqCmdInvalid_noted hw h1 h2]
  · rw [exec_glbApply, doGlbApply, State.hostWrite_writes hw]
    rfl
  · rw [exec_seqHtrig, doSeqHtrig, State.hostWrite_writes hw]
  · rw [exec_seqJreq, doSeqJreq, State.hostWrite_writes hw]
    rfl
  · rw [exec_seqDropreq, doSeqDropreq, State.hostWrite_writes hw]

/-! ### The start of play and the end of a run -/

/-- A sequencer that rests is STOPPED (R113). -/
theorem State.seqState_seqRests (s : State) (n : Nat) : (s.seqRests n).seqState n = 0 :=
  State.rdF_wrF_same _ _ 0 (by decide) (by decide)

/-- An interrupt bit of a sequencer is no part of its state. -/
theorem State.seqState_irq (s : State) (n m : Nat) : (s.irq (Reg.SEQ_ISTAT n) m).seqState n = s.seqState n := by
  have hne : Reg.SEQ_STAT n ≠ Reg.SEQ_ISTAT n := by simp only [Reg.SEQ_STAT, Reg.SEQ_ISTAT]; omega
  rw [State.seqState, State.seqState, State.rdF_eq, State.rdF_eq, State.irq, State.setBits_eq,
    State.rd_wr_other _ _ hne]

section events
variable {s : State} (hrun : s.runs = true)
include hrun

/-- A primed sequencer that waits for no apply command begins its play (R110). -/
theorem doPlayBegin_due {n : Nat} (hprimed : s.primed n = true) (hsync : bit (s.rd (Reg.SEQ_STAT n)) 12 = false)
    (hlock : bit (s.rd Reg.TMG_CLK_STAT) 31 = true) : doPlayBegin n s = s.playStart n := by
  rw [doPlayBegin, State.whenDue_due hrun (by rw [hprimed, State.syncPend, hsync, State.pllLocked, hlock]; rfl)]

/-- The sequencers that wait for one apply command begin together (R111). -/
theorem doSyncStartBegin_due {g : Nat} (hready : s.syncReady = some g)
    (hlock : bit (s.rd Reg.TMG_CLK_STAT) 31 = true) :
    doSyncStartBegin s = forEach (s.syncMembers g) (fun n s => s.playStart n) s := by
  rw [doSyncStartBegin, hready]
  exact State.whenDue_due hrun hlock _

/-- A run ends once its epochs are published, or none is published any more, and its compares are done (R113). -/
theorem doRunEndComplete_due {n : Nat} (hstop : s.seqState n = 4)
    (hepochs : (s.sq n).epochs = [] ∨ s.epochStop = true) (hres : s.resultsBefore n ((s.sq n).vcnt + 1) = true) :
    doRunEndComplete n s =
      let t := ((s.skipHeld n).seqRests n).irq (Reg.SEQ_ISTAT n) 1
      forEach (t.ownedChans n) (fun c s => s.calStopHook c) t := by
  have hdone : ((s.sq n).epochs.isEmpty || s.epochStop) = true := by
    rw [Bool.or_eq_true, List.isEmpty_iff]
    exact hepochs
  rw [doRunEndComplete, State.whenDue_due hrun (by rw [hstop, hdone, hres]; rfl)]

end events

/-- Settles O20: each event acts, since its clause's conditions make it due, and a run that ends writes STOPPED into the
state of its sequencer, which the interrupt bit leaves. -/
theorem sequencerEventsComplete : Obligations.SequencerEventsComplete := by
  intro s n hrun
  refine ⟨fun hprimed hsync hlock => ?_, fun g hready hlock => ?_, fun happly => ?_, fun hstop hepochs hres => ⟨?_, ?_⟩⟩
  · rw [exec_playBegin, doPlayBegin_due hrun hprimed hsync hlock]
  · rw [exec_syncStartBegin, doSyncStartBegin_due hrun hready hlock]
  · rw [exec_explicitApply, doExplicitApply, State.whenDue_due hrun happly]
  · rw [exec_runEndComplete, doRunEndComplete_due hrun hstop hepochs hres]
  · rw [State.seqState_irq, State.seqState_seqRests]

end Sys2Proof.Machine
end

section
/-! SUPPORT. The end of a segment repeat (R91, R93, R142): which of the three commands it is, and what it does. -/

namespace Sys2Proof.Machine

open Sys2Proof

section arms
variable (n : Fin 16) (s : State)

theorem exec_segmentEnd : exec (.segmentEnd n) s = .next (doSegmentEnd n s) := rfl

theorem exec_waittTimeout : exec (.waittTimeout n) s = .next (doWaittTimeout n s) := rfl

theorem exec_matchEnd : exec (.matchEnd n) s = .next (doMatchEnd n s) := rfl

end arms

/-- The repeat that ends is the last of a WAITT that has not found its trigger (R91). -/
theorem CurPlay.timesOut_iff (c : CurPlay) :
    (c.item.kind == .waitt && waittEnds c == some true) = true ↔ c.item.kind = .waitt ∧ waittEnds c = some true := by
  simp only [Bool.and_eq_true, beq_iff_eq]

/-- The repeat that ends is the last of a MATCH (R93). -/
theorem CurPlay.matched_iff (c : CurPlay) :
    (c.item.kind == .matching && (matchEnds c).isSome) = true ↔ c.item.kind = .matching ∧ (matchEnds c).isSome := by
  simp only [Bool.and_eq_true, beq_iff_eq]

section ends
variable {s : State} {n : Nat} {c : CurPlay} (hrun : s.runs = true) (hat : s.atSegmentEnd n = some c)
include hrun hat

/-- An end that is no WAITT timeout and no end of a MATCH is SEGMENT_END's. -/
theorem doSegmentEnd_due (htime : ¬(c.item.kind = .waitt ∧ waittEnds c = some true))
    (hmatch : ¬(c.item.kind = .matching ∧ (matchEnds c).isSome)) : doSegmentEnd n s = s.segmentEnd n c := by
  rw [← c.timesOut_iff, Bool.not_eq_true] at htime
  rw [← c.matched_iff, Bool.not_eq_true] at hmatch
  rw [doSegmentEnd, hat]
  exact State.whenDue_due hrun (by rw [htime, hmatch]; rfl) _

/-- A WAITT that times out is WAITT_TIMEOUT's (R91). -/
theorem doWaittTimeout_due (htime : c.item.kind = .waitt ∧ waittEnds c = some true) :
    doWaittTimeout n s = s.segmentEnd n c := by
  rw [doWaittTimeout, hat]
  exact State.whenDue_due hrun (c.timesOut_iff.2 htime) _

/-- A MATCH that ends is MATCH_END's (R93). -/
theorem doMatchEnd_due (hmatch : c.item.kind = .matching ∧ (matchEnds c).isSome) :
    doMatchEnd n s = s.segmentEnd n c := by
  rw [doMatchEnd, hat]
  exact State.whenDue_due hrun (c.matched_iff.2 hmatch) _

end ends

/-- Settles O25: the three commands' conditions single out the one whose end it is, and each does the same. -/
theorem segmentEndsComplete : Obligations.SegmentEndsComplete := by
  intro s n c hrun hat
  refine ⟨fun htime hmatch => ?_, fun htime => ?_, fun hmatch => ?_⟩
  · rw [exec_segmentEnd, doSegmentEnd_due hrun hat htime hmatch]
    rfl
  · rw [exec_waittTimeout, doWaittTimeout_due hrun hat htime]
    rfl
  · rw [exec_matchEnd, doMatchEnd_due hrun hat hmatch]
    rfl

end Sys2Proof.Machine
end

section
/-! SUPPORT. The spool ring (R123, R126, R131, R134, R136–R138): what a poll of an entry makes of its READY mark, and
when the check point gives a warning. -/

namespace Sys2Proof.Machine

open Sys2Proof

section arms
variable (s : State) (n : Fin 16)

theorem exec_spoolReadyPoll : exec (.spoolReadyPoll n) s = .next (doSpoolReadyPoll n s) := rfl

theorem exec_spoolCheckPoint : exec (.spoolCheckPoint n) s = .next (doSpoolCheckPoint n s) := rfl

end arms

/-- The next entry of the ring in use is read, and becomes active where it is seen ready (R126, R134). -/
def State.pollRing (s : State) (n : Nat) : State := markSeen n (s.nextUnseen n) (s.pollEntry n (s.nextUnseen n))

/-- The same of the ring that waits, for a SPOOL queued (R131). -/
def State.pollNewRing (s : State) (n : Nat) : State := markNext n (s.nextOfNew n) (s.pollEntry n (s.nextOfNew n))

/-- An entry becomes active exactly where its read is not lost and its READY mark is seen (R126, R134). -/
theorem markSeen_eq (n e : Nat) (r : State × Bool) :
    markSeen n e r =
      if r.2 = false ∧ r.1.readyMark n e = true then
        r.1.setSq n { r.1.sq n with
          ready := (r.1.sq n).ready ++ [e], readyAt := kset (fun _ => 0) (r.1.sq n).readyAt e (r.1.sq n).vcnt,
          copies := kset (fun _ => none) (r.1.sq n).copies e (some (r.1.seenDesc n e)) }
      else r.1 := by
  refine if_congr ?_ rfl rfl
  rw [Bool.and_eq_true, Bool.not_eq_true']

/-- The first entry seen ready, if any, is not ready for a boundary too soon after it was seen (R136, R138). -/
theorem readyFor_late {seen : List Nat × KMap Nat} {b : Nat}
    (hlate : ∀ x l, seen.1 = x :: l → kget (fun _ => 0) seen.2 x ≠ 0 ∧ b < kget (fun _ => 0) seen.2 x + 1024) :
    readyFor seen b = false := by
  obtain ⟨ready, readyAt⟩ := seen
  cases ready with
  | nil => rfl
  | cons x l =>
    obtain ⟨hplayed, hsoon⟩ := hlate x l rfl
    exact decide_eq_false (not_or.2 ⟨hplayed, Nat.not_le.2 hsoon⟩)

/-- An entry due for which no warning was given gets one (R136). -/
theorem State.urWarn_first {s : State} {n : Nat} (hwarn : (s.sq n).warned = false) :
    s.urWarn n =
      ((s.setSq n { s.sq n with warned := true }).count (Reg.SEQ_UR_WARN n) 1).irq (Reg.SEQ_ISTAT n) 2 := by
  rw [State.urWarn, if_neg (Bool.eq_false_iff.1 hwarn)]

section polls
variable {s : State} {n : Nat} (hrun : s.runs = true) (hseq : s.seqRuns n = true)
include hrun hseq

/-- A sequencer that runs polls where one of the two rings is to be read. -/
theorem doSpoolReadyPoll_due (hpoll : s.pollsRing n = true ∨ s.pollsNext n = true) :
    doSpoolReadyPoll n s =
      let t := if s.pollsRing n then s.pollRing n else s
      if t.pollsNext n then t.pollNewRing n else t := by
  have hdue : (s.seqRuns n && (s.pollsRing n || s.pollsNext n)) = true := by
    rw [hseq, Bool.true_and, Bool.or_eq_true]
    exact hpoll
  exact State.whenDue_due hrun hdue _

/-- Where no other ring is to be read after it, the ring in use alone is polled (R134). -/
theorem doSpoolReadyPoll_ring (hring : s.pollsRing n = true) (hnext : (s.pollRing n).pollsNext n = false) :
    doSpoolReadyPoll n s = s.pollRing n := by
  simp only [doSpoolReadyPoll_due hrun hseq (.inl hring), if_pos hring, if_neg (Bool.eq_false_iff.1 hnext)]

/-- A ring that waits for a SPOOL is polled after the ring in use (R131). -/
theorem doSpoolReadyPoll_both (hring : s.pollsRing n = true) (hnext : (s.pollRing n).pollsNext n = true) :
    doSpoolReadyPoll n s = (s.pollRing n).pollNewRing n := by
  simp only [doSpoolReadyPoll_due hrun hseq (.inl hring), if_pos hring, if_pos hnext]

/-- Where the ring in use is not polled, a ring that waits for a SPOOL is polled alone (R131). -/
theorem doSpoolReadyPoll_next (hring : s.pollsRing n = false) (hnext : s.pollsNext n = true) :
    doSpoolReadyPoll n s = s.pollNewRing n := by
  simp only [doSpoolReadyPoll_due hrun hseq (.inr hnext), if_neg (Bool.eq_false_iff.1 hring), if_pos hnext]

end polls

/-- A check point is due where the next boundary is fixed and near and its entry, not warned of, is not ready for it
(R136–R138). -/
theorem State.checkDue_of {s : State} {n b : Nat} (hplay : s.seqPlays n = true) (hwarn : (s.sq n).warned = false)
    (hb : s.spoolDue n = some b) (hnear : b ≤ (s.sq n).vcnt + 1024)
    (hready : readyFor (s.seenNext n (s.spoolGoesOn n)) b = false) : s.checkDue n = true := by
  simp only [State.checkDue, hplay, hwarn, hb, hready, decide_eq_true hnear]
  rfl

/-- Settles O27: the poll reads the rings that its clause's conditions name, and the check point is due, since an entry
seen too late is not ready for the boundary. -/
theorem spoolEventsComplete : Obligations.SpoolEventsComplete := by
  intro s n hrun u e r out
  have hout : s.pollRing n = out := markSeen_eq n e r
  refine ⟨fun hseq hring => ⟨fun hnext => ?_, fun hnext => ?_⟩, fun hseq hring hnext => ?_,
    fun b hplay hwarn hb hnear hlate => ?_⟩
  · rw [exec_spoolReadyPoll, doSpoolReadyPoll_ring hrun hseq hring (hout ▸ hnext), hout]
  · rw [exec_spoolReadyPoll, doSpoolReadyPoll_both hrun hseq hring (hout ▸ hnext), hout, State.pollNewRing]
  · rw [exec_spoolReadyPoll, doSpoolReadyPoll_next hrun hseq hring hnext, State.pollNewRing]
  · have hdue : s.checkDue n = true := State.checkDue_of hplay hwarn hb hnear (readyFor_late hlate)
    rw [exec_spoolCheckPoint, doSpoolCheckPoint, State.whenDue_due hrun hdue, State.urWarn_first hwarn]

end Sys2Proof.Machine
end

section
/-! SUPPORT. Writes to the waveform tables (R145, R158–R161): what a write that reaches the tables does with the entry
buffer, what a commit comes to, and the commit whose effect begins at a vector. -/

namespace Sys2Proof.Machine

open Sys2Proof

section arms
variable (s : State) (d : Fin 16) (ch : Fin 128) (tset : Fin 32) (code : Fin 16)

theorem exec_wftWordWrite (w : Fin 9) (v : Word) :
    exec (.wftWordWrite d ch tset code w v) s = .next (doWftWordWrite d ch tset code w v s) := rfl

theorem exec_wftCommit (v : Word) : exec (.wftCommit d ch tset code v) s = .next (doWftCommit d ch tset code v s) := rfl

theorem exec_wftEntryTakesEffect :
    exec (.wftEntryTakesEffect ch tset code) s = .next (doWftEntryTakesEffect ch tset code s) := rfl

end arms

/-- What R151 makes of the bytes `bs` as the entry at `a`: entry 0 of a timing set that is serial on its channel meets
R164 too. -/
def State.wftError (s : State) (a : Nat) (bs : List Byte) : Nat :=
  let e := wftEntry a
  entryError bs (e.2.2 == 0 && bit (s.apv (Reg.CHN_SER e.1)) e.2.1)

/-- A BAR4 write that reaches its place does there what it is to do. -/
theorem State.bar4Write_reached {s : State} {dom blk : Nat} {may : Bool} {u : Nat × Nat}
    (h : s.Writes4 dom may u blk) (o : Nat) (k : State → State) : s.bar4Write dom o may (some u) blk k = k s := by
  obtain ⟨hon, hgrave, hmay, hsafe, hawake⟩ := h
  simp only [State.bar4Write, hon, hgrave, hmay, hsafe, hawake, Bool.not_true, Bool.or_self, Bool.false_eq_true, if_false]

/-- A commit is judged with the buffer emptied, and stores the entry exactly where it has no error (R159). -/
theorem State.wftCommit_eq (s : State) (req a : Nat) (v : Word) :
    s.wftCommit req a v =
      let b := s.wftAbandon req a
      let bs := b.wftBytes req a v
      let t := b.setWftBuf req none
      if t.wftError a bs = 0 then t.wftStore a bs else t.wftRefuse req a (t.wftError a bs) := by
  dsimp only [State.wftCommit]
  split
  next herr => exact (if_pos herr).symm
  next hne => exact (if_neg hne).symm

section writes
variable {s : State} {dom c : Nat} (h : s.Writes4 dom (s.owns dom 2 c) (1, c) (0x400 + c))
include h

/-- A write of words 0–8 that reaches the tables is held in its domain's buffer (R159). -/
theorem doWftWordWrite_reached (t k w : Nat) (v : Word) :
    doWftWordWrite dom c t k w v s = s.wftHold dom (wftAddr c t k) w v :=
  State.bar4Write_reached h _ _

/-- A write of word 9 that reaches the tables commits the entry (R159). -/
theorem doWftCommit_reached (t k : Nat) (v : Word) :
    doWftCommit dom c t k v s = s.wftCommit dom (wftAddr c t k) v :=
  State.bar4Write_reached h _ _

end writes

/-- Settles O29: a write that reaches the tables is held or commits its entry, and a listed commit is due. -/
theorem waveformTableCommandsComplete : Obligations.WaveformTableCommandsComplete := by
  intro s d ch tset code w v a b bs e err
  refine ⟨fun hreach => ⟨?_, fun herr => ?_, fun herr => ?_⟩, fun hrun hdue => ?_⟩
  · rw [exec_wftWordWrite, doWftWordWrite_reached hreach, State.wftHold]
  · rw [exec_wftCommit, doWftCommit_reached hreach, State.wftCommit_eq]
    exact congrArg _ (if_pos herr)
  · rw [exec_wftCommit, doWftCommit_reached hreach, State.wftCommit_eq]
    exact congrArg _ (if_neg herr)
  · rw [exec_wftEntryTakesEffect, doWftEntryTakesEffect]
    exact congrArg _ (State.whenDue_due hrun hdue _)

end Sys2Proof.Machine
end

section
/-! SUPPORT. The result of a vector (R181, R194–R205): when the oldest one that waits has it, what the comparator shows,
and what the verdict adds to a channel's counters and first-fail registers. -/

namespace Sys2Proof.Machine

open Sys2Proof

theorem exec_vectorResult (ch : Fin 128) (obs : List Obs) (s : State) :
    exec (.vectorResult ch obs) s = .next (doVectorResult ch obs s) := rfl

/-! ### What the comparator shows (R193, R194) -/

/-- Crossed thresholds turn Mid-band into Both, and others Both into Mid-band. -/
theorem cmpState_eq (crossed : Bool) (st : Fin 4) :
    cmpState crossed st = if crossed ∧ st = 0 then 3 else if ¬ crossed ∧ st = 3 then 0 else st := by
  cases crossed <;> simp [cmpState]

/-- What the comparator showed at the samples of a vector's compares, under the thresholds in force for it. -/
def CmpVec.seen (v : CmpVec) (obs : List Obs) : List Obs :=
  obs.map fun o => o.map fun x => (cmpState v.crossed x.1, x.2)

/-- CHN_CMP_STAT shows the last of the states seen on a channel, where there is one. -/
def State.showLast (s : State) (c : Nat) (seen : List Obs) : State :=
  match seen.getLast?.bind List.getLast? with
  | some (st, _) => s.wrF (Reg.CHN_CMP_STAT c) 1 0 st.val
  | none => s

/-- The oldest vector of an owned channel, all of whose compares are sampled, gets its result and waits no more. -/
theorem doVectorResult_landed {s : State} {c n : Nat} {v : CmpVec} {rest : List CmpVec} (hrun : s.runs = true)
    (hq : (s.ch c).cmpQ = v :: rest) (hown : s.seqOfCh c = some n) (hland : v.landed s.mt = true) (obs : List Obs) :
    doVectorResult c obs s =
      (State.showLast { s.setCh c { s.ch c with cmpQ := rest } with free := s.free + 64 } c (v.seen obs)).applyVerdict
        n c v (verdict s.free v (v.seen obs)) := by
  simp only [doVectorResult, hq, hown]
  exact State.whenDue_due hrun hland _

/-! ### What a verdict adds to a channel's results (R202, R203) -/

/-- A count that saturates is the lesser of it and the largest value of its width. -/
theorem sat_eq_min (w n : Nat) : sat w n = min n (2 ^ w - 1) := by
  have hpos := Nat.two_pow_pos w
  rw [sat]
  split <;> omega

section add
variable (r : ChanRes) (c : Nat) (v : CmpVec) (d : Verdict)

/-- A vector's compares and masked fails are counted, whatever its verdict. -/
theorem ChanRes.add_counts :
    (r.add c v d).ccnt = min (r.ccnt + d.counted) (2 ^ 48 - 1) ∧
      (r.add c v d).mfcnt = min (r.mfcnt + d.masked) (2 ^ 32 - 1) := by
  rw [← sat_eq_min, ← sat_eq_min, ChanRes.add]
  split
  next => exact ⟨rfl, rfl⟩
  next => cases r.ffv <;> exact ⟨rfl, rfl⟩

variable {d}

/-- A verdict without a failing compare leaves the count of failing vectors and the first fail. -/
theorem ChanRes.add_passing (h : d.failed = 0) :
    (r.add c v d).fcnt = r.fcnt ∧ (r.add c v d).ffv = r.ffv ∧ (r.add c v d).ffInfo = r.ffInfo ∧
      (r.add c v d).ffSeg = r.ffSeg := by
  rw [ChanRes.add, if_pos h]
  exact ⟨rfl, rfl, rfl, rfl⟩

variable (h : d.failed ≠ 0)
include h

/-- A verdict with a failing compare counts one failing vector, and its vector is the first fail where none is kept. -/
theorem ChanRes.add_failing :
    (r.add c v d).fcnt = min (r.fcnt + 1) (2 ^ 48 - 1) ∧ (r.add c v d).ffv = some (r.ffv.getD v.vec) := by
  rw [← sat_eq_min, ChanRes.add, if_neg h]
  cases hf : r.ffv <;> simp

/-- A first fail that is kept stays. -/
theorem ChanRes.add_firstKept {x : Nat} (hf : r.ffv = some x) :
    (r.add c v d).ffInfo = r.ffInfo ∧ (r.add c v d).ffSeg = r.ffSeg := by
  simp [ChanRes.add, if_neg h, hf]

end add

/-- Settles O28: the vector is due, the states shown are those the comparator can show, and the results are those that
the verdict adds to. -/
theorem vectorResultCompletes : Obligations.VectorResultCompletes := by
  intro s ch obs n v rest hrun hq hown hland shows seen d t t' r r'
  obtain ⟨hcounted, hmasked⟩ := ChanRes.add_counts r ch v d
  refine ⟨?_, hcounted, hmasked, ChanRes.add_passing r ch v, fun hfail => ?_⟩
  · have hshows : seen = v.seen obs := by simp only [seen, shows, CmpVec.seen, cmpState_eq]
    rw [exec_vectorResult, doVectorResult_landed hrun hq hown hland, ← hshows]
    rfl
  · obtain ⟨hcount, hfirst⟩ := ChanRes.add_failing r ch v hfail
    exact ⟨hcount, hfirst, fun x => ChanRes.add_firstKept r ch v hfail⟩

end Sys2Proof.Machine
end

section
/-! SUPPORT. The host's writes of the timing block (R171, R174, R182, R191): what a period pair is checked against, and
what each write does once it reaches its register. -/

namespace Sys2Proof.Machine

open Sys2Proof

section arms
variable (s : State) (d : Fin 16) (v : Word)

theorem exec_tmgPerHiWrite (n e : Fin 16) :
    exec (.tmgPerHiWrite d n e v) s = .next (doTmgPerHiWrite d n e v s) := rfl

theorem exec_paceClr : exec (.paceClr d) s = .next (doPaceClr d s) := rfl

theorem exec_tmgCmdInvalid : exec (.tmgCmdInvalid d v) s = .next (doTmgCmdInvalid d v s) := rfl

theorem exec_chnDskPathWrite (c : Fin 128) :
    exec (.chnDskPathWrite d c v) s = .next (doChnDskPathWrite d c v s) := rfl

end arms

/-- The field of a word from bit 0 on is the word's value cut to the field's width. -/
theorem fld_low (v : Word) (hi : Nat) : fld v hi 0 = v.toNat % 2 ^ (hi + 1) := by
  rw [fld, pow_zero, Nat.div_one, Nat.sub_zero]

/-! ### Period pairs (R171, R174) -/

/-- A period is accepted from 2.5 to 2^22 ticks (R171), in units of 2^-16 tick. -/
theorem periodOk_iff (p : Nat) : periodOk p = true ↔ 163840 ≤ p ∧ p ≤ 2 ^ 38 := by
  simp only [periodOk, Bool.and_eq_true, decide_eq_true_eq]

/-- The period that the pair of sequencer `n`'s entry `e` has with `v` as its high word. -/
def State.pairWith (s : State) (n e : Nat) (v : Word) : Nat :=
  (s.rd (Reg.TMG_PER_LO n e)).toNat + 2 ^ 32 * (v.toNat % 128)

section periods
variable {s : State} {n e : Nat} {v : Word} (dom : Nat)

/-- A pair that passes is staged and shown (R174). -/
theorem State.periodWrite_ok (h : periodOk (s.pairWith n e v) = true) :
    s.periodWrite dom n e v =
      { s.wrN (Reg.TMG_PER_HI n e) (v.toNat % 128) with
        perStg := kset (fun _ => none) s.perStg (16 * n + e)
          (some ((s.rd (Reg.TMG_PER_LO n e)).toNat, v.toNat % 128)) } := by
  rw [State.periodWrite, fld_low]
  exact if_pos h

/-- A pair that fails is discarded: the entry shows the pair it had, and the failure is recorded (R174). -/
theorem State.periodWrite_bad (h : periodOk (s.pairWith n e v) = false) :
    s.periodWrite dom n e v =
      (((((s.wrN (Reg.TMG_PER_LO n e) (s.periodPair n e).1).wrN (Reg.TMG_PER_HI n e) (s.periodPair n e).2).wrN
        Reg.TMG_ERR (2 ^ 31 + e * 16 + n)).irq Reg.TMG_ISTAT 16).noteReg dom (Reg.TMG_PER_HI n e)) := by
  rw [State.periodWrite, fld_low]
  exact if_neg (Bool.eq_false_iff.1 h)

end periods

/-- A pair out of range fails the check (R171). -/
theorem periodOk_outside {p : Nat} (h : p < 163840 ∨ 2 ^ 38 < p) : periodOk p = false := by
  rw [← Bool.not_eq_true, periodOk_iff]
  omega

/-! ### What a read of TMG_PACE_MIN answers -/

/-- TMG_PACE_MIN is a view of the monitors, of every domain the same (R191). -/
theorem State.regLive_paceMin (s : State) (dom : Nat) : s.regLive dom Reg.TMG_PACE_MIN = word s.paceMin := rfl

/-! ### The writes -/

section writes
variable {s : State} {dom : Nat} {v : Word}

/-- A TMG_CMD without PACE_CLR is discarded with a NOTE fault (R191). -/
theorem doTmgCmdInvalid_noted (hw : s.Writes dom Reg.TMG_CMD) (h : bit v 0 = false) :
    doTmgCmdInvalid dom v s = s.noteReg dom Reg.TMG_CMD := by
  rw [doTmgCmdInvalid, State.hostWrite_writes hw, if_neg (Bool.eq_false_iff.1 h)]

/-- The path of a channel whose sequencer is stopped is taken (R182). -/
theorem doChnDskPathWrite_stopped {c : Nat} (hw : s.Writes dom (Reg.CHN_DSK_PATH c)) (h : s.chStopped c = true) :
    doChnDskPathWrite dom c v s = s.wrN (Reg.CHN_DSK_PATH c) (v.toNat % 2 ^ 16) := by
  rw [doChnDskPathWrite, State.hostWrite_writes hw, if_pos h, fld_low]

end writes

/-- Settles O11: each write reaches its register; a period pair passes the check exactly in its range. -/
theorem tmgCommandsComplete : Obligations.TmgCommandsComplete := by
  intro s d n e c v lo hi shown
  refine ⟨fun hw hmin hmax => ?_, fun hw hout => ?_, fun hw => ⟨?_, s.regLive_paceMin d⟩, fun hw hclr => ?_,
    fun hw hstop => ?_⟩
  · rw [exec_tmgPerHiWrite, doTmgPerHiWrite, State.hostWrite_writes hw,
      State.periodWrite_ok _ ((periodOk_iff _).2 ⟨hmin, hmax⟩)]
  · rw [exec_tmgPerHiWrite, doTmgPerHiWrite, State.hostWrite_writes hw, State.periodWrite_bad _ (periodOk_outside hout)]
  · rw [exec_paceClr, doPaceClr, State.hostWrite_writes hw]
  · rw [exec_tmgCmdInvalid, doTmgCmdInvalid_noted hw hclr]
  · rw [exec_chnDskPathWrite, doChnDskPathWrite_stopped hw hstop]

end Sys2Proof.Machine
end

section
/-! SUPPORT. Module Time distribution (R169, R464–R480): the host's commands, and what the module does of itself when a
lane is free or a time has come. -/

namespace Sys2Proof.Machine

open Sys2Proof

section arms
variable (s : State) (d : Fin 16) (v : Word) (l : Fin 2)

theorem exec_takeover : exec (.takeover d) s = .next (doTakeover d s) := rfl

theorem exec_yield : exec (.yield d) s = .next (doYield d s) := rfl

theorem exec_mtbCmdInvalid : exec (.mtbCmdInvalid d v) s = .next (doMtbCmdInvalid d v s) := rfl

theorem exec_mtbCtlWrite : exec (.mtbCtlWrite d v) s = .next (doMtbCtlWrite d v s) := rfl

theorem exec_mtbTimeSend : exec (.mtbTimeSend l) s = .next (doMtbTimeSend l s) := rfl

theorem exec_mtbEchoSend : exec (.mtbEchoSend l) s = .next (doMtbEchoSend l s) := rfl

theorem exec_mtbMirrorSend : exec .mtbMirrorSend s = .next (doMtbMirrorSend s) := rfl

theorem exec_mtbMasterElect : exec .mtbMasterElect s = .next (doMtbMasterElect s) := rfl

theorem exec_mtbUpstreamLoss : exec .mtbUpstreamLoss s = .next (doMtbUpstreamLoss s) := rfl

theorem exec_mtbHoldoverLimit : exec .mtbHoldoverLimit s = .next (doMtbHoldoverLimit s) := rfl

theorem exec_mtbMirrorTimeout : exec .mtbMirrorTimeout s = .next (doMtbMirrorTimeout s) := rfl

theorem exec_mtbSyncDeliver : exec .mtbSyncDeliver s = .next (doMtbSyncDeliver s) := rfl

theorem exec_xtPulseEnd (x : Fin 8) : exec (.xtPulseEnd x) s = .next (doXtPulseEnd x s) := rfl

end arms

/-! ### The host's commands (R472, R480) -/

section commands
variable {s : State} {dom : Nat} (hw : s.Writes dom Reg.MTB_CMD)
include hw

/-- TAKEOVER is a command for a standby only. -/
theorem doTakeover_writes :
    doTakeover dom s = if s.standby then s.takeover 4 else s.noteReg dom Reg.MTB_CMD := by
  rw [doTakeover, State.hostWrite_writes hw]

/-- YIELD is a command for the active master with an aligned standby only. -/
theorem doYield_writes :
    doYield dom s =
      if s.mtbState = 5 ∧ s.mtb.standbyAligned = true then s.masterFail else s.noteReg dom Reg.MTB_CMD := by
  rw [doYield, State.hostWrite_writes hw]

/-- An OP other than TAKEOVER and YIELD is discarded with a NOTE fault. -/
theorem doMtbCmdInvalid_noted {v : Word} (htake : v.toNat % 4 ≠ 1) (hyield : v.toNat % 4 ≠ 2) :
    doMtbCmdInvalid dom v s = s.noteReg dom Reg.MTB_CMD := by
  rw [doMtbCmdInvalid, State.hostWrite_writes hw, fld_low]
  exact if_neg (not_or.2 ⟨fun h => htake h.1, fun h => hyield h.1⟩)

end commands

/-! ### Timers -/

section timers
variable {s : State} (hrun : s.runs = true)
include hrun

/-- A MASTER at its start that sees no active peer becomes active (R471). -/
theorem doMtbMasterElect_due (hrole : s.role = 1) (hstate : s.mtbState = 1) (hstart : s.mtb.atStart = true)
    (hpeer : s.laneUp 1 = false ∨ (s.tl 1).alignedAt + 40000 ≤ s.mt) :
    doMtbMasterElect s =
      ({ s with mtb := { s.mtb with atStart := false } }.setMtbState 5).wrF Reg.MTB_STAT 21 16 0 := by
  have hnone : (!s.laneUp 1 || decide ((s.tl 1).alignedAt + 40000 ≤ s.mt)) = true := by
    simpa only [Bool.or_eq_true, Bool.not_eq_true', decide_eq_true_eq] using hpeer
  rw [doMtbMasterElect, State.whenDue_due hrun (by rw [hrole, hstate, hstart, hnone]; rfl)]

/-- A holdover longer than its limit ends FREE (R469). -/
theorem doMtbHoldoverLimit_due (hstate : s.mtbState = 4)
    (hlong : s.mtb.holdFrom + 4000000 * s.rdF Reg.MTB_HOLD_MAX 15 0 < s.mt) :
    doMtbHoldoverLimit s =
      (((if s.role = 3 then { s with mtb := { s.mtb with slewOnly := false } } else s).setMtbState 1).irq Reg.MTB_ISTAT
        8).note blkMTB := by
  rw [doMtbHoldoverLimit, State.whenDue_due hrun (by rw [hstate, decide_eq_true hlong]; rfl)]

/-- A standby whose pair lane is silent takes over, unless it is FREE and has noted that (R472). -/
theorem doMtbMirrorTimeout_due (hstandby : s.standby = true) (hnew : s.mtbState ≠ 1 ∨ s.mtb.causeNoted ≠ 1)
    (hpair : s.upv = true ∨ s.mtbState = 4 ∨ s.laneUp 1 = true) (hsilent : s.silentFor 1 4000 = true) :
    doMtbMirrorTimeout s = s.takeover 1 := by
  have hcause : s.newCause 1 = true := by
    simpa only [State.newCause, hstandby, Bool.true_and, Bool.or_eq_true, bne_iff_ne] using hnew
  have hwas : (s.upv || s.mtbState == 4 || s.laneUp 1) = true := by
    simpa only [Bool.or_eq_true, beq_iff_eq, or_assoc] using hpair
  rw [doMtbMirrorTimeout, State.whenDue_due hrun (by rw [hcause, hwas, hsilent]; rfl)]

/-- The first delivery whose tick has come is taken off the list and delivered (R477). -/
theorem doMtbSyncDeliver_due {x : Nat × Nat × Nat}
    (hfirst : s.mtb.deliver.find? (fun x => decide (x.2.2 ≤ s.mt)) = some x) :
    doMtbSyncDeliver s =
      { s with mtb := { s.mtb with deliver := s.mtb.deliver.erase x } }.syncEvent x.1 x.2.1 x.2.2 := by
  simp only [doMtbSyncDeliver, hfirst]
  exact State.whenDue_due hrun rfl _

/-- An XT pulse ends at its tick (R479). -/
theorem doXtPulseEnd_due {x : Nat} (hpulse : kget (fun _ => 0) s.mtb.xtEnd x ≠ 0)
    (hend : kget (fun _ => 0) s.mtb.xtEnd x ≤ s.mt) :
    doXtPulseEnd x s =
      { s with mtb := { s.mtb with xtEnd := kset (fun _ => 0) s.mtb.xtEnd x 0 } }.send
        (.xt x (kget (fun _ => 0) s.mtb.xtEnd x) false) := by
  have hdue : (kget (fun _ => 0) s.mtb.xtEnd x != 0 && decide (kget (fun _ => 0) s.mtb.xtEnd x ≤ s.mt)) = true := by
    rw [bne_iff_ne.2 hpulse, decide_eq_true hend]
    rfl
  rw [doXtPulseEnd, State.whenDue_due hrun hdue]

end timers

/-- Settles O52: each write reaches its register, and each event acts, since its clause's conditions make it due. -/
theorem timeBaseCommandsComplete : Obligations.TimeBaseCommandsComplete := by
  intro s d v note wr fresh old new
  refine ⟨fun hw => ⟨fun hst => ?takeover, fun hst => ?notStandby, fun hact hal => ?yield, fun hno => ?notMaster,
      fun htake hyield => ?otherOp⟩, fun hw => ?ctl, fun hrun => ⟨fun l hfree => ⟨fun htime => ?time, ?echo⟩,
      fun hfree hpair => ?mirror, fun hrole hstate hstart hpeer => ?elect, fun hlost => ?lost,
      fun hstate hlong => ?holdover, fun hst hnew hpair hsilent => ?silent, fun x hfirst => ?deliver,
      fun x hpulse hend => ?pulse⟩⟩
  case takeover => rw [exec_takeover, doTakeover_writes hw, if_pos hst]
  case notStandby => rw [exec_takeover, doTakeover_writes hw, if_neg (Bool.eq_false_iff.1 hst)]
  case yield => rw [exec_yield, doYield_writes hw, if_pos ⟨hact, hal⟩]
  case notMaster => rw [exec_yield, doYield_writes hw, if_neg (by rwa [not_and_or, Bool.not_eq_true])]
  case otherOp => rw [exec_mtbCmdInvalid, doMtbCmdInvalid_noted hw htake hyield]
  case ctl => rw [exec_mtbCtlWrite, doMtbCtlWrite, State.hostWrite_writes hw]
  case time => rw [exec_mtbTimeSend, doMtbTimeSend, State.whenDue_due hrun (by rw [hfree, htime]; rfl)]
  case echo => rw [exec_mtbEchoSend, doMtbEchoSend, State.whenDue_due hrun hfree]
  case mirror => rw [exec_mtbMirrorSend, doMtbMirrorSend, State.whenDue_due hrun (by rw [hfree, hpair]; rfl)]
  case elect => rw [exec_mtbMasterElect, doMtbMasterElect_due hrun hrole hstate hstart hpeer]
  case lost => rw [exec_mtbUpstreamLoss, doMtbUpstreamLoss, State.whenDue_due hrun hlost]
  case holdover => rw [exec_mtbHoldoverLimit, doMtbHoldoverLimit_due hrun hstate hlong]
  case silent => rw [exec_mtbMirrorTimeout, doMtbMirrorTimeout_due hrun hst hnew hpair hsilent]
  case deliver => rw [exec_mtbSyncDeliver, doMtbSyncDeliver_due hrun hfirst]
  case pulse => rw [exec_xtPulseEnd, doXtPulseEnd_due hrun hpulse hend]

end Sys2Proof.Machine
end

section
/-! SUPPORT. Events of the analysis engines (R211, R358–R361, R364, R367, R370, R371): when an item, an operation, a
marker, a timeout and the end of a clearing are due, and what each then does. -/

namespace Sys2Proof.Machine

open Sys2Proof

section arms
variable (s : State)

theorem exec_aneItemAdmit (n : Fin 16) : exec (.aneItemAdmit n) s = .next (doAneItemAdmit n s) := rfl

theorem exec_aneSpillReturn (f : Fin 16384) : exec (.aneSpillReturn f) s = .next (doAneSpillReturn f s) := rfl

theorem exec_aneOperation (e : Fin 32) (fail : Fin 3) :
    exec (.aneOperation e fail) s = .next (doAneOperation e fail s) := rfl

theorem exec_aneMarkerPass (id : Fin 256) (node : Fin 1024) :
    exec (.aneMarkerPass id node) s = .next (doAneMarkerPass id node s) := rfl

theorem exec_aneCompressTimeout (id : Fin 256) (node : Fin 1024) :
    exec (.aneCompressTimeout id node) s = .next (doAneCompressTimeout id node s) := rfl

theorem exec_aneClrmapDone : exec .aneClrmapDone s = .next (doAneClrmapDone s) := rfl

end arms

section events
variable {s : State} (hrun : s.runs = true)
include hrun

/-! ### Admission from a CAP carve (R211, R364) -/

section admission
variable {n : Nat}

/-- The next record enters once it is due. -/
theorem doAneItemAdmit_record {r : CapRec} (hnext : (s.sq n).nextRec = some r) (hdue : s.recDue n r = true) :
    doAneItemAdmit n s = s.admitRec n r := by
  simp only [doAneItemAdmit, hnext, hdue, if_true]
  exact State.whenDue_due hrun rfl _

/-- The next marker enters once it is due, where no record is before it. -/
theorem doAneItemAdmit_marker {m : Nat × Nat} {ms : List (Nat × Nat)} (hmarks : (s.sq n).marks = m :: ms)
    (hdue : s.markDue n m = true) (hnone : ∀ r, (s.sq n).nextRec = some r → s.recDue n r = false) :
    doAneItemAdmit n s =
      let t := s.setSq n { s.sq n with marks := ms }
      forEach (t.inputFlows n true) (fun f s => s.putMarker f m.1) t := by
  cases hnext : (s.sq n).nextRec with
  | none =>
    simp only [doAneItemAdmit, hnext, hmarks]
    exact State.whenDue_due hrun hdue _
  | some r =>
    simp only [doAneItemAdmit, hnext, hmarks, hnone r hnext, Bool.false_eq_true, if_false]
    exact State.whenDue_due hrun hdue _

end admission

/-! ### The return from spill (R361, R364, R367) -/

section spill
variable {f : Nat} {g : Graph} {rest : List Elem} (hg : s.graphOf f = some g)
include hg

/-- A marker goes back to the pool whatever the credits. -/
theorem doAneSpillReturn_marker {e : Nat} (hspill : (s.fw f).spill = .marker e :: rest) :
    doAneSpillReturn f s =
      (s.setFw f { s.fw f with spill := rest, pool := (s.fw f).pool ++ [.marker e] }).schedule g := by
  simp only [doAneSpillReturn, hg, hspill]
  exact State.whenDue_due hrun rfl _

/-- An item comes back with a free credit once the DRAM serves its lines; where a line is lost, so is the item, and a
fail-log flow counts the loss. -/
theorem doAneSpillReturn_item {i : List Byte} {o : Nat} (hspill : (s.fw f).spill = .item i o :: rest)
    (hcredit : s.hasCredit g f = true) :
    let u := s.fw f
    let x := g.entry f
    let a := x.spillBase + u.spHead % x.cap * 64
    let r := s.dramAsk { cls := 1, id := f, rkind := 4 } 0 a i.length
    let data := r.1.dramBytes a i.length
    let t := r.1.setFw f { r.1.fw f with
      spill := rest, spHead := (u.spHead + 1) % x.cap, s75 := u.s75 && decide (x.cap ≤ 2 * itemsIn rest) }
    s.dramHeld a i.length = false →
    doAneSpillReturn f s =
      if r.2 then (if x.kind = 1 then (t.loseItem f 2 data).flogLosses [(2, data)] else t.loseItem f 2 data).schedule g
      else (t.poolPush f (.item data o)).schedule g := by
  intro u x a r data t hserved
  simp only [doAneSpillReturn, hg, hspill]
  exact State.whenDue_due hrun (by rw [hcredit, hserved]; rfl) _

end spill

/-! ### Operations (R370, R371) -/

/-- An engine in use that is not waiting serves the head of its ready list where the flow's node is ready. -/
theorem doAneOperation_ready {e fail f i : Nat} {fs : List Nat} {g : Graph} {n : GNode}
    (hready : (s.eng e).ready = f :: fs) (hon : (s.eng e).offline = false) (huse : s.unit 3 e = 0)
    (hg : s.graphOf f = some g) (hnode : g.consumer f = some (i, n)) (hinputs : s.nodeReady g n = true) :
    doAneOperation e fail s =
      if s.bitmapHeld n then s
      else if 2 ≤ fail then s.engineOff e
      else
        let t := if fail = 1 then
          s.detect { src := 0xA00 + e, cls := 1, chk := 2, rkind := 6, rid := e, retried := true } else s
        ((t.unready e f).serve e f g i n).schedule g := by
  simp only [doAneOperation, hready]
  rw [State.whenDue_due hrun (by rw [hon, huse]; rfl)]
  simp only [hg, hnode, hinputs, Bool.not_true, Bool.false_eq_true, if_false]

/-! ### Markers and COMPRESS runs (R359, R361) -/

section nodes
variable {id i : Nat} {g : Graph} {n : GNode} (hg : s.graphNum id = some g) (hn : g.nodes[i]? = some n)
include hg hn

/-- A marker on every input passes where no run is open, or the open one has room. -/
theorem doAneMarkerPass_due {e : Nat} (hmark : s.markerAt n = some e)
    (hroom : s.openRun g i n = none ∨ s.outsFree g n = true) :
    doAneMarkerPass id i s = s.passMarker g i n e := by
  have hdue : ((s.openRun g i n).isNone || s.outsFree g n) = true := by
    rwa [Bool.or_eq_true, Option.isNone_iff_eq_none]
  simp only [doAneMarkerPass, hg, hn, hmark]
  exact State.whenDue_due hrun hdue _

/-- An open run whose last item came 10 µs ago, which is 40,000 ticks, is emitted where it has room. -/
theorem doAneCompressTimeout_due (hopen : s.openRun g i n ≠ none) (hitem : s.runAt (g.nodeAt i) ≠ 0)
    (hlong : s.runAt (g.nodeAt i) + 40000 ≤ s.mt + 1) (hroom : s.outsFree g n = true) :
    doAneCompressTimeout id i s = (s.emitRun g i n).schedule g := by
  simp only [doAneCompressTimeout, hg, hn]
  refine State.whenDue_due hrun ?_ _
  rw [Option.isSome_iff_ne_none.2 hopen, bne_iff_ne.2 hitem, decide_eq_true hlong, hroom]
  rfl

end nodes

/-! ### The end of CLRMAP (R358) -/

/-- The state in which a clearing has ended: nothing is being cleared, and the interrupt bit is set. -/
def State.clearingEnded (s : State) : State :=
  let t := { s with ane := { s.ane with clearing := none } }
  ((t.wrF Reg.ANE_STAT 31 31 0).wrF Reg.ANE_STAT 30 23 0).irq Reg.ANE_ISTAT 4

/-- The planes of the graph whose clearing has ended are cleared, where it is still loaded. -/
theorem doAneClrmapDone_clearing {id : Nat} (hclear : s.ane.clearing = some id) :
    doAneClrmapDone s =
      match s.clearingEnded.graphNum id with
      | some g => (g.nodes.foldl (fun s n => s.clearPlanes n) s.clearingEnded).schedule g
      | none => s.clearingEnded := by
  simp only [doAneClrmapDone, hclear]
  exact State.whenDue_due hrun rfl _

end events

/-- Settles O41: each event is due by its clause's conditions, and then does what its clause says. -/
theorem engineEventsComplete : Obligations.EngineEventsComplete := by
  intro s hrun
  refine ⟨fun n => ⟨fun r hnext hdue => ?record, fun m ms hmarks hdue hnone => ?marker⟩,
    fun f g rest hg => ⟨fun e hspill => ?spilledMarker, fun i o hspill hcredit hserved =>
      ⟨fun hkept => ?kept, fun hlost => ?lost⟩⟩,
    fun e fail f fs g i n hready hon huse hg hnode hinputs => ?operation,
    fun id node g n hg hn => ⟨fun e hmark hroom => ?pass, fun hopen hitem hlong hroom => ?timeout⟩,
    fun id hclear => ?cleared⟩
  case record => rw [exec_aneItemAdmit, doAneItemAdmit_record hrun hnext hdue, State.admitRec]
  case marker => rw [exec_aneItemAdmit, doAneItemAdmit_marker hrun hmarks hdue hnone]
  case spilledMarker => rw [exec_aneSpillReturn, doAneSpillReturn_marker hrun hg hspill]
  case kept =>
    rw [exec_aneSpillReturn, doAneSpillReturn_item hrun hg hspill hcredit hserved]
    exact congrArg _ (if_neg (Bool.eq_false_iff.1 hkept))
  case lost =>
    rw [exec_aneSpillReturn, doAneSpillReturn_item hrun hg hspill hcredit hserved]
    exact congrArg _ (if_pos hlost)
  case operation => rw [exec_aneOperation, doAneOperation_ready hrun hready hon huse hg hnode hinputs]
  case pass => rw [exec_aneMarkerPass, doAneMarkerPass_due hrun hg hn hmark hroom]
  case timeout => rw [exec_aneCompressTimeout, doAneCompressTimeout_due hrun hg hn hopen hitem hlong hroom]
  case cleared =>
    rw [exec_aneClrmapDone, doAneClrmapDone_clearing hrun hclear]
    rfl

end Sys2Proof.Machine
end

section
/-! SUPPORT. The Contact Sheet (R225, R226, R228, R231–R233, R504): what a read of CSH_ACQ finds, what a release does to
the three buffers, and when an epoch is published and the reserve extended. -/

namespace Sys2Proof.Machine

open Sys2Proof

section arms
variable (s : State) (d n : Fin 16) (v : Word)

theorem exec_epochPublish : exec (.epochPublish n) s = .next (doEpochPublish n s) := rfl

theorem exec_epochReserveExtend : exec .epochReserveExtend s = .next (doEpochReserveExtend s) := rfl

theorem exec_cshAcquire : exec (.cshAcquire d n) s = .next (doCshAcquire d n s) := rfl

theorem exec_cshRelease : exec (.cshRelease d n v) s = .next (doCshRelease d n v s) := rfl

theorem exec_cshForcedRelease : exec (.cshForcedRelease d n v) s = .next (doCshForcedRelease d n v s) := rfl

end arms

/-! ### Acquire (R232) -/

section acquire
variable {s : State} {dom n : Nat} (hr : s.Reads dom (Reg.CSH_ACQ n))
include hr

/-- A buffer that is HELD is answered again. -/
theorem doCshAcquire_held {b : Nat} (hheld : (s.sq n).sheet.held = some b) :
    let h := (s.sq n).sheet
    doCshAcquire dom n s =
      (s.setSq n { s.sq n with sheet := { h with lastAcq := some (kget (fun _ => 0) h.epochOf b) } }).answer
        [word (acqWord h b true)] := by
  simp only [doCshAcquire, State.hostRead_reads hr, hheld]

/-- With no buffer HELD the NEWEST one becomes HELD by the domain. -/
theorem doCshAcquire_newest {b : Nat} (hheld : (s.sq n).sheet.held = none) (hnew : (s.sq n).sheet.newest = some b) :
    let h := (s.sq n).sheet
    let e := kget (fun _ => 0) h.epochOf b
    doCshAcquire dom n s =
      ((s.setSq n { s.sq n with sheet := { h with held := some b, heldBy := dom, lastAcq := some e } }).wrWide
        (Reg.CSH_AEPOCH_LO n) 2 e).answer [word (acqWord h b false)] := by
  simp only [doCshAcquire, State.hostRead_reads hr, hheld, hnew]

/-- With neither there is nothing to acquire. -/
theorem doCshAcquire_none (hheld : (s.sq n).sheet.held = none) (hnew : (s.sq n).sheet.newest = none) :
    doCshAcquire dom n s = s.answer [0] := by
  simp only [doCshAcquire, State.hostRead_reads hr, hheld, hnew]

end acquire

/-! ### Release (R233) -/

section release
variable {s : State} {dom n b a : Nat}

theorem doCshRelease_writes (hw : s.Writes dom (Reg.CSH_REL n)) (v : Word) :
    doCshRelease dom n v s = s.releaseBuf dom n (fld v 1 0) (Reg.CSH_REL n) := by
  rw [doCshRelease, State.hostWrite_writes hw]

theorem doCshForcedRelease_writes (hw : s.Writes dom (Reg.CSH_FREL n)) (v : Word) :
    doCshForcedRelease dom n v s = s.releaseBuf dom n (fld v 1 0) (Reg.CSH_FREL n) := by
  rw [doCshForcedRelease, State.hostWrite_writes hw]

theorem State.releaseBuf_held (h : (s.sq n).sheet.held = some b) : s.releaseBuf dom n b a = s.releaseHeld n := if_pos h

theorem State.releaseBuf_notHeld (h : (s.sq n).sheet.held ≠ some b) : s.releaseBuf dom n b a = s.noteReg dom a :=
  if_neg h

end release

section releaseHeld
variable (s : State) (n : Nat)

/-- A release changes the sequencer's sheet, and both words of the acquired epoch read 0. -/
theorem State.releaseHeld_eq :
    s.releaseHeld n =
      ((s.setSq n { s.sq n with sheet := { (s.sq n).sheet with held := none } }).wr (Reg.CSH_AEPOCH_LO n) 0).wr
        (Reg.CSH_AEPOCH_HI n) 0 := by
  have hhi : Reg.CSH_AEPOCH_LO n + 4 = Reg.CSH_AEPOCH_HI n := by
    rw [Reg.CSH_AEPOCH_LO, Reg.CSH_AEPOCH_HI]
    omega
  rw [← hhi]
  rfl

@[simp] theorem State.sq_releaseHeld_same :
    (s.releaseHeld n).sq n = { s.sq n with sheet := { (s.sq n).sheet with held := none } } := by
  simp [State.releaseHeld_eq]

theorem State.sq_releaseHeld_other {m : Nat} (h : m ≠ n) : (s.releaseHeld n).sq m = s.sq m := by
  simp [State.releaseHeld_eq, State.sq_setSq_other, h]

/-- Of the registers a release changes those of the acquired epoch only. -/
theorem State.releaseHeld_regsKept :
    RegsKept [Reg.CSH_AEPOCH_LO n, Reg.CSH_AEPOCH_HI n] s (s.releaseHeld n) := by
  rw [State.releaseHeld_eq]
  exact .wr (.wr (fun _ _ => rfl) _ _ (by simp)) _ _ (by simp)

/-- A release changes nothing but sequencers and registers. -/
theorem State.releaseHeld_frame :
    s.releaseHeld n = { s with seq := (s.releaseHeld n).seq, regs := (s.releaseHeld n).regs } := by
  rw [State.releaseHeld_eq]
  rfl

end releaseHeld

/-! ### The roles of the buffers (R231) -/

/-- The role of a buffer: 2 while it is HELD, else 1 while it is NEWEST, else 0 (FREE). -/
def Sheet.role (h : Sheet) (b : Nat) : Nat := if h.held = some b then 2 else if h.newest = some b then 1 else 0

theorem Sheet.role_eq_two_iff (h : Sheet) (b : Nat) : h.role b = 2 ↔ h.held = some b := by
  rw [Sheet.role]
  split
  next hheld => exact iff_of_true rfl hheld
  next hheld => exact iff_of_false (by split <;> decide) hheld

/-- With no buffer HELD, a buffer is NEWEST or FREE. -/
theorem Sheet.role_released (h : Sheet) (b : Nat) :
    { h with held := none }.role b = if h.newest = some b then 1 else 0 :=
    if_neg (Option.some_ne_none b).symm

/-- A release of the HELD buffer leaves the role of every other buffer. -/
theorem Sheet.role_released_other {h : Sheet} {b x : Nat} (hheld : h.held = some b) (hx : x ≠ b) :
    { h with held := none }.role x = h.role x := by
  have hnot : h.held ≠ some x := by
    rw [hheld]
    exact fun he => hx (Option.some.inj he).symm
  rw [Sheet.role_released, Sheet.role, if_neg hnot]

/-- Settles O30: each access reaches its register, and acts by what the sheet holds. -/
theorem contactSheetCommandsComplete : Obligations.ContactSheetCommandsComplete := by
  intro s d n v u h e
  refine ⟨fun hr => ⟨fun b hheld => ?again, fun b hheld hnew => ?newest, fun hheld hnew => ?neither⟩,
    fun hw => ⟨fun hheld => ?release, fun hother => ?noted⟩,
    fun hw => ⟨fun hheld => ?forcedRelease, fun hother => ?forcedNoted⟩⟩
  case again => rw [exec_cshAcquire, doCshAcquire_held hr hheld]
  case newest => rw [exec_cshAcquire, doCshAcquire_newest hr hheld hnew]
  case neither => rw [exec_cshAcquire, doCshAcquire_none hr hheld hnew]
  case release => rw [exec_cshRelease, doCshRelease_writes hw, State.releaseBuf_held hheld, State.releaseHeld]
  case noted => rw [exec_cshRelease, doCshRelease_writes hw, State.releaseBuf_notHeld hother]
  case forcedRelease =>
    rw [exec_cshForcedRelease, doCshForcedRelease_writes hw, State.releaseBuf_held hheld, State.releaseHeld]
  case forcedNoted => rw [exec_cshForcedRelease, doCshForcedRelease_writes hw, State.releaseBuf_notHeld hother]

/-- Settles O57: both writes come to the same release, which leaves no buffer HELD where it names the HELD one and is
noted where it does not. -/
theorem sheetReleaseFreesOnlyTheHeldBuffer : Obligations.SheetReleaseFreesOnlyTheHeldBuffer := by
  intro s d n forced v a c b role _ hw
  have hb : fld v 1 0 = b := fld_low v 1
  have hexec : exec c s = .next (s.releaseBuf d n b a) := by
    rw [← hb]
    cases forced with
    | false => exact congrArg _ (doCshRelease_writes hw v)
    | true => exact congrArg _ (doCshForcedRelease_writes hw v)
  have hrole : ∀ t m x, role t m x = (t.sq m).sheet.role x := fun _ _ _ => rfl
  simp only [hrole, ne_eq, Sheet.role_eq_two_iff]
  refine ⟨_, hexec, fun hheld => ?_, fun hother => ?_⟩
  · rw [State.releaseBuf_held hheld, State.sq_releaseHeld_same]
    exact ⟨Sheet.role_released _ b, fun x hx => Sheet.role_released_other hheld hx,
      fun m hm => s.sq_releaseHeld_other n (Fin.val_ne_of_ne hm), s.releaseHeld_regsKept n, s.releaseHeld_frame n⟩
  · rw [State.releaseBuf_notHeld hother, State.noteReg_eq, State.detect]

/-! ### Publication and the reserve (R225, R226, R228) -/

section events
variable {s : State} (hrun : s.runs = true)
include hrun

/-- The newest complete epoch is published, and each older one is skipped. -/
theorem doEpochPublish_newest {n : Nat} {e : Epoch} (hnew : s.newestComplete n = some e) (hgo : s.epochStop = false) :
    doEpochPublish n s =
      (forEach (List.range ((s.sq n).epochs.filter fun x => decide (x.num < e.num)).length)
        (fun _ s => s.skipOne n) s).publish n e := by
  simp only [doEpochPublish, hnew]
  exact State.whenDue_due hrun (by rw [hgo]; rfl) _

/-- A near reserve with no write of it waiting is extended, or refused while power fails. -/
theorem doEpochReserveExtend_due (hnear : s.eres ≤ s.enext + 2 ^ 31) (hnone : s.norHas 4 = false) :
    doEpochReserveExtend s =
      if s.pfw then s.norPfw
      else if s.graveHeld then s
      else s.norPush (reserveOp s.reserveOther (s.eres + 2 ^ 32)) := by
  rw [doEpochReserveExtend, State.whenDue_due hrun (by rw [decide_eq_true hnear, hnone]; rfl)]

end events

/-- Settles O31: each event is due by its clause's conditions. -/
theorem epochEventsComplete : Obligations.EpochEventsComplete := by
  intro s n hrun
  refine ⟨fun e hnew hgo => ?publish, fun hnear hnone => ⟨fun hpfw => ?refused, fun hpfw hgrave => ?extended⟩⟩
  case publish => rw [exec_epochPublish, doEpochPublish_newest hrun hnew hgo]
  case refused => rw [exec_epochReserveExtend, doEpochReserveExtend_due hrun hnear hnone, if_pos hpfw]
  case extended =>
    rw [exec_epochReserveExtend, doEpochReserveExtend_due hrun hnear hnone, if_neg (Bool.eq_false_iff.1 hpfw),
      if_neg (Bool.eq_false_iff.1 hgrave)]

end Sys2Proof.Machine
end

section
/-! SUPPORT. Time measurement (R245, R247–R249, R253–R259, R264, R268–R276, R407, R408): what the host's commands of a
unit do once they reach their register, and when its own events are due. -/

namespace Sys2Proof.Machine

open Sys2Proof

section arms
variable (s : State) (d : Fin 16) (ch : Fin 128) (v : Word)

theorem exec_tmuArm : exec (.tmuArm d ch) s = .next (doTmuArm d ch s) := rfl

theorem exec_tmuStop : exec (.tmuStop d ch) s = .next (doTmuStop d ch s) := rfl

theorem exec_tmuCmdInvalid : exec (.tmuCmdInvalid d ch v) s = .next (doTmuCmdInvalid d ch v s) := rfl

theorem exec_tmuConfigWrite (r : Fin 20) :
    exec (.tmuConfigWrite d ch r v) s = .next (doTmuConfigWrite d ch r v s) := rfl

theorem exec_tmuRdWrite : exec (.tmuRdWrite d ch v) s = .next (doTmuRdWrite d ch v s) := rfl

theorem exec_tmuRseqRead : exec (.tmuRseqRead d ch) s = .next (doTmuRseqRead d ch s) := rfl

theorem exec_tmuShutterOpen : exec (.tmuShutterOpen ch) s = .next (doTmuShutterOpen ch s) := rfl

theorem exec_tmuShutterClose : exec (.tmuShutterClose ch) s = .next (doTmuShutterClose ch s) := rfl

theorem exec_tmuFreqLimit : exec (.tmuFreqLimit ch) s = .next (doTmuFreqLimit ch s) := rfl

theorem exec_tmuBankLatch : exec (.tmuBankLatch ch) s = .next (doTmuBankLatch ch s) := rfl

theorem exec_tdcHit (src : Fin 7) (edge : Nat) (code : Fin 144) :
    exec (.tdcHit ch src edge code) s = .next (doTdcHit ch src edge code s) := rfl

theorem exec_tdcBinTableBuild (p : Fin 2) (more : List Nat) :
    exec (.tdcBinTableBuild ch p more) s = .next (doTdcBinTableBuild ch p more s) := rfl

theorem exec_tdcCalStale : exec (.tdcCalStale ch) s = .next (doTdcCalStale ch s) := rfl

theorem exec_stampRecordMove : exec (.stampRecordMove ch) s = .next (doStampRecordMove ch s) := rfl

end arms

/-! ### Commands (R253, R254, R273, R276) -/

/-- A unit that takes no ARM, whatever its configuration. -/
def State.armBarred (s : State) (c : Nat) : Bool := s.tmState c ≠ 0 || (s.ch c).refl || s.modHeld || s.pllOff

theorem State.armBarred_iff (s : State) (c : Nat) :
    s.armBarred c = true ↔ s.tmState c ≠ 0 ∨ (s.ch c).refl = true ∨ s.modHeld = true ∨ s.pllOff = true := by
  simp only [State.armBarred, Bool.or_eq_true, decide_eq_true_eq, or_assoc]

section commands
variable {s : State} {dom c : Nat} (hw : s.Writes dom (Reg.TMU_CMD c))
include hw

/-- An ARM that the unit does not take is noted, one with an error shows its code, and another arms the unit. -/
theorem doTmuArm_writes :
    doTmuArm dom c s =
      if s.armBarred c then s.noteReg dom (Reg.TMU_CMD c)
      else if s.armError c = 0 then s.armTmu c
      else (s.wr (Reg.TMU_ERR c) (word (s.armError c))).irq (Reg.TMU_ISTAT c) 2 := by
  rw [doTmuArm, State.hostWrite_writes hw]
  refine ite_congr rfl (fun _ => rfl) fun _ => ?_
  split
  next hok => exact (if_pos hok).symm
  next herr => exact (if_neg herr).symm

/-- An OP other than ARM and STOP is discarded with a NOTE fault. -/
theorem doTmuCmdInvalid_noted {v : Word} (harm : v.toNat % 8 ≠ 1) (hstop : v.toNat % 8 ≠ 2) :
    doTmuCmdInvalid dom c v s = s.noteReg dom (Reg.TMU_CMD c) := by
  rw [doTmuCmdInvalid, State.hostWrite_writes hw, fld_seqOp, if_neg (not_or.2 ⟨harm, hstop⟩)]

end commands

/-! ### Configuration (R274, R408) -/

/-- The configuration registers that place the ring (R408). -/
def ringRegs (c : Nat) : List Nat := [Reg.TMU_CTL c, Reg.TMU_RSIZE c, Reg.TMU_DR_BASE_LO c, Reg.TMU_DR_BASE_HI c]

section config
variable {s : State} {dom c r : Nat} {v : Word} (hr : r ≠ 18) (hw : s.Writes dom (Reg.TMU_CTL c + 4 * r))
include hr hw

/-- An idle unit takes the write, with its shutter completed and its records moved. -/
theorem doTmuConfigWrite_idle (hidle : s.tmState c = 0) :
    let a := Reg.TMU_CTL c + 4 * r
    doTmuConfigWrite dom c r v s =
      (((if a ∈ ringRegs c then s.ringCut c else s).tmuSettle c).stampFlush c).wrRow a v := by
  simp only [doTmuConfigWrite, if_neg hr, State.hostWrite_writes hw, if_pos hidle, ringRegs, Bool.or_eq_true, beq_iff_eq,
    List.mem_cons, List.not_mem_nil, or_false, or_assoc]

/-- Another unit discards it. -/
theorem doTmuConfigWrite_busy (hbusy : s.tmState c ≠ 0) :
    doTmuConfigWrite dom c r v s = (s.wrF (Reg.TMU_STAT c) 9 9 1).noteReg dom (Reg.TMU_CTL c + 4 * r) := by
  rw [doTmuConfigWrite, if_neg hr, State.hostWrite_writes hw, if_neg hbusy]

end config

/-- A read index is taken within the ring behind TMU_WR, unless the ring paces a DMA channel (R270, R407). -/
theorem doTmuRdWrite_writes {s : State} {dom c : Nat} {v : Word} (hw : s.Writes dom (Reg.TMU_RD c)) :
    doTmuRdWrite dom c v s =
      if s.pacedBy 1 c = false ∧
          ((s.rd (Reg.TMU_WR c)).toNat + 2 ^ 32 - v.toNat) % 2 ^ 32 ≤ (s.rd (Reg.TMU_RSIZE c)).toNat
      then s.wr (Reg.TMU_RD c) v else s.noteReg dom (Reg.TMU_RD c) := by
  rw [doTmuRdWrite, State.hostWrite_writes hw, ← ite_not]
  refine ite_congr (propext ?_) (fun _ => rfl) fun _ => rfl
  rw [Bool.or_eq_true, decide_eq_true_eq, not_or, Bool.not_eq_true, not_lt]

/-- Settles O32: each access reaches its register, and takes the branch that its clause's condition names. -/
theorem tmuCommandsComplete : Obligations.TmuCommandsComplete := by
  intro s d ch r v busy cmd a behind fits
  refine ⟨fun hw => ⟨fun hfree hok => ?arm, fun hfree herr => ?error, fun hbusy => ?barred, ?stop,
      fun harm hstop => ?otherOp⟩, fun hw hr => ⟨fun hidle => ?config, fun hbusy => ?locked⟩,
    fun hw => ⟨fun hfits => ?index, fun hbeyond => ?beyond⟩, fun hr => ?bank⟩
  case arm => rw [exec_tmuArm, doTmuArm_writes hw, if_neg (mt (s.armBarred_iff ch).1 hfree), if_pos hok]
  case error => rw [exec_tmuArm, doTmuArm_writes hw, if_neg (mt (s.armBarred_iff ch).1 hfree), if_neg herr]
  case barred => rw [exec_tmuArm, doTmuArm_writes hw, if_pos ((s.armBarred_iff ch).2 hbusy)]
  case stop => rw [exec_tmuStop, doTmuStop, State.hostWrite_writes hw]
  case otherOp => rw [exec_tmuCmdInvalid, doTmuCmdInvalid_noted hw harm hstop]
  case config =>
    rw [exec_tmuConfigWrite, doTmuConfigWrite_idle hr hw hidle]
    simp only [ringRegs, List.mem_cons, List.not_mem_nil, or_false]
    rfl
  case locked => rw [exec_tmuConfigWrite, doTmuConfigWrite_busy hr hw hbusy]
  case index => rw [exec_tmuRdWrite, doTmuRdWrite_writes hw, if_pos hfits]
  case beyond => rw [exec_tmuRdWrite, doTmuRdWrite_writes hw, if_neg hbeyond]
  case bank => rw [exec_tmuRseqRead, doTmuRseqRead, State.hostRead_reads hr]

/-! ### Shutters that end (R254–R258, R264) -/

/-- A unit whose shutter has ended is IDLE. -/
theorem State.tmState_tmuEnding (s : State) (c : Nat) (e : Nat × Nat) : (s.tmuEnding c e).tmState c = 0 :=
  State.rdF_wrF_same _ _ 0 (by decide) (by decide)

/-- The end of a shutter is kept while its last stamps may come. -/
theorem State.tm_tmuEnding (s : State) (c : Nat) (e : Nat × Nat) :
    (s.tmuEnding c e).tm c = { s.tm c with ending := some e } :=
  s.tm_setTm_same c _

section events
variable {s : State} (hrun : s.runs = true)
include hrun

section shutter
variable {c : Nat} (hend : s.tmuEndDue c 1 = true)
include hend

/-- A shutter that none follows ends at its close time. -/
theorem doTmuShutterClose_last (hlast : s.tmReopens c 1 = false) :
    doTmuShutterClose c s = s.tmuEnding c ((s.tm c).closeT.getD 0, 1) := by
  rw [doTmuShutterClose, State.whenDue_due hrun (by rw [hend, hlast]; rfl), if_neg (Bool.eq_false_iff.1 hlast)]

/-- A shutter that another one follows closes once its last stamps have come. -/
theorem doTmuShutterClose_reopens (hnext : s.tmReopens c 1 = true)
    (hpast : s.stampsPast c ((s.tm c).closeT.getD 0) = true) :
    doTmuShutterClose c s = s.tmuClose c 1 ((s.tm c).closeT.getD 0) := by
  rw [doTmuShutterClose, State.whenDue_due hrun (by rw [hend, hpast, Bool.or_true]; rfl), if_pos hnext]

end shutter

/-! ### The result bank and records (R258, R272) -/

/-- A closed shutter's results are latched; one that has ended and may still take stamps is none of them. -/
theorem doTmuBankLatch_closed {c : Nat} (hdone : (s.tm c).done.isSome = true) (hnone : (s.tm c).ending = none) :
    doTmuBankLatch c s = s.tmuLatch c := by
  have hopen : s.tmuSettled c = false := by rw [State.tmuSettled, hnone, Option.any_none]
  rw [doTmuBankLatch, State.whenDue_due hrun (by rw [hdone, Bool.true_or]), if_neg (Bool.eq_false_iff.1 hopen)]

/-- A shutter that has ended and taken its last stamps is closed, and its results are latched. -/
theorem doTmuBankLatch_ended {c : Nat} {e : Nat × Nat} (hended : (s.tm c).ending = some e)
    (hpast : s.stampsPast c e.1 = true) : doTmuBankLatch c s = (s.tmuSettle c).tmuLatch c := by
  have hsettled : s.tmuSettled c = true := by rw [State.tmuSettled, hended, Option.any_some, hpast]
  rw [doTmuBankLatch, State.whenDue_due hrun (by rw [hsettled, Bool.or_true]), if_pos hsettled]

/-- The channel whose turn it is has its oldest record moved. -/
theorem doStampRecordMove_served {c : Nat} (hwait : (s.tm c).hold ≠ []) (hturn : s.nextServed = some c) :
    doStampRecordMove c s = s.stampMove c := by
  have hsome : (s.tm c).hold.isEmpty = false := List.isEmpty_eq_false_iff.2 hwait
  rw [doStampRecordMove, State.whenDue_due hrun (by rw [hsome, beq_iff_eq.2 hturn]; rfl)]

/-! ### Hits (R247, R250) -/

section hits
variable {e code : Nat} (hedge : e ≤ s.mt) (hcode : 16 ≤ code) {c : Nat}
include hedge hcode

/-- A unit that is not idle, or whose ended shutter may still take stamps, takes a hit. -/
theorem doTdcHit_taken (src : Nat) (htakes : s.tmState c ≠ 0 ∨ (s.tm c).ending.isSome = true) :
    doTdcHit c src e code s = s.hit c src e code := by
  have hopen : (s.tmState c != 0 || (s.tm c).ending.isSome) = true := by rwa [Bool.or_eq_true, bne_iff_ne]
  rw [doTdcHit, State.whenDue_due hrun (by rw [decide_eq_true hedge, decide_eq_true hcode, hopen]; rfl), if_pos hopen]

/-- A unit that collects counts a hit of the internal source by its code. -/
theorem doTdcHit_collected (hidle : s.tmState c = 0) (hnone : (s.tm c).ending = none)
    (hcollect : s.binCollect c = true) : doTdcHit c 6 e code s = s.binHit c e code := by
  have hclosed : (s.tmState c != 0 || (s.tm c).ending.isSome) = false := by rw [hidle, hnone]; rfl
  rw [doTdcHit,
    State.whenDue_due hrun (by rw [decide_eq_true hedge, decide_eq_true hcode, hcollect, hclosed]; rfl),
    if_neg (Bool.eq_false_iff.1 hclosed)]

end hits

/-! ### Bin tables (R247–R249) -/

/-- The counts of a path's codes: those collected, and `more` of each. -/
def TmuUnit.pathCounts (u : TmuUnit) (p : Nat) (more : List Nat) : List Nat :=
  List.zipWith (· + ·) (u.codeCounts p) more

/-- The state in which the counts of a path begin anew. -/
def State.countsAnew (s : State) (c p : Nat) : State :=
  s.setTm c { s.tm c with codes := (s.tm c).codes.filter fun x => x.1 / 128 != p }

section bins
variable {c : Nat} (p : Nat) {more : List Nat}
  (hcollect : s.binCollect c = true) (hlen : more.length = 128) (hmany : 2 ^ 20 ≤ ((s.tm c).pathCounts p more).sum)
include hcollect hlen hmany

/-- Enough hits give a table, which is stored and adopted at the present tick, or noted. -/
theorem doTdcBinTableBuild_due :
    let h := (s.tm c).pathCounts p more
    let t := s.countsAnew c p
    doTdcBinTableBuild c p more s =
      if binsOk h then
        (t.putBins (if p = 0 then Reg.TMU_BIN0 c 0 else Reg.TMU_BIN1 c 0) (binTable h.sum 0 h)).setTm c
          { t.tm c with adopt := kset (fun _ => none) (s.tm c).adopt p (some (s.mt : Int)) }
      else t.note (0x500 + c) p (Reg.TMU_CTL c) := by
  have hdue : (s.binCollect c && decide (2 ^ 20 ≤ ((s.tm c).pathCounts p more).sum) && more.length == 128) = true := by
    rw [hcollect, decide_eq_true hmany, hlen]
    rfl
  rw [doTdcBinTableBuild]
  exact State.whenDue_due hrun hdue _

end bins

/-- A table that is older than its limit while a shutter is open is marked. -/
theorem doTdcCalStale_due {c : Nat} (hopen : s.tmState c = 2) (hold : 100 * s.rdF Reg.TMU_CAL_CTL 15 1 < s.calAge c) :
    doTdcCalStale c s = (s.wrF (Reg.TMU_STAT c) 10 10 1).irq (Reg.TMU_ISTAT c) 16 := by
  rw [doTdcCalStale, State.whenDue_due hrun (by rw [hopen, decide_eq_true hold]; rfl)]

end events

/-- Settles O33: each event acts, since its clause's conditions make it due, and the unit of a shutter that has ended is
IDLE and keeps the end. -/
theorem tmuEventsComplete : Obligations.TmuEventsComplete := by
  intro s ch hrun
  refine ⟨fun hopen => ?opens, fun hend hlast => ?ends, fun hend hnext hpast => ?reopens, fun hend => ?limit,
    fun e => ⟨s.tmState_tmuEnding ch e, by rw [s.tm_tmuEnding]⟩, fun hdone hnone => ?closed,
    fun e hended hpast => ?ended, fun hwait hturn => ?moved, fun hopen hold => ?stale,
    fun src edge code hedge hcode => ⟨fun htakes => ?hit, fun hidle hnone hsrc hcollect => ?counted⟩,
    fun p more hcollect hlen hmany => ⟨fun hok => ?adopted, fun hbad => ?discarded⟩⟩
  case opens => rw [exec_tmuShutterOpen, doTmuShutterOpen, State.whenDue_due hrun hopen]
  case ends => rw [exec_tmuShutterClose, doTmuShutterClose_last hrun hend hlast]
  case reopens => rw [exec_tmuShutterClose, doTmuShutterClose_reopens hrun hend hnext hpast]
  case limit => rw [exec_tmuFreqLimit, doTmuFreqLimit, State.whenDue_due hrun hend]
  case closed => rw [exec_tmuBankLatch, doTmuBankLatch_closed hrun hdone hnone]
  case ended => rw [exec_tmuBankLatch, doTmuBankLatch_ended hrun hended hpast]
  case moved => rw [exec_stampRecordMove, doStampRecordMove_served hrun hwait hturn]
  case stale => rw [exec_tdcCalStale, doTdcCalStale_due hrun hopen hold]
  case hit => rw [exec_tdcHit, doTdcHit_taken hrun hedge hcode src htakes]
  case counted =>
    subst hsrc
    rw [exec_tdcHit]
    exact congrArg _ (doTdcHit_collected hrun hedge hcode hidle hnone hcollect)
  case adopted =>
    rw [exec_tdcBinTableBuild, doTdcBinTableBuild_due hrun p hcollect hlen hmany]
    exact congrArg _ (if_pos hok)
  case discarded =>
    rw [exec_tdcBinTableBuild, doTdcBinTableBuild_due hrun p hcollect hlen hmany]
    exact congrArg _ (if_neg (Bool.eq_false_iff.1 hbad))

end Sys2Proof.Machine
end

section
/-! SUPPORT. Parametric acquisition (R278–R306): what the host's commands and configuration writes of a channel do once
they reach their register, what SOFT does to a set that has begun and to one that has not, and when the unit's own
events are due. -/

namespace Sys2Proof.Machine

open Sys2Proof

section arms
variable (s : State) (d : Fin 16) (ch : Fin 128) (v : Word)

theorem exec_acqArm : exec (.acqArm d ch) s = .next (doAcqArm d ch s) := rfl

theorem exec_acqMonitor : exec (.acqMonitor d ch) s = .next (doAcqMonitor d ch s) := rfl

theorem exec_acqStop : exec (.acqStop d ch) s = .next (doAcqStop d ch s) := rfl

theorem exec_acqSoft : exec (.acqSoft d ch) s = .next (doAcqSoft d ch s) := rfl

theorem exec_acqCmdInvalid : exec (.acqCmdInvalid d ch v) s = .next (doAcqCmdInvalid d ch v s) := rfl

theorem exec_acqConfigWrite (r : Fin 24) :
    exec (.acqConfigWrite d ch r v) s = .next (doAcqConfigWrite d ch r v s) := rfl

theorem exec_acqStartTick : exec (.acqStartTick ch) s = .next (doAcqStartTick ch s) := rfl

theorem exec_acqConversion (code : BitVec 18) (clip : Bool) :
    exec (.acqConversion ch code clip) s = .next (doAcqConversion ch code clip s) := rfl

theorem exec_acqSampleStored (lost : Bool) :
    exec (.acqSampleStored ch lost) s = .next (doAcqSampleStored ch lost s) := rfl

theorem exec_acqPrefillEnd : exec (.acqPrefillEnd ch) s = .next (doAcqPrefillEnd ch s) := rfl

theorem exec_acqAnalogHit (x : Fin 2) (e : Nat) (code : Fin 144) :
    exec (.acqAnalogHit ch x e code) s = .next (doAcqAnalogHit ch x e code s) := rfl

theorem exec_acqTriggerDecision : exec (.acqTriggerDecision ch) s = .next (doAcqTriggerDecision ch s) := rfl

theorem exec_acqFrameComplete : exec (.acqFrameComplete ch) s = .next (doAcqFrameComplete ch s) := rfl

theorem exec_acqRearm : exec (.acqRearm ch) s = .next (doAcqRearm ch s) := rfl

theorem exec_acqTimeout : exec (.acqTimeout ch) s = .next (doAcqTimeout ch s) := rfl

end arms

/-! ### A set that has begun, and one that has not (R289, R296) -/

section begun
variable {s : State} {c : Nat}

/-- Only a unit that is ARMED has a start to come. -/
theorem State.acqStartDue_idle (hidle : s.aqState c = 0) : s.acqStartDue c = false := by
  rw [State.acqStartDue, hidle]
  rfl

/-- A unit past ARMED has begun by every tick. -/
theorem State.begunBy_started (hstarted : 2 ≤ s.aqState c) (t : Nat) : s.begunBy c t = true := by
  rw [State.begunBy, decide_eq_true hstarted, Bool.true_or]

/-- An ARMED unit has begun by the present tick just where its start tick has come. -/
theorem State.begunBy_armed (harmed : s.aqState c = 1) : s.begunBy c s.mt = s.acqStartDue c := by
  rw [State.begunBy, State.acqStartDue, harmed]
  rfl

/-- In IDLE no trigger fires. -/
theorem State.fireAll_idle (hidle : s.aqState c = 0) (t : Nat) (p : Nat → Bool) : s.fireAll c t p = s := if_pos hidle

/-- Outside IDLE what becomes of the firings depends only on whether the set has begun. -/
theorem State.fireAll_busy (hbusy : s.aqState c ≠ 0) {t : Nat} {begun : Bool} (hbegun : s.begunBy c t = begun)
    (p : Nat → Bool) :
    s.fireAll c t p = forEach [0, 1] (fun x u =>
      if p x then (if begun then u.fire c x (65536 * t) else u.ignoreFiring c (65536 * t)) else u) s := by
  subst hbegun
  exact if_neg hbusy

end begun

/-! ### Commands (R290, R291, R303, R304, R306) -/

section commands
variable {s : State} {dom c : Nat} (hw : s.Writes dom (Reg.ACQ_CMD c))
include hw

/-- An ARM that the unit cannot take is noted, one without an error begins a set, and one with an error is refused, after
the mask table was read where the error is found that late. -/
theorem doAcqArm_writes :
    doAcqArm dom c s =
      if s.acqCannot c || s.modHeld then s.noteReg dom (Reg.ACQ_CMD c)
      else if s.acqError c = 0 then s.armAcq c
      else (if 5 ≤ s.acqError c then (s.maskRead c).1 else s).acqRefuse c (s.acqError c) := by
  rw [doAcqArm, State.hostWrite_writes hw]
  refine ite_congr rfl (fun _ => rfl) fun _ => ?_
  split
  next hok => exact (if_pos hok).symm
  next herr => exact (if_neg herr).symm

/-- A MONITOR that the unit cannot take is noted, a wrong conversion configuration is refused, and another converts from
the next tick. -/
theorem doAcqMonitor_writes :
    doAcqMonitor dom c s =
      if s.acqCannot c then s.noteReg dom (Reg.ACQ_CMD c)
      else if s.convBad c then s.acqRefuse c 3
      else ((s.setAq c { start := some (s.mt + 1) }).wrF (Reg.ACQ_STAT c) 11 11 1).calDigHook c := by
  rw [doAcqMonitor, State.hostWrite_writes hw]

/-- SOFT fires the triggers with source 3, after a start that has come. -/
theorem doAcqSoft_writes :
    let t := if s.acqStartDue c then s.acqBegin c else s
    doAcqSoft dom c s = t.fireAll c t.mt fun x => t.trigOn c x 3 := by
  rw [doAcqSoft, State.hostWrite_writes hw]

/-- In a set that has begun, SOFT fires at the present tick. -/
theorem doAcqSoft_begun {t : State} (ht : (if s.acqStartDue c then s.acqBegin c else s) = t)
    (hstarted : 2 ≤ t.aqState c) :
    doAcqSoft dom c s =
      forEach [0, 1] (fun x u => if t.trigOn c x 3 then u.fire c x (65536 * t.mt) else u) t := by
  have hbusy : t.aqState c ≠ 0 := by omega
  rw [doAcqSoft_writes hw, ht, State.fireAll_busy hbusy (State.begunBy_started hstarted _)]
  rfl

/-- While the unit is ARMED and its start has not come, the firings of SOFT are ignored. -/
theorem doAcqSoft_armed (harmed : s.aqState c = 1) (hnot : s.acqStartDue c = false) :
    doAcqSoft dom c s =
      forEach [0, 1] (fun x u => if s.trigOn c x 3 then u.ignoreFiring c (65536 * s.mt) else u) s := by
  have hbusy : s.aqState c ≠ 0 := by omega
  rw [doAcqSoft_writes hw, if_neg (Bool.eq_false_iff.1 hnot),
    State.fireAll_busy hbusy ((State.begunBy_armed harmed).trans hnot)]
  rfl

/-- In IDLE SOFT does nothing. -/
theorem doAcqSoft_idle (hidle : s.aqState c = 0) : doAcqSoft dom c s = s := by
  rw [doAcqSoft_writes hw, if_neg (Bool.eq_false_iff.1 (State.acqStartDue_idle hidle)), State.fireAll_idle hidle]

/-- An OP other than ARM, STOP, SOFT and MONITOR is discarded with a NOTE fault. -/
theorem doAcqCmdInvalid_noted {v : Word} (hop : v.toNat % 8 = 0 ∨ 4 < v.toNat % 8) :
    doAcqCmdInvalid dom c v s = s.noteReg dom (Reg.ACQ_CMD c) := by
  rw [doAcqCmdInvalid, State.hostWrite_writes hw, fld_seqOp, if_neg (by omega)]

end commands

/-- A configuration write is taken in IDLE, and only noted and marked in another state. -/
theorem doAcqConfigWrite_writes {s : State} {dom c r : Nat} {v : Word} (hw : s.Writes dom (Reg.ACQ_CTL c + 4 * r)) :
    let a := Reg.ACQ_CTL c + 4 * r
    doAcqConfigWrite dom c r v s =
      if s.aqState c = 0 then s.wrRow a v else (s.wrF (Reg.ACQ_STAT c) 7 7 1).noteReg dom a := by
  rw [doAcqConfigWrite, State.hostWrite_writes hw]

/-- Settles O34: each write reaches its register, and takes the branch that its clause's condition names. -/
theorem acqCommandsComplete : Obligations.AcqCommandsComplete := by
  intro s d ch r v cmd a t
  refine ⟨fun hw => ⟨fun hcan hmod => ⟨fun hok => ?arm, fun herr hearly => ?error, fun hlate => ?lateError⟩,
      fun hbarred => ?armNoted, fun hcannot => ?monitorNoted, fun hcan hconv => ?monitor, fun hcan hbad => ?monitorError,
      ?stop, fun hstarted => ?softBegun, fun harmed hnot => ?softArmed, fun hidle => ?softIdle, fun hop => ?otherOp⟩,
    fun hw => ⟨fun hidle => ?config, fun hbusy => ?locked⟩⟩
  case arm => rw [exec_acqArm, doAcqArm_writes hw, hcan, hmod, if_pos hok]; rfl
  case error => rw [exec_acqArm, doAcqArm_writes hw, hcan, hmod, if_neg herr, if_neg (Nat.not_le.2 hearly)]; rfl
  case lateError =>
    have herr : s.acqError ch ≠ 0 := by omega
    rw [exec_acqArm, doAcqArm_writes hw, hcan, hmod, if_neg herr, if_pos hlate]; rfl
  case armNoted => rw [exec_acqArm, doAcqArm_writes hw, if_pos ((Bool.or_eq_true _ _).mpr hbarred)]
  case monitorNoted => rw [exec_acqMonitor, doAcqMonitor_writes hw, if_pos hcannot]
  case monitor =>
    rw [exec_acqMonitor, doAcqMonitor_writes hw, if_neg (Bool.eq_false_iff.1 hcan), if_neg (Bool.eq_false_iff.1 hconv)]
  case monitorError => rw [exec_acqMonitor, doAcqMonitor_writes hw, if_neg (Bool.eq_false_iff.1 hcan), if_pos hbad]
  case stop => rw [exec_acqStop, doAcqStop, State.hostWrite_writes hw]
  case softBegun => rw [exec_acqSoft, doAcqSoft_begun hw rfl hstarted]
  case softArmed => rw [exec_acqSoft, doAcqSoft_armed hw harmed hnot]
  case softIdle => rw [exec_acqSoft, doAcqSoft_idle hw hidle]
  case otherOp => rw [exec_acqCmdInvalid, doAcqCmdInvalid_noted hw hop]
  case config => rw [exec_acqConfigWrite, doAcqConfigWrite_writes hw, if_pos hidle]
  case locked => rw [exec_acqConfigWrite, doAcqConfigWrite_writes hw, if_neg hbusy]

/-- The state in which a sample's value is shown and the next sum starts at 0. -/
def State.sampleShown (s : State) (c : Nat) : State :=
  (s.setAq c { s.aq c with sumC := 0, nC := 0, clipC := false }).wrN (Reg.ACQ_LAST c)
    (ofInt 32 (sampleOf (s.aq c).sumC (s.aq c).nC))

/-- When the edge of an analog trigger is taken. -/
theorem State.analogDue_iff (s : State) {c x e code : Nat} :
    (decide (2 ≤ s.aqState c) && s.trigOn c x 1 && decide (e ≤ s.mt) && decide (16 ≤ code)) = true ↔
      2 ≤ s.aqState c ∧ s.trigOn c x 1 = true ∧ e ≤ s.mt ∧ 16 ≤ code := by
  simp only [Bool.and_eq_true, decide_eq_true_eq, and_assoc]

section events
variable {s : State} (hrun : s.runs = true) {c : Nat}
include hrun

/-! ### Conversions and samples (R278, R280) -/

section samples
variable (hconv : s.converts c = true)
include hconv

/-- A conversion whose tick has come enters the sum, limited and corrected. -/
theorem doAcqConversion_due (code : BitVec 18) (clip : Bool)
    (htick : s.aqStart c + (s.aq c).conv * s.aqTC c ≤ s.mt) (hroom : (s.aq c).nC < s.aqA c) :
    let u := s.aq c
    let x := clipCode code.toInt clip
    doAcqConversion c code clip s =
      (s.setAq c { u with conv := u.conv + 1, sumC := u.sumC + s.digCorrect c x.1, nC := u.nC + 1,
                          clipC := u.clipC || x.2 }).drawn := by
  rw [doAcqConversion, State.whenDue_due hrun (by rw [hconv, decide_eq_true htick, decide_eq_true hroom]; rfl)]

/-- Enough conversions make a sample, which a unit that is not IDLE stores after the decisions that wait no longer. -/
theorem doAcqSampleStored_due (lost : Bool) (henough : s.aqA c ≤ (s.aq c).nC) :
    let u := s.aq c
    let t := s.sampleShown c
    doAcqSampleStored c lost s =
      if t.aqState c = 0 then t
      else (t.lateDecisions c (u.firings.length + 1)).sample c (sampleOf u.sumC u.nC) u.clipC lost := by
  rw [doAcqSampleStored, State.whenDue_due hrun (by rw [hconv, decide_eq_true henough]; rfl)]
  rfl

end samples

/-- A prefill whose samples are stored and whose time has come ends in WAITING. -/
theorem doAcqPrefillEnd_due (hfills : s.aqState c = 2) (hstored : s.aqPre c ≤ (s.aq c).nextJ)
    (htime : s.aqT c (s.aqPre c) ≤ s.mt) : doAcqPrefillEnd c s = s.setAqState c 3 := by
  rw [doAcqPrefillEnd,
    State.whenDue_due hrun (by rw [hfills, decide_eq_true hstored, decide_eq_true htime]; rfl)]

/-! ### Triggers (R291, R293, R294, R298) -/

section analog
variable {x e code : Nat} (hstarted : 2 ≤ s.aqState c) (hon : s.trigOn c x 1 = true) (hedge : e ≤ s.mt)
  (hcode : 16 ≤ code)
include hstarted hon hedge hcode

/-- An edge on an enabled analog trigger that finds a free path takes it, and fires the trigger at its stamp less the
correction. -/
theorem doAcqAnalogHit_path {p : Nat} (hpath : (s.tm c).freePath e code = some p) :
    doAcqAnalogHit c x e code s =
      (s.setTm c ((s.tm c).take p e)).fire c x (s.stampOf c p e code - (s.rd (Reg.ACQ_GDLY c)).toNat) := by
  rw [doAcqAnalogHit, State.whenDue_due hrun (s.analogDue_iff.2 ⟨hstarted, hon, hedge, hcode⟩)]
  simp only [hpath]

/-- One that finds none is marked to be ignored at its place in time order. -/
theorem doAcqAnalogHit_noPath (hnone : (s.tm c).freePath e code = none) :
    doAcqAnalogHit c x e code s =
      s.fire c x (s.stampOf c (s.tm c).path e code - (s.rd (Reg.ACQ_GDLY c)).toNat) true := by
  rw [doAcqAnalogHit, State.whenDue_due hrun (s.analogDue_iff.2 ⟨hstarted, hon, hedge, hcode⟩)]
  simp only [hnone]

end analog

/-- The firings of a sample that every source could have reported are decided. -/
theorem doAcqTriggerDecision_due {j : Nat} (hstarted : 2 ≤ s.aqState c) (hfirst : s.dueSample c = some j)
    (hall : s.allReported c j = true) : doAcqTriggerDecision c s = s.decideFirst c := by
  simp only [doAcqTriggerDecision, hfirst]
  exact State.whenDue_due hrun (by rw [decide_eq_true hstarted, hall]; rfl) _

/-! ### Frames (R286, R296, R301, R303) -/

/-- The oldest complete frame is entered, and a set that it is the last frame of ends. -/
theorem doAcqFrameComplete_due {f : FrameSt} {rest : List FrameSt} (hdone : (s.aq c).complete = f :: rest) :
    let t := (s.setAq c { s.aq c with complete := rest }).frameDone c f
    doAcqFrameComplete c s =
      if (f.stopv && (t.aq c).ending.isSome) = true then t.setEnd c 3
      else if f.idx + 1 = t.rdF (Reg.ACQ_NFRAME c) 16 0 then t.setEnd c 1 else t := by
  simp only [doAcqFrameComplete, hdone]
  exact State.whenDue_due hrun rfl _

/-- A re-arm instant that has come returns to WAITING, from the tick that it falls in. -/
theorem doAcqRearm_due {t : Nat} (hknown : s.rearmAt c = some t) (hframe : s.aqState c = 5) (hcome : t ≤ 65536 * s.mt) :
    doAcqRearm c s = (s.setAq c { s.aq c with waitFrom := (t + 65535) / 65536 }).setAqState c 3 := by
  simp only [doAcqRearm, hknown]
  exact State.whenDue_due hrun (by rw [hframe, decide_eq_true hcome]; rfl) _

/-- A wait without a firing past a time limit that is set ends the set with cause TIMEOUT. -/
theorem doAcqTimeout_due (hwaits : s.aqState c = 3) (hlimit : (s.rd (Reg.ACQ_TMO c)).toNat ≠ 0)
    (hpast : (s.aq c).waitFrom + 4000 * (s.rd (Reg.ACQ_TMO c)).toNat ≤ s.mt) (hnone : (s.aq c).firings = []) :
    doAcqTimeout c s = s.acqEnd c 4 := by
  rw [doAcqTimeout,
    State.whenDue_due hrun (by rw [hwaits, bne_iff_ne.2 hlimit, decide_eq_true hpast, hnone]; rfl)]

end events

/-- Settles O35: each event acts, since its clause's conditions make it due. -/
theorem acqEventsComplete : Obligations.AcqEventsComplete := by
  intro s ch hrun u
  refine ⟨fun hstart => ?begins, fun code clip hconv htick hroom => ?conversion,
    fun lost hconv henough => ⟨fun hidle => ?shown, fun hset => ?stored⟩, fun hfills hstored htime => ?prefilled,
    fun x e code hstarted hon hedge hcode => ⟨fun p hpath => ?fires, fun hnone => ?noPath⟩,
    fun j hstarted hfirst hall => ?decided, fun f rest hdone => ?entered, fun t hknown hframe hcome => ?rearmed,
    fun hwaits hlimit hpast hnone => ?timeout⟩
  case begins => rw [exec_acqStartTick, doAcqStartTick, State.whenDue_due hrun hstart]
  case conversion => rw [exec_acqConversion, doAcqConversion_due hrun hconv code clip htick hroom, clipCode]
  case shown =>
    rw [exec_acqSampleStored, doAcqSampleStored_due hrun hconv lost henough]
    exact congrArg _ (if_pos hidle)
  case stored =>
    rw [exec_acqSampleStored, doAcqSampleStored_due hrun hconv lost henough]
    exact congrArg _ (if_neg hset)
  case prefilled => rw [exec_acqPrefillEnd, doAcqPrefillEnd_due hrun hfills hstored htime]
  case fires => rw [exec_acqAnalogHit, doAcqAnalogHit_path hrun hstarted hon hedge hcode hpath]
  case noPath => rw [exec_acqAnalogHit, doAcqAnalogHit_noPath hrun hstarted hon hedge hcode hnone]
  case decided => rw [exec_acqTriggerDecision, doAcqTriggerDecision_due hrun hstarted hfirst hall]
  case entered => rw [exec_acqFrameComplete, doAcqFrameComplete_due hrun hdone]
  case rearmed => rw [exec_acqRearm, doAcqRearm_due hrun hknown hframe hcome]
  case timeout => rw [exec_acqTimeout, doAcqTimeout_due hrun hwaits hlimit hpast hnone]

end Sys2Proof.Machine
end

section
/-! SUPPORT. What every command and every step keep: a command answers a next state, with the queue that was, and the
byte memories stay in canonical form (R376, R424, R513). -/

namespace Sys2Proof.Machine

open Sys2Proof

/-- Every command answers a next state: its meaning, which keeps the memories in canonical form where they were, and
the queue. -/
theorem exec_mem {pq : Prop × List Instr} (c : Instr) (s : State) (hs : MemGood pq s) :
    ∃ t, exec c s = .next t ∧ MemGood pq t := by
  cases c with
  | registerWrite => exact ⟨_, rfl, doRegisterWrite_mem (hs := hs) ..⟩
  | misalignedAccess => exact ⟨_, rfl, doMisalignedAccess_mem (hs := hs) ..⟩
  | wideLowWordRead => exact ⟨_, rfl, doWideLowWordRead_mem (hs := hs) ..⟩
  | stiLoadWhole => exact ⟨_, rfl, doStiLoadWhole_mem (hs := hs) ..⟩
  | stiLoadTile => exact ⟨_, rfl, doStiLoadTile_mem (hs := hs) ..⟩
  | stiCheck => exact ⟨_, rfl, doStiCheck_mem (hs := hs) ..⟩
  | stiStore => exact ⟨_, rfl, doStiStore_mem (hs := hs) ..⟩
  | revoke => exact ⟨_, rfl, doRevoke_mem (hs := hs) ..⟩
  | stiBadCmd => exact ⟨_, rfl, doStiBadCmd_mem (hs := hs) ..⟩
  | stiStopStep => exact ⟨_, rfl, doStiStopStep_mem (hs := hs) ..⟩
  | stiDrainDone => exact ⟨_, rfl, doStiDrainDone_mem (hs := hs) ..⟩
  | stiDrainExpiry => exact ⟨_, rfl, doStiDrainExpiry_mem (hs := hs) ..⟩
  | stiConfigureDone => exact ⟨_, rfl, doStiConfigureDone_mem (hs := hs) ..⟩
  | stiBootWrite => exact ⟨_, rfl, doStiBootWrite_mem (hs := hs) ..⟩
  | seqStart => exact ⟨_, rfl, doSeqStart_mem (hs := hs) ..⟩
  | seqStartSync => exact ⟨_, rfl, doSeqStartSync_mem (hs := hs) ..⟩
  | seqStop => exact ⟨_, rfl, doSeqStop_mem (hs := hs) ..⟩
  | seqCmdInvalid => exact ⟨_, rfl, doSeqCmdInvalid_mem (hs := hs) ..⟩
  | playBegin => exact ⟨_, rfl, doPlayBegin_mem (hs := hs) ..⟩
  | syncStartBegin => exact ⟨_, rfl, doSyncStartBegin_mem (hs := hs) ..⟩
  | seqHtrig => exact ⟨_, rfl, doSeqHtrig_mem (hs := hs) ..⟩
  | seqJreq => exact ⟨_, rfl, doSeqJreq_mem (hs := hs) ..⟩
  | seqDropreq => exact ⟨_, rfl, doSeqDropreq_mem (hs := hs) ..⟩
  | nop => exact ⟨_, rfl, doNop_mem (hs := hs) ..⟩
  | halt => exact ⟨_, rfl, doHalt_mem (hs := hs) ..⟩
  | jmp => exact ⟨_, rfl, doJmp_mem (hs := hs) ..⟩
  | jcc => exact ⟨_, rfl, doJcc_mem (hs := hs) ..⟩
  | call => exact ⟨_, rfl, doCall_mem (hs := hs) ..⟩
  | rtn => exact ⟨_, rfl, doRtn_mem (hs := hs) ..⟩
  | loop => exact ⟨_, rfl, doLoop_mem (hs := hs) ..⟩
  | endl => exact ⟨_, rfl, doEndl_mem (hs := hs) ..⟩
  | sett => exact ⟨_, rfl, doSett_mem (hs := hs) ..⟩
  | setm => exact ⟨_, rfl, doSetm_mem (hs := hs) ..⟩
  | setp => exact ⟨_, rfl, doSetp_mem (hs := hs) ..⟩
  | flag => exact ⟨_, rfl, doFlag_mem (hs := hs) ..⟩
  | sig => exact ⟨_, rfl, doSig_mem (hs := hs) ..⟩
  | epoch => exact ⟨_, rfl, doEpoch_mem (hs := hs) ..⟩
  | waitt => exact ⟨_, rfl, doWaitt_mem (hs := hs) ..⟩
  | play => exact ⟨_, rfl, doPlay_mem (hs := hs) ..⟩
  | playl => exact ⟨_, rfl, doPlayl_mem (hs := hs) ..⟩
  | spool => exact ⟨_, rfl, doSpool_mem (hs := hs) ..⟩
  | leader => exact ⟨_, rfl, doLeader_mem (hs := hs) ..⟩
  | matchSeg => exact ⟨_, rfl, doMatch_mem (hs := hs) ..⟩
  | illegalOp => exact ⟨_, rfl, doIllegalOp_mem (hs := hs) ..⟩
  | runaway => exact ⟨_, rfl, doRunaway_mem (hs := hs) ..⟩
  | segmentEnd => exact ⟨_, rfl, doSegmentEnd_mem (hs := hs) ..⟩
  | waittTimeout => exact ⟨_, rfl, doWaittTimeout_mem (hs := hs) ..⟩
  | matchEnd => exact ⟨_, rfl, doMatchEnd_mem (hs := hs) ..⟩
  | siteDropout => exact ⟨_, rfl, doSiteDropout_mem (hs := hs) ..⟩
  | spoolCheckPoint => exact ⟨_, rfl, doSpoolCheckPoint_mem (hs := hs) ..⟩
  | spoolReadyPoll => exact ⟨_, rfl, doSpoolReadyPoll_mem (hs := hs) ..⟩
  | runEndComplete => exact ⟨_, rfl, doRunEndComplete_mem (hs := hs) ..⟩
  | vectorFormat => exact ⟨_, rfl, doVectorFormat_mem (hs := hs) ..⟩
  | paceFault => exact ⟨_, rfl, doPaceFault_mem (hs := hs) ..⟩
  | vectorResult => exact ⟨_, rfl, doVectorResult_mem (hs := hs) ..⟩
  | wftWordWrite => exact ⟨_, rfl, doWftWordWrite_mem (hs := hs) ..⟩
  | wftCommit => exact ⟨_, rfl, doWftCommit_mem (hs := hs) ..⟩
  | wftEntryTakesEffect => exact ⟨_, rfl, doWftEntryTakesEffect_mem (hs := hs) ..⟩
  | glbApply => exact ⟨_, rfl, doGlbApply_mem (hs := hs) ..⟩
  | explicitApply => exact ⟨_, rfl, doExplicitApply_mem (hs := hs) ..⟩
  | tmgPerHiWrite => exact ⟨_, rfl, doTmgPerHiWrite_mem (hs := hs) ..⟩
  | paceClr => exact ⟨_, rfl, doPaceClr_mem (hs := hs) ..⟩
  | tmgCmdInvalid => exact ⟨_, rfl, doTmgCmdInvalid_mem (hs := hs) ..⟩
  | chnDskPathWrite => exact ⟨_, rfl, doChnDskPathWrite_mem (hs := hs) ..⟩
  | pllLockLoss => exact ⟨_, rfl, doPllLockLoss_mem (hs := hs) ..⟩
  | pllRelock => exact ⟨_, rfl, doPllRelock_mem (hs := hs) ..⟩
  | dllUnlock => exact ⟨_, rfl, doDllUnlock_mem (hs := hs) ..⟩
  | dllRelockResult => exact ⟨_, rfl, doDllRelockResult_mem (hs := hs) ..⟩
  | paceMonitorUpdate => exact ⟨_, rfl, doPaceMonitorUpdate_mem (hs := hs) ..⟩
  | avsLower => exact ⟨_, rfl, doAvsLower_mem (hs := hs) ..⟩
  | epochPublish => exact ⟨_, rfl, doEpochPublish_mem (hs := hs) ..⟩
  | epochReserveExtend => exact ⟨_, rfl, doEpochReserveExtend_mem (hs := hs) ..⟩
  | cshAcquire => exact ⟨_, rfl, doCshAcquire_mem (hs := hs) ..⟩
  | cshRelease => exact ⟨_, rfl, doCshRelease_mem (hs := hs) ..⟩
  | cshForcedRelease => exact ⟨_, rfl, doCshForcedRelease_mem (hs := hs) ..⟩
  | tmuArm => exact ⟨_, rfl, doTmuArm_mem (hs := hs) ..⟩
  | tmuStop => exact ⟨_, rfl, doTmuStop_mem (hs := hs) ..⟩
  | tmuCmdInvalid => exact ⟨_, rfl, doTmuCmdInvalid_mem (hs := hs) ..⟩
  | tmuConfigWrite => exact ⟨_, rfl, doTmuConfigWrite_mem (hs := hs) ..⟩
  | tmuRdWrite => exact ⟨_, rfl, doTmuRdWrite_mem (hs := hs) ..⟩
  | tmuRseqRead => exact ⟨_, rfl, doTmuRseqRead_mem (hs := hs) ..⟩
  | tmuShutterOpen => exact ⟨_, rfl, doTmuShutterOpen_mem (hs := hs) ..⟩
  | tmuShutterClose => exact ⟨_, rfl, doTmuShutterClose_mem (hs := hs) ..⟩
  | tmuFreqLimit => exact ⟨_, rfl, doTmuFreqLimit_mem (hs := hs) ..⟩
  | tmuBankLatch => exact ⟨_, rfl, doTmuBankLatch_mem (hs := hs) ..⟩
  | tdcHit => exact ⟨_, rfl, doTdcHit_mem (hs := hs) ..⟩
  | tdcBinTableBuild => exact ⟨_, rfl, doTdcBinTableBuild_mem (hs := hs) ..⟩
  | tdcCalStale => exact ⟨_, rfl, doTdcCalStale_mem (hs := hs) ..⟩
  | stampRecordMove => exact ⟨_, rfl, doStampRecordMove_mem (hs := hs) ..⟩
  | acqArm => exact ⟨_, rfl, doAcqArm_mem (hs := hs) ..⟩
  | acqStop => exact ⟨_, rfl, doAcqStop_mem (hs := hs) ..⟩
  | acqSoft => exact ⟨_, rfl, doAcqSoft_mem (hs := hs) ..⟩
  | acqMonitor => exact ⟨_, rfl, doAcqMonitor_mem (hs := hs) ..⟩
  | acqCmdInvalid => exact ⟨_, rfl, doAcqCmdInvalid_mem (hs := hs) ..⟩
  | acqConfigWrite => exact ⟨_, rfl, doAcqConfigWrite_mem (hs := hs) ..⟩
  | acqStartTick => exact ⟨_, rfl, doAcqStartTick_mem (hs := hs) ..⟩
  | acqConversion => exact ⟨_, rfl, doAcqConversion_mem (hs := hs) ..⟩
  | acqSampleStored => exact ⟨_, rfl, doAcqSampleStored_mem (hs := hs) ..⟩
  | acqPrefillEnd => exact ⟨_, rfl, doAcqPrefillEnd_mem (hs := hs) ..⟩
  | acqAnalogHit => exact ⟨_, rfl, doAcqAnalogHit_mem (hs := hs) ..⟩
  | acqTriggerDecision => exact ⟨_, rfl, doAcqTriggerDecision_mem (hs := hs) ..⟩
  | acqFrameComplete => exact ⟨_, rfl, doAcqFrameComplete_mem (hs := hs) ..⟩
  | acqRearm => exact ⟨_, rfl, doAcqRearm_mem (hs := hs) ..⟩
  | acqTimeout => exact ⟨_, rfl, doAcqTimeout_mem (hs := hs) ..⟩
  | pelValueWrite => exact ⟨_, rfl, doPelValueWrite_mem (hs := hs) ..⟩
  | clearTrip => exact ⟨_, rfl, doClearTrip_mem (hs := hs) ..⟩
  | refl => exact ⟨_, rfl, doRefl_mem (hs := hs) ..⟩
  | pelCmdInvalid => exact ⟨_, rfl, doPelCmdInvalid_mem (hs := hs) ..⟩
  | pelReflDone => exact ⟨_, rfl, doPelReflDone_mem (hs := hs) ..⟩
  | pelTrip => exact ⟨_, rfl, doPelTrip_mem (hs := hs) ..⟩
  | pmuClampEntry => exact ⟨_, rfl, doPmuClampEntry_mem (hs := hs) ..⟩
  | pelTempCrossing => exact ⟨_, rfl, doPelTempCrossing_mem (hs := hs) ..⟩
  | calSlotStart => exact ⟨_, rfl, doCalSlotStart_mem (hs := hs) ..⟩
  | calPhaseEnd => exact ⟨_, rfl, doCalPhaseEnd_mem (hs := hs) ..⟩
  | calSwitchPoint => exact ⟨_, rfl, doCalSwitchPoint_mem (hs := hs) ..⟩
  | calSlotEnd => exact ⟨_, rfl, doCalSlotEnd_mem (hs := hs) ..⟩
  | calTempCorrection => exact ⟨_, rfl, doCalTempCorrection_mem (hs := hs) ..⟩
  | calAgeLimit => exact ⟨_, rfl, doCalAgeLimit_mem (hs := hs) ..⟩
  | calStore => exact ⟨_, rfl, doCalStore_mem (hs := hs) ..⟩
  | saveRej => exact ⟨_, rfl, doSaveRej_mem (hs := hs) ..⟩
  | clrSuspect => exact ⟨_, rfl, doClrSuspect_mem (hs := hs) ..⟩
  | calCmdInvalid => exact ⟨_, rfl, doCalCmdInvalid_mem (hs := hs) ..⟩
  | calStoreDone => exact ⟨_, rfl, doCalStoreDone_mem (hs := hs) ..⟩
  | aneItemAdmit => exact ⟨_, rfl, doAneItemAdmit_mem (hs := hs) ..⟩
  | aneSpillReturn => exact ⟨_, rfl, doAneSpillReturn_mem (hs := hs) ..⟩
  | aneOperation => exact ⟨_, rfl, doAneOperation_mem (hs := hs) ..⟩
  | aneMarkerPass => exact ⟨_, rfl, doAneMarkerPass_mem (hs := hs) ..⟩
  | aneCompressTimeout => exact ⟨_, rfl, doAneCompressTimeout_mem (hs := hs) ..⟩
  | clrGraph => exact ⟨_, rfl, doClrGraph_mem (hs := hs) ..⟩
  | clrmap => exact ⟨_, rfl, doClrmap_mem (hs := hs) ..⟩
  | anePeakClr => exact ⟨_, rfl, doAnePeakClr_mem (hs := hs) ..⟩
  | aneCmdInvalid => exact ⟨_, rfl, doAneCmdInvalid_mem (hs := hs) ..⟩
  | aneClrmapDone => exact ⟨_, rfl, doAneClrmapDone_mem (hs := hs) ..⟩
  | aneFStatRead => exact ⟨_, rfl, doAneFStatRead_mem (hs := hs) ..⟩
  | dramRequest => exact ⟨_, rfl, doDramRequest_mem (hs := hs) ..⟩
  | dramRefresh => exact ⟨_, rfl, doDramRefresh_mem (hs := hs) ..⟩
  | dramTempPoll => exact ⟨_, rfl, doDramTempPoll_mem (hs := hs) ..⟩
  | dramSelfRefreshEntry => exact ⟨_, rfl, doDramSelfRefreshEntry_mem (hs := hs) ..⟩
  | dramScrub => exact ⟨_, rfl, doDramScrub_mem (hs := hs) ..⟩
  | dramClearDone => exact ⟨_, rfl, doDramClearDone_mem (hs := hs) ..⟩
  | pwrdn => exact ⟨_, rfl, doPwrdn_mem (hs := hs) ..⟩
  | pwrup => exact ⟨_, rfl, doPwrup_mem (hs := hs) ..⟩
  | drcPeakClr => exact ⟨_, rfl, doDrcPeakClr_mem (hs := hs) ..⟩
  | drcCmdInvalid => exact ⟨_, rfl, doDrcCmdInvalid_mem (hs := hs) ..⟩
  | drcSpeedWrite => exact ⟨_, rfl, doDrcSpeedWrite_mem (hs := hs) ..⟩
  | drcSpeedDone => exact ⟨_, rfl, doDrcSpeedDone_mem (hs := hs) ..⟩
  | drcInjWrite => exact ⟨_, rfl, doDrcInjWrite_mem (hs := hs) ..⟩
  | dmaStart => exact ⟨_, rfl, doDmaStart_mem (hs := hs) ..⟩
  | dmaStop => exact ⟨_, rfl, doDmaStop_mem (hs := hs) ..⟩
  | doorbell => exact ⟨_, rfl, doDoorbell_mem (hs := hs) ..⟩
  | flush => exact ⟨_, rfl, doFlush_mem (hs := hs) ..⟩
  | dmaCmdInvalid => exact ⟨_, rfl, doDmaCmdInvalid_mem (hs := hs) ..⟩
  | dmaDescFetch => exact ⟨_, rfl, doDmaDescFetch_mem (hs := hs) ..⟩
  | dmaPiece => exact ⟨_, rfl, doDmaPiece_mem (hs := hs) ..⟩
  | dmaPacedBurst => exact ⟨_, rfl, doDmaPacedBurst_mem (hs := hs) ..⟩
  | dmaPaceWithdraw => exact ⟨_, rfl, doDmaPaceWithdraw_mem (hs := hs) ..⟩
  | dmaDescComplete => exact ⟨_, rfl, doDmaDescComplete_mem (hs := hs) ..⟩
  | dmaPoll => exact ⟨_, rfl, doDmaPoll_mem (hs := hs) ..⟩
  | dmaResume => exact ⟨_, rfl, doDmaResume_mem (hs := hs) ..⟩
  | bar2Access => exact ⟨_, rfl, doBar2Access_mem (hs := hs) ..⟩
  | bar4Access => exact ⟨_, rfl, doBar4Access_mem (hs := hs) ..⟩
  | hifPtWordWrite => exact ⟨_, rfl, doHifPtWordWrite_mem (hs := hs) ..⟩
  | hifPtCommit => exact ⟨_, rfl, doHifPtCommit_mem (hs := hs) ..⟩
  | hifDenyCntClear => exact ⟨_, rfl, doHifDenyCntClear_mem (hs := hs) ..⟩
  | glbModuleWrite => exact ⟨_, rfl, doGlbModuleWrite_mem (hs := hs) ..⟩
  | flrVf => exact ⟨_, rfl, doFlrVf_mem (hs := hs) ..⟩
  | msixMessage => exact ⟨_, rfl, doMsixMessage_mem (hs := hs) ..⟩
  | pcieLinkDown => exact ⟨_, rfl, doPcieLinkDown_mem (hs := hs) ..⟩
  | pcieLinkUp => exact ⟨_, rfl, doPcieLinkUp_mem (hs := hs) ..⟩
  | perst => exact ⟨_, rfl, doPerst_mem (hs := hs) ..⟩
  | laneBlockReceived => exact ⟨_, rfl, doLaneBlockReceived_mem (hs := hs) ..⟩
  | align => exact ⟨_, rfl, doAlign_mem (hs := hs) ..⟩
  | lnkAlignSend => exact ⟨_, rfl, doLnkAlignSend_mem (hs := hs) ..⟩
  | lnkFrameSend => exact ⟨_, rfl, doLnkFrameSend_mem (hs := hs) ..⟩
  | item => exact ⟨_, rfl, doItem_mem (hs := hs) ..⟩
  | write => exact ⟨_, rfl, doWrite_mem (hs := hs) ..⟩
  | ack => exact ⟨_, rfl, doAck_mem (hs := hs) ..⟩
  | nak => exact ⟨_, rfl, doNak_mem (hs := hs) ..⟩
  | credit => exact ⟨_, rfl, doCredit_mem (hs := hs) ..⟩
  | hello => exact ⟨_, rfl, doHello_mem (hs := hs) ..⟩
  | frameBad => exact ⟨_, rfl, doFrameBad_mem (hs := hs) ..⟩
  | lnkAckTimer => exact ⟨_, rfl, doLnkAckTimer_mem (hs := hs) ..⟩
  | lnkCreditTimer => exact ⟨_, rfl, doLnkCreditTimer_mem (hs := hs) ..⟩
  | lnkReplayTimeout => exact ⟨_, rfl, doLnkReplayTimeout_mem (hs := hs) ..⟩
  | lnkLastingFailure => exact ⟨_, rfl, doLnkLastingFailure_mem (hs := hs) ..⟩
  | lnkEyeUpdate => exact ⟨_, rfl, doLnkEyeUpdate_mem (hs := hs) ..⟩
  | lnkEyeRetrain => exact ⟨_, rfl, doLnkEyeRetrain_mem (hs := hs) ..⟩
  | lnkTrainDone => exact ⟨_, rfl, doLnkTrainDone_mem (hs := hs) ..⟩
  | lnkTrainTimeout => exact ⟨_, rfl, doLnkTrainTimeout_mem (hs := hs) ..⟩
  | up => exact ⟨_, rfl, doUp_mem (hs := hs) ..⟩
  | down => exact ⟨_, rfl, doDown_mem (hs := hs) ..⟩
  | txSleep => exact ⟨_, rfl, doTxSleep_mem (hs := hs) ..⟩
  | txWake => exact ⟨_, rfl, doTxWake_mem (hs := hs) ..⟩
  | xfer => exact ⟨_, rfl, doXfer_mem (hs := hs) ..⟩
  | xabort => exact ⟨_, rfl, doXabort_mem (hs := hs) ..⟩
  | lnkCmdInvalid => exact ⟨_, rfl, doLnkCmdInvalid_mem (hs := hs) ..⟩
  | lnkSleepAp2 => exact ⟨_, rfl, doLnkSleepAp2_mem (hs := hs) ..⟩
  | lnkSleepAp2Timeout => exact ⟨_, rfl, doLnkSleepAp2Timeout_mem (hs := hs) ..⟩
  | sleep => exact ⟨_, rfl, doSleep_mem (hs := hs) ..⟩
  | lnkWakeBurst => exact ⟨_, rfl, doLnkWakeBurst_mem (hs := hs) ..⟩
  | tlAlignment => exact ⟨_, rfl, doTlAlignment_mem (hs := hs) ..⟩
  | tlMessageBad => exact ⟨_, rfl, doTlMessageBad_mem (hs := hs) ..⟩
  | mtbTimeSend => exact ⟨_, rfl, doMtbTimeSend_mem (hs := hs) ..⟩
  | mtbEchoSend => exact ⟨_, rfl, doMtbEchoSend_mem (hs := hs) ..⟩
  | time => exact ⟨_, rfl, doTime_mem (hs := hs) ..⟩
  | echoRequest => exact ⟨_, rfl, doEchoRequest_mem (hs := hs) ..⟩
  | echoReply => exact ⟨_, rfl, doEchoReply_mem (hs := hs) ..⟩
  | mirror => exact ⟨_, rfl, doMirror_mem (hs := hs) ..⟩
  | mtbMirrorSend => exact ⟨_, rfl, doMtbMirrorSend_mem (hs := hs) ..⟩
  | mtbMirrorTimeout => exact ⟨_, rfl, doMtbMirrorTimeout_mem (hs := hs) ..⟩
  | mtbMasterElect => exact ⟨_, rfl, doMtbMasterElect_mem (hs := hs) ..⟩
  | mtbUpstreamLoss => exact ⟨_, rfl, doMtbUpstreamLoss_mem (hs := hs) ..⟩
  | mtbHoldoverLimit => exact ⟨_, rfl, doMtbHoldoverLimit_mem (hs := hs) ..⟩
  | takeover => exact ⟨_, rfl, doTakeover_mem (hs := hs) ..⟩
  | yield => exact ⟨_, rfl, doYield_mem (hs := hs) ..⟩
  | mtbCmdInvalid => exact ⟨_, rfl, doMtbCmdInvalid_mem (hs := hs) ..⟩
  | mtbCtlWrite => exact ⟨_, rfl, doMtbCtlWrite_mem (hs := hs) ..⟩
  | sync => exact ⟨_, rfl, doSync_mem (hs := hs) ..⟩
  | trig => exact ⟨_, rfl, doTrig_mem (hs := hs) ..⟩
  | mtbSyncDeliver => exact ⟨_, rfl, doMtbSyncDeliver_mem (hs := hs) ..⟩
  | xtInputEdge => exact ⟨_, rfl, doXtInputEdge_mem (hs := hs) ..⟩
  | xtPulseEnd => exact ⟨_, rfl, doXtPulseEnd_mem (hs := hs) ..⟩
  | faultReport => exact ⟨_, rfl, doFaultReport_mem (hs := hs) ..⟩
  | faultRound => exact ⟨_, rfl, doFaultRound_mem (hs := hs) ..⟩
  | raiseMod => exact ⟨_, rfl, doRaiseMod_mem (hs := hs) ..⟩
  | clrFirst => exact ⟨_, rfl, doClrFirst_mem (hs := hs) ..⟩
  | clrCount => exact ⟨_, rfl, doClrCount_mem (hs := hs) ..⟩
  | clrPgrave => exact ⟨_, rfl, doClrPgrave_mem (hs := hs) ..⟩
  | fltCmdInvalid => exact ⟨_, rfl, doFltCmdInvalid_mem (hs := hs) ..⟩
  | fltInjWrite => exact ⟨_, rfl, doFltInjWrite_mem (hs := hs) ..⟩
  | supWatchdogExpiry => exact ⟨_, rfl, doSupWatchdogExpiry_mem (hs := hs) ..⟩
  | railFault => exact ⟨_, rfl, doRailFault_mem (hs := hs) ..⟩
  | junctionTempCrossing => exact ⟨_, rfl, doJunctionTempCrossing_mem (hs := hs) ..⟩
  | pwrIdleEntry => exact ⟨_, rfl, doPwrIdleEntry_mem (hs := hs) ..⟩
  | pwrEntryAp2 => exact ⟨_, rfl, doPwrEntryAp2_mem (hs := hs) ..⟩
  | pwrEntryAp3 => exact ⟨_, rfl, doPwrEntryAp3_mem (hs := hs) ..⟩
  | pwrWake => exact ⟨_, rfl, doPwrWake_mem (hs := hs) ..⟩
  | pwrWakeDone => exact ⟨_, rfl, doPwrWakeDone_mem (hs := hs) ..⟩
  | railsOff => exact ⟨_, rfl, doRailsOff_mem (hs := hs) ..⟩
  | railsOn => exact ⟨_, rfl, doRailsOn_mem (hs := hs) ..⟩
  | pllOff => exact ⟨_, rfl, doPllOff_mem (hs := hs) ..⟩
  | pllOn => exact ⟨_, rfl, doPllOn_mem (hs := hs) ..⟩
  | retry => exact ⟨_, rfl, doRetry_mem (hs := hs) ..⟩
  | pwrCmdInvalid => exact ⟨_, rfl, doPwrCmdInvalid_mem (hs := hs) ..⟩
  | pwrCmdDone => exact ⟨_, rfl, doPwrCmdDone_mem (hs := hs) ..⟩
  | pfwAssert => exact ⟨_, rfl, doPfwAssert_mem (hs := hs) ..⟩
  | pfwRelease => exact ⟨_, rfl, doPfwRelease_mem (hs := hs) ..⟩
  | railsFall => exact ⟨_, rfl, doRailsFall_mem (hs := hs) ..⟩
  | powerOn => exact ⟨_, rfl, doPowerOn_mem (hs := hs) ..⟩
  | rstNAssert => exact ⟨_, rfl, doRstNAssert_mem (hs := hs) ..⟩
  | startStepDone => exact ⟨_, rfl, doStartStepDone_mem (hs := hs) ..⟩
  | startFail => exact ⟨_, rfl, doStartFail_mem (hs := hs) ..⟩
  | fwStore => exact ⟨_, rfl, doFwStore_mem (hs := hs) ..⟩
  | fwActivate => exact ⟨_, rfl, doFwActivate_mem (hs := hs) ..⟩
  | confirm => exact ⟨_, rfl, doConfirm_mem (hs := hs) ..⟩
  | supReset => exact ⟨_, rfl, doSupReset_mem (hs := hs) ..⟩
  | supCmdInvalid => exact ⟨_, rfl, doSupCmdInvalid_mem (hs := hs) ..⟩
  | fwOperationDone => exact ⟨_, rfl, doFwOperationDone_mem (hs := hs) ..⟩
  | fwConfirmTimeout => exact ⟨_, rfl, doFwConfirmTimeout_mem (hs := hs) ..⟩
  | norOpDone => exact ⟨_, rfl, doNorOpDone_mem (hs := hs) ..⟩
  | pfFunctionLevelReset => exact ⟨_, rfl, doPfFunctionLevelReset_mem (hs := hs) ..⟩
  | rstNRelease => exact ⟨_, rfl, doRstNRelease_mem (hs := hs) ..⟩
  | supHeartbeat => exact ⟨_, rfl, doSupHeartbeat_mem (hs := hs) ..⟩
  | safelightToggle => exact ⟨_, rfl, doSafelightToggle_mem (hs := hs) ..⟩
  | pmuClampExit => exact ⟨_, rfl, doPmuClampExit_mem (hs := hs) ..⟩
  | permanentSpareAssignment => exact ⟨_, rfl, doPermanentSpareAssignment_mem (hs := hs) ..⟩

/-- Settles O1: a step whose queue has a front is `exec` of it. -/
theorem stepRunsFrontCommand : Obligations.StepRunsFrontCommand := by
  intro s c q hq
  rw [step, hq]

/-- A step answers a next state and keeps the canonical form: it is the front command's, or the passing of time. -/
theorem step_mem (s : State) (hs : Memory.wf s) : ∃ t, step s = .next t ∧ Memory.wf t := by
  cases hq : s.pending with
  | nil =>
    have ht : MemGood (True, s.pending) s.tick := s.tick_mem ⟨fun _ => hs, rfl⟩
    exact ⟨s.tick, by rw [step, hq], ht.1 trivial⟩
  | cons c q =>
    obtain ⟨t, ht, hmem, -⟩ := exec_mem (pq := (True, q)) c { s with pending := q } ⟨fun _ => hs, rfl⟩
    exact ⟨t, (stepRunsFrontCommand s c q hq).trans ht, hmem trivial⟩

/-- Settles O8: every command's meaning keeps the canonical form, and so does the passing of time. -/
theorem everyStepKeepsMemoryForm : Obligations.EveryStepKeepsMemoryForm := by
  intro s t hs hstep
  obtain ⟨t', ht', hmem⟩ := step_mem s hs
  obtain rfl : t' = t := Host.Outcome.next.inj (ht'.symm.trans hstep)
  exact hmem

/-- Settles O4: every command's meaning keeps the queue. -/
theorem commandsLeaveTheQueue : Obligations.CommandsLeaveTheQueue := by
  intro c s t hexec
  obtain ⟨t', ht', -, hqueue⟩ := exec_mem (pq := (False, s.pending)) c s ⟨False.elim, rfl⟩
  obtain rfl : t' = t := Host.Outcome.next.inj (ht'.symm.trans hexec)
  exact hqueue

/-- Settles O3: every arm of `exec` answers its meaning as a next state. -/
theorem everyCommandAnswersNext : Obligations.EveryCommandAnswersNext := by
  intro c s
  obtain ⟨t, ht, -⟩ := exec_mem (pq := (False, s.pending)) c s ⟨False.elim, rfl⟩
  exact ⟨t, ht⟩

/-- Settles O7: nothing is listed in the memories right after reset. -/
theorem resetMemoryForm : Obligations.ResetMemoryForm :=
  ⟨kwf_nil dramFill, kwf_nil sramFill, kwf_nil norFill⟩

/-- Settles O9: the read-after-write law of the byte memories and its frame, for each of the two. -/
theorem storedBytesReadBack : Obligations.StoredBytesReadBack := by
  intro s a bs
  exact ⟨⟨memRead_memWrite sramFill s.sram a bs, fun _ h => kget_memWrite_other sramFill s.sram a bs h⟩,
    ⟨memRead_memWrite norFill s.nor a bs, fun _ h => kget_memWrite_other norFill s.nor a bs h⟩,
    fun r => ⟨rfl, rfl⟩⟩

end Sys2Proof.Machine
end

section
/-! SUPPORT. The accesses of a host while a GRAVE fault is held (R485): every write of a register stands behind the
checks of a host access, and so does every read. -/

namespace Sys2Proof.Machine

open Sys2Proof

/-- Every write of a register is a host write in this state, or in it with open values of host memory counted. -/
def State.Guarded (s : State) (dom : Nat) (t : State) : Prop :=
  ∃ n a k, t = { s with free := n }.hostWrite dom a k

/-- What a host write does is guarded. -/
theorem State.Guarded.hostWrite (s : State) (dom a : Nat) (k : State → State) : s.Guarded dom (s.hostWrite dom a k) :=
  ⟨s.free, a, k, rfl⟩

theorem State.Guarded.ite {s : State} {dom : Nat} {c : Prop} [Decidable c] {t u : State} (ht : s.Guarded dom t)
    (hu : s.Guarded dom u) : s.Guarded dom (if c then t else u) := by
  split
  · exact ht
  · exact hu

section writes
variable (s : State) (dom n o a : Nat) (v : Word)

theorem State.writePlain_guarded : s.Guarded dom (s.writePlain dom a v) := .hostWrite ..

theorem State.writeSeq_guarded : s.Guarded dom (s.writeSeq dom n o a v) :=
  .ite (.hostWrite ..) <| .ite (.ite (.ite (.hostWrite ..) (.hostWrite ..)) <| .ite (.hostWrite ..) (.hostWrite ..)) <|
    .ite (.hostWrite ..) <| .ite (.hostWrite ..) <| .ite (.hostWrite ..) <| .ite (.hostWrite ..) (.hostWrite ..)

theorem State.writeTmg_guarded : s.Guarded dom (s.writeTmg dom n o a v) :=
  .ite (.ite (.hostWrite ..) (.hostWrite ..)) <| .ite (.hostWrite ..) <|
    .ite (.ite (.hostWrite ..) (.hostWrite ..)) (.hostWrite ..)

theorem State.writeTmu_guarded : s.Guarded dom (s.writeTmu dom n o a v) :=
  .ite (.ite (.hostWrite ..) (.hostWrite ..)) <|
    .ite (.ite (.hostWrite ..) <| .ite (.hostWrite ..) (.hostWrite ..)) (.hostWrite ..)

theorem State.writeAcq_guarded : s.Guarded dom (s.writeAcq dom n o a v) :=
  .ite (.hostWrite ..) <| .ite (.ite (.hostWrite ..) <| .ite (.hostWrite ..) <| .ite (.hostWrite ..) <|
    .ite (.hostWrite ..) (.hostWrite ..)) (.hostWrite ..)

theorem State.writePel_guarded : s.Guarded dom (s.writePel dom n o a v) :=
  .ite (.hostWrite ..) <| .ite (.ite (.hostWrite ..) <| .ite (.hostWrite ..) (.hostWrite ..)) (.hostWrite ..)

theorem State.writeAne_guarded : s.Guarded dom (s.writeAne dom a v) :=
  .ite (.ite (.hostWrite ..) <| .ite (.hostWrite ..) <| .ite (.hostWrite ..) (.hostWrite ..)) <|
    .ite (.hostWrite ..) <| .ite (.hostWrite ..) (.hostWrite ..)

theorem State.writeDrc_guarded : s.Guarded dom (s.writeDrc dom n o a v) :=
  .ite (.ite (.hostWrite ..) <| .ite (.hostWrite ..) <| .ite (.hostWrite ..) (.hostWrite ..)) <|
    .ite (.hostWrite ..) <| .ite (.hostWrite ..) (.hostWrite ..)

theorem State.writeDma_guarded : s.Guarded dom (s.writeDma dom n o a v) :=
  .ite (.ite (.hostWrite ..) <| .ite (.hostWrite ..) <| .ite (.hostWrite ..) <| .ite (.hostWrite ..) (.hostWrite ..)) <|
    .ite (.hostWrite ..) (.hostWrite ..)

theorem State.writePt_guarded : s.Guarded dom (s.writePt dom a v) := .ite (.hostWrite ..) (.hostWrite ..)

theorem State.writeLnk_guarded : s.Guarded dom (s.writeLnk dom n o a v) := by
  refine .ite ?_ (.hostWrite ..)
  split <;> exact .hostWrite ..

theorem State.writeStiCmd_guarded : s.Guarded dom (s.writeStiCmd dom v) := by
  unfold State.writeStiCmd
  split
  case h_5 => exact .ite (.hostWrite ..) (.hostWrite ..)
  all_goals exact .hostWrite ..

theorem State.writeSupCmd_guarded : s.Guarded dom (s.writeSupCmd dom v) := by
  unfold State.writeSupCmd
  split
  case h_1 => exact ⟨_, _, _, rfl⟩
  all_goals exact .hostWrite ..

theorem State.writePwrCmd_guarded : s.Guarded dom (s.writePwrCmd dom v) := by
  unfold State.writePwrCmd
  split <;> exact .hostWrite ..

theorem State.writeFltCmd_guarded : s.Guarded dom (s.writeFltCmd dom v) := by
  unfold State.writeFltCmd
  split <;> exact .hostWrite ..

theorem State.writeCalCmd_guarded : s.Guarded dom (s.writeCalCmd dom v) := by
  unfold State.writeCalCmd
  split <;> exact .hostWrite ..

theorem State.writeMtbCmd_guarded : s.Guarded dom (s.writeMtbCmd dom v) := by
  unfold State.writeMtbCmd
  split <;> exact .hostWrite ..

theorem State.writeOne_guarded : s.Guarded dom (s.writeOne dom a v) :=
  .ite (.hostWrite ..) <| .ite (.hostWrite ..) <| .ite (s.writeStiCmd_guarded dom v) <| .ite (.hostWrite ..) <|
    .ite (s.writeCalCmd_guarded dom v) <| .ite (.hostWrite ..) <| .ite (.hostWrite ..) <|
    .ite (s.writeMtbCmd_guarded dom v) <| .ite (s.writeFltCmd_guarded dom v) <| .ite (.hostWrite ..) <|
    .ite (s.writePwrCmd_guarded dom v) <| .ite (s.writeSupCmd_guarded dom v) <| .ite (.hostWrite ..) (.hostWrite ..)

/-- A write of an aligned word of a block of BAR0 is guarded, whatever row of its own the register has. -/
theorem State.writeBar0_guarded (h4 : a % 4 = 0) (htop : a < 0x1900000) : s.Guarded dom (s.writeBar0 dom a v) := by
  unfold State.writeBar0
  dsimp only
  rw [if_neg (not_not.2 h4), if_neg (not_le.2 htop)]
  exact .ite (s.writeSeq_guarded ..) <| .ite (s.writeTmg_guarded ..) <| .ite (.hostWrite ..) <|
    .ite (s.writeTmu_guarded ..) <| .ite (s.writeAcq_guarded ..) <| .ite (s.writePel_guarded ..) <|
    .ite (.hostWrite ..) <| .ite (.hostWrite ..) <| .ite (s.writeAne_guarded ..) <| .ite (s.writeDrc_guarded ..) <|
    .ite (s.writeDma_guarded ..) <| .ite (s.writePt_guarded ..) <| .ite (s.writeLnk_guarded ..) (s.writeOne_guarded ..)

end writes

/-- A read of an aligned word of a block of BAR0 is a host read of its address. -/
theorem State.readBar0_guarded (s : State) (dom : Nat) {a : Nat} (h4 : a % 4 = 0) (htop : a < 0x1900000) :
    ∃ k, s.readBar0 dom a = s.hostRead dom a k := by
  rw [State.readBar0, if_neg (not_not.2 h4), if_neg (not_le.2 htop)]
  split
  case isTrue hacq =>
    have ha : Reg.CSH_ACQ ((a - 0xE00000) / 0x1000) = a := by rw [Reg.CSH_ACQ]; omega
    exact ⟨_, by rw [doCshAcquire, ha]⟩
  case isFalse =>
  split
  case isTrue hstat => exact ⟨_, by rw [hstat, doAneFStatRead]⟩
  case isFalse =>
  split
  case isTrue hwin =>
    rw [State.readWindow]
    split <;> exact ⟨_, rfl⟩
  case isFalse =>
  split
  case h_1 c hseq =>
    obtain ⟨hin, hc⟩ := Option.ite_none_right_eq_some.1 hseq
    have ha : Reg.TMU_RSEQ c = a := by rw [Reg.TMU_RSEQ, ← Option.some.inj hc]; omega
    exact ⟨_, by rw [doTmuRseqRead, ha]⟩
  case h_2 => exact ⟨_, rfl⟩

/-! ### While a GRAVE fault is held -/

section grave
variable {s : State} (hg : s.graveHeld = true) (dom : Nat)
include hg

/-- No host write reaches its register. -/
theorem State.hostWrite_grave (a : Nat) (k : State → State) : s.hostWrite dom a k = s := by
  rw [State.hostWrite, State.access, hg]
  cases s.hostOn dom <;> rfl

/-- A host read outside GLB, FLT and PWR answers ones. -/
theorem State.hostRead_grave {a : Nat} (ha : graveServed a = false) (k : State → State × List Word) :
    s.hostRead dom a k = s.answer [word 0xFFFFFFFF] := by
  rw [State.hostRead, State.access, hg, ha]
  cases s.hostOn dom <;> rfl

/-- An access that R4 does not allow is not noted. -/
theorem State.misaligned_grave (a : Nat) :
    s.misaligned dom a true = s ∧ s.misaligned dom a false = s.answer [word 0xFFFFFFFF] := by
  simp [State.misaligned_eq, hg]

/-- A write of BAR0 leaves the state, but for the open bytes of host memory that it counts (log entry 5). -/
theorem State.writeBar0_grave (a : Nat) (v : Word) : ∃ n, s.writeBar0 dom a v = { s with free := n } := by
  by_cases hword : a % 4 = 0 ∧ a < 0x1900000
  · obtain ⟨n, b, k, h⟩ := s.writeBar0_guarded dom a v hword.1 hword.2
    exact ⟨n, h.trans (State.hostWrite_grave (s := { s with free := n }) hg dom b k)⟩
  · have hnot : s.writeBar0 dom a v = s.misaligned dom a true := by
      rw [State.writeBar0, ← ite_or, if_pos (by omega)]
    exact ⟨s.free, hnot.trans (State.misaligned_grave hg dom a).1⟩

/-- A read of BAR0 outside GLB, FLT and PWR answers ones. -/
theorem State.readBar0_grave {a : Nat} (ha : graveServed a = false) :
    s.readBar0 dom a = s.answer [word 0xFFFFFFFF] := by
  by_cases hword : a % 4 = 0 ∧ a < 0x1900000
  · obtain ⟨k, h⟩ := s.readBar0_guarded dom hword.1 hword.2
    exact h.trans (State.hostRead_grave hg dom ha k)
  · rw [State.readBar0]
    split
    · exact (State.misaligned_grave hg dom a).2
    · rw [if_pos (by omega)]
      rfl

/-- The window onto DRAM answers ones and takes nothing. -/
theorem State.bar2_grave (o : Nat) :
    (∀ n, s.bar2Read dom o n = s.answer (fillWords n 0xFFFFFFFF)) ∧ ∀ bs, s.bar2Write dom o bs = s :=
  ⟨fun n => by simp only [State.bar2Read, hg, Bool.or_true, if_true],
    fun bs => by simp only [State.bar2Write, hg, Bool.or_true, if_true]⟩

/-- The window onto on-chip memory answers ones. -/
theorem State.bar4Get_grave (o : Nat) : s.bar4Get dom o = s.answer [word 0xFFFFFFFF] := by
  simp only [State.bar4Get, hg, Bool.or_true, if_true]

/-- It takes nothing. -/
theorem State.bar4Put_grave (o : Nat) (v : Word) : s.bar4Put dom o v = s := by
  simp only [State.bar4Put, State.bar4Write, hg, Bool.not_true, Bool.and_false, Bool.or_true, Bool.false_eq_true,
    if_false, if_true, ite_self]

end grave

/-- Settles O59: behind the checks of a host access nothing is reached, whatever the register. -/
theorem graveHeldDiscardsHostWrites : Obligations.GraveHeldDiscardsHostWrites := by
  intro s d hg
  refine ⟨fun addr v => ?_, fun off bs => ?_, fun off v => ?_, fun off k => ?_, fun off => ?_, fun addr hout => ?_⟩
  · obtain ⟨n, h⟩ := State.writeBar0_grave hg d addr.toNat v
    exact ⟨_, (exec_registerWrite_clean d addr s v).trans (congrArg _ h), rfl⟩
  · rw [exec_bar2Access_write, (State.bar2_grave hg d off.toNat).2]
  · rw [exec_bar4Access_write, State.bar4Put_grave hg]
  · rw [exec_bar2Access_read, (State.bar2_grave hg d off.toNat).1]
  · rw [exec_bar4Access_read, State.bar4Get_grave hg]
  · have ha : graveServed addr.toNat = false := by simpa [graveServed] using hout
    rw [exec_wideLowWordRead, State.readBar0_grave hg d ha]

end Sys2Proof.Machine
end

section
/-! SUPPORT. A denied access (R434): what the counter, the record of the first one and the interrupt register show. -/

namespace Sys2Proof.Machine

open Sys2Proof

/-- A change of registers with a fault detected after it. -/
theorem RegsOnly.detect {l : List Nat} {s t : State} (h : RegsOnly l s t) (r : FaultRec) :
    RegsAndFault l r s (t.detect r) := ⟨h.1, by rw [h.2]; rfl⟩

/-- The interrupt bit 0 of a register, set. -/
theorem word_or_one (v : Word) : word (v.toNat ||| 1) = v ||| 1 := by
  refine BitVec.eq_of_toNat_eq ?_
  rw [word, BitVec.toNat_ofNat, BitVec.toNat_or]
  exact Nat.mod_eq_of_lt (Nat.or_lt_two_pow v.isLt (by decide))

/-- A saturating counter counts one access, and stays at its top. -/
theorem toNat_word_sat (v : Word) : (word (sat 32 (v.toNat + 1))).toNat = min (v.toNat + 1) 0xFFFFFFFF := by
  have hv := v.isLt
  rw [word, BitVec.toNat_ofNat, sat]
  split <;> omega

/-- The registers that a denied access of BAR0 may change. -/
abbrev denyRegs : List Nat :=
  [Reg.HIF_DENY_CNT, Reg.HIF_DENY_INFO, Reg.HIF_DENY_ADDR_LO, Reg.HIF_DENY_ADDR_HI, Reg.HIF_ISTAT]

/-- The fault of a denied access of BAR0. -/
abbrev denyRec (dom : Nat) (wr : Bool) (a : Nat) : FaultRec :=
  { src := blkHIF, cls := 0, addr := a, rkind := 1, access := if wr then 1 else 0, rid := dom }

/-- What a denied access of BAR0 leaves: the state `t` counts it, shows it where none was shown, and has its fault
detected. -/
structure State.Denied (s : State) (dom : Nat) (wr : Bool) (a : Nat) (t : State) : Prop where
  kept : RegsAndFault denyRegs (denyRec dom wr a) s t
  counted : (t.rd Reg.HIF_DENY_CNT).toNat = min ((s.rd Reg.HIF_DENY_CNT).toNat + 1) 0xFFFFFFFF
  irq : t.rd Reg.HIF_ISTAT = s.rd Reg.HIF_ISTAT ||| 1
  again : bit (s.rd Reg.HIF_DENY_INFO) 31 = true →
    ∀ r ∈ [Reg.HIF_DENY_INFO, Reg.HIF_DENY_ADDR_LO, Reg.HIF_DENY_ADDR_HI], t.rd r = s.rd r
  first : bit (s.rd Reg.HIF_DENY_INFO) 31 = false →
    t.rd Reg.HIF_DENY_INFO = word (2 ^ 31 + (if wr then 2 ^ 27 else 0) + 2 ^ 20 * dom) ∧
      t.rd Reg.HIF_DENY_ADDR_LO = word a ∧ t.rd Reg.HIF_DENY_ADDR_HI = 0

section deny
variable {s : State} (dom : Nat) (wr : Bool) (a : Nat)

/-- The count of denied accesses, one more. -/
abbrev State.denyCounted (s : State) : State := s.count Reg.HIF_DENY_CNT 1

theorem State.denyCounted_same (s : State) :
    (s.denyCounted.rd Reg.HIF_DENY_CNT).toNat = min ((s.rd Reg.HIF_DENY_CNT).toNat + 1) 0xFFFFFFFF :=
  (congrArg _ (State.rd_wr_same ..)).trans (toNat_word_sat _)

theorem State.denyCounted_other (s : State) {r : Nat} (h : r ≠ Reg.HIF_DENY_CNT) : s.denyCounted.rd r = s.rd r :=
  State.rd_wr_other _ _ h

theorem State.rd_irqOne (s : State) (r : Nat) : (s.irq r 1).rd r = s.rd r ||| 1 :=
  (State.rd_wr_same ..).trans (word_or_one _)

theorem State.rd_irq_other (s : State) (m : Nat) {r b : Nat} (h : b ≠ r) : (s.irq r m).rd b = s.rd b :=
  State.rd_wr_other _ _ h

/-- The registers that record the first denied access of BAR0. -/
abbrev State.denyShown (s : State) (dom : Nat) (wr : Bool) (a : Nat) : State :=
  ((s.wrN Reg.HIF_DENY_INFO (2 ^ 31 + 2 ^ 28 * 0 + b2n wr * 2 ^ 27 + 2 ^ 20 * dom + 2 ^ 16 * 0)).wrN
    Reg.HIF_DENY_ADDR_LO a).wrN Reg.HIF_DENY_ADDR_HI (a / 2 ^ 32)

theorem State.denyShown_info :
    (s.denyShown dom wr a).rd Reg.HIF_DENY_INFO = word (2 ^ 31 + (if wr then 2 ^ 27 else 0) + 2 ^ 20 * dom) := by
  have hread : (s.denyShown dom wr a).rd Reg.HIF_DENY_INFO =
      word (2 ^ 31 + 2 ^ 28 * 0 + b2n wr * 2 ^ 27 + 2 ^ 20 * dom + 2 ^ 16 * 0) :=
    (State.rd_wr_other _ _ (by decide)).trans ((State.rd_wr_other _ _ (by decide)).trans (State.rd_wr_same ..))
  rw [hread]
  cases wr <;> rfl

theorem State.denyShown_lo : (s.denyShown dom wr a).rd Reg.HIF_DENY_ADDR_LO = word a :=
  (State.rd_wr_other _ _ (by decide)).trans (State.rd_wr_same ..)

theorem State.denyShown_hi (ha : a < 2 ^ 32) : (s.denyShown dom wr a).rd Reg.HIF_DENY_ADDR_HI = 0 := by
  refine (State.rd_wr_same ..).trans ?_
  rw [Nat.div_eq_of_lt ha]
  rfl

theorem State.denyShown_other {r : Nat}
    (h : r ∉ [Reg.HIF_DENY_INFO, Reg.HIF_DENY_ADDR_LO, Reg.HIF_DENY_ADDR_HI]) :
    (s.denyShown dom wr a).rd r = s.rd r := by
  simp only [List.mem_cons, List.not_mem_nil, or_false, not_or] at h
  exact (State.rd_wr_other _ _ h.2.2).trans ((State.rd_wr_other _ _ h.2.1).trans (State.rd_wr_other _ _ h.1))

theorem State.deny_again (h : bit (s.rd Reg.HIF_DENY_INFO) 31 = true) :
    s.deny 0 dom 0 wr a = (s.denyCounted.irq Reg.HIF_ISTAT 1).detect (denyRec dom wr a) := by
  rw [State.deny, s.denyCounted_other (by decide), h]
  rfl

theorem State.deny_first (h : bit (s.rd Reg.HIF_DENY_INFO) 31 = false) :
    s.deny 0 dom 0 wr a = ((s.denyCounted.denyShown dom wr a).irq Reg.HIF_ISTAT 1).detect (denyRec dom wr a) := by
  rw [State.deny, s.denyCounted_other (by decide), h]
  rfl

/-- A denied access of BAR0 leaves what R434 says, whether or not it is the first. -/
theorem State.deny_denied (ha : a < 2 ^ 32) : s.Denied dom wr a (s.deny 0 dom 0 wr a) := by
  have hcount : RegsOnly denyRegs s s.denyCounted := (RegsOnly.refl _ s).wr _ _ (by decide)
  cases h : bit (s.rd Reg.HIF_DENY_INFO) 31 with
  | true =>
    rw [State.deny_again dom wr a h]
    refine ⟨(hcount.wr _ _ (by decide)).detect _, ?_, ?_, fun _ r hr => ?_,
      fun hno => Bool.noConfusion (h.symm.trans hno)⟩
    · rw [State.detect_rd, State.rd_irq_other _ _ (by decide), State.denyCounted_same]
    · rw [State.detect_rd, State.rd_irqOne, State.denyCounted_other _ (by decide)]
    · have hother : r ≠ Reg.HIF_ISTAT ∧ r ≠ Reg.HIF_DENY_CNT := by revert r; decide
      rw [State.detect_rd, State.rd_irq_other _ _ hother.1, State.denyCounted_other _ hother.2]
  | false =>
    rw [State.deny_first dom wr a h]
    refine ⟨((((hcount.wr _ _ (by decide)).wr _ _ (by decide)).wr _ _ (by decide)).wr _ _ (by decide)).detect _,
      ?_, ?_, fun hyes => Bool.noConfusion (h.symm.trans hyes), fun _ => ⟨?_, ?_, ?_⟩⟩
    · rw [State.detect_rd, State.rd_irq_other _ _ (by decide), State.denyShown_other _ _ _ (by decide),
        State.denyCounted_same]
    · rw [State.detect_rd, State.rd_irqOne, State.denyShown_other _ _ _ (by decide),
        State.denyCounted_other _ (by decide)]
    · rw [State.detect_rd, State.rd_irq_other _ _ (by decide), State.denyShown_info]
    · rw [State.detect_rd, State.rd_irq_other _ _ (by decide), State.denyShown_lo]
    · rw [State.detect_rd, State.rd_irq_other _ _ (by decide), State.denyShown_hi _ _ _ ha]

end deny

/-- An access that its domain may not make is denied before the block is looked at (R434; log entry 6). -/
theorem State.access_denied {s : State} {dom a : Nat} {wr : Bool} (hon : s.hostOn dom = true)
    (hg : s.graveHeld = false) (hmay : (if wr then s.regMayWrite dom a else s.regMayRead dom a) = false) :
    s.access dom a wr = .answer (s.deny 0 dom 0 wr a) (word 0xFFFFFFFF) := by
  rw [State.access, hon, hg, hmay]
  rfl

/-- Settles O58: the checks of a host access answer a denied access, which leaves what R434 says. -/
theorem deniedAccessesAreCountedAndNoted : Obligations.DeniedAccessesAreCountedAndNoted := by
  intro s d addr v hon hg a h4 htop denied
  have hleft : ∀ wr, denied wr (s.deny 0 d 0 wr a) := fun wr =>
    let h := State.deny_denied (s := s) d wr a (by omega)
    ⟨h.kept, h.counted, h.irq, h.again, h.first⟩
  refine ⟨fun hmay hown => ⟨_, hleft false, ?_⟩, fun hmay hown => ⟨_, hleft true, ?_⟩⟩
  · rw [exec_wideLowWordRead, s.readBar0_plain d h4 htop hown, State.readPlain, State.hostRead,
      State.access_denied (wr := false) hon hg hmay]
  · rw [exec_registerWrite_clean, s.writeBar0_plain d v h4 htop hown, State.writePlain, State.hostWrite,
      State.access_denied (wr := true) hon hg hmay]

end Sys2Proof.Machine
end

section
/-! SUPPORT. Pin electronics (R308–R324): what the host's writes of a channel do once they reach their register, and
when its events are due. -/

namespace Sys2Proof.Machine

open Sys2Proof

section arms
variable (s : State) (d : Fin 16) (ch : Fin 128) (v : Word)

theorem exec_pelValueWrite (r : Fin 15) : exec (.pelValueWrite d ch r v) s = .next (doPelValueWrite d ch r v s) := rfl

theorem exec_clearTrip : exec (.clearTrip d ch) s = .next (doClearTrip d ch s) := rfl

theorem exec_refl : exec (.refl d ch) s = .next (doRefl d ch s) := rfl

theorem exec_pelCmdInvalid : exec (.pelCmdInvalid d ch v) s = .next (doPelCmdInvalid d ch v s) := rfl

theorem exec_pelTrip : exec (.pelTrip ch) s = .next (doPelTrip ch s) := rfl

theorem exec_pmuClampEntry : exec (.pmuClampEntry ch) s = .next (doPmuClampEntry ch s) := rfl

theorem exec_pmuClampExit : exec (.pmuClampExit ch) s = .next (doPmuClampExit ch s) := rfl

theorem exec_pelReflDone (obs : List (Option (Nat × Option Nat))) :
    exec (.pelReflDone ch obs) s = .next (doPelReflDone ch obs s) := rfl

theorem exec_pelTempCrossing (tile : Fin 4) (deg : BitVec 16) :
    exec (.pelTempCrossing tile deg) s = .next (doPelTempCrossing tile (deg.zeroExtend 32) s) := rfl

end arms

/-! ### The host's writes (R308, R313, R320) -/

/-- A setting or a command of channel `c` refused with an error code: shown, with the interrupt, and noted (R308). -/
def State.pelRefused (s : State) (dom c a code : Nat) : State :=
  ((s.wr (Reg.PEL_ERR c) (word (2 ^ 31 + a % 256 * 256 + code))).irq (Reg.PEL_ISTAT c) 1).noteReg dom a code

section commands
variable {s : State} {dom c : Nat}

/-- A value in range is staged in the register's bits. -/
theorem doPelValueWrite_accepted {r : Nat} {v : Word} {row : RegRow}
    (hw : s.Writes dom (Reg.PEL_DRV_CTL c + 4 * r)) (hrow : regRow (Reg.PEL_DRV_CTL c + 4 * r) = some row)
    (hok : s.pelAccepts c (4 * r) v = true) :
    doPelValueWrite dom c r v s = s.stageWrite (Reg.PEL_DRV_CTL c + 4 * r) (v &&& word row.mask) := by
  simp only [doPelValueWrite, State.hostWrite_writes hw, hok, hrow, if_true]

/-- A value out of range is refused with code 1. -/
theorem doPelValueWrite_refused {r : Nat} {v : Word} (hw : s.Writes dom (Reg.PEL_DRV_CTL c + 4 * r))
    (hbad : s.pelAccepts c (4 * r) v = false) :
    doPelValueWrite dom c r v s = s.pelRefused dom c (Reg.PEL_DRV_CTL c + 4 * r) 1 := by
  simp only [doPelValueWrite, State.hostWrite_writes hw, hbad, Bool.false_eq_true, if_false]
  rfl

section command
variable (hw : s.Writes dom (Reg.PEL_CMD c))
include hw

/-- CLEAR_TRIP ends a trip of a channel whose owner is stopped, and is refused with code 7 elsewhere. -/
theorem doClearTrip_writes :
    doClearTrip dom c s =
      if s.chStopped c then
        if s.tripped c then (s.wrF (Reg.PEL_STAT c) 31 31 0).landSet c s.now1024 (s.ch c).drv else s
      else s.pelRefused dom c (Reg.PEL_CMD c) 7 := by
  rw [doClearTrip, State.hostWrite_writes hw]
  rfl

/-- A REFL that is accepted wakes the sensor, takes driver and load off the land and drives its launches. -/
theorem doRefl_accepted (hok : s.reflOk c = true) :
    let t := (s.wakeNow 1 c 1).landOff c s.now1024
    doRefl dom c s =
      ((t.setCh c { t.ch c with refl := true }).wrF (Reg.PEL_STAT c) 28 28 1).send (t.reflDrives c) := by
  rw [doRefl, State.hostWrite_writes hw, if_pos hok]

/-- Another REFL ends at once. -/
theorem doRefl_refused (hbad : s.reflOk c = false) :
    doRefl dom c s =
      (s.wr (Reg.PEL_REFL_RES c) (word (2 ^ 31 + 2 ^ 28 * 4))).irq (Reg.PEL_ISTAT c) 4 := by
  rw [doRefl, State.hostWrite_writes hw, if_neg (Bool.eq_false_iff.1 hbad)]
  rfl

/-- An OP other than CLEAR_TRIP and REFL is noted. -/
theorem doPelCmdInvalid_noted {v : Word} (hclear : v.toNat % 4 ≠ 1) (hrefl : v.toNat % 4 ≠ 2) :
    doPelCmdInvalid dom c v s = s.noteReg dom (Reg.PEL_CMD c) := by
  rw [doPelCmdInvalid, State.hostWrite_writes hw, fld_low]
  exact if_neg (not_or.2 ⟨hclear, hrefl⟩)

end command

end commands

/-- Settles O36: each write reaches its register, and takes the branch that its clause's condition names. -/
theorem pinCommandsComplete : Obligations.PinCommandsComplete := by
  intro s d ch r v cmd a err woken
  refine ⟨fun hw => ⟨fun row hrow hok => ?staged, fun hbad => ?outOfRange⟩,
    fun hw => ⟨fun hstop htrip => ?cleared, fun hstop hnone => ?nothing, fun hrun => ?running, fun hok => ?measured,
      fun hbad => ?refused, fun hclear hrefl => ?otherOp⟩⟩
  case staged => rw [exec_pelValueWrite, doPelValueWrite_accepted hw hrow hok]
  case outOfRange =>
    rw [exec_pelValueWrite, doPelValueWrite_refused hw hbad]
    rfl
  case cleared => rw [exec_clearTrip, doClearTrip_writes hw, if_pos hstop, if_pos htrip]
  case nothing => rw [exec_clearTrip, doClearTrip_writes hw, if_pos hstop, if_neg (Bool.eq_false_iff.1 hnone)]
  case running =>
    rw [exec_clearTrip, doClearTrip_writes hw, if_neg (Bool.eq_false_iff.1 hrun)]
    rfl
  case measured =>
    rw [exec_refl, doRefl_accepted hw hok]
    rfl
  case refused => rw [exec_refl, doRefl_refused hw hbad]
  case otherOp => rw [exec_pelCmdInvalid, doPelCmdInvalid_noted hw hclear hrefl]

/-! ### Events of a channel (R313, R316, R321, R322) -/

section events
variable {s : State} (hrun : s.runs = true) {c : Nat}
include hrun

theorem doPelTrip_due (h : s.tripped c = false) : doPelTrip c s = s.pelTrip c :=
  State.whenDue_due hrun (by rw [h]; rfl) _

/-- A PMU that owns the land enters a clamp. -/
theorem doPmuClampEntry_due (hown : ownsLand (s.pmuMode c) = true) (hout : bit (s.rd (Reg.PEL_STAT c)) 30 = false) :
    doPmuClampEntry c s =
      ((if s.rd (Reg.PEL_CLAMP_CNT c) = 0 then s.irq (Reg.PEL_ISTAT c) 2 else s).count (Reg.PEL_CLAMP_CNT c) 1).wrF
        (Reg.PEL_STAT c) 30 30 1 :=
  State.whenDue_due hrun (by rw [hown, hout]; rfl) _

section reflection
variable {obs : List (Option (Nat × Option Nat))} (hrefl : (s.ch c).refl = true)
  (hlen : obs.length = s.rdF (Reg.PEL_REFL_CTL c) 12 0)
include hrefl hlen

/-- A measurement with what each of its launches gave is due. -/
theorem doPelReflDone_due (k : State → State) :
    s.whenDue ((s.ch c).refl && obs.length == s.rdF (Reg.PEL_REFL_CTL c) 12 0) k = k s :=
  State.whenDue_due hrun (by rw [hrefl, hlen, beq_self_eq_true]; rfl) k

/-- A launch without a stamp ends it with NO_LAUNCH. -/
theorem doPelReflDone_noLaunch (hnone : none ∈ obs) : doPelReflDone c obs s = s.reflEnd c 2 0 := by
  have hany : obs.any Option.isNone = true := List.any_eq_true.2 ⟨none, hnone, rfl⟩
  rw [doPelReflDone, doPelReflDone_due hrun hrefl hlen, if_pos hany]

section stamped
variable (hall : none ∉ obs)
include hall

omit hrun hrefl hlen in
theorem launches_stamped : ¬ obs.any Option.isNone = true := fun h => by
  obtain ⟨x, hx, hnone⟩ := List.any_eq_true.1 h
  exact hall (Option.isNone_iff_eq_none.1 hnone ▸ hx)

/-- A return that is missing or late ends it with NO_RETURN. -/
theorem doPelReflDone_noReturn (hless : (obs.filterMap reflX).length < obs.length) :
    doPelReflDone c obs s = s.reflEnd c 1 0 := by
  rw [doPelReflDone, doPelReflDone_due hrun hrefl hlen, if_neg (launches_stamped hall), if_pos hless]

/-- Intervals of every launch give the delay, or SPREAD where they spread or it is out of range. -/
theorem doPelReflDone_returned (hevery : (obs.filterMap reflX).length = obs.length) :
    let xs := obs.filterMap reflX
    let t := (s.wr (Reg.PEL_REFL_RAW c)
      (word (xs.sum / xs.length + if xs.sum % xs.length = 0 then 0 else s.freeNow % 2))).drawn
    let tau := reflTau xs.length xs.sum (t.rd (Reg.PEL_REFL_OFS c)).toNat
    doPelReflDone c obs s =
      if reflSpread xs.length xs.sum (xs.map fun x => x * x).sum = true ∨ tau < 0 ∨ 65535 < tau then t.reflEnd c 3 0
      else t.reflEnd c 0 tau.toNat := by
  rw [doPelReflDone, doPelReflDone_due hrun hrefl hlen, if_neg (launches_stamped hall), if_neg hevery.not_lt]
  simp only [Bool.or_eq_true, decide_eq_true_eq, or_assoc]
  rfl

end stamped

end reflection

/-- A tile's new temperature is shown; past 110 °C it is noted, and past 120 °C every channel of the tile trips with its
PMU off, with a MOD fault (R319). -/
theorem doPelTempCrossing_due (tile : Nat) (deg : Word) :
    let a := Reg.PEL_TEMP tile
    let old := code16 (s.rd a)
    let new := code16 deg
    let shown := s.wr a (word (fld deg 15 0))
    let noted := if old < 880 ∧ 880 ≤ new then shown.note (0x700 + 32 * tile) 0 a else shown
    doPelTempCrossing tile deg s =
      if old < 960 ∧ 960 ≤ new then
        (forEach (tileChans tile) (fun c s => (if s.tripped c then s else s.pelTrip c).pmuOff c) noted).modFault
          (0x700 + 32 * tile) 0
      else noted :=
  State.whenDue_due hrun rfl _

end events

/-- Settles O37: each event acts, since its clause's conditions make it due. -/
theorem pinEventsComplete : Obligations.PinEventsComplete := by
  intro s ch hrun
  refine ⟨fun htrip => ?trip, fun hown hout => ?clampEntry, fun hin => ?clampExit,
    fun obs hrefl hlen => ⟨fun hnone => ?noLaunch, fun hall hless => ?noReturn, fun hall hevery hbad => ?spread,
      fun hall hevery hok => ?delay⟩, fun tile deg => ?temp⟩
  case trip => rw [exec_pelTrip, doPelTrip_due hrun htrip]
  case clampEntry => rw [exec_pmuClampEntry, doPmuClampEntry_due hrun hown hout]
  case clampExit => rw [exec_pmuClampExit, doPmuClampExit, State.whenDue_due hrun hin]
  case noLaunch => rw [exec_pelReflDone, doPelReflDone_noLaunch hrun hrefl hlen hnone]
  case noReturn => rw [exec_pelReflDone, doPelReflDone_noReturn hrun hrefl hlen hall hless]
  case spread =>
    rw [exec_pelReflDone, doPelReflDone_returned hrun hrefl hlen hall hevery]
    exact congrArg _ (if_pos hbad)
  case delay =>
    rw [exec_pelReflDone, doPelReflDone_returned hrun hrefl hlen hall hevery]
    exact congrArg _ (if_neg hok)
  case temp => rw [exec_pelTempCrossing, doPelTempCrossing_due hrun]

end Sys2Proof.Machine
end

section
/-! SUPPORT. Calibration in service (R325–R350): what the host's commands do once they reach CAL_CMD, and when the
events of the rotation, its slots and a store are due. -/

namespace Sys2Proof.Machine

open Sys2Proof

section arms
variable (s : State) (d : Fin 16) (v : Word)

theorem exec_calStore : exec (.calStore d) s = .next (doCalStore d s) := rfl

theorem exec_saveRej : exec (.saveRej d) s = .next (doSaveRej d s) := rfl

theorem exec_clrSuspect : exec (.clrSuspect d) s = .next (doClrSuspect d s) := rfl

theorem exec_calCmdInvalid : exec (.calCmdInvalid d v) s = .next (doCalCmdInvalid d v s) := rfl

theorem exec_calStoreDone : exec .calStoreDone s = .next (doCalStoreDone s) := rfl

theorem exec_calSlotStart : exec .calSlotStart s = .next (doCalSlotStart s) := rfl

theorem exec_calPhaseEnd (o : CalObs) : exec (.calPhaseEnd o) s = .next (doCalPhaseEnd o s) := rfl

theorem exec_calSwitchPoint : exec .calSwitchPoint s = .next (doCalSwitchPoint s) := rfl

theorem exec_calSlotEnd : exec .calSlotEnd s = .next (doCalSlotEnd s) := rfl

theorem exec_calTempCorrection (tile : Fin 4) :
    exec (.calTempCorrection tile) s = .next (doCalTempCorrection tile s) := rfl

theorem exec_calAgeLimit (ch : Fin 128) : exec (.calAgeLimit ch) s = .next (doCalAgeLimit ch s) := rfl

end arms

/-! ### Commands and the end of a store (R337, R345, R349, R350) -/

section commands
variable {s : State} {dom : Nat} (hw : s.Writes dom Reg.CAL_CMD)
include hw

/-- STORE is noted under a MOD fault, and else taken as its bar has it, a BUSY one being noted too. -/
theorem doCalStore_writes :
    doCalStore dom s =
      if s.modHeld then s.noteReg dom Reg.CAL_CMD
      else (if s.storeBar = 2 then s.noteReg dom Reg.CAL_CMD 2 else s).calStore s.storeBar := by
  rw [doCalStore, State.hostWrite_writes hw]

/-- SAVE_REJ is noted under a MOD fault. -/
theorem doSaveRej_modHeld (hmod : s.modHeld = true) : doSaveRej dom s = s.noteReg dom Reg.CAL_CMD := by
  rw [doSaveRej, State.hostWrite_writes hw, if_pos hmod]

section saveRej
variable (hmod : s.modHeld = false)
include hmod

/-- The latest rejected candidate goes to the reject slot. -/
theorem doSaveRej_saved {r : Nat} {body : List Byte} (hbar : s.storeBar = 0) (hcand : s.cal.reject = some (r, body)) :
    doSaveRej dom s = s.setCheck.1.setStore 3 (s.setCheck.1.storeTarget s.setCheck.2).2 r body := by
  rw [doSaveRej, State.hostWrite_writes hw, if_neg (Bool.eq_false_iff.1 hmod), hbar, hcand]
  rfl

/-- Without a candidate it is noted. -/
theorem doSaveRej_none (hbar : s.storeBar = 0) (hnone : s.cal.reject = none) :
    doSaveRej dom s = s.noteReg dom Reg.CAL_CMD := by
  rw [doSaveRej, State.hostWrite_writes hw, if_neg (Bool.eq_false_iff.1 hmod), hbar, hnone]
  rfl

/-- While a store runs it is noted, and ends with BUSY. -/
theorem doSaveRej_busy (hbar : s.storeBar = 2) : doSaveRej dom s = (s.noteReg dom Reg.CAL_CMD 2).storeErr 2 := by
  rw [doSaveRej, State.hostWrite_writes hw, if_neg (Bool.eq_false_iff.1 hmod), hbar]
  rfl

/-- Under another bar it ends with the bar's error. -/
theorem doSaveRej_barred (hbar : s.storeBar ≠ 0) (hbusy : s.storeBar ≠ 2) :
    doSaveRej dom s = s.norPfw.storeErr s.storeBar := by
  rw [doSaveRej, State.hostWrite_writes hw, if_neg (Bool.eq_false_iff.1 hmod)]
  split
  next h _ => exact absurd h hbar
  next h _ => exact absurd h hbar
  next h => exact absurd h hbusy
  next => rfl

end saveRej

end commands

/-- Where no check of the sets' words meets an injection, they are as they are. -/
theorem State.setCheck_clean {s : State} (h : s.injTake 0x800 3 = (s, false)) : s.setCheck = (s, false) := by
  rw [State.setCheck, h]
  rfl

/-- A store that the flash has ended is due. -/
theorem doCalStoreDone_due {s : State} (hrun : s.runs = true) {b code : Nat} (hb : s.cal.storing = some b)
    (hcode : s.cal.stored = some code) :
    let t := { s with cal := { s.cal with storing := none, stored := none } }.wrF Reg.CAL_STAT 31 31 0
    let t := if b = 1 then t.wrN Reg.CAL_SEQ_A (t.bankSeq 1) else if b = 2 then t.wrN Reg.CAL_SEQ_B (t.bankSeq 2) else t
    doCalStoreDone s =
      if code ≠ 0 then t.storeErr code
      else if b < 3 then { t with cal := { t.cal with lastStore := t.mt } }.irq Reg.CAL_ISTAT 16 else t := by
  rw [doCalStoreDone, hb, hcode]
  exact State.whenDue_due hrun rfl _

/-- Settles O38: each write reaches its register, and takes the branch that its clause's condition names. -/
theorem calibrationCommandsComplete : Obligations.CalibrationCommandsComplete := by
  intro s d v a
  refine ⟨fun hw => ⟨fun hmod => ⟨?storeHeld, ?saveHeld⟩, fun hmod => ⟨fun hbar => ⟨?storeBusy, ?saveBusy⟩,
      fun hbar => ?store, fun r body hbar hcand => ⟨?saved, State.setCheck_clean⟩, fun hbar hnone => ?noCandidate,
      fun hbar hbusy => ?saveBarred⟩, ?suspects, fun hop => ?otherOp⟩, fun b code hrun hb hcode => ?stored⟩
  case storeHeld => rw [exec_calStore, doCalStore_writes hw, if_pos hmod]
  case saveHeld => rw [exec_saveRej, doSaveRej_modHeld hw hmod]
  case storeBusy =>
    rw [exec_calStore, doCalStore_writes hw, if_neg (Bool.eq_false_iff.1 hmod), if_pos hbar, hbar]
  case saveBusy => rw [exec_saveRej, doSaveRej_busy hw hmod hbar]
  case store => rw [exec_calStore, doCalStore_writes hw, if_neg (Bool.eq_false_iff.1 hmod), if_neg hbar]
  case saved => rw [exec_saveRej, doSaveRej_saved hw hmod hbar hcand]
  case noCandidate => rw [exec_saveRej, doSaveRej_none hw hmod hbar hnone]
  case saveBarred => rw [exec_saveRej, doSaveRej_barred hw hmod hbar hbusy]
  case suspects =>
    rw [exec_clrSuspect, doClrSuspect, State.hostWrite_writes hw]
    rfl
  case otherOp =>
    rw [exec_calCmdInvalid, doCalCmdInvalid, State.hostWrite_writes hw, fld_low]
    exact congrArg _ (if_pos hop)
  case stored => rw [exec_calStoreDone, doCalStoreDone_due hrun hb hcode]

/-! ### Slots of the rotation (R327–R337) -/

section events
variable {s : State} (hrun : s.runs = true)
include hrun

/-- The next target of the rotation takes its turn. -/
theorem doCalSlotStart_due (hon : bit (s.rd Reg.CAL_CTL) 0 = true) (hfree : s.cal.slot = none)
    (hmod : s.modHeld = false) (hstarted : bit (s.rd Reg.PWR_STAT) 31 = true) (hsup : s.supSwitch = false) :
    doCalSlotStart s =
      if s.slotSkipped s.cal.target then s.slotSkip s.cal.target else s.slotBegin s.cal.target :=
  State.whenDue_due hrun (by rw [hon, hfree, hmod, hstarted, hsup]; rfl) _

section slot
variable {x : CalSlot} (hx : s.cal.slot = some x)
include hx

/-- At a switch point the spare takes over after the check, and hands back after the verification. -/
theorem doCalSwitchPoint_due (hphase : s.slotPhase = 3 ∨ s.slotPhase = 7) (hready : s.switchReady x = true) :
    doCalSwitchPoint s =
      if s.slotPhase = 3 then
        (((s.wrF (Reg.CHN_EDGE_STAT x.target) 29 29 1).wrF (Reg.CAL_CH_STAT x.target) 31 31 1).setSlot
          (some { x with spareIn := true })).calPhase 4
      else ((s.spareOut x).setSlot (some { x with spareIn := false })).calPhase 8 := by
  have hdue : ((s.slotPhase == 3 || s.slotPhase == 7) && s.switchReady x) = true := by
    rw [hready, Bool.and_true, Bool.or_eq_true, beq_iff_eq, beq_iff_eq]
    exact hphase
  rw [doCalSwitchPoint, hx]
  exact State.whenDue_due hrun hdue _

end slot

/-- A tile's change of temperature since the last correction, in 0.125 °C. -/
def State.tempChange (s : State) (tile : Nat) : Int :=
  sext 16 (s.rdF (Reg.PEL_TEMP tile) 15 0) - sext 16 (kget (fun _ => 0) s.cal.temps tile)

/-- A tile whose temperature has changed by 0.5 °C has the zeros of its channels formed anew (R340). -/
theorem doCalTempCorrection_due {tile : Nat} (h : 4 ≤ s.tempChange tile ∨ s.tempChange tile ≤ -4) :
    let now := s.rdF (Reg.PEL_TEMP tile) 15 0
    doCalTempCorrection tile s =
      forEach ((List.range 32).map (32 * tile + ·)) (fun c s => (s.wrN (Reg.TMU_ZERO c) (s.zeroAt c)).drawn)
        { s with cal := { s.cal with temps := kset (fun _ => 0) s.cal.temps tile now } } := by
  rw [doCalTempCorrection, State.whenDue_due hrun]
  rw [Bool.or_eq_true, decide_eq_true_eq, decide_eq_true_eq]
  exact h

end events

/-- Settles O39: each event is due by its clause's conditions, and takes the branch that its phase names. -/
theorem calibrationEventsComplete : Obligations.CalibrationEventsComplete := by
  intro s hrun
  refine ⟨fun hon hfree hmod hstarted hsup => ⟨fun hskip => ?skipped, fun hbegin => ?begun⟩,
    fun x o hx => ⟨fun hp => ?p1, fun hp => ?p2, fun hp => ?p4, fun hp => ?p5, fun hp => ?p6,
      fun hp hready => ?takesOver, fun hp hready => ?handsBack, fun hp => ?ends⟩,
    fun tile hchanged => ?temp, fun ch hfrom haged hpast => ?age⟩
  case skipped => rw [exec_calSlotStart, doCalSlotStart_due hrun hon hfree hmod hstarted hsup, if_pos hskip]
  case begun =>
    rw [exec_calSlotStart, doCalSlotStart_due hrun hon hfree hmod hstarted hsup, if_neg (Bool.eq_false_iff.1 hbegin)]
  case p1 | p2 | p4 | p5 | p6 =>
    simp only [exec_calPhaseEnd, doCalPhaseEnd, hx, State.whenDue_due hrun rfl, hp]
  case takesOver => rw [exec_calSwitchPoint, doCalSwitchPoint_due hrun hx (.inl hp) hready, if_pos hp]
  case handsBack =>
    rw [exec_calSwitchPoint, doCalSwitchPoint_due hrun hx (.inr hp) hready, if_neg (by omega)]
  case ends =>
    rw [exec_calSlotEnd, doCalSlotEnd, hx]
    dsimp only
    rw [State.whenDue_due hrun (by rw [hp]; rfl)]
  case temp =>
    rw [exec_calTempCorrection, doCalTempCorrection_due hrun hchanged]
  case age =>
    rw [exec_calAgeLimit]
    exact congrArg _ (State.whenDue_due hrun (by rw [hfrom, haged, decide_eq_true hpast]; rfl) _)

end Sys2Proof.Machine
end

section
/-! SUPPORT. The host's commands and window reads of the analysis engines (R358, R360, R372): what they do once they
reach their register. -/

namespace Sys2Proof.Machine

open Sys2Proof

section arms
variable (s : State) (d : Fin 16) (id : Fin 256) (v : Word)

theorem exec_clrGraph : exec (.clrGraph d id) s = .next (doClrGraph d id s) := rfl

theorem exec_clrmap : exec (.clrmap d id) s = .next (doClrmap d id s) := rfl

theorem exec_anePeakClr : exec (.anePeakClr d) s = .next (doAnePeakClr d s) := rfl

theorem exec_aneCmdInvalid : exec (.aneCmdInvalid d v) s = .next (doAneCmdInvalid d v s) := rfl

theorem exec_aneFStatRead : exec (.aneFStatRead d) s = .next (doAneFStatRead d s) := rfl

end arms

/-- The sequencer of a graph, if it has one, is stopped, so that a command may act on the graph. -/
abbrev State.GraphIdle (s : State) (g : Graph) : Prop := ∀ n, g.owner = some n → s.seqStopped n = true

section commands
variable {s : State} {dom : Nat} (hw : s.Writes dom Reg.ANE_CMD)
include hw

/-- A command of a loaded graph whose sequencer is stopped acts. -/
theorem State.graphCmd_acts {id : Nat} {g : Graph} (hg : s.graphNum id = some g) (hidle : s.GraphIdle g)
    (k : Graph → State → State) : s.graphCmd dom id k = k g s := by
  simp only [State.graphCmd, State.hostWrite_writes hw, hg]
  cases howner : g.owner with
  | none => rfl
  | some n => exact if_pos (hidle n howner)

/-- A command of another graph is refused. -/
theorem State.graphCmd_refused {id : Nat}
    (hbad : s.graphNum id = none ∨ ∃ g, s.graphNum id = some g ∧ ¬ s.GraphIdle g) (k : Graph → State → State) :
    s.graphCmd dom id k = s.aneRefuse dom := by
  rcases hbad with hnone | ⟨g, hg, hbusy⟩
  · simp only [State.graphCmd, State.hostWrite_writes hw, hnone]
  · obtain ⟨n, howner, hrun⟩ : ∃ n, g.owner = some n ∧ ¬ s.seqStopped n = true := by
      simpa [State.GraphIdle] using hbusy
    simp only [State.graphCmd, State.hostWrite_writes hw, hg, howner, if_neg hrun]

/-- An OP that the table does not give is noted. -/
theorem doAneCmdInvalid_noted {v : Word} (hop : v.toNat % 16 = 0 ∨ 4 ≤ v.toNat % 16) :
    doAneCmdInvalid dom v s = s.noteReg dom Reg.ANE_CMD := by
  rw [doAneCmdInvalid, State.hostWrite_writes hw, fld_op, if_pos hop]

end commands

/-- A read of ANE_F_STAT latches and answers the window of the flow that the domain has selected, or is denied. -/
theorem doAneFStatRead_reads {s : State} {dom : Nat} (hr : s.Reads dom Reg.ANE_F_STAT) :
    let f := fld (s.domSel dom Reg.ANE_FSEL) 13 0
    doAneFStatRead dom s =
      if s.flowMay dom f then (s.latchWords dom Reg.ANE_F_STAT (s.aneWindow f)).answer [s.flowStat f]
      else (s.deny 0 dom 0 false Reg.ANE_F_STAT).answer [word 0xFFFFFFFF] := by
  rw [doAneFStatRead, State.hostRead_reads hr]
  dsimp only
  split <;> rfl

/-- Settles O40: each access reaches its register, and takes the branch that its clause's condition names. -/
theorem engineCommandsComplete : Obligations.EngineCommandsComplete := by
  intro s d id v a refused may f flows now
  refine ⟨fun hw => ⟨fun g hg hmay => ⟨?cleared, fun hfree => ?begun, fun hbusy => ?busy⟩,
    fun hbad => ⟨?refusedGraph, ?refusedMap⟩, ?peaks, fun hop => ?otherOp⟩,
    fun hr => ⟨fun hsee => ?window, fun hhid => ?denied⟩⟩
  case cleared => rw [exec_clrGraph, doClrGraph, State.graphCmd_acts hw hg hmay]
  case begun => rw [exec_clrmap, doClrmap, State.graphCmd_acts hw hg hmay, hfree]; rfl
  case busy =>
    rw [exec_clrmap, doClrmap, State.graphCmd_acts hw hg hmay, if_pos (Option.isSome_iff_ne_none.2 hbusy)]
    rfl
  case refusedGraph =>
    rw [exec_clrGraph, doClrGraph, State.graphCmd_refused hw hbad]
    rfl
  case refusedMap =>
    rw [exec_clrmap, doClrmap, State.graphCmd_refused hw hbad]
    rfl
  case peaks => rw [exec_anePeakClr, doAnePeakClr, State.hostWrite_writes hw]
  case otherOp => rw [exec_aneCmdInvalid, doAneCmdInvalid_noted hw hop]
  case window => rw [exec_aneFStatRead, doAneFStatRead_reads hr, if_pos hsee]
  case denied => rw [exec_aneFStatRead, doAneFStatRead_reads hr, if_neg (Bool.eq_false_iff.1 hhid)]

end Sys2Proof.Machine
end

section
/-! SUPPORT. The pattern memory controller (R374–R395): what the host's commands do once they reach their registers, and
when its events are due. -/

namespace Sys2Proof.Machine

open Sys2Proof

section arms
variable (s : State) (d : Fin 16) (c : Fin 8) (mask : BitVec 8) (v : Word) (err : Fin 4)

theorem exec_pwrdn : exec (.pwrdn d mask) s = .next (doPwrdn d mask.toNat s) := rfl

theorem exec_pwrup : exec (.pwrup d mask) s = .next (doPwrup d mask.toNat s) := rfl

theorem exec_drcPeakClr : exec (.drcPeakClr d) s = .next (doDrcPeakClr d s) := rfl

theorem exec_drcCmdInvalid : exec (.drcCmdInvalid d v) s = .next (doDrcCmdInvalid d v s) := rfl

theorem exec_drcSpeedWrite : exec (.drcSpeedWrite d v) s = .next (doDrcSpeedWrite d v s) := rfl

theorem exec_drcInjWrite : exec (.drcInjWrite d c v) s = .next (doDrcInjWrite d c v s) := rfl

theorem exec_dramRequest (cls : Fin 6) (id : Fin 64) (wr : Bool) (line : BitVec 36) (ns : Word) :
    exec (.dramRequest cls id wr line err ns) s = .next (doDramRequest cls id wr line.toNat err ns.toNat s) := rfl

theorem exec_dramRefresh (sub : Fin 2) (rank : Fin 16) (ns : Word) :
    exec (.dramRefresh ⟨c, sub, rank⟩ ns) s = .next (doDramRefresh c sub rank ns.toNat s) := rfl

theorem exec_dramTempPoll (deg : BitVec 16) : exec (.dramTempPoll c deg) s = .next (doDramTempPoll c deg s) := rfl

theorem exec_dramSelfRefreshEntry : exec (.dramSelfRefreshEntry c) s = .next (doDramSelfRefreshEntry c s) := rfl

theorem exec_dramScrub : exec (.dramScrub err) s = .next (doDramScrub err s) := rfl

theorem exec_dramClearDone : exec .dramClearDone s = .next (doDramClearDone s) := rfl

theorem exec_drcSpeedDone : exec .drcSpeedDone s = .next (doDrcSpeedDone s) := rfl

end arms

/-! ### Commands (R386, R388, R394, R395) -/

/-- PWRDN is barred while a sequencer is not STOPPED or a masked channel is waking. -/
theorem State.pwrdnBarred_iff (s : State) (l : List Nat) :
    (!s.allStopped || l.any fun i => s.unit 4 i == 4) = true ↔ s.allStopped = false ∨ ∃ i ∈ l, s.unit 4 i = 4 := by
  simp

/-- PWRUP leaves alone a channel that is neither down nor being entered, and wakes any other. -/
theorem State.pwrup_channel (s : State) (i : Nat) :
    (if kget (fun _ => false) s.drc.pdown i || s.unit 4 i == 0 then s.cmdWake 4 i else s) =
      if s.unit 4 i = 0 then s.sourceNow 4 i 3
      else if kget (fun _ => false) s.drc.pdown i then s.wakeUnit 4 i 3 else s := by
  by_cases hactive : s.unit 4 i = 0 <;> simp [State.cmdWake, hactive]

section commands
variable {s : State} {dom : Nat}

section drcCmd
variable (hw : s.Writes dom Reg.DRC_CMD)
include hw

theorem doPwrdn_barred {mask : Nat} (hbusy : s.allStopped = false ∨ ∃ i ∈ bitsOf 8 mask, s.unit 4 i = 4) :
    doPwrdn dom mask s = s.noteReg dom Reg.DRC_CMD := by
  rw [doPwrdn, State.hostWrite_writes hw, if_pos ((s.pwrdnBarred_iff _).2 hbusy)]

theorem doPwrdn_open {mask : Nat} (hfree : ¬ (s.allStopped = false ∨ ∃ i ∈ bitsOf 8 mask, s.unit 4 i = 4)) :
    doPwrdn dom mask s = forEach (bitsOf 8 mask) (fun i s =>
      if kget (fun _ => false) s.drc.pdown i then s
      else
        let t := { s with drc := { s.drc with pdown := kset (fun _ => false) s.drc.pdown i true } }
        if t.unit 4 i = 3 then t.setUnit 4 i 3 else if t.unit 4 i = 0 then t.enterUnit 4 i else t) s := by
  rw [doPwrdn, State.hostWrite_writes hw, if_neg fun h => hfree ((s.pwrdnBarred_iff _).1 h)]

theorem doPwrup_writes {mask : Nat} :
    doPwrup dom mask s = forEach (bitsOf 8 mask) (fun i s =>
      if s.unit 4 i = 0 then s.sourceNow 4 i 3
      else if kget (fun _ => false) s.drc.pdown i then s.wakeUnit 4 i 3 else s) s := by
  simp only [doPwrup, State.hostWrite_writes hw, State.pwrup_channel]

/-- An OP that the table does not give is noted. -/
theorem doDrcCmdInvalid_noted {v : Word} (hop : v.toNat % 16 = 0 ∨ 4 ≤ v.toNat % 16) :
    doDrcCmdInvalid dom v s = s.noteReg dom Reg.DRC_CMD := by
  rw [doDrcCmdInvalid, State.hostWrite_writes hw, fld_op, if_pos hop]

end drcCmd

/-- A speed request that reaches its register is judged. -/
theorem doDrcSpeedWrite_writes {v : Word} (hw : s.Writes dom Reg.DRC_SPEED) :
    doDrcSpeedWrite dom v s = s.speedWrite dom (v.toNat % 4) := by
  rw [doDrcSpeedWrite, State.hostWrite_writes hw, fld_low]
  rfl

section speed
variable {req : Nat} (hreq : req ≠ 3)
include hreq

/-- A request that arrives while training runs waits for the step in progress. -/
theorem State.speedWrite_training (htrain : bit (s.rd Reg.DRC_STAT) 29 = true) :
    s.speedWrite dom req =
      { s.wrF Reg.DRC_SPEED 1 0 req with drc := { (s.wrF Reg.DRC_SPEED 1 0 req).drc with newReq := some req } } := by
  rw [State.speedWrite, if_neg hreq, if_pos htrain]

variable (htrain : bit (s.rd Reg.DRC_STAT) 29 = false)
include htrain

theorem State.speedWrite_running (hrun : s.allStopped = false) :
    s.speedWrite dom req = s.noteReg dom Reg.DRC_SPEED := by
  simp only [State.speedWrite, if_neg hreq, htrain, hrun, Bool.false_eq_true, Bool.not_false, if_false, if_true]

/-- With every sequencer stopped a speed change begins. -/
theorem State.speedWrite_begins (hstop : s.allStopped = true) :
    let begun := (s.wrF Reg.DRC_SPEED 1 0 req).selfRefreshAll.setTraining true 3
    s.speedWrite dom req = { begun with drc := { begun.drc with speed := some req, closed := true } } := by
  simp only [State.speedWrite, if_neg hreq, htrain, hstop, Bool.false_eq_true, Bool.not_true, if_false]

end speed
end commands

/-- Settles O42: each write reaches its register, and takes the branch that its clause's condition names. -/
theorem memoryCommandsComplete : Obligations.MemoryCommandsComplete := by
  intro s d c mask v l a req busy
  refine ⟨fun hw => ⟨fun hbusy => ?barred, fun hfree => ?down, ?up, ?peaks, fun hop => ?otherOp⟩,
    fun hw => ⟨fun h3 => ?badSpeed, fun h3 htrain => ?training, fun h3 htrain hrun => ?running,
      fun h3 htrain hstop => ?begins⟩, fun hw => ?inject⟩
  case barred => rw [exec_pwrdn, doPwrdn_barred hw hbusy]
  case down => rw [exec_pwrdn, doPwrdn_open hw hfree]
  case up => rw [exec_pwrup, doPwrup_writes hw]
  case peaks => rw [exec_drcPeakClr, doDrcPeakClr, State.hostWrite_writes hw]
  case otherOp => rw [exec_drcCmdInvalid, doDrcCmdInvalid_noted hw hop]
  case badSpeed => rw [exec_drcSpeedWrite, doDrcSpeedWrite_writes hw, State.speedWrite, if_pos h3]
  case training => rw [exec_drcSpeedWrite, doDrcSpeedWrite_writes hw, State.speedWrite_training h3 htrain]
  case running => rw [exec_drcSpeedWrite, doDrcSpeedWrite_writes hw, State.speedWrite_running h3 htrain hrun]
  case begins =>
    rw [exec_drcSpeedWrite, doDrcSpeedWrite_writes hw, State.speedWrite_begins h3 htrain hstop]
    rfl
  case inject => rw [exec_drcInjWrite, doDrcInjWrite, State.hostWrite_writes hw]

/-! ### Events (R374–R393) -/

section requests
variable {s : State} {cls id n err ns : Nat} {wr : Bool} (hrun : s.runs = true) (hup : s.dramUp = true)
include hrun hup

/-- While the clearing runs, a write of class 4 is its progress. -/
theorem doDramRequest_clears (hclr : cls = 4 ∧ wr = true ∧ bit (s.rd Reg.DRC_STAT) 30 = true)
    (hin : 64 * n + 64 ≤ s.dramSize) : doDramRequest cls id wr n err ns s = s.clearTo n := by
  rw [doDramRequest, State.whenDue_due hrun hup, if_pos hclr, if_pos hin]

section others
variable (hclr : ¬ (cls = 4 ∧ wr = true ∧ bit (s.rd Reg.DRC_STAT) 30 = true))
include hclr

/-- A request that a speed change, a start or the clearing holds back waits. -/
theorem doDramRequest_held (hheld : s.dramHeld (64 * n) 64 = true) :
    doDramRequest cls id wr n err ns s =
      s.dramWaits (.req { cls := cls, id := id, typ := b2n wr, rkind := classKind cls } n err ns) := by
  rw [doDramRequest, State.whenDue_due hrun hup, if_neg hclr, if_pos hheld]

/-- Any other is served. -/
theorem doDramRequest_served (hheld : s.dramHeld (64 * n) 64 = false) :
    doDramRequest cls id wr n err ns s =
      s.reqServe { cls := cls, id := id, typ := b2n wr, rkind := classKind cls } n err ns := by
  rw [doDramRequest, State.whenDue_due hrun hup, if_neg hclr, if_neg (Bool.eq_false_iff.1 hheld)]

end others
end requests

/-- A write request keeps its line's bytes and its poison. -/
theorem State.reqServe_write (s : State) {q : DramReq} (n err lat : Nat) (hq : q.typ = 1) :
    let put := s.dramPutNow q 0 (64 * n) (s.dramRd (64 * n) 64) false
    s.reqServe q n err lat = if s.lineBad n = 3 ∧ put.lineBad n = 0 then put.setBad n 3 else put := by
  rw [State.reqServe, if_pos hq]

/-- A read request shows what the device shows, is answered, and tells a longer prefetch. -/
theorem State.reqServe_read (s : State) {q : DramReq} (n err lat : Nat) (hq : q.typ ≠ 1) :
    let away := s.dramSize < 64 * n + 64 ∨ s.lineDown n = true
    let t := ((if away then s else s.devShows q n err).dramAsk q 0 (64 * n) 64).1
    s.reqServe q n err lat =
      if q.cls = 0 ∧ ¬ away ∧ (t.rd (Reg.DRC_PF_LAT (n % 8))).toNat < lat then t.wrN (Reg.DRC_PF_LAT (n % 8)) lat
      else t := by
  simp only [State.reqServe, if_neg hq, Bool.not_eq_true', Bool.or_eq_true, decide_eq_true_eq,
    ← Bool.not_eq_true]

/-- A temperature poll shows the temperature, its warning, and a passing of 95 °C. -/
theorem doDramTempPoll_due {s : State} {d : Nat} (deg : BitVec 16) (hrun : s.runs = true) (hup : s.dramUp = true) :
    let x := sext 16 deg.toNat
    let t := (s.wrN (Reg.DRC_CH_TEMP d) deg.toNat).wrF (Reg.DRC_CH_STAT d) 28 28 (b2n (decide (680 < x)))
    let was := kget (fun _ => false) t.drc.hot95 d
    let t := { t with drc := { t.drc with hot95 := kset (fun _ => false) t.drc.hot95 d (decide (760 < x)) } }
    doDramTempPoll d deg s =
      if 760 < x ∧ was = false then (t.irq (Reg.DRC_CH_ISTAT d) 4).note (0xB00 + d) else t := by
  rw [doDramTempPoll, State.whenDue_due hrun hup]
  simp only [Bool.and_eq_true, decide_eq_true_eq, Bool.not_eq_true']

/-- Settles O43: each event is due where its clause's conditions hold, and does what the clause gives. -/
theorem memoryEventsComplete : Obligations.MemoryEventsComplete := by
  intro s hrun
  refine ⟨fun hup => ⟨fun cls id wr line err ns => ?request, fun d sub rank ns => ?refresh,
    fun d deg => ?temperature, fun d hstop hunit hstat hidle => ?selfRefresh, fun err hon => ?scrub⟩,
    fun hclr => ?cleared, fun req hreq => ⟨fun hnew => ?changed, fun new hnew => ?again⟩⟩
  case request =>
    intro n q away t put clears
    refine ⟨fun hclr hin => ?_, fun hclr hheld => ?_, fun hclr hheld => ⟨fun hwr => ?_, fun hwr => ?_⟩⟩
    · rw [exec_dramRequest, doDramRequest_clears hrun hup hclr hin]
      rfl
    · rw [exec_dramRequest, doDramRequest_held hrun hup hclr hheld]
      rfl
    · rw [exec_dramRequest, doDramRequest_served hrun hup hclr hheld]
      exact congrArg _ (s.reqServe_write _ _ _ (by rw [hwr]; rfl))
    · rw [exec_dramRequest, doDramRequest_served hrun hup hclr hheld]
      exact congrArg _ (s.reqServe_read _ _ _ (by rw [hwr]; exact Nat.zero_ne_one))
  case refresh =>
    intro k hunit htrain hrank hended i t
    have hdue : (s.dramUp && decide (s.unit 4 d < 3) && !bit (s.rd Reg.DRC_STAT) 29 && decide (rank < s.logicalRanks) &&
        decide (kget (fun _ => 0) s.drc.refBusy k ≤ s.mt)) = true := by
      simp [hup, hunit, htrain, hrank, hended]
    rw [exec_dramRefresh, doDramRefresh]
    exact congrArg _ (State.whenDue_due hrun hdue _)
  case temperature => rw [exec_dramTempPoll, doDramTempPoll_due deg hrun hup]
  case selfRefresh =>
    have hdue : (s.dramUp && s.allStopped && s.unit 4 d == 0 && s.rdF (Reg.DRC_CH_STAT d) 31 29 == 0 &&
        s.idleFor 4 d (max 10 (s.rdF Reg.DRC_SR_IDLE 15 0))) = true := by
      simp [hup, hstop, hunit, hstat, hidle]
    rw [exec_dramSelfRefreshEntry, doDramSelfRefreshEntry, State.whenDue_due hrun hdue]
  case scrub =>
    intro n hheld hdown q
    have hdue : (s.dramUp && bit (s.rd Reg.DRC_SCRUB) 31 && !s.dramHeld (64 * n) 64 && !s.lineDown n) = true := by
      simp [hup, hon, hheld, hdown]
    rw [exec_dramScrub, doDramScrub]
    exact congrArg _ (State.whenDue_due hrun hdue _)
  case cleared => rw [exec_dramClearDone, doDramClearDone, State.whenDue_due hrun hclr]
  case changed =>
    simp only [exec_drcSpeedDone, doDrcSpeedDone, hreq, State.whenDue_due hrun rfl, hnew]
    rfl
  case again =>
    simp only [exec_drcSpeedDone, doDrcSpeedDone, hreq, State.whenDue_due hrun rfl, hnew]

end Sys2Proof.Machine
end

section
/-! SUPPORT. Descriptor DMA (R396–R414): what the host's commands do once they reach DMA_CMD, and when the events of a
channel are due. -/

namespace Sys2Proof.Machine

open Sys2Proof

section arms
variable (s : State) (d n : Fin 16) (v : Word) (src : HostRead)

theorem exec_dmaStart : exec (.dmaStart d n) s = .next (doDmaStart d n s) := rfl

theorem exec_dmaStop : exec (.dmaStop d n) s = .next (doDmaStop d n s) := rfl

theorem exec_doorbell : exec (.doorbell d n) s = .next (doDoorbell d n s) := rfl

theorem exec_flush : exec (.flush d n) s = .next (doFlush d n s) := rfl

theorem exec_dmaCmdInvalid : exec (.dmaCmdInvalid d n v) s = .next (doDmaCmdInvalid d n v s) := rfl

theorem exec_dmaDescFetch : exec (.dmaDescFetch n src) s = .next (doDmaDescFetch n src s) := rfl

theorem exec_dmaPoll : exec (.dmaPoll n) s = .next (doDmaPoll n s) := rfl

theorem exec_dmaResume : exec (.dmaResume n) s = .next (doDmaResume n s) := rfl

theorem exec_dmaPiece : exec (.dmaPiece n src) s = .next (doDmaPiece n src s) := rfl

theorem exec_dmaPacedBurst : exec (.dmaPacedBurst n) s = .next (doDmaPacedBurst n s) := rfl

theorem exec_dmaPaceWithdraw (valid : BitVec 32) :
    exec (.dmaPaceWithdraw n valid) s = .next (doDmaPaceWithdraw n valid.toNat s) := rfl

theorem exec_dmaDescComplete (rb wb : Fin 4) :
    exec (.dmaDescComplete n rb wb) s = .next (doDmaDescComplete n rb wb s) := rfl

end arms

/-! ### Commands (R409, R410, R414) -/

section commands
variable {s : State} {dom n : Nat} (hw : s.Writes dom (Reg.DMA_CMD n))
include hw

/-- START of an idle or halted channel begins at DMA_HEAD. -/
theorem doDmaStart_starts (hok : s.modHeld = false ∧ (s.dmaState n = 0 ∨ s.dmaState n = 5) ∧ s.descSpace n < 2) :
    let t := (s.setDc n {}).wrWide (Reg.DMA_CUR_LO n) 2 (s.rdWide (Reg.DMA_HEAD_LO n) 2)
    let t := ((t.wrN (Reg.DMA_PIDX n) 0).wrWide (Reg.DMA_BYTES_LO n) 2 0).wrN (Reg.DMA_DONE_CNT n) 0
    let t := (t.wrN (Reg.DMA_ERR n) 0).wrWide (Reg.DMA_ERR_ADDR_LO n) 2 0
    doDmaStart dom n s = t.setDmaState n 1 := by
  obtain ⟨hmod, hstate, hspace⟩ := hok
  have hbar : ¬ (s.modHeld || !(s.dmaState n == 0 || s.dmaState n == 5) || decide (2 ≤ s.descSpace n)) = true := by
    simp [hmod, hspace, ← or_iff_not_imp_left, hstate]
  rw [doDmaStart, State.hostWrite_writes hw, if_neg hbar]

/-- Any other START is noted. -/
theorem doDmaStart_refused (hbad : ¬ (s.modHeld = false ∧ (s.dmaState n = 0 ∨ s.dmaState n = 5) ∧ s.descSpace n < 2)) :
    doDmaStart dom n s = s.noteReg dom (Reg.DMA_CMD n) := by
  have hbar : (s.modHeld || !(s.dmaState n == 0 || s.dmaState n == 5) || decide (2 ≤ s.descSpace n)) = true := by
    by_contra h
    exact hbad (by simpa [and_assoc, ← or_iff_not_imp_left] using h)
  rw [doDmaStart, State.hostWrite_writes hw, if_pos hbar]

/-- FLUSH of a descriptor that a ring paces asks for what is left, and any other is noted. -/
theorem doFlush_writes :
    doFlush dom n s =
      if (s.dc n).paceKind = 1 ∧ (s.dc n).code = none then s.setDc n { s.dc n with flushReq := true }
      else s.noteReg dom (Reg.DMA_CMD n) := by
  simp only [doFlush, State.hostWrite_writes hw, Option.isNone_iff_eq_none]

/-- An OP that the table does not give is noted. -/
theorem doDmaCmdInvalid_noted {v : Word} (hop : v.toNat % 8 = 0 ∨ 4 < v.toNat % 8) :
    doDmaCmdInvalid dom n v s = s.noteReg dom (Reg.DMA_CMD n) := by
  have hbad : ¬ (1 ≤ v.toNat % 8 ∧ v.toNat % 8 ≤ 4) := by omega
  rw [doDmaCmdInvalid, State.hostWrite_writes hw, fld_seqOp, if_neg hbad]

end commands

/-- A descriptor in service is one that STOP has to end. -/
theorem State.descServes_iff (s : State) (n : Nat) :
    ((s.dc n).desc.isSome && (s.dmaState n == 1 || s.dmaState n == 3 || s.dmaState n == 4)) = true ↔
      (s.dc n).desc.isSome = true ∧ (s.dmaState n = 1 ∨ s.dmaState n = 3 ∨ s.dmaState n = 4) := by
  simp [or_assoc]

/-- Settles O44: each write reaches DMA_CMD, and takes the branch that its clause's condition names. -/
theorem dmaCommandsComplete : Obligations.DmaCommandsComplete := by
  intro s d n v hw u note ok t₀ t₁ t serves ends
  refine ⟨fun hok => ?starts, fun hbad => ?noStart, fun hserves => ?stops, fun hnone => ?idle, fun hwait => ?bell,
    fun helse => ?noBell, fun hkind hcode => ?flushes, fun hbad => ?noFlush, fun hop => ?otherOp⟩
  case starts =>
    rw [exec_dmaStart, doDmaStart_starts hw hok]
    rfl
  case noStart => rw [exec_dmaStart, doDmaStart_refused hw hbad]
  case stops => rw [exec_dmaStop, doDmaStop, State.hostWrite_writes hw, State.dmaStopNow,
    if_pos ((s.descServes_iff n).2 hserves)]
  case idle =>
    rw [exec_dmaStop, doDmaStop, State.hostWrite_writes hw, State.dmaStopNow,
      if_neg fun h => hnone ((s.descServes_iff n).1 h)]
    rfl
  case bell => rw [exec_doorbell, doDoorbell, State.hostWrite_writes hw, if_pos hwait]
  case noBell => rw [exec_doorbell, doDoorbell, State.hostWrite_writes hw, if_neg helse]
  case flushes => rw [exec_flush, doFlush_writes hw, if_pos ⟨hkind, hcode⟩]
  case noFlush => rw [exec_flush, doFlush_writes hw, if_neg fun h => hbad.elim (· h.1) (· h.2)]
  case otherOp => rw [exec_dmaCmdInvalid, doDmaCmdInvalid_noted hw hop]

/-! ### Events (R400–R411) -/

/-- What follows when the descriptor `u` of channel `n` with the code `code` has been completed, after the read-back
`r` of its last data (R402–R406). -/
def State.descFinished (n : Nat) (u : DmaUnit) (code wb : Nat) (r : State × Nat) : State :=
  let r := (r.1.backFault n code r.2, r.2)
  let bad := r.2 ≠ 0 ∧ code < 0x10
  let code := if bad then r.2 else code
  let done := if bad then r.1.freeNow % (u.moved / 4 + 1) * 4 else u.moved
  let h := (if bad then r.1.drawn else r.1).dmaHandBack n code done
  let b := if h.2 ≠ 0 then h else h.1.dmaReadBack n (h.1.descSpace n) (h.1.dmaCur n) wb
  let b := (b.1.backFault n code b.2, b.2)
  let code := if code < 0x10 ∧ b.2 ≠ 0 then b.2 else code
  let t := b.1.wrF (Reg.DMA_STAT n) 15 8 code
  let t := (t.wrN (Reg.DMA_DONE_CNT n) ((b.1.rd (Reg.DMA_DONE_CNT n)).toNat + 1)).dmaIrqs n u
  let t := if 0x10 ≤ code then t.dmaError n code else t
  if u.stopReq = true then t.dmaIdle n
  else if 0x10 ≤ code ∧ bit (t.rd (Reg.DMA_CTL n)) 2 = false then (t.setDc n {}).setDmaState n 5
  else if u.isEnd = true then t.dmaIdle n
  else t.dmaGoOn n u.next

section events
variable {s : State} {n : Nat} (hrun : s.runs = true)
include hrun

/-- A running channel without a descriptor reads the one at DMA_CUR. -/
theorem doDmaDescFetch_due {src : HostRead} (hstate : s.dmaState n = 1) (hnone : (s.dc n).desc = none)
    (hsrc : s.descSpace n = 0 → 2 ≤ src.fails ∨ src.data.length = 64)
    (hheld : s.dmaHeld (if s.descSpace n = 0 then 0 else 1) (s.dmaCur n) 64 = false) :
    let r := s.dmaRead n (if s.descSpace n = 0 then 0 else 1) (s.dmaCur n) 64 src
    let ws := descWords r.2.2
    doDmaDescFetch n src s =
      if r.2.1 ≠ 0 then r.1.dmaLost n r.2.1
      else if bit (ws.getD 0 0) 31 then r.1.dmaTake n ws (s.dc n).resume else r.1.dmaNotGiven n ws := by
  have hanswers : ((!(s.descSpace n == 0)) || decide (2 ≤ src.fails) || decide (src.data.length = 64)) = true := by
    by_cases hhost : s.descSpace n = 0 <;> simp [hhost, hsrc]
  simp only [doDmaDescFetch, hanswers, beq_iff_eq]
  exact State.whenDue_due hrun (by simp [hstate, hnone, hheld]) _

/-- The poll period of a channel that waits for ownership has it read its descriptor again. -/
theorem doDmaPoll_due (hstate : s.dmaState n = 2) (hpoll : s.rdF (Reg.DMA_CTL n) 15 8 ≠ 0)
    (htime : (s.dc n).readAt + 4000 * s.rdF (Reg.DMA_CTL n) 15 8 ≤ s.mt) : doDmaPoll n s = s.setDmaState n 1 := by
  rw [doDmaPoll, State.whenDue_due hrun]
  simp [hstate, hpoll, htime]

/-- A piece of an unpaced descriptor moves. -/
theorem doDmaPiece_due {src : HostRead} (hstate : s.dmaState n = 1) (hdesc : (s.dc n).desc.isSome = true)
    (hcode : (s.dc n).code = none) (hkind : (s.dc n).paceKind = 0)
    (hsrc : (s.dc n).sspace = 0 → 2 ≤ src.fails ∨ src.data.length = (s.dc n).piece.1)
    (hheld : s.dmaHeld (s.dc n).sspace ((s.dc n).src + (s.dc n).piece.2) (s.dc n).piece.1 = false) :
    let u := s.dc n
    let p := u.piece
    let r := s.dmaRead n u.sspace (u.src + p.2) p.1 src
    let w := r.1.dmaWrite n u.dspace (u.dst + p.2) r.2.2
    doDmaPiece n src s =
      if r.2.1 ≠ 0 then r.1.dmaEnds n r.2.1
      else if w.2 ≠ 0 then w.1.dmaEnds n w.2
      else w.1.dmaMoved n p.1 (u.dst + p.2 + if u.descends then 0 else p.1 - 4)
        (if u.moved + p.1 = u.len then some 0 else none) := by
  have hanswers : ((s.dc n).sspace != 0 || decide (2 ≤ src.fails) ||
      decide (src.data.length = (s.dc n).piece.1)) = true := by
    by_cases hhost : (s.dc n).sspace = 0 <;> simp [hhost, hsrc]
  rw [doDmaPiece, State.whenDue_due hrun]
  simp [hstate, hdesc, hcode, hkind, hanswers, hheld]

section paced
variable (hmoves : s.dmaState n = 1 ∨ s.dmaState n = 3)
include hmoves

/-- A burst that is asked for, or the rest that a FLUSH asked for, moves. -/
theorem doDmaPacedBurst_due (hdesc : (s.dc n).desc.isSome = true) (hcode : (s.dc n).code = none)
    (hkind : (s.dc n).paceKind ≠ 0) (hpaused : (s.dc n).paused = none) (hcut : (s.dc n).cut = none)
    (hasked : s.paceAsked n (s.dc n) = true ∨ (s.dc n).flushReq = true)
    (hheld : s.placesHeld (s.burstPlaces n
      (if s.paceAsked n (s.dc n) then 4 * (s.dc n).paceBurst else s.ringHeld (s.dc n).paceCh)) = false) :
    doDmaPacedBurst n s =
      if s.paceAsked n (s.dc n) then s.burst n (4 * (s.dc n).paceBurst) none
      else if s.ringHeld (s.dc n).paceCh = 0 then s.dmaEnds n 2
      else s.burst n (s.ringHeld (s.dc n).paceCh) (some 2) := by
  rw [doDmaPacedBurst, State.whenDue_due hrun]
  simp [hmoves, hdesc, hcode, hkind, hpaused, hcut, hasked, hheld]

/-- A burst whose request is withdrawn writes its valid bytes and ends the descriptor. -/
theorem doDmaPaceWithdraw_due {valid : Nat} {places : List (Bool × Nat × Nat)} {bytes : List Byte}
    (hcode : (s.dc n).code = none) (hcut : (s.dc n).cut = some (places, bytes)) (hvalid : valid ≤ bytes.length)
    (hheld : s.placesHeld (cutPlaces valid places) = false) :
    let u := s.dc n
    let t := if u.paceKind = 2 then s.wrN (Reg.DMA_PIDX n) 0 else s
    let r := t.dmaGather n (cutPlaces valid places)
    let w := r.1.dmaWrite n u.dspace (u.dst + u.moved) (bytes.take valid ++ List.replicate (u.stride - valid) 0)
    doDmaPaceWithdraw n valid s =
      if r.2.1 ≠ 0 then r.1.dmaEnds n r.2.1
      else if w.2 ≠ 0 then w.1.dmaEnds n w.2
      else (w.1.dmaMoved n valid (u.dst + u.moved + u.stride - 4) (some 1)).setDmaState n 1 := by
  rw [doDmaPaceWithdraw, hcut]
  exact State.whenDue_due hrun (by simp [hmoves, hcode, hvalid, hheld]) _

/-- A completed descriptor is handed back after its read-backs. -/
theorem doDmaDescComplete_due {rb wb code : Nat} (hdesc : (s.dc n).desc.isSome = true)
    (hcode : (s.dc n).code = some code)
    (hback : ∀ back, (s.dc n).wrote = some back → s.dmaHeld (s.dc n).dspace back 4 = false)
    (hheld : s.dmaHeld (s.descSpace n) (s.dmaCur n) 64 = false) :
    doDmaDescComplete n rb wb s = State.descFinished n (s.dc n) code wb
      (match (s.dc n).wrote with
       | none => (s, 0)
       | some back => s.dmaReadBack n (s.dc n).dspace back rb) := by
  obtain ⟨ws, hws⟩ := Option.isSome_iff_exists.1 hdesc
  have hfree : ((s.dc n).wrote.isSome && s.dmaHeld (s.dc n).dspace ((s.dc n).wrote.getD 0) 4) = false := by
    cases hwrote : (s.dc n).wrote with
    | none => rfl
    | some back => exact hback back hwrote
  simp only [doDmaDescComplete, hws, hcode]
  rw [State.whenDue_due hrun (by simp [hmoves, hfree, hheld])]
  simp -zeta only [State.descFinished, Bool.and_eq_true, decide_eq_true_eq, Bool.not_eq_true']
  cases (s.dc n).wrote <;> rfl

end paced
end events

/-- Settles O45: each event is due where its clause's conditions hold, and does what the clause gives. -/
theorem dmaEventsComplete : Obligations.DmaEventsComplete := by
  intro s n hrun u host moves
  refine ⟨fun src hstate hnone hsrc hheld => ?fetch, ?poll,
    fun hresume hstate hstart hmod => ?resume, fun src hstate hdesc hcode hkind hsrc hheld => ?piece,
    fun hmoves hdesc hcode hkind hpaused hcut hheld => ⟨fun hasked => ?burst,
      fun hasked hflush => ⟨fun hempty => ?flushEmpty, fun hleft => ?flush⟩⟩,
    fun valid places bytes hmoves hcode hcut hvalid hheld => ?withdraw,
    fun rb wb code hmoves hdesc hcode hback hheld => ?complete⟩
  case fetch => rw [exec_dmaDescFetch, doDmaDescFetch_due hrun hstate hnone hsrc hheld]
  case poll =>
    intro p hstate hpoll htime
    rw [exec_dmaPoll, doDmaPoll_due hrun hstate hpoll htime]
  case resume =>
    have hdue : ((s.dc n).resume && s.dmaState n == 0 && !s.pwr.starting && !s.modHeld) = true := by
      simpa [hstate, hstart, hmod] using hresume
    simp only [exec_dmaResume, doDmaResume, State.whenDue_due hrun hdue, Bool.not_eq_true']
  case piece => rw [exec_dmaPiece, doDmaPiece_due hrun hstate hdesc hcode hkind hsrc hheld]
  case burst =>
    rw [exec_dmaPacedBurst, doDmaPacedBurst_due hrun hmoves hdesc hcode hkind hpaused hcut (.inl hasked) hheld,
      if_pos hasked]
  case flushEmpty =>
    rw [exec_dmaPacedBurst, doDmaPacedBurst_due hrun hmoves hdesc hcode hkind hpaused hcut (.inr hflush) hheld,
      if_neg (Bool.eq_false_iff.1 hasked), if_pos hempty]
  case flush =>
    rw [exec_dmaPacedBurst, doDmaPacedBurst_due hrun hmoves hdesc hcode hkind hpaused hcut (.inr hflush) hheld,
      if_neg (Bool.eq_false_iff.1 hasked), if_neg hleft]
  case withdraw => rw [exec_dmaPaceWithdraw, doDmaPaceWithdraw_due hrun hmoves hcode hcut hvalid hheld]
  case complete =>
    rw [exec_dmaDescComplete, doDmaDescComplete_due hrun hmoves hdesc hcode hback hheld]
    rfl

end Sys2Proof.Machine
end

section
/-! SUPPORT. Writes to the protection table (R430–R432). -/

namespace Sys2Proof.Machine

open Sys2Proof

section arms
variable (s : State) (d : Fin 16) (i : Fin 304) (w : Fin 3) (v : Word)

theorem exec_hifPtWordWrite : exec (.hifPtWordWrite d i w v) s = .next (doHifPtWordWrite d i (w.val + 1) v s) := rfl

theorem exec_hifPtCommit : exec (.hifPtCommit d i v) s = .next (doHifPtCommit d i v s) := rfl

end arms

/-- Settles O47: words 1 to 3 are held, and a commit is judged once the entry buffer is empty. -/
theorem protectionTableCommandsComplete : Obligations.ProtectionTableCommandsComplete := by
  intro s d i w v t e t'
  refine ⟨fun hw => ?held, fun hw => ?_⟩
  case held => rw [exec_hifPtWordWrite, doHifPtWordWrite, State.hostWrite_writes hw, State.ptHold]
  have hcommit : exec (.hifPtCommit d i v) s = .next
      (if ptCheck i e ≠ 0 then t'.ptRefuse i (ptCheck i e)
       else if t'.ptOverlap i e then t'.ptRefuse i 2 else t'.setPt i e) := by
    rw [exec_hifPtCommit, doHifPtCommit, State.hostWrite_writes hw, State.ptCommit]
  refine ⟨fun hbad => ?wrong, fun hok hover => ?overlaps, fun hok hover => ?stored⟩
  case wrong => rw [hcommit, if_pos hbad]
  case overlaps => rw [hcommit, if_neg (not_not_intro hok), if_pos hover]
  case stored => rw [hcommit, if_neg (not_not_intro hok), if_neg (Bool.eq_false_iff.1 hover)]

end Sys2Proof.Machine
end

section
/-! SUPPORT. The host's commands of a Falin port (R447, R453–R456, R459): what they do once they reach LNK_CMD. -/

namespace Sys2Proof.Machine

open Sys2Proof

section arms
variable (s : State) (d : Fin 16) (p : Fin 4) (v : Word)

theorem exec_up : exec (.up d p) s = .next (doUp d p s) := rfl

theorem exec_down : exec (.down d p) s = .next (doDown d p s) := rfl

theorem exec_txSleep : exec (.txSleep d p) s = .next (doTxSleep d p s) := rfl

theorem exec_txWake : exec (.txWake d p) s = .next (doTxWake d p s) := rfl

theorem exec_xfer : exec (.xfer d p) s = .next (doXfer d p s) := rfl

theorem exec_xabort : exec (.xabort d p) s = .next (doXabort d p s) := rfl

theorem exec_lnkCmdInvalid : exec (.lnkCmdInvalid d p v) s = .next (doLnkCmdInvalid d p v s) := rfl

end arms

section commands
variable {s : State} {dom p : Nat} (hw : s.Writes dom (Reg.LNK_CMD p))
include hw

/-- UP needs a peer in the port's LANE entry. -/
theorem doUp_writes : doUp dom p s = if (s.peerOf p).isSome then s.portUp p else s.noteReg dom (Reg.LNK_CMD p) := by
  rw [doUp, State.hostWrite_writes hw]
  cases s.peerOf p <;> rfl

theorem doDown_writes : doDown dom p s = if s.lnkState p = 0 then s else s.goDown p := by
  rw [doDown, State.hostWrite_writes hw, State.portDown]

/-- TX_SLEEP needs a port that is UP and whose direction is not waking. -/
theorem doTxSleep_writes :
    doTxSleep dom p s =
      if s.lnkState p ≠ 3 ∨ s.unit 5 p = 4 then s.noteReg dom (Reg.LNK_CMD p)
      else if s.unit 5 p = 0 then s.enterUnit 5 p else s := by
  rw [doTxSleep, State.hostWrite_writes hw]

theorem doXabort_writes : doXabort dom p s = if bit (s.rd (Reg.LNK_XSTAT p)) 31 then s.xferEnd p 1 else s := by
  rw [doXabort, State.hostWrite_writes hw]

/-- XFER is noted while a transfer is busy. -/
theorem doXfer_busy (hbusy : bit (s.rd (Reg.LNK_XSTAT p)) 31 = true) :
    doXfer dom p s = s.noteReg dom (Reg.LNK_CMD p) := by
  rw [doXfer, State.hostWrite_writes hw, if_pos hbusy]

section idle
variable (hfree : bit (s.rd (Reg.LNK_XSTAT p)) 31 = false)
include hfree

/-- XFER of a port that is not UP, or of a length that is no multiple of 64, ends BAD. -/
theorem doXfer_bad (hbad : s.lnkState p ≠ 3 ∨ (s.rd (Reg.LNK_XLEN p)).toNat % 64 ≠ 0) :
    doXfer dom p s = (s.wrN (Reg.LNK_XSTAT p) 0).xferEnd p 3 := by
  rw [doXfer, State.hostWrite_writes hw, if_neg (Bool.eq_false_iff.1 hfree), if_pos hbad]

/-- Any other XFER begins, and ends DONE where it has no length. -/
theorem doXfer_begins (hup : s.lnkState p = 3) (hlen : (s.rd (Reg.LNK_XLEN p)).toNat % 64 = 0) :
    let len := (s.rd (Reg.LNK_XLEN p)).toNat
    let begun := s.wr (Reg.LNK_XSTAT p) (word (2 ^ 31))
    let begun := begun.setFp p { begun.fp p with
      xfer := some (s.rdWide (Reg.LNK_XSRC_LO p) 2, s.rdWide (Reg.LNK_XDST_LO p) 2, len),
      xferDrop0 := (begun.fp p).peerDrop }
    doXfer dom p s =
      if len = 0 then begun.xferEnd p 0
      else if bit (begun.rd (Reg.LNK_CTL p)) 1 = true then begun.txWake p 1 else begun := by
  have hgood : ¬ (s.lnkState p ≠ 3 ∨ (s.rd (Reg.LNK_XLEN p)).toNat % 64 ≠ 0) := fun h => h.elim (· hup) (· hlen)
  rw [doXfer, State.hostWrite_writes hw, if_neg (Bool.eq_false_iff.1 hfree), if_neg hgood]
  rfl

end idle

/-- An OP that the table does not give is noted. -/
theorem doLnkCmdInvalid_noted {v : Word} (hop : v.toNat % 16 = 0 ∨ 7 ≤ v.toNat % 16) :
    doLnkCmdInvalid dom p v s = s.noteReg dom (Reg.LNK_CMD p) := by
  rw [doLnkCmdInvalid, State.hostWrite_writes hw, fld_op, if_pos hop]

end commands

/-- Settles O49: each write reaches LNK_CMD, and takes the branch that its clause's condition names. -/
theorem portCommandsComplete : Obligations.PortCommandsComplete := by
  intro s d p v hw note len busy begun₀ begun
  refine ⟨fun hpeer => ?up, fun hnone => ?noUp, fun hon => ?down, fun hoff => ?isDown, fun hup hwake => ?sleep,
    fun hbad => ?noSleep, ?wake, fun hbusy => ⟨?noXfer, ?aborts⟩,
    fun hfree => ⟨?noAbort, fun hbad => ?badXfer, fun hup hlen => ?noLength, fun hup hmod hlen => ?begins⟩,
    fun hop => ?otherOp⟩
  case up => rw [exec_up, doUp_writes hw, if_pos hpeer]
  case noUp => rw [exec_up, doUp_writes hw, if_neg (Bool.eq_false_iff.1 hnone)]
  case down => rw [exec_down, doDown_writes hw, if_neg hon]
  case isDown => rw [exec_down, doDown_writes hw, if_pos hoff]
  case sleep => rw [exec_txSleep, doTxSleep_writes hw, if_neg fun h => h.elim (· hup) hwake]
  case noSleep => rw [exec_txSleep, doTxSleep_writes hw, if_pos hbad]
  case wake => rw [exec_txWake, doTxWake, State.hostWrite_writes hw]
  case noXfer => rw [exec_xfer, doXfer_busy hw hbusy]
  case aborts => rw [exec_xabort, doXabort_writes hw, if_pos hbusy]
  case noAbort => rw [exec_xabort, doXabort_writes hw, if_neg (Bool.eq_false_iff.1 hfree)]
  case badXfer =>
    rw [exec_xfer, doXfer_bad hw hfree hbad]
    rfl
  case noLength =>
    have hmod : (s.rd (Reg.LNK_XLEN p)).toNat % 64 = 0 := by rw [show (s.rd (Reg.LNK_XLEN p)).toNat = 0 from hlen]
    rw [exec_xfer, doXfer_begins hw hfree hup hmod]
    exact congrArg _ (if_pos hlen)
  case begins =>
    rw [exec_xfer, doXfer_begins hw hfree hup hmod]
    exact congrArg _ (if_neg hlen)
  case otherOp => rw [exec_lnkCmdInvalid, doLnkCmdInvalid_noted hw hop]

end Sys2Proof.Machine
end

section
/-! SUPPORT. Training, lanes, eyes and sleep of a Falin port (R439–R456): when its events are due. -/

namespace Sys2Proof.Machine

open Sys2Proof

section arms
variable (s : State) (p l : Fin 4) (b : List Byte)

theorem exec_lnkTrainDone : exec (.lnkTrainDone p) s = .next (doLnkTrainDone p s) := rfl

theorem exec_hello : exec (.hello p b) s = .next (doHello p b s) := rfl

theorem exec_lnkTrainTimeout : exec (.lnkTrainTimeout p) s = .next (doLnkTrainTimeout p s) := rfl

theorem exec_laneBlockReceived (block : LaneBlock) :
    exec (.laneBlockReceived p l block) s =
      .next (doLaneBlockReceived p l block.header.toNat block.payload.toNat s) := rfl

theorem exec_align (blocks : List AlignBlock) : exec (.align p blocks) s = .next (doAlign p blocks s) := rfl

theorem exec_lnkAlignSend : exec (.lnkAlignSend p) s = .next (doLnkAlignSend p s) := rfl

theorem exec_lnkEyeUpdate (i : Fin 6) (eye : BitVec 8) (eq : BitVec 30) :
    exec (.lnkEyeUpdate i l eye eq) s = .next (doLnkEyeUpdate i l eye.toNat eq.toNat s) := rfl

theorem exec_lnkEyeRetrain : exec (.lnkEyeRetrain p) s = .next (doLnkEyeRetrain p s) := rfl

theorem exec_lnkSleepAp2 : exec (.lnkSleepAp2 p) s = .next (doLnkSleepAp2 p s) := rfl

theorem exec_lnkSleepAp2Timeout : exec (.lnkSleepAp2Timeout p) s = .next (doLnkSleepAp2Timeout p s) := rfl

theorem exec_sleep : exec (.sleep p) s = .next (doSleep p s) := rfl

theorem exec_lnkWakeBurst : exec (.lnkWakeBurst p) s = .next (doLnkWakeBurst p s) := rfl

end arms

section events
variable {s : State} {p : Nat} (hrun : s.runs = true)
include hrun

/-- A port whose lanes have locked and aligned shows HELLO and sends its own. -/
theorem doLnkTrainDone_due (hstate : s.lnkState p = 1) (hlock : s.rdF (Reg.LNK_STAT p) 25 22 = 15)
    (halign : (s.fp p).aligned = true) :
    let locked := s.wrF (Reg.LNK_STAT p) 31 29 2
    doLnkTrainDone p s = locked.sendVc0 p 6 0
      (leBytes 2 (locked.rdF Reg.GLB_MODULE 15 0) ++ leBytes 2 0xB1 ++ leBytes 12 (locked.fp p).rate) := by
  rw [doLnkTrainDone, State.whenDue_due hrun]
  simp [hstate, hlock, halign]

/-- A training longer than 10 ms is tried again, or ends after its third failure. -/
theorem doLnkTrainTimeout_due (hstate : s.lnkState p = 1 ∨ s.lnkState p = 2) (hmatch : (s.fp p).mismatch = false)
    (htime : (s.fp p).trainFrom + 40000000 ≤ s.mt) :
    doLnkTrainTimeout p s =
      if 3 ≤ (s.fp p).tries + 1 then (s.goDown p).note (blkLNK p)
      else (s.trainPort p).setFp p { (s.trainPort p).fp p with tries := (s.fp p).tries + 1 } := by
  rw [doLnkTrainTimeout, State.whenDue_due hrun]
  simp [hstate, hmatch, htime]

/-- The port's ALIGN rows go out every 16,384 rows. -/
theorem doLnkAlignSend_due (hstate : 1 ≤ s.lnkState p) (hawake : s.unit 5 p ≤ 2)
    (htime : (s.fp p).rowFrom + (s.fp p).alignEvery ≤ 75 * s.mt) :
    let u := s.fp p
    let n := (u.rows + 16384) % 2 ^ 32
    doLnkAlignSend p s =
      (s.setFp p { u with rows := n, rowFrom := u.rowFrom + u.alignEvery }).sendControl p 0x4B n := by
  rw [doLnkAlignSend, State.whenDue_due hrun]
  simp [hstate, hawake, htime]

/-- A figure that stays below RETRAIN for 1 ms retrains a port that is UP. -/
theorem doLnkEyeRetrain_due {l : Nat} (hl : l < 4) (hup : s.lnkState p = 3)
    (hlow : kget (fun _ => 0) (s.fp p).eyeFrom l ≠ 0)
    (htime : kget (fun _ => 0) (s.fp p).eyeFrom l + 4000000 ≤ s.mt + 1) :
    doLnkEyeRetrain p s = s.lastingFail p false := by
  rw [doLnkEyeRetrain, State.whenDue_due hrun]
  simp only [hup, beq_self_eq_true, Bool.true_and, List.any_eq_true, List.mem_range]
  exact ⟨l, hl, by simp [hlow, htime]⟩

/-- A direction that has drained sends its SLEEP row. -/
theorem doLnkSleepAp2_due (hunit : s.unit 5 p = 1) (hdrained : (s.fp p).drained = true) :
    doLnkSleepAp2 p s = (s.setUnit 5 p 2).sendControl p 0x2D 0 := by
  rw [doLnkSleepAp2, State.whenDue_due hrun]
  simp [hunit, hdrained]

/-- One that has not within 100 µs abandons its entry. -/
theorem doLnkSleepAp2Timeout_due (hunit : s.unit 5 p = 1)
    (htime : kget (fun _ => 0) s.pwr.entryAt (unitKey 5 p) + 400000 ≤ s.mt) :
    doLnkSleepAp2Timeout p s = (s.setUnit 5 p 0).note (blkLNK p) := by
  rw [doLnkSleepAp2Timeout, State.whenDue_due hrun]
  simp [hunit, htime]

/-- An eye figure is shown with its lowest, and a new fall below the warning is noted. -/
theorem doLnkEyeUpdate_due (i l e eq : Nat) :
    let ra := if i < 4 then Reg.LNK_L_EYE i l else Reg.LNK_TL_EYE i
    let t := s.wrN (if i < 4 then Reg.LNK_L_EQ i l else Reg.LNK_TL_EQ i) eq
    let t := t.wrN ra (256 * (if t.rd ra = 0 then e else min e (t.rdF ra 15 8)) + e)
    let x := t.fp i
    let warn := t.rdF Reg.LNK_EYE_CTL 7 0
    let was := kget (fun _ => false) x.eyeLow l
    let now := if warn < e then false else was || decide (e < warn)
    let from' := kget (fun _ => 0) x.eyeFrom l
    let since := if i < 4 ∧ e < t.rdF Reg.LNK_EYE_CTL 15 8 then (if from' = 0 then t.mt + 1 else from') else 0
    let t := t.setFp i { x with
      eyeLow := kset (fun _ => false) x.eyeLow l now, eyeFrom := kset (fun _ => 0) x.eyeFrom l since }
    doLnkEyeUpdate i l e eq s =
      if now = true ∧ was = false then (t.irq (Reg.LNK_ISTAT i) 8).note (blkLNK i) 0 l else t := by
  rw [doLnkEyeUpdate, State.whenDue_due hrun rfl]
  simp -zeta only [Bool.and_eq_true, Bool.not_eq_true']
  rfl

end events

/-- The lanes of a port take blocks where it is not DOWN and its receiver is powered. -/
theorem State.lanesOn_true {s : State} {p : Nat} (hstate : 1 ≤ s.lnkState p)
    (hpowered : bit (s.rd (Reg.LNK_STAT p)) 26 = false) : s.lanesOn p = true := by
  simp [State.lanesOn, hstate, hpowered]

/-- Settles O50: each event is due where its clause's conditions hold, and does what the clause gives. -/
theorem portStateEventsComplete : Obligations.PortStateEventsComplete := by
  intro s p hrun u st locked hello
  refine ⟨fun hstate hlock halign => ?trained, fun b f hf htyp hstate => ?hello,
    fun hstate hmatch htime => ?timeout,
    fun hstate => ⟨fun hpowered => ⟨fun l header payload => ?block, fun blocks => ?align⟩, fun hawake htime => ?rows⟩,
    fun i l eye eq => ?eye, fun l hl hup hlow htime => ?retrain, fun hunit hdrained => ?sleeps,
    fun hunit htime => ?abandons, fun hup => ?peerSleeps, fun hasleep => ?peerWakes⟩
  case trained => rw [exec_lnkTrainDone, doLnkTrainDone_due hrun hstate hlock halign]
  case hello => rw [exec_hello, doHello, State.onFrame_due hrun hf htyp (beq_iff_eq.2 hstate)]
  case timeout => rw [exec_lnkTrainTimeout, doLnkTrainTimeout_due hrun hstate hmatch htime]
  case block =>
    rw [exec_laneBlockReceived, doLaneBlockReceived, State.whenDue_due hrun (State.lanesOn_true hstate hpowered),
      State.blockIn]
  case align =>
    rw [exec_align, doAlign, State.whenDue_due hrun (State.lanesOn_true hstate hpowered), State.alignRow]
  case rows => rw [exec_lnkAlignSend, doLnkAlignSend_due hrun hstate hawake htime, Port.alignEvery]
  case eye => rw [exec_lnkEyeUpdate, doLnkEyeUpdate_due hrun]
  case retrain => rw [exec_lnkEyeRetrain, doLnkEyeRetrain_due hrun hl hup hlow htime]
  case sleeps => rw [exec_lnkSleepAp2, doLnkSleepAp2_due hrun hunit hdrained]
  case abandons => rw [exec_lnkSleepAp2Timeout, doLnkSleepAp2Timeout_due hrun hunit htime]
  case peerSleeps => rw [exec_sleep, doSleep, State.whenDue_due hrun (beq_iff_eq.2 hup)]
  case peerWakes => rw [exec_lnkWakeBurst, doLnkWakeBurst, State.whenDue_due hrun hasleep]

end Sys2Proof.Machine
end

section
/-! SUPPORT. Frames of a Falin port (R444–R453): when they are sent and received. -/

namespace Sys2Proof.Machine

open Sys2Proof

section arms
variable (s : State) (p : Fin 4) (head arg : BitVec 64) (b rest : List Byte)

theorem exec_lnkFrameSend : exec (.lnkFrameSend p) s = .next (doLnkFrameSend p s) := rfl

theorem exec_lnkAckTimer : exec (.lnkAckTimer p) s = .next (doLnkAckTimer p s) := rfl

theorem exec_lnkCreditTimer : exec (.lnkCreditTimer p) s = .next (doLnkCreditTimer p s) := rfl

theorem exec_lnkReplayTimeout : exec (.lnkReplayTimeout p) s = .next (doLnkReplayTimeout p s) := rfl

theorem exec_lnkLastingFailure : exec (.lnkLastingFailure p) s = .next (doLnkLastingFailure p s) := rfl

theorem exec_frameBad : exec (.frameBad ⟨p, b⟩) s = .next (doFrameBad p b s) := rfl

theorem exec_item : exec (.item p head arg rest) s = .next (doItem p (rxFrame head arg rest) s) := rfl

theorem exec_write (data tail : List Byte) :
    exec (.write p head arg data tail) s = .next (doWrite p (rxFrame head arg (data ++ tail)) s) := rfl

theorem exec_ack : exec (.ack p head rest) s = .next (doAck p (rxBytes head rest) s) := rfl

theorem exec_nak : exec (.nak p b) s = .next (doNak p b s) := rfl

theorem exec_credit : exec (.credit p head rest) s = .next (doCredit p (rxBytes head rest) s) := rfl

end arms

/-! ### Sending (R444–R449, R453) -/

section sending
variable {s : State} {p : Nat} {f : Frame} {fs : List Frame}

/-- A frame that has waited for the wake goes first. -/
theorem State.frameSend_waiting (h : (s.fp p).vc0 = f :: fs) :
    s.frameSend p = (s.setFp p { s.fp p with vc0 := fs }).putFrame p f := by
  simp only [State.frameSend, h]

/-- Then a replayed one. -/
theorem State.frameSend_again (hnone : (s.fp p).vc0 = []) (h : (s.fp p).again = f :: fs) :
    s.frameSend p = (s.setFp p { s.fp p with again := fs }).putFrame p f := by
  simp only [State.frameSend, hnone, h]

/-- Then a queued copy that credit and the replay buffer allow. -/
theorem State.frameSend_queued (hnone : (s.fp p).vc0 = []) (hagain : (s.fp p).again = []) (h : (s.fp p).txq = f :: fs)
    (hfits : f.rows ≤ creditLeft (s.fp p).grant1 (s.fp p).sent1 ∧ (s.fp p).replayFits f = true) :
    s.frameSend p = (s.setFp p { s.fp p with txq := fs }).sendNew p f := by
  simp only [State.frameSend, hnone, hagain, h]
  exact if_pos hfits

/-- Then a frame of the transfer. -/
theorem State.frameSend_transfer (hnone : (s.fp p).vc0 = []) (hagain : (s.fp p).again = [])
    (hbarred : ∀ f fs, (s.fp p).txq = f :: fs →
      ¬ (f.rows ≤ creditLeft (s.fp p).grant1 (s.fp p).sent1 ∧ (s.fp p).replayFits f = true)) :
    s.frameSend p = s.xferSend p := by
  cases hq : (s.fp p).txq with
  | nil => simp only [State.frameSend, hnone, hagain, hq]
  | cons f fs =>
    simp only [State.frameSend, hnone, hagain, hq]
    exact if_neg (hbarred f fs hq)

section events
variable (hrun : s.runs = true) (hup : s.lnkState p = 3)
include hrun hup

theorem doLnkFrameSend_due (hawake : s.unit 5 p ≤ 1) : doLnkFrameSend p s = s.frameSend p := by
  rw [doLnkFrameSend, State.whenDue_due hrun]
  simp [hup, hawake]

theorem doLnkAckTimer_due (hdue : 0 < (s.fp p).ackDue) : doLnkAckTimer p s = s.sendAck p := by
  rw [doLnkAckTimer, State.whenDue_due hrun]
  simp [hup, hdue]

/-- Grants that changed are told. -/
theorem doLnkCreditTimer_due
    (hchanged : (s.fp p).rgrant1 ≠ (s.fp p).told1 ∨ (s.fp p).rgrant2 ≠ (s.fp p).told2) :
    let u := s.fp p
    doLnkCreditTimer p s = (s.setFp p { u with told1 := u.rgrant1, told2 := u.rgrant2 }).sendVc0 p 5 0
      (leBytes 4 u.rgrant1 ++ leBytes 4 u.rgrant2 ++ leBytes 8 0) := by
  have hdue : ((s.fp p).rgrant1 != (s.fp p).told1 || (s.fp p).rgrant2 != (s.fp p).told2) = true := by
    simpa only [Bool.or_eq_true, bne_iff_ne] using hchanged
  rw [doLnkCreditTimer, State.whenDue_due hrun]
  simp only [hup, hdue, beq_self_eq_true, Bool.and_self]

/-- Everything held is replayed 4 µs after the last acknowledgement. -/
theorem doLnkReplayTimeout_due (hheld : (s.fp p).replay ≠ []) (htime : (s.fp p).ackFrom + 16000 ≤ s.mt) :
    doLnkReplayTimeout p s =
      (s.setFp p ((s.fp p).fails ((s.fp p).replay.headD {}).seq)).replayAll p := by
  rw [doLnkReplayTimeout, State.whenDue_due hrun]
  simp [hup, hheld, htime]

theorem doLnkLastingFailure_due (hlasting : (s.fp p).lasting = true) :
    doLnkLastingFailure p s = s.lastingFail p true := by
  rw [doLnkLastingFailure, State.whenDue_due hrun]
  simp [hup, hlasting]

end events
end sending

/-! ### Receiving (R444–R447, R449, R451, R452) -/

section receiving
variable {s : State} {p : Nat} {b : List Byte} {f : Frame} (hrun : s.runs = true) (hon : s.rxOn p = true)
include hrun hon

/-- Bytes that fail as a frame ask for the sequence again. -/
theorem doFrameBad_due (hbad : s.frameFails p b = true) : doFrameBad p b s = s.badFrame p := by
  rw [doFrameBad, State.whenDue_due hrun]
  rw [hon, hbad]
  rfl

variable (hread : Frame.read b = some f)
include hread

/-- A NAK of a frame held replays from it. -/
theorem doNak_held (htyp : f.typ = 4) (hheld : ∃ g ∈ (s.fp p).replay, g.seq = f.arg % 65536) :
    doNak p b s = (s.setFp p { (s.fp p).fails (f.arg % 65536) with
      again := (s.fp p).replay.dropWhile fun g => g.seq != f.arg % 65536 }).count (Reg.LNK_REPLAY p) 1 := by
  have hany : ((s.fp p).replay.any fun g => g.seq == f.arg % 65536) = true := by
    simpa only [List.any_eq_true, beq_iff_eq] using hheld
  rw [doNak, State.onFrame_due hrun hread htyp hon, if_pos hany]

/-- A NAK of another does nothing. -/
theorem doNak_unheld (htyp : f.typ = 4) (hnone : ∀ g ∈ (s.fp p).replay, g.seq ≠ f.arg % 65536) : doNak p b s = s := by
  have hany : ¬ ((s.fp p).replay.any fun g => g.seq == f.arg % 65536) = true := by
    simpa only [List.any_eq_true, beq_iff_eq, not_exists, not_and] using hnone
  rw [doNak, State.onFrame_due hrun hread htyp hon, if_neg hany]

end receiving

/-- Settles O51: each event is due where its clause's conditions hold, and a frame received is one of its clause's
type. -/
theorem frameEventsComplete : Obligations.FrameEventsComplete := by
  intro s p hrun u
  refine ⟨fun hup => ⟨fun hawake => ⟨fun f fs hvc0 => ?waiting, fun f fs hvc0 hagain => ?again,
    fun f fs hvc0 hagain hq hcredit hfits => ?queued, fun hvc0 hagain hbarred => ?transfer⟩,
    fun hack => ?acks, fun hchanged => ?grants, fun hheld htime => ?replays, fun hlasting => ?retrains⟩,
    fun hon => ⟨fun b hbad => ?bad, fun b f hread => ⟨fun htyp head arg rest hb => ?item,
      fun htyp head arg data tail hb => ?write, fun htyp head rest hb => ?ack,
      fun htyp => ⟨fun hheld => ?nak, fun hnone => ?noNak⟩, fun htyp head rest hb => ?credit⟩⟩⟩
  case waiting => rw [exec_lnkFrameSend, doLnkFrameSend_due hrun hup hawake, State.frameSend_waiting hvc0]
  case again => rw [exec_lnkFrameSend, doLnkFrameSend_due hrun hup hawake, State.frameSend_again hvc0 hagain]
  case queued =>
    rw [exec_lnkFrameSend, doLnkFrameSend_due hrun hup hawake, State.frameSend_queued hvc0 hagain hq ⟨hcredit, hfits⟩]
  case transfer =>
    rw [exec_lnkFrameSend, doLnkFrameSend_due hrun hup hawake, State.frameSend_transfer hvc0 hagain hbarred]
  case acks => rw [exec_lnkAckTimer, doLnkAckTimer_due hrun hup hack]
  case grants => rw [exec_lnkCreditTimer, doLnkCreditTimer_due hrun hup hchanged]
  case replays => rw [exec_lnkReplayTimeout, doLnkReplayTimeout_due hrun hup hheld htime]
  case retrains => rw [exec_lnkLastingFailure, doLnkLastingFailure_due hrun hup hlasting]
  case bad => rw [exec_frameBad, doFrameBad_due hrun hon hbad]
  case item => rw [exec_item, hb, doItem, State.onFrame_due hrun hread htyp hon]
  case write => rw [exec_write, hb, doWrite, State.onFrame_due hrun hread htyp hon]
  case ack => rw [exec_ack, hb, doAck, State.onFrame_due hrun hread htyp hon]
  case nak =>
    rw [exec_nak, doNak_held hrun hon hread htyp hheld]
    rfl
  case noNak => rw [exec_nak, doNak_unheld hrun hon hread htyp hnone]
  case credit => rw [exec_credit, hb, doCredit, State.onFrame_due hrun hread htyp hon]

end Sys2Proof.Machine
end

section
/-! SUPPORT. Messages, symbols and edges of Module Time distribution (R457–R478): when its events are due, and what a
symbol does to the receiver of a time lane. -/

namespace Sys2Proof.Machine

open Sys2Proof

section arms
variable (s : State) (l : Fin 2) (v : Word) (arr : Nat) (xs : List TlSymbol)

theorem exec_time (tick : BitVec 64) : exec (.time l tick arr) s = .next (doTime l tick.toNat arr s) := rfl

theorem exec_echoRequest (seq : BitVec 16) :
    exec (.echoRequest l seq arr) s = .next (doEchoRequest l seq.toNat arr s) := rfl

theorem exec_echoReply (recv : BitVec 80) (seq b : BitVec 8) :
    exec (.echoReply l recv seq b arr) s = .next (doEchoReply l recv.toNat seq.toNat b.toNat arr s) := rfl

theorem exec_mirror (tick : BitVec 64) (flags : BitVec 8) :
    exec (.mirror tick flags arr) s = .next (doMirror tick.toNat flags.toNat arr s) := rfl

theorem exec_sync : exec (.sync l v) s = .next (doSync l v s) := rfl

theorem exec_trig : exec (.trig l v) s = .next (doTrig l v s) := rfl

theorem exec_tlAlignment : exec (.tlAlignment l xs) s = .next (doTlAlignment l xs s) := rfl

theorem exec_tlMessageBad : exec (.tlMessageBad l xs) s = .next (doTlMessageBad l xs s) := rfl

theorem exec_xtInputEdge (x : Fin 8) (rising : Bool) :
    exec (.xtInputEdge x rising arr) s = .next (doXtInputEdge x rising arr s) := rfl

end arms

/-! ### Messages and edges (R464–R478) -/

/-- The 24 low bits of a Te stand in a word's upper bits (R476). -/
theorem fld_teLow (v : Word) : fld v 31 8 = v.toNat / 256 := by
  rw [fld]
  exact Nat.mod_eq_of_lt (by have := v.isLt; omega)

section messages
variable {s : State} {l arr : Nat} (hrun : s.runs = true)
include hrun

theorem doTime_due {tick : Nat} (hup : s.laneUp l = true) (harr : arr ≤ 65536 * s.mt) :
    doTime l tick arr s = s.setTl l { s.tl l with time := some (tick, arr) } := by
  rw [doTime, State.whenDue_due hrun]
  simp [hup, harr]

/-- A request is answered with its arrival and what the module is. -/
theorem doEchoRequest_due {seq : Nat} (hup : s.laneUp l = true) (harr : arr ≤ 65536 * s.mt) :
    let b := b2n s.srcOk * 128 + b2n (s.viaOn l) * 64 + (if s.mtbState = 5 then 0 else s.hops)
    doEchoRequest l seq arr s = s.launch l symECHO
      (leBytes 8 (arr / 65536) ++ leBytes 2 arr ++ leBytes 1 seq ++ leBytes 1 b) := by
  rw [doEchoRequest, State.whenDue_due hrun]
  simp [hup, harr]

/-- A reply that answers a request gives its flags and, with the lane's TIME, a measurement. -/
theorem doEchoReply_due {recv seq b : Nat} {r : Nat × Nat} (hup : s.laneUp l = true) (harr : arr ≤ 65536 * s.mt)
    (hreq : (s.tl l).reqs.find? (fun r => r.1 % 256 == seq && decide (arr ≤ r.2 + 16000 * 65536)) = some r) :
    doEchoReply l recv seq b arr s =
      match ((s.replyFlags l b).tl l).time with
      | some (tk, t4) =>
        if arr ≤ t4 + 16000 * 65536 then (s.replyFlags l b).measureReply l r.2 recv tk t4 else s.replyFlags l b
      | none => s.replyFlags l b := by
  simp only [doEchoReply, hreq]
  rw [State.whenDue_due hrun (by simp [hup, harr])]
  cases ((s.replyFlags l b).tl l).time <;> rfl

/-- A MIRROR of a pair is kept, and its FAIL or ACTIVE acted on. -/
theorem doMirror_due {tick b : Nat} (hup : s.laneUp 1 = true) (hpair : s.pairRole = true) (harr : arr ≤ 65536 * s.mt) :
    let t := s.setTl 1 { s.tl 1 with time := some (tick, arr) }
    let t := { t with mtb := { t.mtb with standbyAligned := bits b 3 3 == 1 } }
    doMirror tick b arr s =
      if bits b 1 1 = 1 ∧ t.newCause 3 = true then t.takeover 3 else if bits b 0 0 = 1 then t.peerActive else t := by
  rw [doMirror, State.whenDue_due hrun]
  simp [hup, hpair, harr]

/-- An accepted edge of an XT input is stamped, and raises its sync event. -/
theorem doXtInputEdge_due {x : Nat} {rising : Bool} (hin : bit (s.rd (Reg.MTB_XT_CFG x)) 31 = false)
    (hedge : s.xtEdge x rising = true) (harr : arr ≤ 65536 * s.mt)
    (hlast : kget (fun _ => 0) s.mtb.xtLast x = 0 ∨ kget (fun _ => 0) s.mtb.xtLast x - 1 + 8 * 65536 ≤ arr) :
    let t := { s with mtb := { s.mtb with xtLast := kset (fun _ => 0) s.mtb.xtLast x (arr + 1) } }
    let t := t.wrWide (Reg.MTB_XT_STAMP0 x) 3 arr
    let te := arr / 65536 + t.syncLat
    doXtInputEdge x rising arr s =
      if bit (s.rd (Reg.MTB_XT_CFG x)) 30 = true then (t.ownMessage 1 x te).deliverAt 1 x te
      else t.syncSoon 1 x ((arr + 65535) / 65536) := by
  have happart : (kget (fun _ => 0) s.mtb.xtLast x == 0 ||
      decide (kget (fun _ => 0) s.mtb.xtLast x - 1 + 8 * 65536 ≤ arr)) = true := by
    simpa only [Bool.or_eq_true, beq_iff_eq, decide_eq_true_eq] using hlast
  rw [doXtInputEdge, State.whenDue_due hrun]
  rw [hin, hedge, happart, decide_eq_true harr]
  rfl

end messages

/-! ### Symbols of a time lane (R457) -/

/-- Of the last 64 symbols with a new one, the violations are the new one's and those of the 63 before. -/
theorem violations_cons (b : Bool) (l : List Bool) :
    (((b :: l).take 64).filter fun b => b).length = b2n b + (l.take 63).count true := by
  have hcount : ∀ l : List Bool, (l.filter fun b => b).length = l.count true := fun l => by
    rw [List.count_eq_length_filter]
    exact congrArg List.length (List.filter_congr fun b _ => by cases b <;> rfl)
  rw [List.take_succ_cons, hcount, List.count_cons, Nat.add_comm]
  cases b <;> rfl

section symbols
variable {s : State} {l : Nat}

/-- A comma or another valid symbol of an aligned lane with few violations is recorded. -/
theorem State.tlSymbol_valid_aligned {x : TlSymbol} (hal : bit (s.rd (Reg.LNK_TL_STAT (4 + l))) 31 = true)
    (hx : x ≠ .violation) (hfew : ((s.tl l).cvs.take 63).count true < 16) :
    s.tlSymbol l x = s.setTl l { s.tl l with cvs := (false :: (s.tl l).cvs).take 64 } := by
  have hstays : ¬ 16 ≤ (((false :: (s.tl l).cvs).take 64).filter fun b => b).length := by
    rw [violations_cons, show b2n false = 0 from rfl, Nat.zero_add]
    exact Nat.not_le.2 hfew
  simp only [State.tlSymbol, if_neg hx, if_pos hal, decide_eq_false hx]
  exact if_neg hstays

/-- A violation of an aligned lane is counted, and the 16th among 64 symbols ends the alignment. -/
theorem State.tlSymbol_violation_aligned :
    let t := s.countF (Reg.LNK_TL_STAT (4 + l)) 15 0 1
    bit (t.rd (Reg.LNK_TL_STAT (4 + l))) 31 = true →
    s.tlSymbol l .violation =
      if 15 ≤ ((t.tl l).cvs.take 63).count true then (t.setTl l { t.tl l with cvs := [] }).alignLost l
      else t.setTl l { t.tl l with cvs := (true :: (t.tl l).cvs).take 64 } := by
  intro t hal
  have hmany : 16 ≤ (((true :: (t.tl l).cvs).take 64).filter fun b => b).length ↔
      15 ≤ ((t.tl l).cvs.take 63).count true := by
    rw [violations_cons, show b2n true = 1 from rfl]
    omega
  have hsym : s.tlSymbol l .violation =
      if 16 ≤ (((true :: (t.tl l).cvs).take 64).filter fun b => b).length then
        (t.setTl l { t.tl l with cvs := [] }).alignLost l
      else t.setTl l { t.tl l with cvs := (true :: (t.tl l).cvs).take 64 } := if_pos hal
  rw [hsym]
  exact if_congr hmany rfl rfl

/-- A violation of a lane that is not aligned is counted, and the commas before it no longer count. -/
theorem State.tlSymbol_violation_unaligned :
    let t := s.countF (Reg.LNK_TL_STAT (4 + l)) 15 0 1
    bit (t.rd (Reg.LNK_TL_STAT (4 + l))) 31 = false →
    s.tlSymbol l .violation = t.setTl l { t.tl l with commas := (0, 0) } :=
  fun hal => if_neg (Bool.eq_false_iff.1 hal)

section unaligned
variable (hal : bit (s.rd (Reg.LNK_TL_STAT (4 + l))) 31 = false)
include hal

theorem State.tlSymbol_other_unaligned : s.tlSymbol l .other = s := if_neg (Bool.eq_false_iff.1 hal)

/-- A comma of a lane that is not aligned counts with those at its bit position, and the third aligns it. -/
theorem State.tlSymbol_comma_unaligned (p : Fin 10) :
    let n := if (s.tl l).commas.1 = p.val then (s.tl l).commas.2 + 1 else 1
    s.tlSymbol l (.comma p) =
      if 3 ≤ n then s.alignGained l else s.setTl l { s.tl l with commas := (p.val, n) } :=
  if_neg (Bool.eq_false_iff.1 hal)

end unaligned
end symbols

/-- Settles O53: each event is due where its clause's conditions hold, and a symbol does what its kind and the lane's
alignment have it do. -/
theorem timeBaseEventsComplete : Obligations.TimeBaseEventsComplete := by
  intro s hrun
  refine ⟨fun l tick arr hup harr => ?time, fun l seq arr hup harr => ?request,
    fun l recv seq b arr r hup harr hreq => ?reply,
    fun tick flags arr hup hpair harr => ?mirror, fun l v hup => ⟨?sync, ?trig⟩, fun l xs => ⟨?symbols, ?badMessage⟩,
    fun l => ⟨fun x xs => rfl, rfl, fun hal p => ⟨fun hpos hthird => ?third, fun hpos hfew => ?again,
      fun hpos => ?elsewhere⟩, fun hal => ⟨?other, State.tlSymbol_violation_unaligned⟩,
      fun hal x hx hfew => State.tlSymbol_valid_aligned hal hx hfew, State.tlSymbol_violation_aligned⟩,
    fun x rising arr hin hedge harr hlast => ?edge⟩
  case time => rw [exec_time, doTime_due hrun hup harr]
  case request => rw [exec_echoRequest, doEchoRequest_due hrun hup harr]
  case reply =>
    refine ⟨fun tk t4 htime => ?_, fun htime => ?_⟩
    · rw [exec_echoReply, doEchoReply_due hrun hup harr hreq, htime]
    · rw [exec_echoReply, doEchoReply_due hrun hup harr hreq, htime]
  case mirror => rw [exec_mirror, doMirror_due hrun hup hpair harr]
  case sync => rw [exec_sync, doSync, State.whenDue_due hrun hup, fld_op, fld_teLow]
  case trig => rw [exec_trig, doTrig, State.whenDue_due hrun hup, fld_seqOp, fld_teLow]
  case symbols => rw [exec_tlAlignment, doTlAlignment, State.whenDue_due hrun rfl]
  case badMessage => rw [exec_tlMessageBad, doTlMessageBad, State.whenDue_due hrun rfl]
  case third =>
    rw [State.tlSymbol_comma_unaligned hal, if_pos hpos, if_pos (Nat.succ_le_succ hthird),
      State.alignGained, State.wrF, State.wr_mt, State.wrF, State.wr_mt]
  case again => rw [State.tlSymbol_comma_unaligned hal, if_pos hpos, if_neg (by omega)]
  case elsewhere => rw [State.tlSymbol_comma_unaligned hal, if_neg hpos, if_neg (by omega)]
  case other => exact State.tlSymbol_other_unaligned hal
  case edge => rw [exec_xtInputEdge, doXtInputEdge_due hrun hin hedge harr hlast]

end Sys2Proof.Machine
end

section
/-! SUPPORT. The host interface (R415–R437): what writes of its registers do, and when its events act. -/

namespace Sys2Proof.Machine

open Sys2Proof

section arms
variable (s : State) (d fn : Fin 16) (v : Word)

theorem exec_hifDenyCntClear : exec (.hifDenyCntClear d v) s = .next (doHifDenyCntClear d v s) := rfl

theorem exec_glbModuleWrite : exec (.glbModuleWrite d v) s = .next (doGlbModuleWrite d v s) := rfl

theorem exec_msixMessage (vec : Fin 64) (masked : Bool) :
    exec (.msixMessage fn ⟨vec, masked⟩) s = .next (doMsixMessage fn vec masked s) := rfl

theorem exec_flrVf : exec (.flrVf fn) s = .next (doFlrVf fn s) := rfl

theorem exec_pcieLinkDown : exec .pcieLinkDown s = .next (doPcieLinkDown s) := rfl

theorem exec_pcieLinkUp (speed width vfs : Fin 16) :
    exec (.pcieLinkUp speed ⟨width, vfs⟩) s = .next (doPcieLinkUp speed width vfs s) := rfl

theorem exec_perst : exec .perst s = .next (doPerst s) := rfl

end arms

section writes
variable {s : State} {dom : Nat}

/-- A write of ones to the deny count clears it and the record's valid bit, and any other does nothing. -/
theorem doHifDenyCntClear_writes (v : Word) (hw : s.Writes dom Reg.HIF_DENY_CNT) :
    doHifDenyCntClear dom v s =
      if v = 0xFFFFFFFF then (s.wrN Reg.HIF_DENY_CNT 0).wrF Reg.HIF_DENY_INFO 31 31 0 else s := by
  rw [doHifDenyCntClear, State.hostWrite_writes hw]

/-- The module number takes effect and its flash write joins the queue, or is refused under PFW_N. -/
theorem doGlbModuleWrite_writes (v : Word) (hw : s.Writes dom Reg.GLB_MODULE) :
    doGlbModuleWrite dom v s =
      if s.pfw then s.norPfw.noteReg dom Reg.GLB_MODULE
      else (s.wrN Reg.GLB_MODULE (v.toNat % 2 ^ 16)).norPush (identityOp 3 norModule (v.toNat % 2 ^ 16)) := by
  rw [doGlbModuleWrite, State.hostWrite_writes hw, fld_low]

end writes

section msix
variable {s : State} {fn vec : Nat}

/-- A function that the host reaches is in a module with power. -/
theorem State.hostOn_on (hon : s.hostOn fn = true) : s.pwr.on = true :=
  (Bool.and_eq_true_iff.1 (Bool.and_eq_true_iff.1 hon).1).1

/-- A vector's message, by whether its summary, which is on, rises and whether it is masked. -/
theorem doMsixMessage_on (masked : Bool) (hon : s.hostOn fn = true) (hsum : s.vecFall.summary fn vec = true) :
    let f := s.vecFall
    let key := vecKey fn vec
    let g := { f with msixMask := kset (fun _ => false) f.msixMask key masked }
    let t := if !f.vecOn key then { g with msixOn := kset (fun _ => false) f.msixOn key true } else g
    doMsixMessage fn vec masked s =
      if masked then
        (if !f.vecOn key then { t with msixPend := kset (fun _ => false) t.msixPend key true } else t)
      else if (!f.vecOn key) || kget (fun _ => false) t.msixPend key then
        { t with msixPend := kset (fun _ => false) t.msixPend key false }.send (.msix fn vec)
      else t := by
  have hrose : ∀ m, ({ s.vecFall with msixMask := m }.summary fn vec &&
      !{ s.vecFall with msixMask := m }.vecOn (vecKey fn vec)) = !s.vecFall.vecOn (vecKey fn vec) := fun m => by
    have hsame : State.summary { s.vecFall with msixMask := m } fn vec = true := hsum
    rw [hsame, Bool.true_and]
    rfl
  rw [doMsixMessage, State.whenOn_due (State.hostOn_on hon) hon]
  simp only [hrose]
  rfl

end msix

section events
variable {s : State}

/-- FLR of a function stops its channels, releases its sheets, and clears its latches and MSI-X state. -/
theorem doFlrVf_due {k : Nat} (hk : k ≠ 0) (hon : s.hostOn k = true) :
    let stopped := forEach ((List.range 16).filter fun n => s.ptOwner 3 n == k) (fun n s => s.dmaStopNow n) s
    let held := (List.range 16).filter fun n => (stopped.sq n).sheet.held.isSome && (stopped.sq n).sheet.heldBy == k
    doFlrVf k s = ((forEach held (fun n s => s.releaseHeld n) stopped).latchClear k).msixReset k := by
  have hdue : (decide (k ≠ 0) && s.hostOn k) = true := by rw [decide_eq_true hk, hon]; rfl
  rw [doFlrVf, State.whenOn_due (State.hostOn_on hon) hdue]

/-- The link comes up at a speed and width of R415. -/
theorem doPcieLinkUp_due {speed width vfs : Nat} (hpow : s.pwr.on = true) (hlow : 3 ≤ speed) (hhigh : speed ≤ 5)
    (hwidth : width = 1 ∨ width = 2 ∨ width = 4 ∨ width = 8) :
    doPcieLinkUp speed width vfs s =
      { s.wrN Reg.HIF_LINK (2 ^ 16 * speed + 2 ^ 8 * width + 1) with
        vfs := if s.pwr.starting ∨ s.safeMode then 0 else vfs } := by
  have hok : linkOk speed width = true := by
    simp only [linkOk, Bool.and_eq_true, Bool.or_eq_true, decide_eq_true_eq, beq_iff_eq, or_assoc]
    exact ⟨⟨hlow, hhigh⟩, hwidth⟩
  simp only [doPcieLinkUp, State.whenOn_due hpow hok, Bool.or_eq_true]

end events

/-- Settles O14: each write reaches its register, and each event acts as its clause's conditions have it. -/
theorem hostInterfaceComplete : Obligations.HostInterfaceComplete := by
  intro s d fn k vec v speed width vfs f key off stopped held
  refine ⟨fun hw => ⟨?clears, fun hv => ?keeps⟩, fun hw => ⟨fun hpfw => ?module, fun hpfw => ?refused⟩,
    fun hon hsum => ⟨fun hrose => ?sends, fun hrose => ?pends, fun hold hpend => ?unmasked, fun hold hpend => ?silent⟩,
    fun hon hk => ?reset, fun hpow hlink => ?down, fun hpow hlow hhigh hwidth => ?up, fun hpow => ?perst⟩
  case clears => rw [exec_hifDenyCntClear, doHifDenyCntClear_writes _ hw, if_pos rfl]
  case keeps => rw [exec_hifDenyCntClear, doHifDenyCntClear_writes _ hw, if_neg hv]
  case module => rw [exec_glbModuleWrite, doGlbModuleWrite_writes _ hw, if_neg (Bool.eq_false_iff.1 hpfw)]
  case refused => rw [exec_glbModuleWrite, doGlbModuleWrite_writes _ hw, if_pos hpfw]
  case sends =>
    simp only [exec_msixMessage, doMsixMessage_on _ hon hsum, show s.vecFall.vecOn (vecKey fn vec) = false from hrose]
    rfl
  case pends =>
    simp only [exec_msixMessage, doMsixMessage_on _ hon hsum, show s.vecFall.vecOn (vecKey fn vec) = false from hrose]
    rfl
  case unmasked =>
    simp only [exec_msixMessage, doMsixMessage_on _ hon hsum, show s.vecFall.vecOn (vecKey fn vec) = true from hold]
    exact congrArg _ (if_pos hpend)
  case silent =>
    simp only [exec_msixMessage, doMsixMessage_on _ hon hsum, show s.vecFall.vecOn (vecKey fn vec) = true from hold]
    exact congrArg _ (if_neg (Bool.eq_false_iff.1 hpend))
  case reset => rw [exec_flrVf, doFlrVf_due (Fin.val_ne_of_ne hk) hon]
  case down => rw [exec_pcieLinkDown, doPcieLinkDown, State.whenOn_due hpow hlink, State.linkDown]
  case up =>
    have hcodes : width.val = 1 ∨ width.val = 2 ∨ width.val = 4 ∨ width.val = 8 := by
      simpa [Fin.ext_iff] using hwidth
    rw [exec_pcieLinkUp, doPcieLinkUp_due hpow hlow hhigh hcodes]
  case perst =>
    rw [exec_perst, doPerst, State.whenOn_due hpow rfl]
    rfl

end Sys2Proof.Machine
end

section
/-! SUPPORT. Power units (R497–R503, R522): when their entries and wakes are due, and what the commands of PWR_CMD do
once they reach it. -/

namespace Sys2Proof.Machine

open Sys2Proof

section arms
variable (s : State) (d : Fin 16) (kind : Fin 8) (i : Fin 128) (v : Word)

theorem exec_pwrIdleEntry : exec (.pwrIdleEntry kind i) s = .next (doPwrIdleEntry kind i s) := rfl

theorem exec_pwrEntryAp2 : exec (.pwrEntryAp2 kind i) s = .next (doPwrEntryAp2 kind i s) := rfl

theorem exec_pwrEntryAp3 : exec (.pwrEntryAp3 kind i) s = .next (doPwrEntryAp3 kind i s) := rfl

theorem exec_pwrWake (source : Fin 5) : exec (.pwrWake kind i source) s = .next (doPwrWake kind i source s) := rfl

theorem exec_pwrWakeDone : exec (.pwrWakeDone kind i) s = .next (doPwrWakeDone kind i s) := rfl

theorem exec_pwrCmdDone : exec .pwrCmdDone s = .next (doPwrCmdDone s) := rfl

theorem exec_railsOff : exec (.railsOff d v) s = .next (doRailsOff d v s) := rfl

theorem exec_railsOn : exec (.railsOn d v) s = .next (doRailsOn d v s) := rfl

theorem exec_pllOff : exec (.pllOff d) s = .next (doPllOff d s) := rfl

theorem exec_pllOn : exec (.pllOn d) s = .next (doPllOn d s) := rfl

theorem exec_pwrCmdInvalid : exec (.pwrCmdInvalid d v) s = .next (doPwrCmdInvalid d v s) := rfl

end arms

/-! ### Entries and wakes (R497, R500–R503) -/

section entries
variable {s : State} {kind i : Nat}

/-- An entry that no wake source of its round meets is decided. -/
theorem State.enterUnit_undisturbed
    (hsrc : ((kget (fun _ => none) s.pwr.srcAt (unitKey kind i)).filter fun x => x.1 / 16 == s.mt / 16) = none) :
    let t := s.setUnit kind i 1
    s.enterUnit kind i =
      { t with pwr := { t.pwr with entryAt := kset (fun _ => 0) t.pwr.entryAt (unitKey kind i) t.mt } } := by
  simp only [State.enterUnit, hsrc]

/-- One that a wake source of its round meets is abandoned at once. -/
theorem State.enterUnit_met {x : Nat × Nat}
    (hsrc : ((kget (fun _ => none) s.pwr.srcAt (unitKey kind i)).filter fun x => x.1 / 16 == s.mt / 16) = some x) :
    s.enterUnit kind i = (s.workNow kind i).wakeRecord kind i x.2 1 := by
  simp only [State.enterUnit, hsrc]

/-- An idle unit whose timer has run enters low power. -/
theorem doPwrIdleEntry_due (hrun : s.runs = true) (hidle : s.unitIdle kind i = true) (htimer : s.idleTimer kind ≠ 0)
    (hunit : s.unit kind i = 0)
    (htime : max s.pwr.startAt (kget (fun _ => 0) s.pwr.workAt (unitKey kind i)) + 4000 * s.idleTimer kind ≤ s.mt) :
    doPwrIdleEntry kind i s = s.enterUnit kind i := by
  have hran : s.idleFor kind i (s.idleTimer kind) = true := decide_eq_true htime
  rw [doPwrIdleEntry, State.whenDue_due hrun]
  simp [hidle, htimer, hunit, hran]

section powered
variable (hpow : s.pwr.on = true)
include hpow

/-- A unit that has drained reaches AP2, unless its entry no longer holds. -/
theorem doPwrEntryAp2_due (hkind : kind ≠ 5) (hunit : s.unit kind i = 1) :
    doPwrEntryAp2 kind i s = if s.entryBroken kind i then s.wakeUnit kind i 1 else s.setUnit kind i 2 := by
  rw [doPwrEntryAp2, State.whenOn_due hpow]
  simp [hkind, hunit]

/-- A unit at AP2 is LOW at AP3, unless its entry no longer holds. -/
theorem doPwrEntryAp3_due (hunit : s.unit kind i = 2) :
    doPwrEntryAp3 kind i s =
      if s.entryBroken kind i then s.wakeUnit kind i 1
      else if kind = 6 then s.railsDownOf i
      else if kind = 7 then ((s.setUnit 7 0 3).wrF Reg.PWR_STAT 24 24 1).pllDown
      else s.setUnit kind i 3 := by
  rw [doPwrEntryAp3, State.whenOn_due hpow (beq_iff_eq.2 hunit)]
  refine if_congr Iff.rfl rfl ?_
  split
  case h_1 => rfl
  case h_2 => rfl
  case h_3 hrails hpll => rw [if_neg hrails, if_neg hpll]

/-- A wake of a unit of kinds 0 to 5 completes. -/
theorem doPwrWakeDone_due (hkind : kind < 6) (hunit : s.unit kind i = 4) :
    doPwrWakeDone kind i s = s.setUnit kind i 0 := by
  rw [doPwrWakeDone, State.whenOn_due hpow]
  simp [hkind, hunit]

end powered
end entries

/-- Only the entry of a DRAM channel can cease to hold. -/
theorem State.entryBroken_other (s : State) {kind : Nat} (i : Nat) (hkind : kind ≠ 4) :
    s.entryBroken kind i = false := by
  rw [State.entryBroken, beq_eq_false_iff_ne.2 hkind, Bool.false_and, Bool.false_and]

/-! ### Commands (R499, R501, R502, R522) -/

section commands
variable {s : State} {dom : Nat} (hw : s.Writes dom Reg.PWR_CMD)
include hw

/-- A command whose OP is its own acts. -/
theorem State.pwrCmd_writes {op : Nat} {v : Word} (hop : v.toNat % 16 = op) (k : State → State) :
    s.pwrCmd dom op v k = k s := by
  rw [State.pwrCmd, State.hostWrite_writes hw, fld_op, if_pos hop]

/-- RAILS_OFF begins the fall of every named tile where each may fall. -/
theorem doRailsOff_writes {v : Word} (hop : v.toNat % 16 = 1) :
    doRailsOff dom v s =
      if (bitsOf 4 (v.toNat / 2 ^ 8 % 2 ^ 4)).all s.railsMayFall then
        (forEach (bitsOf 4 (v.toNat / 2 ^ 8 % 2 ^ 4)) (fun t s => s.railsFallOf t) s).setPwrCmd 1
          (v.toNat / 2 ^ 8 % 2 ^ 4)
      else s.noteReg dom Reg.PWR_CMD := by
  simp only [doRailsOff, State.pwrCmd_writes hw hop, Bool.not_eq_true', ← Bool.not_eq_true, ite_not]
  rfl

/-- RAILS_ON wakes every named tile. -/
theorem doRailsOn_writes {v : Word} (hop : v.toNat % 16 = 2) :
    doRailsOn dom v s =
      (forEach (bitsOf 4 (v.toNat / 2 ^ 8 % 2 ^ 4)) (fun t s =>
        if s.unit 6 t = 0 then s.sourceNow 6 t 3 else s.wakeUnit 6 t 3) s).setPwrCmd 2 (v.toNat / 2 ^ 8 % 2 ^ 4) := by
  rw [doRailsOn, State.pwrCmd_writes hw hop]
  rfl

/-- PLL_OFF begins the fall of the PLL where it may fall. -/
theorem doPllOff_writes :
    doPllOff dom s =
      if s.pllMayFall then (if s.unit 7 0 = 0 then s.enterUnit 7 0 else s).setPwrCmd 3 0
      else s.noteReg dom Reg.PWR_CMD := by
  rw [doPllOff, State.hostWrite_writes hw]
  cases s.pllMayFall <;> rfl

/-- PLL_ON wakes it. -/
theorem doPllOn_writes :
    doPllOn dom s = (if s.unit 7 0 = 0 then s.sourceNow 7 0 3 else s.wakeUnit 7 0 3).setPwrCmd 4 0 := by
  rw [doPllOn, State.hostWrite_writes hw, State.cmdWake]

/-- An OP that the table does not give is noted. -/
theorem doPwrCmdInvalid_noted {v : Word} (hop : v.toNat % 16 = 0 ∨ 6 ≤ v.toNat % 16) :
    doPwrCmdInvalid dom v s = s.noteReg dom Reg.PWR_CMD := by
  rw [doPwrCmdInvalid, State.hostWrite_writes hw, fld_op, if_pos hop]

end commands

/-- Settles O15: each event is due where its clause's conditions hold, and each write reaches PWR_CMD and takes the
branch that its clause's condition names. -/
theorem powerUnitsComplete : Obligations.PowerUnitsComplete := by
  intro s d kind i src v tiles up src?
  refine ⟨fun hrun => ⟨fun hidle htimer hunit htime => ⟨fun hsrc => ?enters, fun x hsrc => ?met⟩, fun hsrc => ?wakes⟩,
    fun hpow => ⟨fun hkind hunit => ?ap2, fun hunit hbroken => ?abandoned, fun hunit hholds => ?ap3,
      fun hkind => ?holds, fun hkind hunit => ?woken, fun hdue => ?done⟩,
    fun hw => ⟨fun hop hall => ?railsOff, fun hop hsome => ?noRailsOff, fun hop => ?railsOn, fun hmay hunit => ?pllOff,
      fun hmay => ?noPllOff, fun hmay hunit => ?pllStays, ?pllOn, fun hop => ?otherOp⟩⟩
  case enters =>
    rw [exec_pwrIdleEntry, doPwrIdleEntry_due hrun hidle htimer hunit htime, State.enterUnit_undisturbed hsrc]
  case met => rw [exec_pwrIdleEntry, doPwrIdleEntry_due hrun hidle htimer hunit htime, State.enterUnit_met hsrc]
  case wakes => rw [exec_pwrWake, doPwrWake, State.whenDue_due hrun hsrc]
  case ap2 => rw [exec_pwrEntryAp2, doPwrEntryAp2_due hpow (Fin.val_ne_of_ne hkind) hunit]
  case abandoned => rw [exec_pwrEntryAp3, doPwrEntryAp3_due hpow hunit, if_pos hbroken]
  case ap3 =>
    rw [exec_pwrEntryAp3, doPwrEntryAp3_due hpow hunit, if_neg (Bool.eq_false_iff.1 hholds)]
    simp only [Fin.ext_iff]
    rfl
  case holds => exact s.entryBroken_other i (Fin.val_ne_of_ne hkind)
  case woken => rw [exec_pwrWakeDone, doPwrWakeDone_due hpow hkind hunit]
  case done => rw [exec_pwrCmdDone, doPwrCmdDone, State.whenOn_due hpow hdue]
  case railsOff => rw [exec_railsOff, doRailsOff_writes hw hop, if_pos (List.all_eq_true.2 hall)]
  case noRailsOff =>
    have hnot : ¬ tiles.all s.railsMayFall = true := fun h =>
      let ⟨t, ht, hbar⟩ := hsome
      Bool.noConfusion (hbar.symm.trans (List.all_eq_true.1 h t ht))
    rw [exec_railsOff, doRailsOff_writes hw hop, if_neg hnot]
  case railsOn => rw [exec_railsOn, doRailsOn_writes hw hop]
  case pllOff => rw [exec_pllOff, doPllOff_writes hw, if_pos hmay, if_pos hunit]
  case noPllOff => rw [exec_pllOff, doPllOff_writes hw, if_neg (Bool.eq_false_iff.1 hmay)]
  case pllStays => rw [exec_pllOff, doPllOff_writes hw, if_pos hmay, if_neg hunit]
  case pllOn => rw [exec_pllOn, doPllOn_writes hw]
  case otherOp => rw [exec_pwrCmdInvalid, doPwrCmdInvalid_noted hw hop]

end Sys2Proof.Machine
end

section
/-! SUPPORT. Faults (R482–R496): what reaches the collector, the always-on sources, and what the commands of FLT do
once they reach their registers. -/

namespace Sys2Proof.Machine

open Sys2Proof

section arms
variable (s : State) (d : Fin 16) (v : Word)

theorem exec_faultReport (f : FaultIn) : exec (.faultReport f) s = .next (doFaultReport f s) := rfl

theorem exec_faultRound : exec .faultRound s = .next (doFaultRound s) := rfl

theorem exec_supWatchdogExpiry : exec .supWatchdogExpiry s = .next (doSupWatchdogExpiry s) := rfl

theorem exec_railFault : exec .railFault s = .next (doRailFault s) := rfl

theorem exec_junctionTempCrossing (hot rising : Bool) :
    exec (.junctionTempCrossing hot rising) s = .next (doJunctionTempCrossing hot rising s) := rfl

theorem exec_safelightToggle : exec .safelightToggle s = .next (doSafelightToggle s) := rfl

theorem exec_raiseMod : exec (.raiseMod d) s = .next (doRaiseMod d s) := rfl

theorem exec_clrFirst : exec (.clrFirst d) s = .next (doClrFirst d s) := rfl

theorem exec_clrCount : exec (.clrCount d) s = .next (doClrCount d s) := rfl

theorem exec_clrPgrave : exec (.clrPgrave d) s = .next (doClrPgrave d s) := rfl

theorem exec_fltCmdInvalid : exec (.fltCmdInvalid d v) s = .next (doFltCmdInvalid d v s) := rfl

theorem exec_fltInjWrite : exec (.fltInjWrite d v) s = .next (doFltInjWrite d v s) := rfl

end arms

/-! ### Several registers -/

/-- The words of a record reach only their own registers. -/
theorem State.rd_putWords_below (s : State) (l : List Nat) {a b : Nat} (h : b < a) :
    (s.putWords a l).rd b = s.rd b := by
  induction l generalizing s a with
  | nil => rfl
  | cons w ws ih =>
    calc ((s.wrN a w).putWords (a + 4) ws).rd b = (s.wrN a w).rd b := ih _ (by omega)
      _ = s.rd b := State.rd_wr_other s (word w) (by omega)

/-- Registers cleared one after the other read 0, and every other register reads as before. -/
theorem State.rd_forEach_clear (s : State) (l : List Nat) (reg : Nat → Nat) {b : Nat} :
    (forEach l (fun c s => s.wrN (reg c) 0) s).rd b = if ∃ c ∈ l, reg c = b then word 0 else s.rd b := by
  induction l generalizing s with
  | nil => simp [forEach]
  | cons c l ih =>
    have hstep : (forEach (c :: l) (fun c s => s.wrN (reg c) 0) s).rd b =
        (forEach l (fun c s => s.wrN (reg c) 0) (s.wrN (reg c) 0)).rd b := rfl
    rw [hstep, ih, State.wrN_eq, State.rd_wr]
    by_cases hl : ∃ c ∈ l, reg c = b
    · simp [hl]
    · by_cases hc : b = reg c
      · simp [hc]
      · rw [if_neg hc, if_neg hl, if_neg]
        simp only [List.mem_cons, exists_eq_or_imp, not_or]
        exact ⟨Ne.symm hc, hl⟩

/-- Clearing registers changes nothing else. -/
theorem RegsOnly.forEach_clear {m : List Nat} {s t : State} (h : RegsOnly m s t) (l : List Nat) (reg : Nat → Nat)
    (hl : ∀ c ∈ l, reg c ∈ m) : RegsOnly m s (forEach l (fun c s => s.wrN (reg c) 0) t) := by
  induction l generalizing t with
  | nil => exact h
  | cons c l ih => exact ih (h.wr _ _ (hl c List.mem_cons_self)) fun x hx => hl x (List.mem_cons_of_mem _ hx)

/-! ### What reaches the collector, and the always-on sources (R482, R487, R488, R494) -/

section powered
variable {s : State} (hpow : s.pwr.on = true)
include hpow

/-- The oldest fault that waits reaches the collector. -/
theorem doFaultReport_detected {r : FaultRec} {l : List FaultRec} (hdet : s.detected = r :: l) :
    doFaultReport .detected s = ({ s with detected := l }).collect r := by
  simp only [doFaultReport, hdet]
  exact State.whenOn_due hpow rfl _

/-- A checker's fault that no injection meets reaches the collector as it ends; a lasting one of capture memory loses
what it met. -/
theorem doFaultReport_checker {src chk code addr rkind access rid : Nat} (e : CheckEnd)
    (hchk : hasChecker src chk = true) (hinj : s.injArmed src chk = false) :
    let r : FaultRec :=
      { src := src, chk := chk, code := code, addr := addr, rkind := rkind, access := access, rid := rid }
    let r := s.checkFault r e
    doFaultReport (.checker src chk code addr rkind access rid e) s =
      (if src / 256 = 6 ∧ chk = 0 ∧ r.cls = 0 then s.captureLoss (src % 256) addr else s).collect r := by
  simp only [doFaultReport, State.whenOn_due hpow hchk, State.injected, hinj, Bool.not_false, if_true]

/-- An AER error is counted and reaches the collector. -/
theorem doFaultReport_aer (uncorrectable : Bool) :
    doFaultReport (.aer uncorrectable) s =
      ((if uncorrectable then s.countF Reg.HIF_AER_CNT 31 16 1 else s.countF Reg.HIF_AER_CNT 15 0 1).irq Reg.HIF_ISTAT
        8).collect { src := blkHIF, cls := if uncorrectable then 0 else 1 } := by
  rw [doFaultReport, State.whenOn_due hpow rfl]

/-- A round that has ended is closed. -/
theorem doFaultRound_due {r : FaultRec} {l : List FaultRec} (hround : s.round = r :: l) (hend : r.mt / 16 ≠ s.mt / 16) :
    doFaultRound s = s.closeRound := by
  simp only [doFaultRound, hround]
  exact State.whenOn_due hpow (bne_iff_ne.2 hend) _

/-- A heartbeat that is 1 ms late is a fault. -/
theorem doSupWatchdogExpiry_due {t : Nat} (hwatch : s.sup.watch = some t) (htime : t + 4000000 ≤ s.mt) :
    doSupWatchdogExpiry s = { s with sup := { s.sup with watch := none } }.modFault blkFLT 3 := by
  simp only [doSupWatchdogExpiry, hwatch]
  exact State.whenOn_due hpow (decide_eq_true htime) _

/-- A crossing of a junction temperature that is not noted yet is noted, and a rising one is a fault. -/
theorem doJunctionTempCrossing_due (hot rising : Bool)
    (hnew : (if hot then s.pwr.jt120 else s.pwr.jt110) = !rising) :
    let p := if hot then { s.pwr with jt120 := rising } else { s.pwr with jt110 := rising }
    doJunctionTempCrossing hot rising s =
      if rising then { s with pwr := p }.detect { src := blkFLT, cls := if hot then 3 else 0, code := 4 }
      else { s with pwr := p } :=
  State.whenOn_due hpow (by rw [hnew]; cases rising <;> rfl) _

end powered

/-- A lasting SRAM fault of an acquisition block is of class NOTE (R487). -/
theorem lastingClass_capture {src chk : Nat} (h : src / 256 = 6 ∧ chk = 0) : lastingClass src chk = 0 := by
  obtain ⟨hsrc, rfl⟩ := h
  simp only [lastingClass, hsrc]

/-! ### Commands and injection (R491–R496) -/

section commands
variable {s : State} {dom : Nat}

section fltCmd
variable (hw : s.Writes dom Reg.FLT_CMD)
include hw

/-- CLR_FIRST clears FIRST, and WORST unless a MOD fault is held. -/
theorem doClrFirst_writes :
    doClrFirst dom s =
      if (s.clearRecord (Reg.FLT_FIRST 0)).modHeld then s.clearRecord (Reg.FLT_FIRST 0)
      else (s.clearRecord (Reg.FLT_FIRST 0)).clearRecord (Reg.FLT_WORST 0) := by
  rw [doClrFirst, State.hostWrite_writes hw]

theorem doClrCount_writes : doClrCount dom s = forEach (List.range 5) (fun c s => s.wrN (Reg.FLT_CNT c) 0) s := by
  rw [doClrCount, State.hostWrite_writes hw]

/-- CLR_PGRAVE clears the record and erases it, or is refused under PFW_N. -/
theorem doClrPgrave_writes :
    doClrPgrave dom s =
      if s.pfw then s.norPfw.noteReg dom Reg.FLT_CMD
      else ((s.clearRecord (Reg.FLT_PGRAVE 0)).wrF Reg.FLT_STAT 26 26 0).norPush
        { user := 5, region := 3, erases := [(norGrave, 4096)] } := by
  rw [doClrPgrave, State.hostWrite_writes hw]

/-- An OP that the table does not give is noted. -/
theorem doFltCmdInvalid_noted {v : Word} (hop : v.toNat % 16 = 0 ∨ 5 ≤ v.toNat % 16) :
    doFltCmdInvalid dom v s = s.noteReg dom Reg.FLT_CMD := by
  rw [doFltCmdInvalid, State.hostWrite_writes hw, fld_op, if_pos hop]

end fltCmd

section fltInj
variable {v : Word} (hw : s.Writes dom Reg.FLT_INJ)
include hw

/-- An injection is armed where its checker exists. -/
theorem doFltInjWrite_takes (hchk : fld v 26 24 < 4)
    (hexists : bit v 31 = false ∨ hasChecker (fld v 15 0) (fld v 26 24) = true) :
    doFltInjWrite dom v s = s.wrRow Reg.FLT_INJ v := by
  have hgood : ¬ (4 ≤ fld v 26 24 ∨ (bit v 31 ∧ !hasChecker (fld v 15 0) (fld v 26 24))) := by
    rintro (hbig | ⟨harms, hnone⟩)
    · omega
    · rcases hexists with hoff | hhas
      · exact Bool.noConfusion (hoff.symm.trans harms)
      · rw [hhas] at hnone
        exact Bool.noConfusion hnone
  rw [doFltInjWrite, State.hostWrite_writes hw, if_neg hgood]

theorem doFltInjWrite_noted (hchk : 4 ≤ fld v 26 24) : doFltInjWrite dom v s = s.noteReg dom Reg.FLT_INJ := by
  rw [doFltInjWrite, State.hostWrite_writes hw, if_pos (.inl hchk)]

end fltInj
end commands

/-- FIRST stands apart from FLT_STAT: clearing it ends no fault. -/
theorem State.clearRecord_first_modHeld (s : State) : (s.clearRecord (Reg.FLT_FIRST 0)).modHeld = s.modHeld := by
  rw [State.modHeld, State.clearRecord, s.rd_putWords_below _ (by decide : Reg.FLT_STAT < Reg.FLT_FIRST 0),
    ← State.modHeld]

/-- Settles O16: each event acts where its clause's conditions hold, and each write reaches its register and takes the
branch that its clause's condition names. -/
theorem faultCommandsComplete : Obligations.FaultCommandsComplete := by
  intro s d v
  refine ⟨fun hpow => ⟨fun r l hdet => ?detected, fun src chk code addr rkind access rid hchk hinj =>
      ⟨?corrected, ?transient, ?lasting⟩, ?aerCorrected, ?aer, fun r l hround hend => ?round,
      fun t hwatch htime => ?watchdog, fun hpfw => ?rail, fun hcold => ?warm, fun hcold => ?hot, fun hwarm => ?cools,
      fun hhot => ?coolsMore, fun hruns => ?toggles⟩,
    fun hw => ⟨?raises, fun hmod => ?first, s.clearRecord_first_modHeld, fun hmod => ?firstAndWorst, ?counts,
      fun hpfw => ?erases, fun hpfw => ?noErase, fun hop => ?otherOp⟩,
    fun hw => ⟨fun hchk hexists => ?arms, fun hchk => ?noArm⟩⟩
  case detected => rw [exec_faultReport, doFaultReport_detected hpow hdet]
  case corrected =>
    rw [exec_faultReport, doFaultReport_checker hpow _ hchk hinj, if_neg fun h => Nat.one_ne_zero h.2.2]
    rfl
  case transient =>
    rw [exec_faultReport, doFaultReport_checker hpow _ hchk hinj, if_neg fun h => Nat.one_ne_zero h.2.2]
    rfl
  case lasting =>
    rw [exec_faultReport, doFaultReport_checker hpow _ hchk hinj]
    have hloses : (src / 256 = 6 ∧ chk = 0 ∧ lastingClass src chk = 0) ↔ (src / 256 = 6 ∧ chk = 0) :=
      ⟨fun h => ⟨h.1, h.2.1⟩, fun h => ⟨h.1, h.2, lastingClass_capture h⟩⟩
    exact congrArg (fun t => Host.Outcome.next (State.collect t _)) (if_congr hloses rfl rfl)
  case aerCorrected =>
    rw [exec_faultReport, doFaultReport_aer hpow]
    rfl
  case aer =>
    rw [exec_faultReport, doFaultReport_aer hpow]
    rfl
  case round => rw [exec_faultRound, doFaultRound_due hpow hround hend]
  case watchdog => rw [exec_supWatchdogExpiry, doSupWatchdogExpiry_due hpow hwatch htime, blkFLT]
  case rail => rw [exec_railFault, doRailFault, State.whenOn_due hpow (by rw [hpfw]; rfl), blkFLT]
  case warm =>
    rw [exec_junctionTempCrossing, doJunctionTempCrossing_due hpow false true hcold]
    rfl
  case hot =>
    rw [exec_junctionTempCrossing, doJunctionTempCrossing_due hpow true true hcold]
    rfl
  case cools =>
    rw [exec_junctionTempCrossing, doJunctionTempCrossing_due hpow false false hwarm]
    rfl
  case coolsMore =>
    rw [exec_junctionTempCrossing, doJunctionTempCrossing_due hpow true false hhot]
    rfl
  case toggles => rw [exec_safelightToggle, doSafelightToggle, State.whenOn_due hpow hruns]
  case raises => rw [exec_raiseMod, doRaiseMod, State.hostWrite_writes hw, blkFLT]
  case first =>
    rw [exec_clrFirst, doClrFirst_writes hw, if_pos (s.clearRecord_first_modHeld.trans hmod)]
    rfl
  case firstAndWorst =>
    rw [exec_clrFirst, doClrFirst_writes hw,
      if_neg (Bool.eq_false_iff.1 (s.clearRecord_first_modHeld.trans hmod))]
    rfl
  case counts =>
    refine ⟨_, by rw [exec_clrCount, doClrCount_writes hw], fun c => ?_,
      (RegsOnly.refl _ s).forEach_clear _ _ fun c hc => List.mem_map_of_mem hc⟩
    rw [State.rd_forEach_clear, if_pos ⟨c, List.mem_range.2 c.isLt, rfl⟩]
    rfl
  case erases =>
    rw [exec_clrPgrave, doClrPgrave_writes hw, if_neg (Bool.eq_false_iff.1 hpfw)]
    rfl
  case noErase => rw [exec_clrPgrave, doClrPgrave_writes hw, if_pos hpfw]
  case otherOp => rw [exec_fltCmdInvalid, doFltCmdInvalid_noted hw hop]
  case arms => rw [exec_fltInjWrite, doFltInjWrite_takes hw hchk hexists]
  case noArm => rw [exec_fltInjWrite, doFltInjWrite_noted hw hchk]

end Sys2Proof.Machine
end

section
/-! SUPPORT. Starts (R507–R512), what begins them (R528, R529, R534), and the JTAG port (R539). -/

namespace Sys2Proof.Machine

open Sys2Proof

section arms
variable (s : State) (d : Fin 16)

theorem exec_powerOn (low : Bool) : exec (.powerOn low) s = .next (doPowerOn low s) := rfl

theorem exec_railsFall : exec .railsFall s = .next (doRailsFall s) := rfl

theorem exec_rstNAssert (ns : Nat) : exec (.rstNAssert ns) s = .next (doRstNAssert ns s) := rfl

theorem exec_rstNRelease : exec .rstNRelease s = .next (doRstNRelease s) := rfl

theorem exec_pfFunctionLevelReset : exec .pfFunctionLevelReset s = .next (doPfFunctionLevelReset s) := rfl

theorem exec_startStepDone (o : StartObs) : exec (.startStepDone o) s = .next (doStartStepDone o s) := rfl

theorem exec_startFail (train : Option (Fin 8 × Fin 8)) : exec (.startFail train) s = .next (doStartFail train s) := rfl

theorem exec_supReset : exec (.supReset d) s = .next (doSupReset d s) := rfl

theorem exec_retry : exec (.retry d) s = .next (doRetry d s) := rfl

end arms

/-! ### What begins a start (R485, R512, R528, R529, R534) -/

section resets
variable {s : State}

/-- VIN rises at a module without power: a cold start with cause 1. -/
theorem doPowerOn_off (low : Bool) (hoff : s.pwr.on = false) :
    doPowerOn low s = { s.coldKeep.wrN Reg.PWR_STAT (2 ^ 27 + 1) with pwr := { rstLow := low } } := by
  rw [doPowerOn, if_neg (Bool.eq_false_iff.1 hoff)]
  rfl

/-- While GRAVE is held or in Safe mode no reset acts. -/
theorem State.resetFor_barred (h : s.graveHeld = true ∨ s.safeMode = true) (cause : Nat) : s.resetFor cause = s := by
  rw [State.resetFor, if_pos (Bool.or_eq_true_iff.2 h)]

/-- A reset elsewhere, with no start in progress, begins a warm start. -/
theorem State.resetFor_warm (hgrave : s.graveHeld = false) (hsafe : s.safeMode = false) (hdone : s.pwr.starting = false)
    (cause : Nat) : s.resetFor cause = s.beginWarm cause := by
  simp only [State.resetFor, hgrave, hsafe, hdone, Bool.or_self, Bool.false_eq_true, if_false]

/-- RST_N low for less than 100 ns is ignored. -/
theorem doRstNAssert_short {ns : Nat} (hns : ns < 100) : doRstNAssert ns s = s :=
  State.whenOn_not (by rw [decide_eq_false (Nat.not_le.2 hns), Bool.false_and]) _

section powered
variable (hpow : s.pwr.on = true)
include hpow

/-- The fall of the rails takes the power away. -/
theorem doRailsFall_due (hpfw : s.pfw = true) :
    doRailsFall s = { s.norAbort.coldKeep with pwr := { on := false } } := by
  rw [doRailsFall, State.whenOn_due hpow hpfw]
  rfl

/-- RST_N low for 1 µs or longer resets and holds the start. -/
theorem doRstNAssert_long {ns : Nat} (hns : 1000 ≤ ns) (hhigh : s.pwr.rstLow = false) (hgrave : s.graveHeld = false)
    (hsafe : s.safeMode = false) : doRstNAssert ns s = (s.resetFor 2).holdReset := by
  have hlong : decide (100 ≤ ns) = true := decide_eq_true (by omega)
  have hsure : decide (ns < 1000) = false := decide_eq_false (by omega)
  rw [doRstNAssert, State.whenOn_due hpow (by rw [hlong, hhigh]; rfl)]
  simp only [hsure, hgrave, hsafe, Bool.false_eq_true, Bool.false_and, Bool.or_self, if_false]

/-- The release of RST_N lets the start go on, a warm one not before 10 µs. -/
theorem doRstNRelease_due (hlow : s.pwr.rstLow = true) :
    doRstNRelease s = { s with pwr := { s.pwr with
      rstLow := false,
      startAt := if bit (s.rd Reg.PWR_STAT) 26 then max s.mt (s.pwr.startAt + 40000) else s.mt } } := by
  rw [doRstNRelease, State.whenOn_due hpow hlow]

end powered
end resets

/-! ### The steps of a start (R374, R387–R389, R506–R511) -/

section steps
variable {s : State} (o : StartObs)

/-- A step of a start that runs and does not wait is due. -/
theorem State.stepDue (hruns : s.startRuns = true) (hwaits : s.startWaits = false) :
    (s.startRuns && !s.startWaits) = true := by
  rw [hruns, hwaits]
  rfl

section goes
variable (hpow : s.pwr.on = true) (hruns : s.startRuns = true) (hwaits : s.startWaits = false)
include hpow hruns hwaits

/-- Step 6 of a start that runs and does not wait is left by training or without. -/
theorem doStartStepDone_step6 (hstep : s.startStep = 6) : doStartStepDone o s = s.step6 o := by
  simp only [doStartStepDone, State.whenOn_due hpow (State.stepDue hruns hwaits), hstep]

theorem doStartStepDone_trains (hstep : s.startStep = 6) (htrains : s.trains = true) :
    doStartStepDone o s = s.trainNext o := by
  rw [doStartStepDone_step6 o hpow hruns hwaits hstep, State.step6, if_pos htrains]

end goes

/-- A start that waits under PFW_N stays where it is. -/
theorem doStartStepDone_waits (hwaits : s.startWaits = true) : doStartStepDone o s = s := by
  rw [doStartStepDone, State.whenOn_not]
  rw [hwaits, Bool.not_true, Bool.and_false]

/-- It is not late. -/
theorem doStartFail_waits (hwaits : s.startWaits = true) : doStartFail none s = s := by
  have hdue : (s.startRuns && s.startLate) = false := by
    rw [State.startLate, hwaits, Bool.not_true, Bool.false_and, Bool.and_false]
  simp only [doStartFail, State.whenOn_not hdue]

section training
variable {o}

/-- Without a new REQ, a training step that fails is retried once. -/
theorem State.trainNext_fails {c : Nat} (hreq : s.drc.newReq = none) (hbad : s.trainFaulty o = some c) :
    s.trainNext o =
      if s.drc.tries then (s.drawn.trainFails c s.trainStep).startFailed
      else { s.drawn with drc := { s.drc with tries := true } } := by
  simp only [State.trainNext, hreq, hbad]

/-- One that ends well goes on to the next, or ends the training. -/
theorem State.trainNext_passes (hreq : s.drc.newReq = none) (hgood : s.trainFaulty o = none) :
    let t := { s with drc := { s.drc with tries := false } }
    let t := if s.trainStep = 1 then t.trainFound o else t
    s.trainNext o = if 7 ≤ s.trainStep then (t.trainStored o).stepTo 7 else t.setTraining true (s.trainStep + 1) := by
  simp only [State.trainNext, hreq, hgood]

/-- A new REQ has training go back to step 3, once it has come so far. -/
theorem State.trainNext_request {req : Nat} (hreq : s.drc.newReq = some req) (hfar : 3 ≤ s.trainStep) :
    s.trainNext o = (s.trainReq req).setTraining true 3 := by
  simp only [State.trainNext, hreq, decide_eq_true hfar]

/-- Step 1 of training fails where the population is not supported. -/
theorem State.trainFaulty_step1 (hstep : s.trainStep = 1) :
    let g := min (gradeOf o) (s.drc.startReq.getD (gradeOf o))
    s.trainFaulty o = if popSupported o g then none else some ((popBad o g).headD (s.freeNow % 8)) := by
  rw [State.trainFaulty, if_neg (not_not_intro hstep)]

end training

/-- The training step in progress that fails for the second time fails the start. -/
theorem doStartFail_train {c k : Fin 8} (hpow : s.pwr.on = true) (hruns : s.startRuns = true)
    (htrains : s.trains = true) (hstep : s.trainStep = k) (htries : s.drc.tries = true) :
    doStartFail (some (c, k)) s = (s.trainFails c k).startFailed := by
  have hdue : (s.startRuns && s.trains && s.trainStep == k.val && s.drc.tries) = true := by
    rw [hruns, htrains, hstep, htries, beq_self_eq_true]
    rfl
  simp only [doStartFail, State.whenOn_due hpow hdue]

/-- The third cold start that fails ends in Safe mode. -/
theorem State.startFailed_third (hcold : bit (s.rd Reg.PWR_STAT) 26 = false)
    (hthird : 3 ≤ s.rdF Reg.PWR_BOOT 15 8 + 1) :
    s.startFailed = (s.wrF Reg.PWR_BOOT 15 8 (s.rdF Reg.PWR_BOOT 15 8 + 1)).enterSafe 1 := by
  rw [State.startFailed, if_neg (Bool.eq_false_iff.1 hcold), if_pos hthird]

end steps

/-! ### The JTAG port (R539) -/

section jtag

/-- EXTEST drives the lands with the boundary register's cells, where it drives them. -/
theorem State.boundaryDrive_eq_some (s : State) (l : List Bool) :
    s.boundaryDrive = some l ↔ s.jtag.ir = 3 ∧ s.jtag.lock = false ∧ s.pwr.rstLow = true ∧ l = s.jtag.cells := by
  simp only [State.boundaryDrive, Bool.not_eq_true', Option.ite_none_right_eq_some, Option.some.injEq,
    and_assoc, eq_comm (a := l)]

/-- A blown lock fuse leaves BYPASS and IDCODE alone. -/
theorem Jtag.select_locked {j : Jtag} (hlock : j.lock = true) {code : Nat} (hcode : 1 < code) : j.select code = 0 := by
  have hbar : ¬ (code = 1 ∨ (!j.lock ∧ (code = 2 ∨ code = 3))) := by
    rw [hlock]
    rintro (h | h)
    · omega
    · exact Bool.noConfusion h.1
  rw [Jtag.select, if_neg hbar]

/-- A whole one leaves every instruction. -/
theorem Jtag.select_unlocked {j : Jtag} (hlock : j.lock = false) {code : Nat} (hcode : code ≤ 3) :
    j.select code = code := by
  rw [Jtag.select, hlock]
  split
  · rfl
  · next hother =>
    have hnone : ¬ (code = 1 ∨ code = 2 ∨ code = 3) := fun h => hother (h.imp_right fun h => ⟨rfl, h⟩)
    omega

/-- An edge takes the controller to the state that follows. -/
theorem Jtag.edge_tap (j : Jtag) (tms tdi : Bool) (lands : List Bool) :
    (j.edge tms tdi lands).tap = j.tap.next tms := by
  rw [Jtag.edge]
  split <;> simp only [*]

/-- An edge into the reset state selects IDCODE. -/
theorem Jtag.edge_ir_of_reset {j : Jtag} {tms : Bool} (h : j.tap.next tms = .reset) (tdi : Bool) (lands : List Bool) :
    (j.edge tms tdi lands).ir = 1 := by
  rw [Jtag.edge, h]

/-- Five edges with TMS high reach the reset state from any other. -/
theorem Tap.next_five (t : Tap) : ((((t.next true).next true).next true).next true).next true = .reset := by
  cases t <;> rfl

end jtag

/-- Settles O17: each event is due where its clause's conditions hold, each step of a start is left as its number has
it, and the JTAG clauses are read off an edge. -/
theorem startCommandsComplete : Obligations.StartCommandsComplete := by
  intro s d ns low o
  refine ⟨fun hoff => ?powerOn, fun _ => rfl, fun hpow => ⟨fun hpfw => ?railsFall, fun hns => ?short,
      fun hns hhigh hgrave hsafe => ?long, State.resetFor_barred, State.resetFor_warm, fun hlow hcold => ?releaseCold,
      fun hlow hwarm => ?releaseWarm, ?functionReset, fun hruns hwaits => ?steps,
      fun hstep g hg => ⟨fun hpop => ?supported,
        fun c l hpop hbad => ?unsupported⟩, fun hwaits => ⟨?waits, ?waitsOn⟩, fun hruns hlate => ?late,
      fun c k hruns htrains hstep htries => ?trainFail, State.startFailed_third⟩, fun hw => ?supReset,
    fun hw => ⟨fun hsafe => ?retry, fun hsafe => ?noRetry⟩, s.boundaryDrive_eq_some,
    fun code => ⟨fun hlock hcode => Jtag.select_locked hlock hcode,
      fun hlock hcode => Jtag.select_unlocked hlock hcode, if_pos (.inl rfl)⟩, fun a b c e f => ?tckReset⟩
  case powerOn => rw [exec_powerOn, doPowerOn_off low hoff]
  case railsFall => rw [exec_railsFall, doRailsFall_due hpow hpfw]
  case short => rw [exec_rstNAssert, doRstNAssert_short hns]
  case long => rw [exec_rstNAssert, doRstNAssert_long hpow hns hhigh hgrave hsafe]
  case releaseCold => rw [exec_rstNRelease, doRstNRelease_due hpow hlow, if_neg (Bool.eq_false_iff.1 hcold)]
  case releaseWarm => rw [exec_rstNRelease, doRstNRelease_due hpow hlow, if_pos hwarm]
  case functionReset => rw [exec_pfFunctionLevelReset, doPfFunctionLevelReset, State.whenOn_due hpow rfl]
  case steps =>
    have hdue := State.stepDue hruns hwaits
    simp only [exec_startStepDone]
    refine ⟨fun hk => ?one, fun hk => ?two, fun hk hbad => ?noFirmware, fun t hk hgood => ?three, fun hk => ?four,
      fun hk hbad => ?noSet, fun t hk hgood => ?five, fun hk hidle hstays => ?kept, fun hk hidle hlost => ?trains,
      fun hk htrains hreq => ⟨fun c hbad htries => ?again, fun c hbad htries => ?failed, fun hgood h1 => ?found,
        fun hgood h1 h7 => ?next, fun hgood h7 => ?stored⟩, fun req hk htrains hreq hfar => ?request, fun hk => ?seven,
      fun hk => ?eight, fun hk => ?nine, fun hk => ?ten⟩
    case one | two | four | seven | eight | nine | ten =>
      simp only [doStartStepDone, State.whenOn_due hpow hdue, hk]
    case noFirmware => simp only [doStartStepDone, State.whenOn_due hpow hdue, hk, hbad]
    case three => simp only [doStartStepDone, State.whenOn_due hpow hdue, hk, hgood]
    case noSet => simp only [doStartStepDone, State.whenOn_due hpow hdue, hk, hbad]
    case five => simp only [doStartStepDone, State.whenOn_due hpow hdue, hk, hgood]
    case kept =>
      rw [doStartStepDone_step6 o hpow hruns hwaits hk, State.step6, if_neg (Bool.eq_false_iff.1 hidle), if_pos hstays]
    case trains =>
      rw [doStartStepDone_step6 o hpow hruns hwaits hk, State.step6, if_neg (Bool.eq_false_iff.1 hidle),
        if_neg (Bool.eq_false_iff.1 hlost)]
    case again =>
      rw [doStartStepDone_trains o hpow hruns hwaits hk htrains, State.trainNext_fails hreq hbad,
        if_neg (Bool.eq_false_iff.1 htries)]
    case failed =>
      rw [doStartStepDone_trains o hpow hruns hwaits hk htrains, State.trainNext_fails hreq hbad, if_pos htries]
    case found =>
      have h7 : ¬ 7 ≤ s.trainStep := by omega
      rw [doStartStepDone_trains o hpow hruns hwaits hk htrains, State.trainNext_passes hreq hgood, if_neg h7,
        if_pos h1, h1]
    case next =>
      rw [doStartStepDone_trains o hpow hruns hwaits hk htrains, State.trainNext_passes hreq hgood,
        if_neg (Nat.not_le.2 h7), if_neg (Ne.symm h1)]
    case stored =>
      have h1 : ¬ s.trainStep = 1 := by omega
      rw [doStartStepDone_trains o hpow hruns hwaits hk htrains, State.trainNext_passes hreq hgood, if_pos h7.ge,
        if_neg h1]
    case request =>
      rw [doStartStepDone_trains o hpow hruns hwaits hk htrains, State.trainNext_request hreq hfar]
  case supported =>
    rw [State.trainFaulty_step1 hstep, ← hg, if_pos hpop]
  case unsupported =>
    rw [State.trainFaulty_step1 hstep, ← hg, if_neg (Bool.eq_false_iff.1 hpop), hbad, List.headD_cons]
  case waits => rw [exec_startStepDone, doStartStepDone_waits o hwaits]
  case waitsOn => rw [exec_startFail, doStartFail_waits hwaits]
  case late => rw [exec_startFail, doStartFail, State.whenOn_due hpow (by rw [hruns, hlate]; rfl)]
  case trainFail => rw [exec_startFail, doStartFail_train hpow hruns htrains hstep htries]
  case supReset => rw [exec_supReset, doSupReset, State.hostWrite_writes hw]
  case retry => rw [exec_retry, doRetry, State.hostWrite_writes hw, if_pos hsafe]
  case noRetry => rw [exec_retry, doRetry, State.hostWrite_writes hw, if_neg (Bool.eq_false_iff.1 hsafe)]
  case tckReset =>
    refine ⟨?_, ?_, ?_⟩
    · simp only [State.tck, Jtag.edge_tap, Tap.next_five]
    · exact Jtag.edge_ir_of_reset (by simp only [State.tck, Jtag.edge_tap, Tap.next_five]) _ _
    · simp only [State.tck]

end Sys2Proof.Machine
end
